-- ==== Sys2Proof/Word.lean ====
section
/-! DEFINITION. The word types of the KH3 (02_encoding.md R19, 04_team_state.md R77, 09_cluster_generator.md R210). -/

namespace Sys2Proof

/-- One byte of memory or of a record. -/
abbrev Byte := BitVec 8

/-- A 32-bit word: a lane register, a window register word, FMTR, FFLAGS. -/
abbrev Word := BitVec 32

/-- A 64-bit word: an instruction word, a scalar register, an address or a coordinate. -/
abbrev DWord := BitVec 64

/-- A lane mask: bit l stands for lane l of a team of up to 1,024 lanes (R77). -/
abbrev Mask := BitVec 1024

/-- The five sticky flags, laid out as FFLAGS[4:0]: IV, DZ, OF, UF, NX (R71). -/
abbrev Flags5 := BitVec 5

end Sys2Proof
end

