-- ==== Sys2Proof/Machine/Bits.lean ====
section
/-! DEFINITION. Bit-field, sign-extension and byte-order helpers (00_scope.md R3, 02_encoding.md R44), and the
list helpers the whole model uses for its sparse tables. -/

namespace Sys2Proof.Machine

/-- Field x[lo+n-1 : lo] of a natural number. -/
def fieldN (x lo n : Nat) : Nat := (x >>> lo) % 2 ^ n

/-- Field of a 64-bit word. -/
def field64 (x : DWord) (lo n : Nat) : Nat := fieldN x.toNat lo n

/-- Field of a 32-bit word. -/
def field32 (x : Word) (lo n : Nat) : Nat := fieldN x.toNat lo n

/-- Bit `i` of a natural number. -/
def bitN (x i : Nat) : Bool := x.testBit i

/-- A Bool as a number. -/
def b2n (b : Bool) : Nat := if b then 1 else 0

/-- The value of the low `n` bits of `x` read in two's complement (SignExtend of R44). -/
def signed (x n : Nat) : Int :=
  let v := x % 2 ^ n
  if 2 * v < 2 ^ n then (v : Int) else (v : Int) - (2 ^ n : Nat)

/-- An integer reduced modulo 2^n. -/
def wrapN (x : Int) (n : Nat) : Nat := (x % ((2 ^ n : Nat) : Int)).toNat

/-- `x` put into field [lo+n-1 : lo] of `w`. -/
def putField (w lo n x : Nat) : Nat :=
  w - ((w >>> lo) % 2 ^ n) <<< lo + (x % 2 ^ n) <<< lo

/-- The bytes of a number, least significant first (R3). -/
def toBytes : Nat → Nat → List Byte
  | 0, _ => []
  | n + 1, x => BitVec.ofNat 8 x :: toBytes n (x / 256)

/-- The number held by bytes, least significant first (R3). -/
def ofBytes : List Byte → Nat
  | [] => 0
  | b :: bs => b.toNat + 256 * ofBytes bs

/-- Number of one bits below position `n`. -/
def popN : Nat → Nat → Nat
  | 0, _ => 0
  | n + 1, x => x % 2 + popN n (x / 2)

/-- Number of leading zeros of `x` read as `n` bits. -/
def clzN (n x : Nat) : Nat :=
  let v := x % 2 ^ n
  if v = 0 then n else n - 1 - Nat.log2 v

/-- The low `n` bits of `x` in reverse order. -/
def revN : Nat → Nat → Nat
  | 0, _ => 0
  | n + 1, x => (x % 2) * 2 ^ n + revN n (x / 2)

/-- The association-list lookup of the sparse tables. -/
def aget {α : Type} (d : α) : List (Nat × α) → Nat → α
  | [], _ => d
  | (k, v) :: t, i => if k = i then v else aget d t i

/-- The association-list lookup, with no default. -/
def aget? {α : Type} : List (Nat × α) → Nat → Option α
  | [], _ => none
  | (k, v) :: t, i => if k = i then some v else aget? t i

/-- Sets key `i` of a table kept sorted by key. -/
def aset {α : Type} : List (Nat × α) → Nat → α → List (Nat × α)
  | [], i, x => [(i, x)]
  | (k, v) :: t, i, x =>
    if i < k then (i, x) :: (k, v) :: t
    else if i = k then (i, x) :: t
    else (k, v) :: aset t i x

/-- Removes key `i` of a table. -/
def adel {α : Type} (l : List (Nat × α)) (i : Nat) : List (Nat × α) :=
  l.filter fun p => p.1 != i

/-- Sets key `i` of a sorted table whose unlisted keys read as `d`, which is then never listed. -/
def asetD {α : Type} [DecidableEq α] (d : α) (l : List (Nat × α)) (i : Nat) (x : α) : List (Nat × α) :=
  if x = d then adel l i else aset l i x

/-- The first `n` natural numbers, rising. -/
def upTo (n : Nat) : List Nat := List.range n

/-- The indices of the one bits of a mask below `n`, rising. -/
def maskLanes (m : Mask) (n : Nat) : List Nat := (upTo n).filter fun i => m.getLsbD i

/-- The mask whose one bits are the listed lanes. -/
def maskOf : List Nat → Mask
  | [] => 0
  | l :: t => (1#1024 <<< l) ||| maskOf t

/-- The mask with bits 0 to n−1 set. -/
def maskBelow (n : Nat) : Mask := BitVec.ofNat 1024 (2 ^ n - 1)

/-- Replaces element `i` of a list. -/
def lset {α : Type} (l : List α) (i : Nat) (x : α) : List α := l.set i x

/-- The least element of a non-empty list under a rank, the first on a tie.
(DEDUCED, log 50) -/
def leastBy {α : Type} (rank : α → Nat) : List α → Option α
  | [] => none
  | x :: t =>
    match leastBy rank t with
    | none => some x
    | some y => if rank x ≤ rank y then some x else some y

end Sys2Proof.Machine
end

