-- ==== Sys2Proof/Syntax.lean ====
section
/-! DEFINITION. The instructions and device steps of the KH3, one constructor per row of the opcode table: the field
records of the formats (02_encoding.md R28, R35), the names of units, and the trap causes (R45). -/

namespace Sys2Proof

/-- A lane word of format LR or LX (R28): every field but OPC. -/
structure LR where
  ms : BitVec 3
  ty : BitVec 5
  d : BitVec 8
  a : BitVec 8
  b : BitVec 8
  c : BitVec 8
  fn : BitVec 8
  ex : BitVec 8
deriving DecidableEq, Repr

/-- A lane word of format LI (R28). -/
structure LI where
  ms : BitVec 3
  ty : BitVec 5
  d : BitVec 8
  a : BitVec 8
  imm : BitVec 32
deriving DecidableEq, Repr

/-- A lane word of format LM (R28). -/
structure LM where
  ms : BitVec 3
  ty : BitVec 5
  d : BitVec 8
  a : BitVec 7
  w : BitVec 3
  ord : BitVec 2
  scope : BitVec 3
  disp : BitVec 25
deriving DecidableEq, Repr

/-- A generator word of format GR (R35). -/
structure GR where
  cnd : BitVec 4
  sz : BitVec 4
  d : BitVec 8
  a : BitVec 8
  b : BitVec 8
  fn : BitVec 8
  imm : BitVec 16
deriving DecidableEq, Repr

/-- A generator word of format GI (R35). -/
structure GI where
  cnd : BitVec 4
  sz : BitVec 4
  d : BitVec 8
  a : BitVec 8
  imm : BitVec 32
deriving DecidableEq, Repr

/-- A generator word of format GB (R35); `z` is the field that must be zero. -/
structure GB where
  cnd : BitVec 4
  z : BitVec 4
  a : BitVec 8
  b : BitVec 8
  off : BitVec 32
deriving DecidableEq, Repr

/-- A generator word of format GM (R35). -/
structure GM where
  scope : BitVec 3
  ord : BitVec 2
  sz : BitVec 3
  d : BitVec 8
  a : BitVec 8
  disp : BitVec 32
deriving DecidableEq, Repr

/-- A generator word of format GE (R35). -/
structure GE where
  nh : BitVec 4
  fl : BitVec 4
  sb : BitVec 8
  ch : BitVec 8
  len : BitVec 16
  id : BitVec 16
deriving DecidableEq, Repr

/-- The causes of TRAPCAUSE (R45). -/
inductive Cause where
  | illegalLaneOpc | illegalGenOpc | illegalType | reservedField | illegalConvergence | clauseFormat
  | holeRange | playbookId | channelInvalid | channelPerm | voteEmpty | maskStack
  | pageFault | protection | windowInvalid | misaligned | rangeConflict | gatherBound
  | tileHandle | tileStarved | tileStoreFull | descentNode | privWord
  | fpOverflow | huddleMismatch | scoreUnderflow | taskSetOverflow | specLimit | indexExhausted | coordRange
  | uncorrectableData | retryablePower | fabricUnreachable | poison
  | userTrap | genTrap | breakTrap | ctxSaveLost
deriving DecidableEq, Repr

/-- The 8-bit code of a cause (R45). -/
def Cause.code : Cause → Nat
  | .illegalLaneOpc => 0x01 | .illegalGenOpc => 0x02 | .illegalType => 0x03 | .reservedField => 0x04
  | .illegalConvergence => 0x05 | .clauseFormat => 0x06 | .holeRange => 0x07 | .playbookId => 0x08
  | .channelInvalid => 0x09 | .channelPerm => 0x0A | .voteEmpty => 0x0B | .maskStack => 0x0C
  | .pageFault => 0x10 | .protection => 0x11 | .windowInvalid => 0x12 | .misaligned => 0x13
  | .rangeConflict => 0x14 | .gatherBound => 0x15 | .tileHandle => 0x16 | .tileStarved => 0x17
  | .tileStoreFull => 0x18 | .descentNode => 0x19 | .privWord => 0x1A | .fpOverflow => 0x20
  | .huddleMismatch => 0x30 | .scoreUnderflow => 0x31 | .taskSetOverflow => 0x32 | .specLimit => 0x33
  | .indexExhausted => 0x34 | .coordRange => 0x35 | .uncorrectableData => 0x40 | .retryablePower => 0x41
  | .fabricUnreachable => 0x42 | .poison => 0x43 | .userTrap => 0x50 | .genTrap => 0x51 | .breakTrap => 0x52
  | .ctxSaveLost => 0x60

/-- A unit that issues words: team `t` or generator context `c` of the resident squad with key `q`. -/
inductive UnitRef where
  | team (q t : Nat)
  | ctx (q c : Nat)
deriving DecidableEq, Repr

/-- A message that reaches the package from outside: a host frame or a fabric message, as the chapters on the host
(22_package_power.md) and the fabric (25_fabric.md) give its fields. -/
structure HostFrame where
  conn : Nat
  seq : DWord
  owner : Nat
  addr : DWord
  len : Nat
  kind : Nat
  data : List Byte
deriving DecidableEq, Repr

/-- The instructions and device steps of the opcode table, one constructor per row: an instruction word carries the
fields of its format (R28, R35), a device step acts on what `State.operand` names. -/
inductive Instr where
  /-- LNOP, opcode 0x00 (R42). Lane no-operation: occupies an issue slot and a clause position, changes no state and marks no flag. -/
  | lnop (w : LR)
  /-- IADD, opcode 0x01 (R99). Per-lane integer add, wrapping or saturating under SAT. -/
  | iadd (w : LR)
  /-- ISUB, opcode 0x02 (R99). Per-lane integer subtract. -/
  | isub (w : LR)
  /-- IMUL, opcode 0x03 (R99). Per-lane integer multiply, low bits of the product. -/
  | imul (w : LR)
  /-- IMULHI, opcode 0x04 (R99). Per-lane high half of the exact double-width integer product. -/
  | imulhi (w : LR)
  /-- IMAD, opcode 0x05 (R99). Per-lane integer multiply-add a*b+c, computed exactly before wrap or clamp. -/
  | imad (w : LR)
  /-- IMADW, opcode 0x06 (R99). Per-lane widening 32-bit multiply-add into a 64-bit register pair. -/
  | imadw (w : LR)
  /-- IDIV, opcode 0x07 (R99). Long-latency per-lane integer quotient under the division rules of R62. -/
  | idiv (w : LR)
  /-- IREM, opcode 0x08 (R99). Long-latency per-lane integer remainder under the division rules of R62. -/
  | irem (w : LR)
  /-- IMIN, opcode 0x09 (R99). Per-lane integer minimum, compared by type. -/
  | imin (w : LR)
  /-- IMAX, opcode 0x0A (R99). Per-lane integer maximum, compared by type. -/
  | imax (w : LR)
  /-- IABS, opcode 0x0B (R99). Per-lane integer absolute value. -/
  | iabs (w : LR)
  /-- IADDS, opcode 0x0C (R99). Per-lane a + b*2^k, with the shift k taken from FN. -/
  | iadds (w : LR)
  /-- AND, opcode 0x0D (R99). Per-lane bitwise AND. -/
  | andv (w : LR)
  /-- OR, opcode 0x0E (R99). Per-lane bitwise OR. -/
  | orv (w : LR)
  /-- XOR, opcode 0x0F (R99). Per-lane bitwise XOR. -/
  | xorv (w : LR)
  /-- ANDN, opcode 0x10 (R99). Per-lane a AND NOT b. -/
  | andn (w : LR)
  /-- SHL, opcode 0x11 (R99). Per-lane left shift by b mod w. -/
  | shl (w : LR)
  /-- SHR, opcode 0x12 (R99). Per-lane logical right shift by b mod w. -/
  | shr (w : LR)
  /-- SAR, opcode 0x13 (R99). Per-lane arithmetic right shift by b mod w. -/
  | sar (w : LR)
  /-- ROT, opcode 0x14 (R99). Per-lane rotate left by b mod w. -/
  | rot (w : LR)
  /-- POPC, opcode 0x15 (R99). Per-lane population count. -/
  | popc (w : LR)
  /-- CLZ, opcode 0x16 (R99). Per-lane count of leading zeros. -/
  | clz (w : LR)
  /-- BREV, opcode 0x17 (R99). Per-lane bit reversal. -/
  | brev (w : LR)
  /-- BFX, opcode 0x18 (R101). Per-lane bit-field extract, with offset and length taken from b. -/
  | bfx (w : LR)
  /-- BFI, opcode 0x19 (R101). Per-lane bit-field insert of a into c. -/
  | bfi (w : LR)
  /-- MOV, opcode 0x1A (R99). Per-lane bit-for-bit move, with no NaN canonicalisation. -/
  | mov (w : LR)
  /-- SEL, opcode 0x1B (R99). Per-lane select of a or b by a mask register. -/
  | sel (w : LR)
  /-- ICMP, opcode 0x1C (R102). Per-lane integer compare written into a mask register. -/
  | icmp (w : LR)
  /-- LDI, opcode 0x20 (R103). Loads the 32-bit immediate, extended by type, into each lane. -/
  | ldi (w : LI)
  /-- IADDI, opcode 0x21 (R103). Per-lane add of the immediate. -/
  | iaddi (w : LI)
  /-- IMULI, opcode 0x22 (R103). Per-lane multiply by the immediate. -/
  | imuli (w : LI)
  /-- ANDI, opcode 0x23 (R103). Per-lane AND with the immediate. -/
  | andi (w : LI)
  /-- ORI, opcode 0x24 (R103). Per-lane OR with the immediate. -/
  | ori (w : LI)
  /-- XORI, opcode 0x25 (R103). Per-lane XOR with the immediate. -/
  | xori (w : LI)
  /-- SHIFTI, opcode 0x26 (R103). Per-lane shift or rotate by an immediate amount, the kind selected in IMM. -/
  | shifti (w : LI)
  /-- ICMPI, opcode 0x27 (R103). Per-lane integer compare with the immediate, written into a mask register. -/
  | icmpi (w : LI)
  /-- FADD, opcode 0x30 (R104). Per-lane float add, rounded once. -/
  | fadd (w : LR)
  /-- FSUB, opcode 0x31 (R104). Per-lane float subtract, rounded once. -/
  | fsub (w : LR)
  /-- FMUL, opcode 0x32 (R104). Per-lane float multiply, rounded once. -/
  | fmul (w : LR)
  /-- FFMA, opcode 0x33 (R104). Per-lane fused multiply-add with a single rounding. -/
  | ffma (w : LR)
  /-- FMIN, opcode 0x34 (R106). Per-lane minimumNumber. -/
  | fmin (w : LR)
  /-- FMAX, opcode 0x35 (R106). Per-lane maximumNumber. -/
  | fmax (w : LR)
  /-- FDIV, opcode 0x36 (R104). Long-latency per-lane correctly rounded division. -/
  | fdiv (w : LR)
  /-- FSQRT, opcode 0x37 (R104). Long-latency per-lane correctly rounded square root. -/
  | fsqrt (w : LR)
  /-- FRCP, opcode 0x38 (R107). Per-lane approximate reciprocal. -/
  | frcp (w : LR)
  /-- FRSQ, opcode 0x39 (R107). Per-lane approximate reciprocal square root. -/
  | frsq (w : LR)
  /-- FEXP2, opcode 0x3A (R107). Per-lane approximate 2^a. -/
  | fexp2 (w : LR)
  /-- FLOG2, opcode 0x3B (R107). Per-lane approximate log2 a. -/
  | flog2 (w : LR)
  /-- FTANH, opcode 0x3C (R107). Per-lane approximate tanh. -/
  | ftanh (w : LR)
  /-- FSIN, opcode 0x3D (R107). Per-lane approximate sine or cosine of pi*a. -/
  | fsin (w : LR)
  /-- FCMP, opcode 0x3E (R108). Per-lane float compare written into a mask register. -/
  | fcmp (w : LR)
  /-- FCLASS, opcode 0x3F (R109). Writes a one-hot class code of each lane's value. -/
  | fclass (w : LR)
  /-- FADDI, opcode 0x40 (R110). Per-lane add of an F32 immediate. -/
  | faddi (w : LI)
  /-- FMULI, opcode 0x41 (R110). Per-lane multiply by an F32 immediate. -/
  | fmuli (w : LI)
  /-- CVTF, opcode 0x44 (R111). Per-lane float-to-float conversion. -/
  | cvtf (w : LR)
  /-- CVTFI, opcode 0x45 (R111). Per-lane float-to-integer conversion. -/
  | cvtfi (w : LR)
  /-- CVTIF, opcode 0x46 (R111). Per-lane integer-to-float conversion. -/
  | cvtif (w : LR)
  /-- SCALEB, opcode 0x47 (R112). Per-lane a*2^b, rounded once. -/
  | scaleb (w : LR)
  /-- PACKMX, opcode 0x48 (R113). Packs each pass's 32 F32 lanes into one microscaled block. -/
  | packmx (w : LR)
  /-- UNPKMX, opcode 0x49 (R114). Decodes each lane's MX element and scale to F32. -/
  | unpkmx (w : LR)
  /-- PACKDS, opcode 0x4A (R113). Packs each pass's 32 F32 lanes into one DS8 block. -/
  | packds (w : LR)
  /-- UNPKDS, opcode 0x4B (R114). Decodes each lane's DS8 element and scale to F32. -/
  | unpkds (w : LR)
  /-- SHFL, opcode 0x50 (R116). Shuffle within a group by index, up, down or xor. -/
  | shfl (w : LR)
  /-- LROT, opcode 0x51 (R116). Rotates values across the lanes of a group. -/
  | lrot (w : LR)
  /-- LSCAN, opcode 0x52 (R118). Inclusive or exclusive scan within a group, in a fixed combining order. -/
  | lscan (w : LR)
  /-- LRED, opcode 0x53 (R118). Reduction within a group, in a fixed combining order. -/
  | lred (w : LR)
  /-- LBCAST, opcode 0x54 (R116). Broadcasts one lane's value to its group. -/
  | lbcast (w : LR)
  /-- COMPACT, opcode 0x55 (R117). Compacts the active lanes' values to the low lanes of each group. -/
  | compact (w : LR)
  /-- MLOG, opcode 0x58 (R119). Per-lane two-input mask logic from a 4-bit truth table. -/
  | mlog (w : LR)
  /-- MSET, opcode 0x59 (R119). Sets or clears a mask's bits for the active lanes. -/
  | mset (w : LR)
  /-- MENTER, opcode 0x5A (R120). Pushes (m0, FMTR) onto the mask stack and narrows m0. -/
  | menter (w : LR)
  /-- MFLIP, opcode 0x5B (R120). Switches m0 to the other branch and restores FMTR from the top of the mask stack. -/
  | mflip (w : LR)
  /-- MLEAVE, opcode 0x5C (R120). Pops the mask stack, restoring m0 and FMTR. -/
  | mleave (w : LR)
  /-- MFIRST, opcode 0x5D (R119). Marks the lowest selected lane of each group. -/
  | mfirst (w : LR)
  /-- MTOV, opcode 0x5E (R119). Copies mask bits or mask words into vector registers. -/
  | mtov (w : LR)
  /-- VTOM, opcode 0x5F (R119). Sets mask bits from whether vector values are nonzero. -/
  | vtom (w : LR)
  /-- VOTE, opcode 0x60 (R122). At retirement, pushes a team vote record into the owning context's vote path. -/
  | vote (w : LI)
  /-- SETFMT, opcode 0x61 (R124). Sets the team's FMTR. -/
  | setfmt (w : LI)
  /-- CLAIM, opcode 0x62 (R125). Requests more vector registers per lane, waiting for the grant. -/
  | claim (w : LI)
  /-- GIVE, opcode 0x63 (R125). Returns vector registers once every flag of the team is idle. -/
  | give (w : LI)
  /-- TRAP, opcode 0x64 (R126). Parks the team with USER_TRAP and forwards a system-call record to the host ring. -/
  | trapw (w : LI)
  /-- LBRK, opcode 0x65 (R127). Parks the team with BREAK. -/
  | lbrk (w : LI)
  /-- WSET, opcode 0x66 (R128). Loads a window register from a system-origin descriptor, or raises PRIV_WORD. -/
  | wset (w : LI)
  /-- LFENCE, opcode 0x67 (R129). Acquire, release or acq_rel fence of the team at a scope. -/
  | lfence (w : LM)
  /-- LDW, opcode 0x68 (R136). Window-relative per-lane load. -/
  | ldw (w : LM)
  /-- STW, opcode 0x69 (R136). Window-relative per-lane store. -/
  | stw (w : LM)
  /-- LDG, opcode 0x6A (R136). Raw-pointer per-lane load. -/
  | ldg (w : LM)
  /-- STG, opcode 0x6B (R136). Raw-pointer per-lane store. -/
  | stg (w : LM)
  /-- ATOM, opcode 0x6C (R139). Per-lane indivisible read-modify-write that returns the old value. -/
  | atom (w : LM)
  /-- ATOMN, opcode 0x6D (R139). Per-lane indivisible read-modify-write with no return. -/
  | atomn (w : LM)
  /-- CAS, opcode 0x6E (R141). Per-lane compare-and-swap. -/
  | cas (w : LM)
  /-- PREFW, opcode 0x6F (R143). Per-lane line prefetch into L1 and L2 or into L2 only. -/
  | prefw (w : LM)
  /-- LDT, opcode 0x70 (R153). Per-lane tile element load, performed only while the element's line is FULL. -/
  | ldt (w : LR)
  /-- STT, opcode 0x71 (R154). Per-lane tile element store, whatever the line state. -/
  | stt (w : LR)
  /-- TEMPTY, opcode 0x72 (R154). Sets the lanes' tile lines EMPTY. -/
  | tempty (w : LR)
  /-- TFULL, opcode 0x73 (R154). Sets the lanes' tile lines FULL, as a CLUSTER-scope release. -/
  | tfull (w : LR)
  /-- HARRIVE, opcode 0x74 (R158). Team arrives at a huddle and goes on at once. -/
  | harrive (w : LI)
  /-- HSYNC, opcode 0x75 (R158). Team arrives at a huddle and waits for the phase to complete. -/
  | hsync (w : LI)
  /-- HWAIT, opcode 0x76 (R158). Team waits for an untracked huddle phase completion. -/
  | hwait (w : LI)
  /-- HEXPECT, opcode 0x77 (R159). Adds a signed count to a huddle's owed-copy count. -/
  | hexpect (w : LI)
  /-- SPLD, opcode 0x78 (R355). Per-lane load from a coordinate region; an absent coordinate reads zero. -/
  | spld (w : LM)
  /-- SPST, opcode 0x79 (R355). Per-lane store into a coordinate region; storing zero deletes the coordinate. -/
  | spst (w : LM)
  /-- SPNEXT, opcode 0x7A (R357). Per-lane traversal step to the next present key of a region. -/
  | spnext (w : LM)
  /-- SPADD, opcode 0x7B (R355). Per-lane indivisible add into a coordinate region. -/
  | spadd (w : LM)
  /-- MMA, opcode 0x80 (R168). Matrix multiply of one row block and K slice, accumulated with a single rounding. -/
  | mma (w : LR)
  /-- MMAZ, opcode 0x81 (R168). Matrix multiply starting from a zero accumulator. -/
  | mmaz (w : LR)
  /-- HAD, opcode 0x82 (R183). Keyed Hadamard transform of a tile along rows or columns. -/
  | had (w : LR)
  /-- TCVT, opcode 0x83 (R184). Converts every element of one tile into another tile's type. -/
  | tcvt (w : LR)
  /-- TEPI, opcode 0x84 (R189). Fused epilogue from an accumulator into a tile. -/
  | tepi (w : LR)
  /-- TEPI_MEM, opcode 0x84 (R189). Fused epilogue from an accumulator into memory through a window. -/
  | tepiMem (w : LR)
  /-- TNEW, opcode 0x85 (R195). Allocates and initialises a tile handle at a level. -/
  | tnew (w : LR)
  /-- TFREE, opcode 0x86 (R196). Requests the freeing of a tile handle once earlier accesses are performed. -/
  | tfree (w : LR)
  /-- TZERO, opcode 0x87 (R197). Zeroes a tile, or sets its lines EMPTY and fresh. -/
  | tzero (w : LR)
  /-- TFROMV, opcode 0x88 (R187). Moves registers of each lane into a tile row segment. -/
  | tfromv (w : LR)
  /-- TTOV, opcode 0x89 (R187). Moves a tile row segment into each lane's registers. -/
  | ttov (w : LR)
  /-- TTRANS, opcode 0x8A (R185). Transposes a tile bit for bit. -/
  | ttrans (w : LR)
  /-- TRED, opcode 0x8B (R186). Reduces a tile along rows or columns. -/
  | tred (w : LR)
  /-- DESCEND, opcode 0x90 (R272). Per-lane descent of a tree to a leaf, recording the path and optionally a digest. -/
  | descend (w : LR)
  /-- DREGROUP, opcode 0x91 (R279). Team-wide stable sort of the lanes' rows by key. -/
  | dregroup (w : LR)
  /-- DTRACE, opcode 0x92 (R280). Copies the path bits and depth into registers. -/
  | dtrace (w : LR)
  /-- DGRAD, opcode 0x93 (R282). Indivisible gradient adds along each lane's heap path. -/
  | dgrad (w : LR)
  /-- DLEAF, opcode 0x94 (R281). Reads leaf values into registers, optionally adding. -/
  | dleaf (w : LR)
  /-- SADD, opcode 0xA0 (R215). Scalar add. -/
  | sadd (w : GR)
  /-- SSUB, opcode 0xA1 (R215). Scalar subtract. -/
  | ssub (w : GR)
  /-- SMUL, opcode 0xA2 (R215). Scalar multiply, low bits. -/
  | smul (w : GR)
  /-- SMULHI, opcode 0xA3 (R215). Scalar multiply, high bits. -/
  | smulhi (w : GR)
  /-- SDIV, opcode 0xA4 (R215). Long-latency scalar division. -/
  | sdiv (w : GR)
  /-- SREM, opcode 0xA5 (R215). Long-latency scalar remainder. -/
  | srem (w : GR)
  /-- SMIN, opcode 0xA6 (R215). Scalar minimum. -/
  | smin (w : GR)
  /-- SMAX, opcode 0xA7 (R215). Scalar maximum. -/
  | smax (w : GR)
  /-- SAND, opcode 0xA8 (R215). Scalar bitwise AND. -/
  | sand (w : GR)
  /-- SOR, opcode 0xA9 (R215). Scalar bitwise OR. -/
  | sor (w : GR)
  /-- SXOR, opcode 0xAA (R215). Scalar bitwise XOR. -/
  | sxor (w : GR)
  /-- SSHL, opcode 0xAB (R215). Scalar left shift. -/
  | sshl (w : GR)
  /-- SSHR, opcode 0xAC (R215). Scalar logical right shift. -/
  | sshr (w : GR)
  /-- SSAR, opcode 0xAD (R215). Scalar arithmetic right shift. -/
  | ssar (w : GR)
  /-- SPOPC, opcode 0xAE (R215). Scalar population count. -/
  | spopc (w : GR)
  /-- SCLZ, opcode 0xAF (R215). Scalar count of leading zeros. -/
  | sclz (w : GR)
  /-- SBFX, opcode 0xB0 (R215). Scalar bit-field extract. -/
  | sbfx (w : GR)
  /-- SBFI, opcode 0xB1 (R215). Scalar bit-field insert. -/
  | sbfi (w : GR)
  /-- SMOV, opcode 0xB2 (R215). Scalar move of a register or an immediate. -/
  | smov (w : GR)
  /-- SSEL, opcode 0xB3 (R215). Scalar select on a condition over CC. -/
  | ssel (w : GR)
  /-- SCMP, opcode 0xB4 (R215). Scalar integer or float compare that sets CC. -/
  | scmp (w : GR)
  /-- SLDI, opcode 0xB5 (R216). Loads a sign-extended 32-bit immediate into a scalar register. -/
  | sldi (w : GI)
  /-- SLDIH, opcode 0xB6 (R216). Loads the upper 32 bits of a scalar register. -/
  | sldih (w : GI)
  /-- SADDI, opcode 0xB7 (R216). Scalar add of an immediate. -/
  | saddi (w : GI)
  /-- SANDI, opcode 0xB8 (R216). Scalar AND with an immediate. -/
  | sandi (w : GI)
  /-- SSHLI, opcode 0xB9 (R216). Scalar left shift by an immediate. -/
  | sshli (w : GI)
  /-- SCMPI, opcode 0xBA (R216). Scalar compare with an immediate. -/
  | scmpi (w : GI)
  /-- SFADD, opcode 0xBC (R218). Scalar float add that sets CC. -/
  | sfadd (w : GR)
  /-- SFMUL, opcode 0xBD (R218). Scalar float multiply that sets CC. -/
  | sfmul (w : GR)
  /-- SFFMA, opcode 0xBE (R218). Scalar fused multiply-add into D. -/
  | sffma (w : GR)
  /-- SFCVT, opcode 0xBF (R218). Long-latency scalar conversion between floats and integers. -/
  | sfcvt (w : GR)
  /-- BR, opcode 0xC0 (R219). Conditional branch. -/
  | br (w : GB)
  /-- BRZ, opcode 0xC1 (R219). Branch on a scalar register being zero or nonzero. -/
  | brz (w : GB)
  /-- LOOP, opcode 0xC2 (R219). Decrements a counter and branches while it is nonzero. -/
  | loop (w : GB)
  /-- CALL, opcode 0xC3 (R219). Branch with link. -/
  | call (w : GB)
  /-- RET, opcode 0xC4 (R219). Returns through a link register. -/
  | ret (w : GR)
  /-- JMPR, opcode 0xC5 (R219). Jumps to a register address. -/
  | jmpr (w : GR)
  /-- EXIT, opcode 0xC6 (R221). Ends the generator context. -/
  | exitw (w : GR)
  /-- YIELD, opcode 0xC7 (R220). Passes the context's issue turn and continues at the label. -/
  | yield (w : GB)
  /-- YIELD_TAG, opcode 0xC7 (R220). Continues at the label once the tagged copy has completed. -/
  | yieldTag (w : GB)
  /-- EMIT, opcode 0xC8 (R228). Binds holes and queues an inline lane block as one stretch on a channel. -/
  | emit (w : GE)
  /-- REC, opcode 0xC9 (R228). Emits a block and records it in the Playbook under an id. -/
  | recw (w : GE)
  /-- REPLAY, opcode 0xCA (R231). Queues iterations of a recorded block with hole strides. -/
  | replay (w : GE)
  /-- PBDROP, opcode 0xCB (R232). Removes a Playbook id from the directory. -/
  | pbdrop (w : GR)
  /-- VREAD, opcode 0xCC (R238). Pops the readable head of the vote queue, waiting while a vote is outstanding. -/
  | vread (w : GR)
  /-- VPEEK, opcode 0xCD (R238). Reads the vote queue head without waiting or removing it. -/
  | vpeek (w : GR)
  /-- SDRAIN, opcode 0xCE (R235). Waits until the stretches on a channel are delivered and retired. -/
  | sdrain (w : GR)
  /-- TRANS, opcode 0xCF (R234). Translates a base address and queues a window-loading stretch. -/
  | trans (w : GR)
  /-- SLD, opcode 0xD0 (R222). Scalar load. -/
  | sld (w : GM)
  /-- SST, opcode 0xD1 (R222). Scalar store. -/
  | sst (w : GM)
  /-- SATOM, opcode 0xD2 (R223). Scalar atomic read-modify-write. -/
  | satom (w : GM)
  /-- SCAS, opcode 0xD3 (R223). Scalar compare-and-swap. -/
  | scas (w : GM)
  /-- SFENCE, opcode 0xD4 (R222). Scalar fence that orders the context's accesses. -/
  | sfence (w : GM)
  /-- MWAIT, opcode 0xD5 (R224). Waits until a memory value differs from a register. -/
  | mwait (w : GM)
  /-- SPREF, opcode 0xD6 (R222). Scalar line prefetch. -/
  | spref (w : GM)
  /-- COPY, opcode 0xD8 (R240). Issues one slice of a tagged tensor copy, registering its range locks. -/
  | copy (w : GR)
  /-- COPYWAIT, opcode 0xD9 (R254). Waits for a tagged copy to leave states 1-3 and writes its status. -/
  | copywait (w : GR)
  /-- COPYQ, opcode 0xDA (R254). Writes a copy's status without waiting. -/
  | copyq (w : GR)
  /-- COPYQ_RESUME, opcode 0xDA (R254). Resumes a FAILED copy and writes its status. -/
  | copyqResume (w : GR)
  /-- COPYCAN, opcode 0xDB (R255). Cancels a tagged copy. -/
  | copycan (w : GR)
  /-- GWIN, opcode 0xDC (R324). Binds a gather entry and queues a GATHER window stretch. -/
  | gwin (w : GR)
  /-- GUNWIN, opcode 0xDD (R324). Unbinds a gather entry and bumps its generation. -/
  | gunwin (w : GR)
  /-- GHARRIVE, opcode 0xE0 (R265). Context arrives at a huddle. -/
  | gharrive (w : GR)
  /-- GHSYNC, opcode 0xE1 (R265). Context arrives at a huddle and waits for the phase. -/
  | ghsync (w : GR)
  /-- CHSEND, opcode 0xE2 (R262). Pushes a message into a mailbox, waiting while it is full. -/
  | chsend (w : GR)
  /-- CHRECV, opcode 0xE3 (R262). Pops a mailbox message, waiting or non-blocking. -/
  | chrecv (w : GR)
  /-- CHSET, opcode 0xE4 (R261). Privileged write of a channel table entry of a task. -/
  | chset (w : GR)
  /-- TSPAWN, opcode 0xE8 (R363). Reads, checks and admits a task record. -/
  | tspawn (w : GR)
  /-- TRETIRE, opcode 0xE9 (R370). Retires the task's own scoreboard position. -/
  | tretire (w : GR)
  /-- TRETIRE_AT, opcode 0xE9 (R370). Retires a named scoreboard position. -/
  | tretireAt (w : GR)
  /-- TSCORE, opcode 0xEA (R369). Binds and configures a tile scoreboard. -/
  | tscore (w : GR)
  /-- TSCORE_FREE, opcode 0xEA (R369). Unbinds a tile scoreboard. -/
  | tscoreFree (w : GR)
  /-- TWAIT, opcode 0xEB (R368). Collects a named task of the task set, waiting or non-blocking. -/
  | twait (w : GR)
  /-- TWAIT_ANY, opcode 0xEB (R368). Collects the oldest retired task of the set. -/
  | twaitAny (w : GR)
  /-- SPECQ, opcode 0xEC (R393). Reads SPECSTATE without waiting. -/
  | specq (w : GR)
  /-- SPECHOLD, opcode 0xED (R393). Waits until the task is no longer speculative. -/
  | spechold (w : GR)
  /-- SPNEW, opcode 0xEE (R349). Creates a coordinate region, optionally binding a window. -/
  | spnew (w : GR)
  /-- SPNEW_ATTACH, opcode 0xEE (R350). Attaches a live region by its value and binds a window. -/
  | spnewAttach (w : GR)
  /-- SPFREE, opcode 0xEF (R352). Frees a coordinate region once its accepted words are performed. -/
  | spfree (w : GR)
  /-- SPFREE_STAT, opcode 0xEF (R352). Writes a region's entry and node counts. -/
  | spfreeStat (w : GR)
  /-- SEAL, opcode 0xF0 (R425). Seals a range, pinning its frames and starting its hash. -/
  | seal (w : GR)
  /-- SEAL_FREE, opcode 0xF0 (R426). Frees a seal entry once audited descents that started before it complete. -/
  | sealFree (w : GR)
  /-- SEAL_Q, opcode 0xF0 (R426). Queries a seal entry and writes its hash when HASHED. -/
  | sealQ (w : GR)
  /-- DIGEST, opcode 0xF1 (R428). Flushes a team's valid path digests into the owner's log. -/
  | digest (w : GR)
  /-- DTSET, opcode 0xF2 (R266). Checks a tree descriptor, writes a slot and queues a TREE window stretch. -/
  | dtset (w : GR)
  /-- GTRAP, opcode 0xF4 (R288). Raises GEN_TRAP on the context. -/
  | gtrap (w : GR)
  /-- SREAD, opcode 0xF5 (R225). Reads a special register. -/
  | sread (w : GR)
  /-- SWRITE, opcode 0xF6 (R225). Writes a special register. -/
  | swrite (w : GR)
  /-- ERET, opcode 0xF7 (R289). Returns from a trap handler to the return point or the faulting word. -/
  | eret (w : GR)
  /-- ERET_SKIP, opcode 0xF7 (R289). Returns from a generator-word trap past the faulting word. -/
  | eretSkip (w : GR)
  /-- ERET_TARGET, opcode 0xF7 (R289). Returns from the handler to a register address. -/
  | eretTarget (w : GR)
  /-- CTXSAVE_REC, opcode 0xF8 (R293). Writes a team's parking record to memory. -/
  | ctxsaveRec (w : GR)
  /-- CTXLOAD_REC, opcode 0xF9 (R293). ANDs a mask into a parked team's unfinished-lane mask. -/
  | ctxloadRec (w : GR)
  /-- CTXSAVE_SQUAD, opcode 0xF8 (R294). Privileged save of a named squad's state. -/
  | ctxsaveSquad (w : GR)
  /-- CTXLOAD_SQUAD, opcode 0xF9 (R294). Privileged restore of a squad's state after an integrity check. -/
  | ctxloadSquad (w : GR)
  /-- TMASK, opcode 0xFA (R289). Sets or clears the context's trap mask. -/
  | tmask (w : GR)
  /-- UMPREL, opcode 0xFB (R422). Closes a violation record and releases the master with its access suppressed. -/
  | umprel (w : GR)
  /-- UMPREL_KILL, opcode 0xFB (R422). Closes the master's violation records and kills its task. -/
  | umprelKill (w : GR)
  /-- GNOP, opcode 0xFC (R43). Generator no-operation. -/
  | gnop (w : GR)
  /-- TRESUME, opcode 0xFD (R291). Restarts a parked owned team, with or without skip. -/
  | tresume (w : GR)
  /-- CLAUSE_HEADER_DECODE, a device step (R21). A team or context decodes a clause header and checks its fields. -/
  | clauseHeaderDecode
  /-- STRETCH_DELIVER, a device step (R227). The emission sequencer starts a stretch once every destination buffer has room, and delivers it. -/
  | stretchDeliver
  /-- REPLAY_ITERATION, a device step (R231). The sequencer delivers one replay iteration with its hole values. -/
  | replayIteration
  /-- PLAYBOOK_FILL, a device step (R233). A recording that is not on chip is fetched for a waiting replay. -/
  | playbookFill
  /-- FLAG_IDLE, a device step (R24). A long-latency word completes and its completion flag becomes idle. -/
  | flagIdle
  /-- LINE_WAIT_RESUME, a device step (R153). A lane waiting on an EMPTY tile line is performed once the line becomes FULL. -/
  | lineWaitResume
  /-- TILE_STARVED_TIMEOUT, a device step (R94). A word that has waited 2^24 cycles on EMPTY lines parks its team with TILE_STARVED. -/
  | tileStarvedTimeout
  /-- HUDDLE_WAIT_END, a device step (R158). A team or context waiting on a huddle continues after the phase completes. -/
  | huddleWaitEnd
  /-- MATRIX_UNIT_START, a device step (R162). A matrix word waiting for the busy unit starts once the unit is free. -/
  | matrixUnitStart
  /-- CLAIM_GRANT, a device step (R198). The lane core grants a pending claim, in issue order, once its granules are free. -/
  | claimGrant
  /-- GIVE_RETURN, a device step (R125). A GIVE returns granules once the team's flags are idle, and pending claims are reconsidered. -/
  | giveReturn
  /-- TFREE_EFFECT, a device step (R196). A TFREE takes effect once earlier accesses to the tile have been performed. -/
  | tfreeEffect
  /-- TEAM_EVICT, a device step (R205). A team is partially evicted and its state saved. -/
  | teamEvict
  /-- TEAM_RETURN, a device step (R206). An evicted team returns to its lane core once granules and a place are free. -/
  | teamReturn
  /-- TEAM_END, a device step (R221). A team whose owner has exited ends once its buffer is empty and its flags are idle. -/
  | teamEnd
  /-- SQUAD_EXIT, a device step (R221). A squad exits when every context has exited and every team has ended. -/
  | squadExit
  /-- VOTE_READABLE, a device step (R237). A vote record becomes readable within its latency bounds. -/
  | voteReadable
  /-- TRAP_ENTRY, a device step (R284). A context takes its oldest pending trap at an instruction boundary and enters at TRAPVEC. -/
  | trapEntry
  /-- CONTEXT_WAIT_RESUME, a device step (R213). A context waiting in a generator word continues once its condition clears. -/
  | contextWaitResume
  /-- MWAIT_REREAD, a device step (R224). After a write to the watched line, MWAIT reads again and completes when the value differs. -/
  | mwaitReread
  /-- PREEMPT_CONTEXT, a device step (R295). The distributor pre-empts a context at a stretch boundary and saves its state. -/
  | preemptContext
  /-- PREEMPT_DEFER_TIMEOUT, a device step (R297). After 65,536 cycles of deferral the context is saved with TMASK still set. -/
  | preemptDeferTimeout
  /-- CONTEXT_RESTORE, a device step (R296). A pre-empted context is restored on its cluster and its abandoned waits execute again. -/
  | contextRestore
  /-- COPY_START, a device step (R250). The engine starts a queued copy, which becomes RUNNING. -/
  | copyStart
  /-- COPY_LINE_WRITE, a device step (R253). The copy engine writes a destination line, setting tile lines FULL as they finish. -/
  | copyLineWrite
  /-- COPY_COMPLETE, a device step (R253). A copy completes, releasing its locks and decreasing OWED of its huddle. -/
  | copyComplete
  /-- L1_FILL, a device step (R257). A fill arrives for an L1 miss entry and serves every joined read. -/
  | l1Fill
  /-- FAULT_RECORD, a device step (R318). A page fault writes a record into the fault ring once a slot is free and pushes its index. -/
  | faultRecord
  /-- FDONE_WRITE, a device step (R319). A handler completes a fault record, resuming the source or turning the fault into PROTECTION. -/
  | fdoneWrite
  /-- FIRST_TOUCH_SERVICE, a device step (R320). The first-touch unit installs a Bullpen frame for an anonymous page and resumes the waiting accesses. -/
  | firstTouchService
  /-- BULLPEN_REFILL, a device step (R322). The first-touch unit pops frames from an owner's frame list when fewer than 32 remain. -/
  | bullpenRefill
  /-- SHOOTDOWN_START, a device step (R316). A write to SHOOTLEN starts a shootdown of an owner's range. -/
  | shootdownStart
  /-- SHOOTDOWN_COMPLETE, a device step (R316). A shootdown completes once TLB entries and windows are invalid and their accesses performed. -/
  | shootdownComplete
  /-- MAILBOX_CREATE, a device step (R263). MBCMD command 1 makes a free mailbox live with key MBKEY. -/
  | mailboxCreate
  /-- MAILBOX_DESTROY, a device step (R263). MBCMD command 2 frees a mailbox and discards its messages. -/
  | mailboxDestroy
  /-- CONFIG_REG_WRITE, a device step (R317). A write to a configuration register that has no behaviour of its own. -/
  | configRegWrite
  /-- PATROL_SCRUB, a device step (R328). The patrol scrubber corrects latent errors and marks uncorrectable lines poisoned. -/
  | patrolScrub
  /-- TASK_READY, a device step (R372). A task's dependences retire and it enters the Lineup at its priority. -/
  | taskReady
  /-- LINEUP_RISE, a device step (R372). A waiting task rises one level after each 2 ms. -/
  | lineupRise
  /-- TASK_PLACE, a device step (R374). The distributor places the head task's instances on fitting clusters. -/
  | taskPlace
  /-- QUANTUM_EXPIRY, a device step (R375). A squad's quantum expires, making it pre-emptable for an equal-level head. -/
  | quantumExpiry
  /-- EXCL_LOAD, a device step (R376). A cluster is drained and its squads saved, and the EXCL instance is loaded. -/
  | exclLoad
  /-- TASK_RETIRE, a device step (R367). A task retires when its instances have exited and its copies completed, and its retirement is reported. -/
  | taskRetire
  /-- VERSION_FOLD, a device step (R366). A renamed version is folded into home memory once its conditions hold. -/
  | versionFold
  /-- SPEC_READY, a device step (R383). A SPEC task becomes speculatively ready and its predicted version is materialised. -/
  | specReady
  /-- SPEC_VALIDATE, a device step (R387). After the producer retires, the prediction is compared element by element. -/
  | specValidate
  /-- SPEC_COMMIT, a device step (R389). A validated task commits, drains its buffered writes and releases held traps. -/
  | specCommit
  /-- HOST_READ, a device step (R404). An Eceth read request is translated, performed and answered. -/
  | hostRead
  /-- HOST_WRITE, a device step (R404). An Eceth write request is translated, performed and answered. -/
  | hostWrite
  /-- LAUNCH_FRAME, a device step (R364). A launch frame is checked and admitted into its die, or refused. -/
  | launchFrame
  /-- HOST_ACK, a device step (R403). The host acknowledges a device-to-host message. -/
  | hostAck
  /-- MESSAGE_RESEND, a device step (R403). The device resends an unacknowledged message with the same SEQ. -/
  | messageResend
  /-- MANAGEMENT_MESSAGE, a device step (R402). A management message: SPDM, ring designation, owner binding or health. -/
  | managementMessage
  /-- SPDM_GET_MEASUREMENTS, a device step (R429). Reports signed SHA-384 measurements of firmware and hashed seals. -/
  | spdmGetMeasurements
  /-- OWNER_CREATE, a device step (R418). The dispatch core creates an owner with a fresh key, roots and log. -/
  | ownerCreate
  /-- OWNER_RETIRE, a device step (R418). The dispatch core retires an owner, freeing its tasks, regions, seals and slot. -/
  | ownerRetire
  /-- LOG_CONSUME_ADVANCE, a device step (R427). The host advances the digest log consume index. -/
  | logConsumeAdvance
  /-- POWER_ON, a device step (R417). Power-on bring-up: firmware verification, training, capability list and Eceth. -/
  | powerOn
  /-- HOST_RESET, a device step (R417). A host-requested reset kills every task and repeats bring-up. -/
  | hostReset
  /-- FLIT_CRC_RETRY, a device step (R400). A link flit that fails its CRC is resent. -/
  | flitCrcRetry
  /-- LINK_FAILURE, a device step (R400). A link that cannot deliver a flit for 1 ms puts the package into the fatal state. -/
  | linkFailure
  /-- OP_ENTRY_WRITE, a device step (R406). The dispatch core writes an operating-point entry; out-of-range codes leave it unchanged. -/
  | opEntryWrite
  /-- OPOINT_RECOMPUTE, a device step (R408). The firmware recomputes a squad's required point and the cluster's point. -/
  | opointRecompute
  /-- GOVERNOR_INTERVAL, a device step (R410). Each 1 ms the governor lowers or restores the operand ration and the point cap. -/
  | governorInterval
  /-- ENERGY_UPDATE, a device step (R411). ENERGY advances at each 1 ms boundary of the package timer. -/
  | energyUpdate
  /-- SENSOR_SAMPLE, a device step (R412). A sensor reading is judged, failed sensors are marked, and thermal limits are applied. -/
  | sensorSample
  /-- CLAMP_LIFT, a device step (R412). A thermal clamp lifts after 10 ms at 5 degrees C below its limit. -/
  | clampLift
  /-- UNDERVOLT_STEP, a device step (R413). Each 10 ms a cluster lowers or raises its voltage by 5 mV by its error count. -/
  | undervoltStep
  /-- POWER_EVENT, a device step (R414). An uncorrectable error while undervolted restores the voltage and gives RETRYABLE_POWER to resident tasks. -/
  | powerEvent
  /-- UNDERVOLT_LOCKOUT_END, a device step (R414). The 1 s undervolting lockout of a cluster ends. -/
  | undervoltLockoutEnd
  /-- VIOLATION_RECORD, a device step (R421). The Umpire writes a violation record once its ring has room and notifies the dispatch core. -/
  | violationRecord
  /-- SEAL_HASH_DONE, a device step (R425). The hash engine finishes a sealed range and sets the entry HASHED. -/
  | sealHashDone
  /-- FIRMWARE_UPDATE, a device step (R430). A live update of the scheduler firmware runs through quiesce, check and handover. -/
  | firmwareUpdate
  /-- FIRMWARE_HEARTBEAT, a device step (R430). The new image's first heartbeat ends probation with it ACTIVE. -/
  | firmwareHeartbeat
  /-- PROBATION_TIMEOUT, a device step (R430). With no heartbeat within 50 ms the old image becomes ACTIVE again. -/
  | probationTimeout
  /-- REMOTE_REQUEST, a device step (R437). A remote request from the fabric is performed at its target package. -/
  | remoteRequest
  /-- REMOTE_RESPONSE, a device step (R437). The response to a remote access arrives and completes the lane's access. -/
  | remoteResponse
  /-- REMOTE_TIMEOUT, a device step (R442). A remote access with no response after 1 ms raises FABRIC_UNREACHABLE. -/
  | remoteTimeout
  /-- SHOOTDOWN_NOTICE, a device step (R436). A target's shootdown notice invalidates matching REMOTE windows on a package. -/
  | shootdownNotice
  /-- ILLEGAL_LANE_OPC, a device step (R40). A lane core decodes a reserved lane opcode, a generator opcode or 0xFF and traps the team precisely at that word. -/
  | illegalLaneOpc
  /-- ILLEGAL_GEN_OPC, a device step (R40). A generator context fetches a lane opcode, a reserved generator opcode or 0xFF outside an emission block and traps at that word. -/
  | illegalGenOpc
deriving DecidableEq, Repr

end Sys2Proof
end

