-- ==== Sys2Proof/Machine/Encoding.lean ====
section
/-! DEFINITION. The checks a decoder makes on a word, in the order of R41: reserved and register fields (R30 to R33, R35,
R97, R98), then types (R34, R36, R80, R96). The claimed register count, FMTR, the group width and the lane count enter as an
environment, absent for the static well-formedness of an instruction. -/

namespace Sys2Proof.Machine

/-- What a lane core knows of the team when it decodes (R32, R80): claimed registers, FMTR, group width, lanes. Without it
(`dyn` false) only the static checks are made. -/
structure CkEnv where
  dyn : Bool := false
  n : Nat := 128
  fm : Word := 0
  g : Nat := 64
  l : Nat := 1024
deriving DecidableEq, Repr

/-- How an instruction uses an 8-bit register field (R30 to R32, R97). `ty` widths follow the word's type: a pair for a
64-bit type. -/
inductive FUse where
  | zero              -- unused
  | src | src1 | src2 -- a source operand: by the type, 32 bits, a pair; special operands allowed
  | dst | dst1 | dst2 -- a destination register or a register named directly: by the type, 32 bits, a pair
  | span (k : Nat)    -- k consecutive registers
  | mdst | msrc       -- a mask register m1–m7, m0–m7
  | raw               -- eight bits taken as they are
deriving DecidableEq, Repr

/-- The registers from `v` on, `k` of them, lie below the claimed count (R32). -/
def regSpanOk (e : CkEnv) (v k : Nat) : Bool := decide (v ≤ 0x7F) && decide (v + k ≤ e.n)

/-- A field value that its use allows. -/
def FUse.ok (e : CkEnv) (u : FUse) (wide : Bool) (v : Nat) : Bool :=
  let one := regSpanOk e v 1
  let pair := decide (v % 2 = 0) && regSpanOk e v 2
  let special := decide (0x80 ≤ v) && decide (v ≤ 0x86)
  match u with
  | .zero => v == 0
  | .src => special || (if wide then pair else one)
  | .src1 => special || one
  | .src2 => special || pair
  | .dst => if wide then pair else one
  | .dst1 => one
  | .dst2 => pair
  | .span k => regSpanOk e v k
  | .mdst => decide (1 ≤ v) && decide (v ≤ 7)
  | .msrc => decide (v ≤ 7)
  | .raw => true

/-- The types an instruction accepts: none (TY must be zero), or a list of codes, with TY 0x1F allowed or not and a list for TYB
(`[0]` where the entry requires TYB to be zero, as R96 does, and `anyTyb` where it has no operand of type TYB and requires nothing). -/
structure TyUse where
  codes : List Nat := []
  none : Bool := false
  fmtr : Bool := true
  tyb : List Nat := [0]
deriving DecidableEq, Repr

/-- The TYB of a word whose entry says nothing of it: any code but 0x0B and 0x15 to 0x1F, which no word allows (R80).
(DEDUCED, log 18) -/
def anyTyb : List Nat := [0, 1, 2, 3, 4, 5, 6, 7, 8, 9, 10, 12, 13, 14, 15, 16, 17, 18, 19, 20]

/-- TY unused. -/
def tyNone : TyUse := { none := true }
/-- Int of R96. -/
def tyInt : TyUse := { codes := [4, 5, 6, 7] }
/-- Flt of R96. -/
def tyFlt : TyUse := { codes := [8, 9, 10] }
/-- Bits32/64 of R96. -/
def tyBits : TyUse := { codes := [4, 5, 6, 7, 10] }
/-- I32 and N32. -/
def ty32 : TyUse := { codes := [4, 5] }
/-- The types of R136. -/
def tyMem : TyUse := { codes := [0, 1, 2, 3, 4, 5, 6, 7, 8, 9, 10, 12, 13], tyb := anyTyb }
/-- The types of a TS or L2P tile (R191). -/
def tyTile : TyUse := { codes := [0, 1, 2, 3, 4, 5, 6, 7, 8, 9, 10, 12, 13, 14, 15, 16, 17, 18, 19, 20], tyb := anyTyb }

/-- The types of a region (R350). -/
def tyRegion : TyUse := { codes := [4, 6, 8, 9, 10], tyb := anyTyb }

/-- The type code in force: TY, or TYA under 0x1F (R80). -/
def effTy (e : CkEnv) (ty : BitVec 5) : Nat := if ty.toNat = 0x1F then field32 e.fm 0 5 else ty.toNat

/-- A 64-bit type is in force. -/
def wideTy (e : CkEnv) (ty : BitVec 5) : Bool :=
  if ty.toNat = 0x1F ∧ ¬ e.dyn then false else effTy e ty == 6 || effTy e ty == 7

/-- The type check of R34 and R80. -/
def TyUse.ok (e : CkEnv) (u : TyUse) (ty : BitVec 5) : Bool :=
  if u.none then true
  else if ty.toNat = 0x1F then
    u.fmtr && (!e.dyn || (u.codes.contains (field32 e.fm 0 5) && u.tyb.contains (field32 e.fm 5 5)))
  else u.codes.contains ty.toNat

/-- A field has no bit outside a mask. -/
def within (v mask : Nat) : Bool := v &&& mask == v

/-- How an LR or LX word uses its fields; what is not named must be zero (R30). `bad` is the entry's own reserved-field
condition and `badType` its own type condition. -/
structure LRUse where
  d : FUse := .zero
  a : FUse := .zero
  b : FUse := .zero
  c : FUse := .zero
  fn : Nat := 0
  ex : Nat := 0
  ty : TyUse := tyNone
  ms0 : Bool := false
  bad : Bool := false
  badType : Bool := false
  lateBad : Bool := false
deriving Repr

/-- The decode checks of an LR or LX word (R41). `lateBad` is a RESERVED_FIELD that an entry makes among the type checks
(R80, R172).
(DEDUCED, log 18) -/
def ckLR (e : CkEnv) (w : LR) (u : LRUse) : Option Cause :=
  let wide := wideTy e w.ty
  if (u.ms0 && w.ms != 0) || (u.ty.none && w.ty != 0) || !u.d.ok e wide w.d.toNat || !u.a.ok e wide w.a.toNat
    || !u.b.ok e wide w.b.toNat || !u.c.ok e wide w.c.toNat || !within w.fn.toNat u.fn || !within w.ex.toNat u.ex
    || (w.ty == 0x1F && fieldN w.ex.toNat 3 4 != 0) || u.bad then some .reservedField
  else if !u.ty.ok e w.ty || u.badType then some .illegalType
  else if u.lateBad then some .reservedField
  else none

/-- How an LI word uses its fields. -/
structure LIUse where
  d : FUse := .zero
  a : FUse := .zero
  imm : Nat := 0
  ty : TyUse := tyNone
  ms0 : Bool := false
  bad : Bool := false
deriving Repr

/-- The decode checks of an LI word (R41).
(DEDUCED, log 18) -/
def ckLI (e : CkEnv) (w : LI) (u : LIUse) : Option Cause :=
  let wide := wideTy e w.ty
  if (u.ms0 && w.ms != 0) || (u.ty.none && w.ty != 0) || !u.d.ok e wide w.d.toNat || !u.a.ok e wide w.a.toNat
    || !within w.imm.toNat u.imm || u.bad then some .reservedField
  else if !u.ty.ok e w.ty then some .illegalType
  else none

/-- The ORD and SCOPE rules of R136, R139 and R222: `ords` are the accepted codes, `atomic` lets a plain word carry any scope 0–5,
and scope 110 is accepted with .ACQ or, for atomics, .AR.
(DEDUCED, log 18) -/
def ordScopeOk (ords : List Nat) (atomic : Bool) (ord scope : Nat) : Bool :=
  ords.contains ord &&
    (if ord = 0 ∧ ¬ atomic then scope == 0
     else decide (scope ≤ 5) || (scope == 6 && (ord == 1 || (atomic && ord == 3))))

/-- The plain and .ACQ codes. -/
def ordLoad : List Nat := [0, 1]
/-- The plain and .REL codes. -/
def ordStore : List Nat := [0, 2]
/-- All four codes. -/
def ordAll : List Nat := [0, 1, 2, 3]

/-- How an LM word uses its fields. -/
structure LMUse where
  d : FUse := .zero
  a : FUse := .src1
  ords : List Nat := [0]
  atomic : Bool := false
  anyScope : Bool := false
  ty : TyUse := tyNone
  bad : Bool := false
  badType : Bool := false
deriving Repr

/-- The decode checks of an LM word (R41).
(DEDUCED, log 18) -/
def ckLM (e : CkEnv) (w : LM) (u : LMUse) : Option Cause :=
  let wide := wideTy e w.ty
  if (u.ty.none && w.ty != 0) || !u.d.ok e wide w.d.toNat || !u.a.ok e wide w.a.toNat
    || !(if u.anyScope then u.ords.contains w.ord.toNat && w.scope != 7 && !(w.scope == 6 && w.ord == 2) else ordScopeOk u.ords u.atomic w.ord.toNat w.scope.toNat)
    || u.bad then some .reservedField
  else if !u.ty.ok e w.ty || u.badType then some .illegalType
  else none

/-! ## Generator words -/

/-- The SZ codes an instruction accepts: none (SZ must be zero), or a list (R36). -/
inductive SzUse where
  | zero
  | codes (l : List Nat)
deriving DecidableEq, Repr

/-- The integer sizes. -/
def szInt : SzUse := .codes [0, 1, 2, 3]
/-- The float sizes. -/
def szFlt : SzUse := .codes [8, 9]
/-- All sizes. -/
def szAny : SzUse := .codes [0, 1, 2, 3, 8, 9]

/-- An SZ value is accepted. -/
def SzUse.ok : SzUse → Nat → Bool
  | .zero, v => v == 0
  | .codes l, v => l.contains v

/-- How a GR word uses its fields: `d`, `a`, `b` give the greatest register number and `none` an unused field; `immForm` is the
IMM form of R214, in which FN[0] turns B into IMM16. -/
structure GRUse where
  cnd : Bool := true
  d : Option Nat := none
  a : Option Nat := none
  b : Option Nat := none
  sz : SzUse := .zero
  fn : Nat := 0
  imm : Nat := 0
  immForm : Bool := false
  bad : Bool := false
  badType : Bool := false
deriving Repr

/-- A register field within its use. -/
def regUse : Option Nat → Nat → Bool
  | none, v => v == 0
  | some m, v => decide (v ≤ m)

/-- The decode checks of a GR word (R30, R35 to R37, R41).
(DEDUCED, log 18) -/
def ckGR (w : GR) (u : GRUse) : Option Cause :=
  let isImm := u.immForm && w.fn.getLsbD 0
  if decide (0xC < w.cnd.toNat) || (!u.cnd && w.cnd != 0) || !regUse u.d w.d.toNat || !regUse u.a w.a.toNat
    || !(if isImm then w.b == 0 else regUse u.b w.b.toNat) || !within w.fn.toNat u.fn
    || !(isImm || within w.imm.toNat u.imm)
    || (u.sz == .zero && w.sz != 0) || u.bad then some .reservedField
  else if !u.sz.ok w.sz.toNat || u.badType then some .illegalType
  else none

/-- How a GI word uses its fields. -/
structure GIUse where
  d : Bool := true
  a : Bool := true
  sz : SzUse := .zero
  imm : Nat := 0xFFFFFFFF
deriving Repr

/-- The decode checks of a GI word.
(DEDUCED, log 18) -/
def ckGI (w : GI) (u : GIUse) : Option Cause :=
  if decide (0xC < w.cnd.toNat) || (!u.d && w.d != 0) || (!u.a && w.a != 0) || !within w.imm.toNat u.imm
    || (u.sz == .zero && w.sz != 0) then some .reservedField
  else if !u.sz.ok w.sz.toNat then some .illegalType
  else none

/-- The decode checks of a GB word: whether A is used and which bits of B may be set (R219).
(DEDUCED, log 18) -/
def ckGB (w : GB) (a : Bool) (b : Nat) : Option Cause :=
  if decide (0xC < w.cnd.toNat) || w.z != 0 || (!a && w.a != 0) || !within w.b.toNat b then some .reservedField
  else none

/-- How a GM word uses its fields. -/
structure GMUse where
  d : Nat := 0xFF
  a : Bool := true
  disp : Bool := true
  ords : List Nat := [0]
  atomic : Bool := false
  sz : List Nat := [0, 1, 2, 3]
  bad : Bool := false
deriving Repr

/-- The decode checks of a GM word (R222).
(DEDUCED, log 18) -/
def ckGM (w : GM) (u : GMUse) : Option Cause :=
  if !within w.d.toNat u.d || (!u.a && w.a != 0) || (!u.disp && w.disp != 0)
    || !ordScopeOk u.ords u.atomic w.ord.toNat w.scope.toNat || u.bad then some .reservedField
  else if !u.sz.contains w.sz.toNat then some .illegalType
  else none

/-- The decode checks of a GE word (R35, R228): block words.
(DEDUCED, log 18) -/
def ckGE (w : GE) (rec_ : Bool) : Option Cause :=
  if decide (8 < w.nh.toNat) || (if rec_ then !within w.fl.toNat 1 else w.fl != 0)
    || (w.nh == 0 && w.sb != 0) || (w.nh != 0 && decide (255 < w.sb.toNat + w.nh.toNat - 1))
    || decide (w.len.toNat < 1) || decide (255 < w.len.toNat)
    || (if rec_ then decide (0xFFF < w.id.toNat) else w.id != 0) then some .reservedField
  else if 64 ≤ w.ch.toNat then some .channelInvalid else none

/-- The decode checks of REPLAY (R231). -/
def ckReplay (w : GE) : Option Cause :=
  if w.nh != 0 || w.fl != 0 || decide (0xFFF < w.id.toNat) then some .reservedField
  else if 64 ≤ w.ch.toNat then some .channelInvalid else none

/-! ## Matrix operands (R164, R165) -/

/-- The A types of R164. -/
def mmaA : List Nat := [0, 1, 8, 9, 12, 13, 14, 15, 16, 17, 18, 19, 20]

/-- The pairs of A and B types of R164. -/
def mmaPair (a b : Nat) : Bool :=
  if a = 8 ∨ a = 9 then b == a
  else if a = 12 ∨ a = 13 then b == 12 || b == 13
  else if a = 0 ∨ a = 1 then b == 0 || b == 1
  else if a = 18 then b == 18
  else if [14, 15, 16, 17, 19, 20].contains a then [14, 15, 16, 17, 19, 20].contains b
  else false

/-- Number of K positions of one word (R164). -/
def mmaK (a : Nat) : Nat := if a = 8 ∨ a = 9 then 32 else if a = 18 then 128 else 64

/-- Registers that hold the elements of one lane's A row (R165). -/
def mmaElemRegs (a : Nat) : Nat := if a = 16 ∨ a = 17 then 12 else 16

/-- Registers that hold its scales (R165). -/
def mmaScaleRegs (a : Nat) : Nat := if 14 ≤ a ∧ a ≤ 20 then 1 else 0

/-- Registers that hold its bitmap under SPA (R165). -/
def mmaMapRegs (a : Nat) : Nat := mmaK a / 32

/-- The whole span of A (R165). -/
def mmaSpan (a : Nat) (spa : Bool) : Nat :=
  mmaElemRegs a + mmaScaleRegs a + (if spa then mmaMapRegs a else 0)

/-- The Hadamard block size of FMTR[17:15] (R79); 0 where none or reserved. -/
def hadN (fm : Word) : Nat :=
  match field32 fm 15 3 with
  | 1 => 16 | 2 => 32 | 3 => 64 | _ => 0

/-- The decode checks of MMA and MMAZ (R164, R165, R167, R172).
(DEDUCED, log 18) -/
def ckMma (e : CkEnv) (w : LR) : Option Cause :=
  let known := e.dyn || w.ty != 0x1F
  let a := effTy e w.ty
  let spa := w.ex.getLsbD 2
  let had := w.ex.getLsbD 0
  let k := mmaK a
  ckLR e w { d := .raw, a := .span (if known && mmaA.contains a then mmaSpan a spa else 1), b := .raw, c := .raw, fn := 0x0F, ex := 0xFF
             ty := { codes := mmaA, tyb := (upTo 32).filter (mmaPair a) }
             bad := decide (e.l ≤ 64 * fieldN w.c.toNat 4 4)
               || (known && (a == 0 || a == 1) && fieldN w.ex.toNat 3 4 != 0)
             lateBad := had && (spa || (e.dyn && (hadN e.fm == 0 || decide (k < hadN e.fm)))) }

/-- The decode checks of TEPI in both forms (R188, R189).
(DEDUCED, log 18) -/
def ckTepi (e : CkEnv) (w : LR) : Option Cause :=
  let mem := w.fn.getLsbD 7
  let bias := w.fn.getLsbD 5
  let scale := w.fn.getLsbD 4
  let a := w.a.toNat
  ckLR e w { d := .raw, a := .raw, b := .raw, c := .raw, fn := 0xF8, ex := 0x78
             ty := if mem then { codes := [4, 5, 8, 9, 10, 12, 13], tyb := anyTyb } else tyTile
             bad := decide (0x7F < a) || (!mem && !bias && !scale && a != 0) || (mem && !regSpanOk e a 1) || (bias && !regSpanOk e (a + 1) 1)
               || (scale && !regSpanOk e (a + 2) 1)
               || (mem && (fieldN w.b.toNat 3 5 != 0 || fieldN w.c.toNat 0 4 != 0)) }

/-- The decode checks of a conversion (R111): the source code is FN[4:0], or TYA under 0x1F, and the destination TY, or TYB. An OVF that CVTFI refuses is
its EX's; FMTR.OVF, which a CVTFI under 0x1F does not use, is not checked.
(DESIGN CHOICE, log 86) -/
def ckCvt (e : CkEnv) (w : LR) (srcs dsts : List Nat) (ovf : Bool) : Option Cause :=
  let fm := w.ty == 0x1F
  let known := e.dyn || !fm
  let s := if fm then field32 e.fm 0 5 else fieldN w.fn.toNat 0 5
  let d := if fm then field32 e.fm 5 5 else w.ty.toNat
  let w64 (t : Nat) : Bool := known && (t == 6 || t == 7)
  if !(if w64 d then FUse.dst2 else .dst1).ok e false w.d.toNat || !(if w64 s then FUse.src2 else .src1).ok e false w.a.toNat
    || w.b != 0 || w.c != 0 || (if fm then w.fn != 0 else !within w.fn.toNat 0x1F) || !within w.ex.toNat (if ovf then 0x78 else 0x7C)
    || (fm && fieldN w.ex.toNat 3 4 != 0) then some .reservedField
  else if (known && (!srcs.contains s || !dsts.contains d)) || (!ovf && w.ex.toNat &&& 0x64 != 0) then some .illegalType
  else none

/-- The types ATOM accepts for an operation (R140). -/
def atomTypes (op : Nat) : List Nat :=
  if op ≤ 2 ∨ op = 6 then [4, 5, 6, 7, 10] else if op ≤ 5 then [4, 5, 6, 7] else if op = 7 then [5, 7] else []

/-- The decode checks of ATOM and ATOMN (R139, R140). -/
def ckAtom (e : CkEnv) (w : LM) : Option Cause :=
  let op := fieldN w.disp.toNat 21 4
  ckLM e w { d := .dst, a := .src1, ords := ordAll, atomic := true, ty := { codes := atomTypes op, tyb := anyTyb }, bad := decide (7 < op) }

/-- The decode checks of CAS (R141). -/
def ckCas (e : CkEnv) (w : LM) : Option Cause :=
  let d := w.d.toNat
  ckLM e w { d := .dst, ords := ordAll, atomic := true, ty := { tyBits with tyb := anyTyb }
             bad := fieldN w.disp.toNat 21 4 != 0 || !regSpanOk e d (if wideTy e w.ty then 4 else 2) }

/-- The registers SREAD and SWRITE name (R225). -/
def sregNumbers : List Nat :=
  [0x00, 0x01, 0x02, 0x03, 0x04, 0x05, 0x06, 0x07, 0x08, 0x09, 0x0A, 0x0B, 0x0C, 0x0D, 0x10, 0x11, 0x20, 0x21, 0x22, 0x23, 0x24, 0x25,
   0x26, 0x30, 0x31]

/-- The registers SWRITE may write (R225). -/
def sregRW : List Nat := [0x10, 0x11, 0x26, 0x31]

/-- The claim amount is a multiple of 8 from 8 to 120 (R125). -/
def claimOk (n : Nat) : Bool := n % 8 == 0 && decide (8 ≤ n) && decide (n ≤ 120)

/-- The decode checks of an instruction after its opcode, in the order of R41: the first that fails gives its cause. A device step
has none.
(DEDUCED, log 17; DEDUCED, log 18) -/
def fieldCheck (e : CkEnv) (i : Instr) : Option Cause :=
  match i with
  | .lnop w =>
    ckLR e w { ms0 := true }
  | .iadd w | .isub w | .imul w =>
    ckLR e w { d := .dst, a := .src, b := .src, ex := 0x04, ty := tyInt }
  | .imulhi w =>
    ckLR e w { d := .dst, a := .src, b := .src, ty := tyInt }
  | .imad w =>
    ckLR e w { d := .dst, a := .src, b := .src, c := .src, ex := 0x04, ty := tyInt }
  | .imadw w =>
    ckLR e w { d := .dst2, a := .src1, b := .src1, c := .src2, ex := 0x04, ty := ty32 }
  | .idiv w | .irem w | .imin w | .imax w =>
    ckLR e w { d := .dst, a := .src, b := .src, ty := tyInt }
  | .iabs w =>
    ckLR e w { d := .dst, a := .src, ex := 0x04, ty := { codes := [4, 6] } }
  | .iadds w =>
    ckLR e w { d := .dst, a := .src, b := .src, fn := 0x3F, ex := 0x04, ty := tyInt }
  | .andv w | .orv w | .xorv w | .andn w | .shl w | .shr w | .sar w | .rot w =>
    ckLR e w { d := .dst, a := .src, b := .src, ty := tyInt }
  | .popc w | .clz w | .brev w =>
    ckLR e w { d := .dst, a := .src, ty := tyInt }
  | .bfx w =>
    ckLR e w { d := .dst, a := .src, b := .src, ty := tyInt }
  | .bfi w =>
    ckLR e w { d := .dst, a := .src, b := .src, c := .src, ty := tyInt }
  | .mov w =>
    ckLR e w { d := .dst, a := .src, ty := tyBits }
  | .sel w =>
    ckLR e w { d := .dst, a := .src, b := .src, fn := 0x07, ty := tyBits }
  | .icmp w =>
    ckLR e w { d := .mdst, a := .src, b := .src, fn := 0xFF, ty := tyInt, bad := decide (5 < w.fn.toNat) }
  | .ldi w =>
    ckLI e w { d := .dst, imm := 0xFFFFFFFF, ty := tyBits }
  | .iaddi w | .imuli w | .andi w | .ori w | .xori w =>
    ckLI e w { d := .dst, a := .src, imm := 0xFFFFFFFF, ty := tyInt }
  | .shifti w =>
    ckLI e w { d := .dst, a := .src, imm := 0xFF, ty := tyInt }
  | .icmpi w =>
    ckLI e w { d := .raw, a := .src, imm := 0xFFFFFFFF, ty := tyInt, bad := fieldN w.d.toNat 0 3 == 0 || decide (5 < fieldN w.d.toNat 3 5) }
  | .fadd w | .fsub w | .fmul w =>
    ckLR e w { d := .dst, a := .src, b := .src, ex := 0x78, ty := tyFlt }
  | .ffma w =>
    ckLR e w { d := .dst, a := .src, b := .src, c := .src, ex := 0x78, ty := tyFlt }
  | .fmin w | .fmax w =>
    ckLR e w { d := .dst, a := .src, b := .src, ty := tyFlt }
  | .fdiv w =>
    ckLR e w { d := .dst, a := .src, b := .src, ex := 0x78, ty := tyFlt }
  | .fsqrt w | .frcp w | .frsq w | .fexp2 w | .flog2 w | .ftanh w =>
    ckLR e w { d := .dst, a := .src, ex := 0x78, ty := tyFlt }
  | .fsin w =>
    ckLR e w { d := .dst, a := .src, fn := 0x01, ex := 0x78, ty := tyFlt }
  | .fcmp w =>
    ckLR e w { d := .mdst, a := .src, b := .src, fn := 0x07, ty := tyFlt }
  | .fclass w =>
    ckLR e w { d := .dst, a := .src, ty := tyFlt }
  | .faddi w | .fmuli w =>
    ckLI e w { d := .dst, a := .src, imm := 0xFFFFFFFF, ty := tyFlt }
  | .cvtf w =>
    ckCvt e w [8, 9, 10, 12, 13] [8, 9, 10, 12, 13] true
  | .cvtfi w =>
    ckCvt e w [8, 9, 10, 12, 13] [0, 1, 2, 3, 4, 5, 6, 7] false
  | .cvtif w =>
    ckCvt e w [0, 1, 2, 3, 4, 5, 6, 7] [8, 9, 10, 12, 13] true
  | .scaleb w =>
    ckLR e w { d := .dst, a := .src, b := .src1, ex := 0x78, ty := tyFlt }
  | .packmx w | .unpkmx w =>
    ckLR e w { d := .dst1, a := .src1, ex := 0x78, ty := { codes := [14, 15, 16, 17, 18, 19] } }
  | .packds w | .unpkds w =>
    ckLR e w { d := .dst1, a := .src1, ex := 0x78, ty := { codes := [20] } }
  | .shfl w =>
    ckLR e w { d := .dst, a := .src, b := .src1, fn := 0x03, ty := tyBits }
  | .lrot w =>
    ckLR e w { d := .dst, a := .src, fn := 0x3F, ty := tyBits }
  | .lscan w =>
    ckLR e w { d := .dst, a := .src, fn := 0x07, ex := 0x78, ty := { codes := [4, 5, 6, 7, 8, 9, 10] }, bad := fieldN w.fn.toNat 0 2 == 3 }
  | .lred w =>
    ckLR e w { d := .dst, a := .src, fn := 0x03, ex := 0x78, ty := { codes := [4, 5, 6, 7, 8, 9, 10] }, bad := fieldN w.fn.toNat 0 2 == 3 }
  | .lbcast w =>
    ckLR e w { d := .dst, a := .src, fn := 0x7F, ty := tyBits, bad := if w.fn.getLsbD 6 then fieldN w.fn.toNat 0 6 != 0 else decide (e.g ≤ fieldN w.fn.toNat 0 6) }
  | .compact w =>
    ckLR e w { d := .dst, a := .src, ty := tyBits }
  | .mlog w =>
    ckLR e w { d := .mdst, a := .msrc, b := .msrc, fn := 0x0F }
  | .mset w =>
    ckLR e w { d := .mdst, fn := 0x01 }
  | .menter w =>
    ckLR e w { a := .msrc, ms0 := true }
  | .mflip w | .mleave w =>
    ckLR e w { ms0 := true }
  | .mfirst w =>
    ckLR e w { d := .mdst, a := .msrc }
  | .mtov w =>
    ckLR e w { d := .dst1, a := .msrc, fn := 0x01 }
  | .vtom w =>
    ckLR e w { d := .mdst, a := .src1 }
  | .vote w =>
    ckLI e w { a := .msrc, imm := 0x3FFFF, ms0 := true }
  | .setfmt w =>
    ckLI e w { imm := 0xF003FFFF, ms0 := true }
  | .claim w =>
    ckLI e w { imm := 0xFFFFFFFF, ms0 := true, bad := !claimOk w.imm.toNat || (e.dyn && decide (128 < e.n + w.imm.toNat)) }
  | .give w =>
    ckLI e w { imm := 0xFFFFFFFF, ms0 := true, bad := !claimOk w.imm.toNat || decide (e.n < w.imm.toNat + 8) }
  | .trapw w =>
    ckLI e w { imm := 0xFFFFFFFF }
  | .lbrk w =>
    ckLI e w { imm := 0xFFFF }
  | .wset w =>
    ckLI e w { d := .raw, ms0 := true, bad := decide (7 < w.d.toNat) }
  | .lfence w =>
    ckLM e w { a := .zero, ords := [1, 2, 3], anyScope := true, bad := w.ms != 0 || w.w != 0 || w.disp != 0 }
  | .ldw w =>
    ckLM e w { d := .dst, ords := ordLoad, ty := tyMem }
  | .stw w =>
    ckLM e w { d := .dst, ords := ordStore, ty := tyMem }
  | .ldg w =>
    ckLM e w { d := .dst, a := .src2, ords := ordLoad, ty := tyMem, bad := w.w != 0 }
  | .stg w =>
    ckLM e w { d := .dst, a := .src2, ords := ordStore, ty := tyMem, bad := w.w != 0 }
  | .atom w | .atomn w =>
    ckAtom e w
  | .cas w =>
    ckCas e w
  | .prefw w =>
    ckLM e w { d := .raw, bad := decide (1 < w.d.toNat) }
  | .ldt w | .stt w =>
    ckLR e w { d := .dst, a := .src1, b := .raw, c := .src1, ty := tyMem }
  | .tempty w | .tfull w =>
    ckLR e w { a := .src1, b := .raw, c := .src1 }
  | .harrive w | .hsync w =>
    ckLI e w { imm := 0xFFFF000F, ms0 := true }
  | .hwait w =>
    ckLI e w { imm := 0x0000000F, ms0 := true }
  | .hexpect w =>
    ckLI e w { imm := 0xFFFF000F, ms0 := true }
  | .spld w =>
    ckLM e w { d := .raw, a := .raw, ords := ordLoad, ty := tyRegion, bad := decide (0x7F < w.d.toNat) }
  | .spst w =>
    ckLM e w { d := .raw, a := .raw, ords := ordStore, ty := tyRegion, bad := decide (0x7F < w.d.toNat) }
  | .spnext w =>
    ckLM e w { d := .raw, a := .raw, ords := ordLoad, ty := tyRegion, bad := decide (0x7F < w.d.toNat) }
  | .spadd w =>
    ckLM e w { d := .raw, a := .raw, ords := ordAll, atomic := true, ty := tyRegion, bad := decide (0x7F < w.d.toNat) || (w.ord == 0 && w.scope != 0) }
  | .mma w | .mmaz w =>
    ckMma e w
  | .had w =>
    ckLR e w { d := .raw, b := .raw, fn := 0x3F, ex := 0x78, ty := { tyFlt with tyb := anyTyb }, lateBad := e.dyn && hadN e.fm == 0 }
  | .tcvt w =>
    ckLR e w { d := .raw, b := .raw, fn := 0x3F, ex := 0x79, ty := tyTile, bad := !w.ex.getLsbD 0 && w.fn.toNat &&& 0x2F != 0, lateBad := (w.ex.getLsbD 0 && e.dyn && hadN e.fm == 0) || (decide (14 ≤ effTy e w.ty) && !w.fn.getLsbD 4 && (e.dyn || w.ty != 0x1F)) }
  | .tepi w | .tepiMem w =>
    ckTepi e w
  | .tnew w =>
    ckLR e w { d := .raw, a := .span 1, fn := 0x07, ty := if fieldN w.fn.toNat 0 2 = 0 then { codes := [4, 10], tyb := anyTyb } else tyTile, bad := fieldN w.fn.toNat 0 2 == 3 }
  | .tfree w =>
    ckLR e w { d := .raw }
  | .tzero w =>
    ckLR e w { d := .raw, fn := 0x01 }
  | .tfromv w =>
    ckLR e w { d := .raw, a := .span (fieldN w.fn.toNat 0 5 + 1), c := .raw, fn := 0x1F, ty := tyMem }
  | .ttov w =>
    ckLR e w { d := .span (fieldN w.fn.toNat 0 5 + 1), b := .raw, c := .raw, fn := 0x1F, ty := tyMem }
  | .ttrans w =>
    ckLR e w { d := .raw, b := .raw, ty := tyMem }
  | .tred w =>
    ckLR e w { d := .raw, b := .raw, fn := 0x13, ex := 0x78, ty := { codes := [4, 10], tyb := anyTyb }, bad := fieldN w.fn.toNat 0 2 == 3 }
  | .descend w =>
    ckLR e w { d := .dst1, a := .span 1, b := .raw, c := .raw, ty := { codes := [10], fmtr := false }, bad := w.c.toNat &&& 0x88 != 0 }
  | .dregroup w =>
    ckLR e w { d := .span 2, a := .span 2 }
  | .dtrace w =>
    ckLR e w { d := .span 2, c := .raw, bad := w.c.toNat &&& 0x8F != 0 }
  | .dgrad w =>
    ckLR e w { d := .raw, a := .span 2, b := .raw, c := .raw, fn := 0x1F, ty := { codes := [10], fmtr := false }, bad := decide (7 < w.d.toNat) || w.c.toNat &&& 0x88 != 0 }
  | .dleaf w =>
    ckLR e w { d := .span (fieldN w.fn.toNat 3 3 + 1), a := .src1, c := .raw, fn := 0x7F, ex := if w.fn.getLsbD 6 then 0x18 else 0, ty := { codes := [10], fmtr := false }, bad := decide (7 < w.c.toNat) || decide (7 < fieldN w.fn.toNat 0 3 + fieldN w.fn.toNat 3 3) }
  | .sadd w | .ssub w | .smul w | .smulhi w | .sdiv w | .srem w | .smin w | .smax w | .sand w | .sor w | .sxor w | .sshl w | .sshr w | .ssar w =>
    ckGR w { d := some 255, a := some 255, b := some 255, sz := szInt, fn := 0x07, immForm := true }
  | .spopc w | .sclz w =>
    ckGR w { d := some 255, a := some 255, sz := szInt, fn := 0x06 }
  | .sbfx w | .sbfi w =>
    ckGR w { d := some 255, a := some 255, b := some 255, sz := szInt, fn := 0x07, immForm := true }
  | .smov w =>
    ckGR w { d := some 255, a := some 255, sz := szInt, fn := 0x07, immForm := true, bad := w.fn.getLsbD 0 && w.a != 0 }
  | .ssel w =>
    ckGR w { d := some 255, a := some 255, b := some 255, sz := szInt, fn := 0xF3, immForm := true, bad := decide (0xC < fieldN w.fn.toNat 4 4) }
  | .scmp w =>
    ckGR w { a := some 255, b := some 255, sz := szAny, fn := 0x01, immForm := true }
  | .sldi w | .sldih w =>
    ckGI w { a := false }
  | .saddi w | .sandi w =>
    ckGI w { sz := szInt }
  | .sshli w =>
    ckGI w { sz := szInt, imm := 0x3F }
  | .scmpi w =>
    ckGI w { d := false, sz := szInt }
  | .sfadd w | .sfmul w | .sffma w =>
    ckGR w { d := some 255, a := some 255, b := some 255, sz := szFlt, fn := 0x0F }
  | .sfcvt w =>
    ckGR w { d := some 255, a := some 255, sz := szAny, fn := 0xFF, imm := 0x0001, badType := !szAny.ok (fieldN w.fn.toNat 4 4) || (decide (w.sz.toNat ≤ 3) && decide (fieldN w.fn.toNat 4 4 ≤ 3)) }
  | .br w =>
    ckGB w false 0
  | .brz w =>
    ckGB w true 1
  | .loop w | .call w =>
    ckGB w true 0
  | .ret w | .jmpr w =>
    ckGR w { a := some 255 }
  | .exitw w =>
    ckGR w {}
  | .yield w =>
    ckGB w false 0
  | .yieldTag w =>
    ckGB w true 1
  | .emit w =>
    ckGE w false
  | .recw w =>
    ckGE w true
  | .replay w =>
    ckReplay w
  | .pbdrop w =>
    ckGR w { cnd := false, imm := 0x0FFF }
  | .vread w | .vpeek w =>
    ckGR w { cnd := false, d := some 255 }
  | .sdrain w =>
    ckGR w { cnd := false, imm := 0x007F, bad := w.imm.getLsbD 6 && fieldN w.imm.toNat 0 6 != 0 }
  | .trans w =>
    ckGR w { d := some 7, a := some 255, b := some 255, fn := 0x07, imm := 0x003F, bad := fieldN w.fn.toNat 1 2 == 0 }
  | .sld w =>
    ckGM w { ords := ordLoad }
  | .sst w =>
    ckGM w { ords := ordStore }
  | .satom w =>
    ckGM w { ords := ordAll, atomic := true, sz := [0, 1], bad := decide (9 < fieldN w.disp.toNat 28 4) }
  | .scas w =>
    ckGM w { ords := ordAll, atomic := true, bad := w.d.getLsbD 0 }
  | .sfence w =>
    ckGM w { d := 0, a := false, disp := false, ords := [1, 2, 3], atomic := true, bad := w.sz != 0 }
  | .mwait w =>
    ckGM w { ords := ordLoad }
  | .spref w =>
    ckGM w { d := 1, bad := w.sz != 0 }
  | .copy w =>
    ckGR w { a := some 248, b := some 0x1F, fn := 0x0F, imm := 0x00FF, bad := w.a == 0 || (!w.b.getLsbD 4 && w.b != 0) }
  | .copywait w =>
    ckGR w { d := some 255, imm := 0x00FF }
  | .copyq w | .copyqResume w =>
    ckGR w { d := some 255, fn := 0x01, imm := 0x00FF }
  | .copycan w =>
    ckGR w { imm := 0x00FF }
  | .gwin w =>
    ckGR w { d := some 7, a := some 252, fn := 0xFF, imm := 0x003F, bad := fieldN w.fn.toNat 6 2 == 0 }
  | .gunwin w =>
    ckGR w { fn := 0x3F }
  | .gharrive w | .ghsync w =>
    ckGR w { fn := 0x0F, imm := 0xFFFF }
  | .chsend w =>
    ckGR w { a := some 255, imm := 0x003F }
  | .chrecv w =>
    ckGR w { d := some 255, fn := 0x01, imm := 0x003F }
  | .chset w =>
    ckGR w { a := some 252, b := some 255, imm := 0x003F, bad := w.imm == 0 }
  | .tspawn w =>
    ckGR w { d := some 255, a := some 255, fn := 0x07, bad := fieldN w.fn.toNat 0 2 == 3 || (!w.fn.getLsbD 2 && fieldN w.fn.toNat 0 2 != 0) }
  | .tretire w | .tretireAt w =>
    ckGR w { cnd := w.fn.getLsbD 0, a := if w.fn.getLsbD 0 then some 255 else none, fn := 0x01, imm := if w.fn.getLsbD 0 then 0x000F else 0 }
  | .tscore w | .tscoreFree w =>
    ckGR w { a := if w.fn.getLsbD 0 then none else some 255, fn := 0x01, imm := 0x000F }
  | .twait w | .twaitAny w =>
    ckGR w { d := some 255, a := if w.fn.getLsbD 0 then none else some 255, fn := 0x03 }
  | .specq w =>
    ckGR w { d := some 255 }
  | .spechold w =>
    ckGR w {}
  | .spnew w | .spnewAttach w =>
    ckGR w { d := some 255, a := some 253, fn := 0xDF, imm := if w.fn.getLsbD 3 then 0x003F else 0, bad := if w.fn.getLsbD 3 then fieldN w.fn.toNat 6 2 == 0 else w.fn != 0 }
  | .spfree w | .spfreeStat w =>
    ckGR w { d := if w.fn.getLsbD 0 then some 255 else none, a := some 255, fn := 0x01 }
  | .seal w | .sealFree w | .sealQ w =>
    ckGR w { d := if w.fn.getLsbD 0 then none else some 255, a := if w.fn.getLsbD 0 then none else if w.fn.getLsbD 1 then some 255 else some 254,
                       fn := 0x03, imm := if fieldN w.fn.toNat 0 2 = 0 then 0 else 0x00FF, bad := fieldN w.fn.toNat 0 2 == 3 }
  | .digest w =>
    ckGR w { b := some 127, fn := 0x3F }
  | .dtset w =>
    ckGR w { d := some 7, a := some 252, fn := 0x0F, imm := 0x003F }
  | .gtrap w =>
    ckGR w { imm := 0xFFFF }
  | .sread w =>
    ckGR w { d := some 255, fn := 0x3F, imm := 0x00FF, bad := !sregNumbers.contains w.imm.toNat || (w.imm != 0x10 && w.imm != 0x11 && w.fn != 0) }
  | .swrite w =>
    ckGR w { a := some 255, fn := 0x3F, imm := 0x00FF, bad := !sregRW.contains w.imm.toNat || (w.imm != 0x10 && w.imm != 0x11 && w.fn != 0) }
  | .eret w | .eretSkip w | .eretTarget w =>
    ckGR w { a := if w.fn.getLsbD 1 then some 255 else none, fn := 0x03, bad := fieldN w.fn.toNat 0 2 == 3 }
  | .ctxsaveRec w | .ctxloadRec w | .ctxsaveSquad w | .ctxloadSquad w =>
    ckGR w { a := some 255, fn := 0x01, imm := if w.fn.getLsbD 0 then 0 else 0x003F }
  | .tmask w =>
    ckGR w { imm := 0x0001 }
  | .umprel w | .umprelKill w =>
    ckGR w { a := some 255, fn := 0x01 }
  | .gnop w =>
    ckGR w { cnd := false }
  | .tresume w =>
    ckGR w { fn := 0x01, imm := 0x003F }
  | .clauseHeaderDecode | .stretchDeliver | .replayIteration | .playbookFill | .flagIdle | .lineWaitResume 
  | .tileStarvedTimeout | .huddleWaitEnd | .matrixUnitStart | .claimGrant | .giveReturn | .tfreeEffect | .teamEvict 
  | .teamReturn | .teamEnd | .squadExit | .voteReadable | .trapEntry | .contextWaitResume | .mwaitReread 
  | .preemptContext | .preemptDeferTimeout | .contextRestore | .copyStart | .copyLineWrite | .copyComplete | .l1Fill 
  | .faultRecord | .fdoneWrite | .firstTouchService | .bullpenRefill | .shootdownStart | .shootdownComplete 
  | .mailboxCreate | .mailboxDestroy | .configRegWrite | .patrolScrub | .taskReady | .lineupRise | .taskPlace 
  | .quantumExpiry | .exclLoad | .taskRetire | .versionFold | .specReady | .specValidate | .specCommit | .hostRead 
  | .hostWrite | .launchFrame | .hostAck | .messageResend | .managementMessage | .spdmGetMeasurements | .ownerCreate 
  | .ownerRetire | .logConsumeAdvance | .powerOn | .hostReset | .flitCrcRetry | .linkFailure | .opEntryWrite 
  | .opointRecompute | .governorInterval | .energyUpdate | .sensorSample | .clampLift | .undervoltStep | .powerEvent 
  | .undervoltLockoutEnd | .violationRecord | .sealHashDone | .firmwareUpdate | .firmwareHeartbeat | .probationTimeout 
  | .remoteRequest | .remoteResponse | .remoteTimeout | .shootdownNotice | .illegalLaneOpc | .illegalGenOpc => none

/-- The instruction is an instruction word (R38), not a device step. -/
def isWord (i : Instr) : Bool :=
  match i with
  | .clauseHeaderDecode | .stretchDeliver | .replayIteration | .playbookFill | .flagIdle | .lineWaitResume 
  | .tileStarvedTimeout | .huddleWaitEnd | .matrixUnitStart | .claimGrant | .giveReturn | .tfreeEffect | .teamEvict 
  | .teamReturn | .teamEnd | .squadExit | .voteReadable | .trapEntry | .contextWaitResume | .mwaitReread 
  | .preemptContext | .preemptDeferTimeout | .contextRestore | .copyStart | .copyLineWrite | .copyComplete | .l1Fill 
  | .faultRecord | .fdoneWrite | .firstTouchService | .bullpenRefill | .shootdownStart | .shootdownComplete 
  | .mailboxCreate | .mailboxDestroy | .configRegWrite | .patrolScrub | .taskReady | .lineupRise | .taskPlace 
  | .quantumExpiry | .exclLoad | .taskRetire | .versionFold | .specReady | .specValidate | .specCommit | .hostRead 
  | .hostWrite | .launchFrame | .hostAck | .messageResend | .managementMessage | .spdmGetMeasurements | .ownerCreate 
  | .ownerRetire | .logConsumeAdvance | .powerOn | .hostReset | .flitCrcRetry | .linkFailure | .opEntryWrite 
  | .opointRecompute | .governorInterval | .energyUpdate | .sensorSample | .clampLift | .undervoltStep | .powerEvent 
  | .undervoltLockoutEnd | .violationRecord | .sealHashDone | .firmwareUpdate | .firmwareHeartbeat | .probationTimeout 
  | .remoteRequest | .remoteResponse | .remoteTimeout | .shootdownNotice | .illegalLaneOpc | .illegalGenOpc => false
  | .lnop _ | .iadd _ | .isub _ | .imul _ | .imulhi _ | .imad _ | .imadw _ | .idiv _ | .irem _ | .imin _ | .imax _ 
  | .iabs _ | .iadds _ | .andv _ | .orv _ | .xorv _ | .andn _ | .shl _ | .shr _ | .sar _ | .rot _ | .popc _ | .clz _ 
  | .brev _ | .bfx _ | .bfi _ | .mov _ | .sel _ | .icmp _ | .ldi _ | .iaddi _ | .imuli _ | .andi _ | .ori _ | .xori _ 
  | .shifti _ | .icmpi _ | .fadd _ | .fsub _ | .fmul _ | .ffma _ | .fmin _ | .fmax _ | .fdiv _ | .fsqrt _ | .frcp _ 
  | .frsq _ | .fexp2 _ | .flog2 _ | .ftanh _ | .fsin _ | .fcmp _ | .fclass _ | .faddi _ | .fmuli _ | .cvtf _ | .cvtfi _ 
  | .cvtif _ | .scaleb _ | .packmx _ | .unpkmx _ | .packds _ | .unpkds _ | .shfl _ | .lrot _ | .lscan _ | .lred _ 
  | .lbcast _ | .compact _ | .mlog _ | .mset _ | .menter _ | .mflip _ | .mleave _ | .mfirst _ | .mtov _ | .vtom _ 
  | .vote _ | .setfmt _ | .claim _ | .give _ | .trapw _ | .lbrk _ | .wset _ | .lfence _ | .ldw _ | .stw _ | .ldg _ 
  | .stg _ | .atom _ | .atomn _ | .cas _ | .prefw _ | .ldt _ | .stt _ | .tempty _ | .tfull _ | .harrive _ | .hsync _ 
  | .hwait _ | .hexpect _ | .spld _ | .spst _ | .spnext _ | .spadd _ | .mma _ | .mmaz _ | .had _ | .tcvt _ | .tepi _ 
  | .tepiMem _ | .tnew _ | .tfree _ | .tzero _ | .tfromv _ | .ttov _ | .ttrans _ | .tred _ | .descend _ | .dregroup _ 
  | .dtrace _ | .dgrad _ | .dleaf _ | .sadd _ | .ssub _ | .smul _ | .smulhi _ | .sdiv _ | .srem _ | .smin _ | .smax _ 
  | .sand _ | .sor _ | .sxor _ | .sshl _ | .sshr _ | .ssar _ | .spopc _ | .sclz _ | .sbfx _ | .sbfi _ | .smov _ 
  | .ssel _ | .scmp _ | .sldi _ | .sldih _ | .saddi _ | .sandi _ | .sshli _ | .scmpi _ | .sfadd _ | .sfmul _ | .sffma _ 
  | .sfcvt _ | .br _ | .brz _ | .loop _ | .call _ | .ret _ | .jmpr _ | .exitw _ | .yield _ | .yieldTag _ | .emit _ 
  | .recw _ | .replay _ | .pbdrop _ | .vread _ | .vpeek _ | .sdrain _ | .trans _ | .sld _ | .sst _ | .satom _ | .scas _ 
  | .sfence _ | .mwait _ | .spref _ | .copy _ | .copywait _ | .copyq _ | .copyqResume _ | .copycan _ | .gwin _ 
  | .gunwin _ | .gharrive _ | .ghsync _ | .chsend _ | .chrecv _ | .chset _ | .tspawn _ | .tretire _ | .tretireAt _ 
  | .tscore _ | .tscoreFree _ | .twait _ | .twaitAny _ | .specq _ | .spechold _ | .spnew _ | .spnewAttach _ | .spfree _ 
  | .spfreeStat _ | .seal _ | .sealFree _ | .sealQ _ | .digest _ | .dtset _ | .gtrap _ | .sread _ | .swrite _ | .eret _ 
  | .eretSkip _ | .eretTarget _ | .ctxsaveRec _ | .ctxloadRec _ | .ctxsaveSquad _ | .ctxloadSquad _ | .tmask _ 
  | .umprel _ | .umprelKill _ | .gnop _ | .tresume _ => true

end Sys2Proof.Machine
end

