-- ==== Sys2Proof/WellFormed.lean ====
section
/-! DEFINITION. Well-formed instructions: the words a decoder accepts on its static checks (R41), in the row their subform belongs
to. -/

namespace Sys2Proof

open Machine

/-- Rows that share an opcode are told apart by a selector bit (R188, R220, R254, R352, R368 to R370, R289, R292, R348, R422, R424): the
word is of the row of its constructor. -/
def subformOk (i : Instr) : Bool :=
  match i with
  | .tepi w => !w.fn.getLsbD 7
  | .tepiMem w => w.fn.getLsbD 7
  | .yield w => !w.b.getLsbD 0
  | .yieldTag w => w.b.getLsbD 0
  | .copyq w => !w.fn.getLsbD 0
  | .copyqResume w => w.fn.getLsbD 0
  | .tretire w => !w.fn.getLsbD 0
  | .tretireAt w => w.fn.getLsbD 0
  | .tscore w => !w.fn.getLsbD 0
  | .tscoreFree w => w.fn.getLsbD 0
  | .twait w => !w.fn.getLsbD 0
  | .twaitAny w => w.fn.getLsbD 0
  | .spnew w => !w.fn.getLsbD 4
  | .spnewAttach w => w.fn.getLsbD 4
  | .spfree w => !w.fn.getLsbD 0
  | .spfreeStat w => w.fn.getLsbD 0
  | .seal w => !w.fn.getLsbD 0 && !w.fn.getLsbD 1
  | .sealFree w => w.fn.getLsbD 0
  | .sealQ w => w.fn.getLsbD 1
  | .eret w => !w.fn.getLsbD 0 && !w.fn.getLsbD 1
  | .eretSkip w => w.fn.getLsbD 0
  | .eretTarget w => w.fn.getLsbD 1
  | .ctxsaveRec w => !w.fn.getLsbD 0
  | .ctxsaveSquad w => w.fn.getLsbD 0
  | .ctxloadRec w => !w.fn.getLsbD 0
  | .ctxloadSquad w => w.fn.getLsbD 0
  | .umprel w => !w.fn.getLsbD 0
  | .umprelKill w => w.fn.getLsbD 0
  | _ => true

/-- An instruction word is well formed when it passes every static decode check (R41) and is of its own row. -/
def Instr.wf (i : Instr) : Bool := isWord i && subformOk i && (fieldCheck {} i).isNone

end Sys2Proof
end

