-- ==== Sys2Proof/Decode.lean ====
section
/-! DEFINITION. Decoding (02_encoding.md R19, R28, R35, R38 to R41): total on any 64 bits, rejecting by the trap cause the check that
fails gives; and after it the encoder, from the same tables. -/

namespace Sys2Proof

open Machine

/-! ## Fields (R28, R35) -/

/-- The fields of an LR or LX word. -/
def LR.ofBits (w : DWord) : LR :=
  ⟨w.extractLsb' 53 3, w.extractLsb' 48 5, w.extractLsb' 40 8, w.extractLsb' 32 8, w.extractLsb' 24 8, w.extractLsb' 16 8,
    w.extractLsb' 8 8, w.extractLsb' 0 8⟩

/-- The fields of an LI word. -/
def LI.ofBits (w : DWord) : LI :=
  ⟨w.extractLsb' 53 3, w.extractLsb' 48 5, w.extractLsb' 40 8, w.extractLsb' 32 8, w.extractLsb' 0 32⟩

/-- The fields of an LM word. -/
def LM.ofBits (w : DWord) : LM :=
  ⟨w.extractLsb' 53 3, w.extractLsb' 48 5, w.extractLsb' 40 8, w.extractLsb' 33 7, w.extractLsb' 30 3, w.extractLsb' 28 2,
    w.extractLsb' 25 3, w.extractLsb' 0 25⟩

/-- The fields of a GR word. -/
def GR.ofBits (w : DWord) : GR :=
  ⟨w.extractLsb' 52 4, w.extractLsb' 48 4, w.extractLsb' 40 8, w.extractLsb' 32 8, w.extractLsb' 24 8, w.extractLsb' 16 8,
    w.extractLsb' 0 16⟩

/-- The fields of a GI word. -/
def GI.ofBits (w : DWord) : GI :=
  ⟨w.extractLsb' 52 4, w.extractLsb' 48 4, w.extractLsb' 40 8, w.extractLsb' 32 8, w.extractLsb' 0 32⟩

/-- The fields of a GB word. -/
def GB.ofBits (w : DWord) : GB :=
  ⟨w.extractLsb' 52 4, w.extractLsb' 48 4, w.extractLsb' 40 8, w.extractLsb' 32 8, w.extractLsb' 0 32⟩

/-- The fields of a GM word. -/
def GM.ofBits (w : DWord) : GM :=
  ⟨w.extractLsb' 53 3, w.extractLsb' 51 2, w.extractLsb' 48 3, w.extractLsb' 40 8, w.extractLsb' 32 8, w.extractLsb' 0 32⟩

/-- The fields of a GE word. -/
def GE.ofBits (w : DWord) : GE :=
  ⟨w.extractLsb' 52 4, w.extractLsb' 48 4, w.extractLsb' 40 8, w.extractLsb' 32 8, w.extractLsb' 16 16, w.extractLsb' 0 16⟩

/-- The bits of an LR or LX word under an opcode. -/
def LR.toBits (op : BitVec 8) (r : LR) : DWord :=
  op ++ r.ms ++ r.ty ++ r.d ++ r.a ++ r.b ++ r.c ++ r.fn ++ r.ex

/-- The bits of an LI word. -/
def LI.toBits (op : BitVec 8) (r : LI) : DWord := op ++ r.ms ++ r.ty ++ r.d ++ r.a ++ r.imm

/-- The bits of an LM word. -/
def LM.toBits (op : BitVec 8) (r : LM) : DWord :=
  op ++ r.ms ++ r.ty ++ r.d ++ r.a ++ r.w ++ r.ord ++ r.scope ++ r.disp

/-- The bits of a GR word. -/
def GR.toBits (op : BitVec 8) (r : GR) : DWord := op ++ r.cnd ++ r.sz ++ r.d ++ r.a ++ r.b ++ r.fn ++ r.imm

/-- The bits of a GI word. -/
def GI.toBits (op : BitVec 8) (r : GI) : DWord := op ++ r.cnd ++ r.sz ++ r.d ++ r.a ++ r.imm

/-- The bits of a GB word. -/
def GB.toBits (op : BitVec 8) (r : GB) : DWord := op ++ r.cnd ++ r.z ++ r.a ++ r.b ++ r.off

/-- The bits of a GM word. -/
def GM.toBits (op : BitVec 8) (r : GM) : DWord := op ++ r.scope ++ r.ord ++ r.sz ++ r.d ++ r.a ++ r.disp

/-- The bits of a GE word. -/
def GE.toBits (op : BitVec 8) (r : GE) : DWord := op ++ r.nh ++ r.fl ++ r.sb ++ r.ch ++ r.len ++ r.id

/-- OPC of a word (R28, R35). -/
def opcOf (w : DWord) : Nat := (w.extractLsb' 56 8).toNat

/-- The lane instruction that a word's opcode and subform name (R38), none for a reserved lane opcode, a generator opcode and
0xFF (R40). -/
def laneOfWord (w : DWord) : Option Instr :=
  match opcOf w with
  | 0x00 => some (.lnop (LR.ofBits w))
  | 0x01 => some (.iadd (LR.ofBits w))
  | 0x02 => some (.isub (LR.ofBits w))
  | 0x03 => some (.imul (LR.ofBits w))
  | 0x04 => some (.imulhi (LR.ofBits w))
  | 0x05 => some (.imad (LR.ofBits w))
  | 0x06 => some (.imadw (LR.ofBits w))
  | 0x07 => some (.idiv (LR.ofBits w))
  | 0x08 => some (.irem (LR.ofBits w))
  | 0x09 => some (.imin (LR.ofBits w))
  | 0x0A => some (.imax (LR.ofBits w))
  | 0x0B => some (.iabs (LR.ofBits w))
  | 0x0C => some (.iadds (LR.ofBits w))
  | 0x0D => some (.andv (LR.ofBits w))
  | 0x0E => some (.orv (LR.ofBits w))
  | 0x0F => some (.xorv (LR.ofBits w))
  | 0x10 => some (.andn (LR.ofBits w))
  | 0x11 => some (.shl (LR.ofBits w))
  | 0x12 => some (.shr (LR.ofBits w))
  | 0x13 => some (.sar (LR.ofBits w))
  | 0x14 => some (.rot (LR.ofBits w))
  | 0x15 => some (.popc (LR.ofBits w))
  | 0x16 => some (.clz (LR.ofBits w))
  | 0x17 => some (.brev (LR.ofBits w))
  | 0x18 => some (.bfx (LR.ofBits w))
  | 0x19 => some (.bfi (LR.ofBits w))
  | 0x1A => some (.mov (LR.ofBits w))
  | 0x1B => some (.sel (LR.ofBits w))
  | 0x1C => some (.icmp (LR.ofBits w))
  | 0x20 => some (.ldi (LI.ofBits w))
  | 0x21 => some (.iaddi (LI.ofBits w))
  | 0x22 => some (.imuli (LI.ofBits w))
  | 0x23 => some (.andi (LI.ofBits w))
  | 0x24 => some (.ori (LI.ofBits w))
  | 0x25 => some (.xori (LI.ofBits w))
  | 0x26 => some (.shifti (LI.ofBits w))
  | 0x27 => some (.icmpi (LI.ofBits w))
  | 0x30 => some (.fadd (LR.ofBits w))
  | 0x31 => some (.fsub (LR.ofBits w))
  | 0x32 => some (.fmul (LR.ofBits w))
  | 0x33 => some (.ffma (LR.ofBits w))
  | 0x34 => some (.fmin (LR.ofBits w))
  | 0x35 => some (.fmax (LR.ofBits w))
  | 0x36 => some (.fdiv (LR.ofBits w))
  | 0x37 => some (.fsqrt (LR.ofBits w))
  | 0x38 => some (.frcp (LR.ofBits w))
  | 0x39 => some (.frsq (LR.ofBits w))
  | 0x3A => some (.fexp2 (LR.ofBits w))
  | 0x3B => some (.flog2 (LR.ofBits w))
  | 0x3C => some (.ftanh (LR.ofBits w))
  | 0x3D => some (.fsin (LR.ofBits w))
  | 0x3E => some (.fcmp (LR.ofBits w))
  | 0x3F => some (.fclass (LR.ofBits w))
  | 0x40 => some (.faddi (LI.ofBits w))
  | 0x41 => some (.fmuli (LI.ofBits w))
  | 0x44 => some (.cvtf (LR.ofBits w))
  | 0x45 => some (.cvtfi (LR.ofBits w))
  | 0x46 => some (.cvtif (LR.ofBits w))
  | 0x47 => some (.scaleb (LR.ofBits w))
  | 0x48 => some (.packmx (LR.ofBits w))
  | 0x49 => some (.unpkmx (LR.ofBits w))
  | 0x4A => some (.packds (LR.ofBits w))
  | 0x4B => some (.unpkds (LR.ofBits w))
  | 0x50 => some (.shfl (LR.ofBits w))
  | 0x51 => some (.lrot (LR.ofBits w))
  | 0x52 => some (.lscan (LR.ofBits w))
  | 0x53 => some (.lred (LR.ofBits w))
  | 0x54 => some (.lbcast (LR.ofBits w))
  | 0x55 => some (.compact (LR.ofBits w))
  | 0x58 => some (.mlog (LR.ofBits w))
  | 0x59 => some (.mset (LR.ofBits w))
  | 0x5A => some (.menter (LR.ofBits w))
  | 0x5B => some (.mflip (LR.ofBits w))
  | 0x5C => some (.mleave (LR.ofBits w))
  | 0x5D => some (.mfirst (LR.ofBits w))
  | 0x5E => some (.mtov (LR.ofBits w))
  | 0x5F => some (.vtom (LR.ofBits w))
  | 0x60 => some (.vote (LI.ofBits w))
  | 0x61 => some (.setfmt (LI.ofBits w))
  | 0x62 => some (.claim (LI.ofBits w))
  | 0x63 => some (.give (LI.ofBits w))
  | 0x64 => some (.trapw (LI.ofBits w))
  | 0x65 => some (.lbrk (LI.ofBits w))
  | 0x66 => some (.wset (LI.ofBits w))
  | 0x67 => some (.lfence (LM.ofBits w))
  | 0x68 => some (.ldw (LM.ofBits w))
  | 0x69 => some (.stw (LM.ofBits w))
  | 0x6A => some (.ldg (LM.ofBits w))
  | 0x6B => some (.stg (LM.ofBits w))
  | 0x6C => some (.atom (LM.ofBits w))
  | 0x6D => some (.atomn (LM.ofBits w))
  | 0x6E => some (.cas (LM.ofBits w))
  | 0x6F => some (.prefw (LM.ofBits w))
  | 0x70 => some (.ldt (LR.ofBits w))
  | 0x71 => some (.stt (LR.ofBits w))
  | 0x72 => some (.tempty (LR.ofBits w))
  | 0x73 => some (.tfull (LR.ofBits w))
  | 0x74 => some (.harrive (LI.ofBits w))
  | 0x75 => some (.hsync (LI.ofBits w))
  | 0x76 => some (.hwait (LI.ofBits w))
  | 0x77 => some (.hexpect (LI.ofBits w))
  | 0x78 => some (.spld (LM.ofBits w))
  | 0x79 => some (.spst (LM.ofBits w))
  | 0x7A => some (.spnext (LM.ofBits w))
  | 0x7B => some (.spadd (LM.ofBits w))
  | 0x80 => some (.mma (LR.ofBits w))
  | 0x81 => some (.mmaz (LR.ofBits w))
  | 0x82 => some (.had (LR.ofBits w))
  | 0x83 => some (.tcvt (LR.ofBits w))
  | 0x84 => if (LR.ofBits w).fn.getLsbD 7 then some (.tepiMem (LR.ofBits w)) else some (.tepi (LR.ofBits w))
  | 0x85 => some (.tnew (LR.ofBits w))
  | 0x86 => some (.tfree (LR.ofBits w))
  | 0x87 => some (.tzero (LR.ofBits w))
  | 0x88 => some (.tfromv (LR.ofBits w))
  | 0x89 => some (.ttov (LR.ofBits w))
  | 0x8A => some (.ttrans (LR.ofBits w))
  | 0x8B => some (.tred (LR.ofBits w))
  | 0x90 => some (.descend (LR.ofBits w))
  | 0x91 => some (.dregroup (LR.ofBits w))
  | 0x92 => some (.dtrace (LR.ofBits w))
  | 0x93 => some (.dgrad (LR.ofBits w))
  | 0x94 => some (.dleaf (LR.ofBits w))
  | _ => none

/-- The generator instruction that a word's opcode and subform name (R38), none for a lane opcode, a reserved generator opcode and
0xFF (R40). -/
def genOfWord (w : DWord) : Option Instr :=
  match opcOf w with
  | 0xA0 => some (.sadd (GR.ofBits w))
  | 0xA1 => some (.ssub (GR.ofBits w))
  | 0xA2 => some (.smul (GR.ofBits w))
  | 0xA3 => some (.smulhi (GR.ofBits w))
  | 0xA4 => some (.sdiv (GR.ofBits w))
  | 0xA5 => some (.srem (GR.ofBits w))
  | 0xA6 => some (.smin (GR.ofBits w))
  | 0xA7 => some (.smax (GR.ofBits w))
  | 0xA8 => some (.sand (GR.ofBits w))
  | 0xA9 => some (.sor (GR.ofBits w))
  | 0xAA => some (.sxor (GR.ofBits w))
  | 0xAB => some (.sshl (GR.ofBits w))
  | 0xAC => some (.sshr (GR.ofBits w))
  | 0xAD => some (.ssar (GR.ofBits w))
  | 0xAE => some (.spopc (GR.ofBits w))
  | 0xAF => some (.sclz (GR.ofBits w))
  | 0xB0 => some (.sbfx (GR.ofBits w))
  | 0xB1 => some (.sbfi (GR.ofBits w))
  | 0xB2 => some (.smov (GR.ofBits w))
  | 0xB3 => some (.ssel (GR.ofBits w))
  | 0xB4 => some (.scmp (GR.ofBits w))
  | 0xB5 => some (.sldi (GI.ofBits w))
  | 0xB6 => some (.sldih (GI.ofBits w))
  | 0xB7 => some (.saddi (GI.ofBits w))
  | 0xB8 => some (.sandi (GI.ofBits w))
  | 0xB9 => some (.sshli (GI.ofBits w))
  | 0xBA => some (.scmpi (GI.ofBits w))
  | 0xBC => some (.sfadd (GR.ofBits w))
  | 0xBD => some (.sfmul (GR.ofBits w))
  | 0xBE => some (.sffma (GR.ofBits w))
  | 0xBF => some (.sfcvt (GR.ofBits w))
  | 0xC0 => some (.br (GB.ofBits w))
  | 0xC1 => some (.brz (GB.ofBits w))
  | 0xC2 => some (.loop (GB.ofBits w))
  | 0xC3 => some (.call (GB.ofBits w))
  | 0xC4 => some (.ret (GR.ofBits w))
  | 0xC5 => some (.jmpr (GR.ofBits w))
  | 0xC6 => some (.exitw (GR.ofBits w))
  | 0xC7 => if (GB.ofBits w).b.getLsbD 0 then some (.yieldTag (GB.ofBits w)) else some (.yield (GB.ofBits w))
  | 0xC8 => some (.emit (GE.ofBits w))
  | 0xC9 => some (.recw (GE.ofBits w))
  | 0xCA => some (.replay (GE.ofBits w))
  | 0xCB => some (.pbdrop (GR.ofBits w))
  | 0xCC => some (.vread (GR.ofBits w))
  | 0xCD => some (.vpeek (GR.ofBits w))
  | 0xCE => some (.sdrain (GR.ofBits w))
  | 0xCF => some (.trans (GR.ofBits w))
  | 0xD0 => some (.sld (GM.ofBits w))
  | 0xD1 => some (.sst (GM.ofBits w))
  | 0xD2 => some (.satom (GM.ofBits w))
  | 0xD3 => some (.scas (GM.ofBits w))
  | 0xD4 => some (.sfence (GM.ofBits w))
  | 0xD5 => some (.mwait (GM.ofBits w))
  | 0xD6 => some (.spref (GM.ofBits w))
  | 0xD8 => some (.copy (GR.ofBits w))
  | 0xD9 => some (.copywait (GR.ofBits w))
  | 0xDA => if (GR.ofBits w).fn.getLsbD 0 then some (.copyqResume (GR.ofBits w)) else some (.copyq (GR.ofBits w))
  | 0xDB => some (.copycan (GR.ofBits w))
  | 0xDC => some (.gwin (GR.ofBits w))
  | 0xDD => some (.gunwin (GR.ofBits w))
  | 0xE0 => some (.gharrive (GR.ofBits w))
  | 0xE1 => some (.ghsync (GR.ofBits w))
  | 0xE2 => some (.chsend (GR.ofBits w))
  | 0xE3 => some (.chrecv (GR.ofBits w))
  | 0xE4 => some (.chset (GR.ofBits w))
  | 0xE8 => some (.tspawn (GR.ofBits w))
  | 0xE9 => if (GR.ofBits w).fn.getLsbD 0 then some (.tretireAt (GR.ofBits w)) else some (.tretire (GR.ofBits w))
  | 0xEA => if (GR.ofBits w).fn.getLsbD 0 then some (.tscoreFree (GR.ofBits w)) else some (.tscore (GR.ofBits w))
  | 0xEB => if (GR.ofBits w).fn.getLsbD 0 then some (.twaitAny (GR.ofBits w)) else some (.twait (GR.ofBits w))
  | 0xEC => some (.specq (GR.ofBits w))
  | 0xED => some (.spechold (GR.ofBits w))
  | 0xEE => if (GR.ofBits w).fn.getLsbD 4 then some (.spnewAttach (GR.ofBits w)) else some (.spnew (GR.ofBits w))
  | 0xEF => if (GR.ofBits w).fn.getLsbD 0 then some (.spfreeStat (GR.ofBits w)) else some (.spfree (GR.ofBits w))
  | 0xF0 => if (GR.ofBits w).fn.getLsbD 0 then some (.sealFree (GR.ofBits w)) else if (GR.ofBits w).fn.getLsbD 1 then some (.sealQ (GR.ofBits w)) else some (.seal (GR.ofBits w))
  | 0xF1 => some (.digest (GR.ofBits w))
  | 0xF2 => some (.dtset (GR.ofBits w))
  | 0xF4 => some (.gtrap (GR.ofBits w))
  | 0xF5 => some (.sread (GR.ofBits w))
  | 0xF6 => some (.swrite (GR.ofBits w))
  | 0xF7 => if (GR.ofBits w).fn.getLsbD 0 then some (.eretSkip (GR.ofBits w)) else if (GR.ofBits w).fn.getLsbD 1 then some (.eretTarget (GR.ofBits w)) else some (.eret (GR.ofBits w))
  | 0xF8 => if (GR.ofBits w).fn.getLsbD 0 then some (.ctxsaveSquad (GR.ofBits w)) else some (.ctxsaveRec (GR.ofBits w))
  | 0xF9 => if (GR.ofBits w).fn.getLsbD 0 then some (.ctxloadSquad (GR.ofBits w)) else some (.ctxloadRec (GR.ofBits w))
  | 0xFA => some (.tmask (GR.ofBits w))
  | 0xFB => if (GR.ofBits w).fn.getLsbD 0 then some (.umprelKill (GR.ofBits w)) else some (.umprel (GR.ofBits w))
  | 0xFC => some (.gnop (GR.ofBits w))
  | 0xFD => some (.tresume (GR.ofBits w))
  | _ => none

/-- What a lane core decodes from a word: an instruction that passes the static checks, or the cause of its trap (R40, R41). -/
def decodeLane (w : DWord) : Except Cause Instr :=
  match laneOfWord w with
  | none => .error .illegalLaneOpc
  | some i => match fieldCheck {} i with
    | some c => .error c
    | none => .ok i

/-- What a generator core decodes from a word outside an emission block (R40, R41). -/
def decodeGen (w : DWord) : Except Cause Instr :=
  match genOfWord w with
  | none => .error .illegalGenOpc
  | some i => match fieldCheck {} i with
    | some c => .error c
    | none => .ok i

/-- The decoder of the level a word's opcode belongs to: lane opcodes below 0xA0 (R38). -/
def decodeWord (w : DWord) : Except Cause Instr := if opcOf w < 0xA0 then decodeLane w else decodeGen w

/-- A word read from eight bytes, the lowest address first (R3, R19). -/
def wordOfBytes (bs : List Byte) : DWord := BitVec.ofNat 64 (ofBytes (bs.take 8))

/-- Decodes the first eight of a list of bytes and gives the rest with it. -/
def decodeBytes (bs : List Byte) : Except Cause (Instr × List Byte) :=
  match decodeWord (wordOfBytes bs) with
  | .ok i => .ok (i, bs.drop 8)
  | .error c => .error c

/-- The instruction whose table bits are `w` (R19: every word is 64 bits, stored little-endian); bits at or above 64 or at or above
`nbits` are taken as zero.
(DESIGN CHOICE, log 9) -/
def decodeTableWord (nbits w : Nat) : Option Instr :=
  match decodeBytes (toBytes 8 (w % 2 ^ min nbits 64)) with
  | .ok (i, _) => some i
  | .error _ => none

/-! ## The encoder -/

/-- The word of an instruction (R28, R35, R38); a device step has none. -/
def encode (i : Instr) : Option DWord :=
  match i with
  | .lnop r => some (r.toBits 0x00)
  | .iadd r => some (r.toBits 0x01)
  | .isub r => some (r.toBits 0x02)
  | .imul r => some (r.toBits 0x03)
  | .imulhi r => some (r.toBits 0x04)
  | .imad r => some (r.toBits 0x05)
  | .imadw r => some (r.toBits 0x06)
  | .idiv r => some (r.toBits 0x07)
  | .irem r => some (r.toBits 0x08)
  | .imin r => some (r.toBits 0x09)
  | .imax r => some (r.toBits 0x0A)
  | .iabs r => some (r.toBits 0x0B)
  | .iadds r => some (r.toBits 0x0C)
  | .andv r => some (r.toBits 0x0D)
  | .orv r => some (r.toBits 0x0E)
  | .xorv r => some (r.toBits 0x0F)
  | .andn r => some (r.toBits 0x10)
  | .shl r => some (r.toBits 0x11)
  | .shr r => some (r.toBits 0x12)
  | .sar r => some (r.toBits 0x13)
  | .rot r => some (r.toBits 0x14)
  | .popc r => some (r.toBits 0x15)
  | .clz r => some (r.toBits 0x16)
  | .brev r => some (r.toBits 0x17)
  | .bfx r => some (r.toBits 0x18)
  | .bfi r => some (r.toBits 0x19)
  | .mov r => some (r.toBits 0x1A)
  | .sel r => some (r.toBits 0x1B)
  | .icmp r => some (r.toBits 0x1C)
  | .ldi r => some (r.toBits 0x20)
  | .iaddi r => some (r.toBits 0x21)
  | .imuli r => some (r.toBits 0x22)
  | .andi r => some (r.toBits 0x23)
  | .ori r => some (r.toBits 0x24)
  | .xori r => some (r.toBits 0x25)
  | .shifti r => some (r.toBits 0x26)
  | .icmpi r => some (r.toBits 0x27)
  | .fadd r => some (r.toBits 0x30)
  | .fsub r => some (r.toBits 0x31)
  | .fmul r => some (r.toBits 0x32)
  | .ffma r => some (r.toBits 0x33)
  | .fmin r => some (r.toBits 0x34)
  | .fmax r => some (r.toBits 0x35)
  | .fdiv r => some (r.toBits 0x36)
  | .fsqrt r => some (r.toBits 0x37)
  | .frcp r => some (r.toBits 0x38)
  | .frsq r => some (r.toBits 0x39)
  | .fexp2 r => some (r.toBits 0x3A)
  | .flog2 r => some (r.toBits 0x3B)
  | .ftanh r => some (r.toBits 0x3C)
  | .fsin r => some (r.toBits 0x3D)
  | .fcmp r => some (r.toBits 0x3E)
  | .fclass r => some (r.toBits 0x3F)
  | .faddi r => some (r.toBits 0x40)
  | .fmuli r => some (r.toBits 0x41)
  | .cvtf r => some (r.toBits 0x44)
  | .cvtfi r => some (r.toBits 0x45)
  | .cvtif r => some (r.toBits 0x46)
  | .scaleb r => some (r.toBits 0x47)
  | .packmx r => some (r.toBits 0x48)
  | .unpkmx r => some (r.toBits 0x49)
  | .packds r => some (r.toBits 0x4A)
  | .unpkds r => some (r.toBits 0x4B)
  | .shfl r => some (r.toBits 0x50)
  | .lrot r => some (r.toBits 0x51)
  | .lscan r => some (r.toBits 0x52)
  | .lred r => some (r.toBits 0x53)
  | .lbcast r => some (r.toBits 0x54)
  | .compact r => some (r.toBits 0x55)
  | .mlog r => some (r.toBits 0x58)
  | .mset r => some (r.toBits 0x59)
  | .menter r => some (r.toBits 0x5A)
  | .mflip r => some (r.toBits 0x5B)
  | .mleave r => some (r.toBits 0x5C)
  | .mfirst r => some (r.toBits 0x5D)
  | .mtov r => some (r.toBits 0x5E)
  | .vtom r => some (r.toBits 0x5F)
  | .vote r => some (r.toBits 0x60)
  | .setfmt r => some (r.toBits 0x61)
  | .claim r => some (r.toBits 0x62)
  | .give r => some (r.toBits 0x63)
  | .trapw r => some (r.toBits 0x64)
  | .lbrk r => some (r.toBits 0x65)
  | .wset r => some (r.toBits 0x66)
  | .lfence r => some (r.toBits 0x67)
  | .ldw r => some (r.toBits 0x68)
  | .stw r => some (r.toBits 0x69)
  | .ldg r => some (r.toBits 0x6A)
  | .stg r => some (r.toBits 0x6B)
  | .atom r => some (r.toBits 0x6C)
  | .atomn r => some (r.toBits 0x6D)
  | .cas r => some (r.toBits 0x6E)
  | .prefw r => some (r.toBits 0x6F)
  | .ldt r => some (r.toBits 0x70)
  | .stt r => some (r.toBits 0x71)
  | .tempty r => some (r.toBits 0x72)
  | .tfull r => some (r.toBits 0x73)
  | .harrive r => some (r.toBits 0x74)
  | .hsync r => some (r.toBits 0x75)
  | .hwait r => some (r.toBits 0x76)
  | .hexpect r => some (r.toBits 0x77)
  | .spld r => some (r.toBits 0x78)
  | .spst r => some (r.toBits 0x79)
  | .spnext r => some (r.toBits 0x7A)
  | .spadd r => some (r.toBits 0x7B)
  | .mma r => some (r.toBits 0x80)
  | .mmaz r => some (r.toBits 0x81)
  | .had r => some (r.toBits 0x82)
  | .tcvt r => some (r.toBits 0x83)
  | .tepi r => some (r.toBits 0x84)
  | .tepiMem r => some (r.toBits 0x84)
  | .tnew r => some (r.toBits 0x85)
  | .tfree r => some (r.toBits 0x86)
  | .tzero r => some (r.toBits 0x87)
  | .tfromv r => some (r.toBits 0x88)
  | .ttov r => some (r.toBits 0x89)
  | .ttrans r => some (r.toBits 0x8A)
  | .tred r => some (r.toBits 0x8B)
  | .descend r => some (r.toBits 0x90)
  | .dregroup r => some (r.toBits 0x91)
  | .dtrace r => some (r.toBits 0x92)
  | .dgrad r => some (r.toBits 0x93)
  | .dleaf r => some (r.toBits 0x94)
  | .sadd r => some (r.toBits 0xA0)
  | .ssub r => some (r.toBits 0xA1)
  | .smul r => some (r.toBits 0xA2)
  | .smulhi r => some (r.toBits 0xA3)
  | .sdiv r => some (r.toBits 0xA4)
  | .srem r => some (r.toBits 0xA5)
  | .smin r => some (r.toBits 0xA6)
  | .smax r => some (r.toBits 0xA7)
  | .sand r => some (r.toBits 0xA8)
  | .sor r => some (r.toBits 0xA9)
  | .sxor r => some (r.toBits 0xAA)
  | .sshl r => some (r.toBits 0xAB)
  | .sshr r => some (r.toBits 0xAC)
  | .ssar r => some (r.toBits 0xAD)
  | .spopc r => some (r.toBits 0xAE)
  | .sclz r => some (r.toBits 0xAF)
  | .sbfx r => some (r.toBits 0xB0)
  | .sbfi r => some (r.toBits 0xB1)
  | .smov r => some (r.toBits 0xB2)
  | .ssel r => some (r.toBits 0xB3)
  | .scmp r => some (r.toBits 0xB4)
  | .sldi r => some (r.toBits 0xB5)
  | .sldih r => some (r.toBits 0xB6)
  | .saddi r => some (r.toBits 0xB7)
  | .sandi r => some (r.toBits 0xB8)
  | .sshli r => some (r.toBits 0xB9)
  | .scmpi r => some (r.toBits 0xBA)
  | .sfadd r => some (r.toBits 0xBC)
  | .sfmul r => some (r.toBits 0xBD)
  | .sffma r => some (r.toBits 0xBE)
  | .sfcvt r => some (r.toBits 0xBF)
  | .br r => some (r.toBits 0xC0)
  | .brz r => some (r.toBits 0xC1)
  | .loop r => some (r.toBits 0xC2)
  | .call r => some (r.toBits 0xC3)
  | .ret r => some (r.toBits 0xC4)
  | .jmpr r => some (r.toBits 0xC5)
  | .exitw r => some (r.toBits 0xC6)
  | .yield r => some (r.toBits 0xC7)
  | .yieldTag r => some (r.toBits 0xC7)
  | .emit r => some (r.toBits 0xC8)
  | .recw r => some (r.toBits 0xC9)
  | .replay r => some (r.toBits 0xCA)
  | .pbdrop r => some (r.toBits 0xCB)
  | .vread r => some (r.toBits 0xCC)
  | .vpeek r => some (r.toBits 0xCD)
  | .sdrain r => some (r.toBits 0xCE)
  | .trans r => some (r.toBits 0xCF)
  | .sld r => some (r.toBits 0xD0)
  | .sst r => some (r.toBits 0xD1)
  | .satom r => some (r.toBits 0xD2)
  | .scas r => some (r.toBits 0xD3)
  | .sfence r => some (r.toBits 0xD4)
  | .mwait r => some (r.toBits 0xD5)
  | .spref r => some (r.toBits 0xD6)
  | .copy r => some (r.toBits 0xD8)
  | .copywait r => some (r.toBits 0xD9)
  | .copyq r => some (r.toBits 0xDA)
  | .copyqResume r => some (r.toBits 0xDA)
  | .copycan r => some (r.toBits 0xDB)
  | .gwin r => some (r.toBits 0xDC)
  | .gunwin r => some (r.toBits 0xDD)
  | .gharrive r => some (r.toBits 0xE0)
  | .ghsync r => some (r.toBits 0xE1)
  | .chsend r => some (r.toBits 0xE2)
  | .chrecv r => some (r.toBits 0xE3)
  | .chset r => some (r.toBits 0xE4)
  | .tspawn r => some (r.toBits 0xE8)
  | .tretire r => some (r.toBits 0xE9)
  | .tretireAt r => some (r.toBits 0xE9)
  | .tscore r => some (r.toBits 0xEA)
  | .tscoreFree r => some (r.toBits 0xEA)
  | .twait r => some (r.toBits 0xEB)
  | .twaitAny r => some (r.toBits 0xEB)
  | .specq r => some (r.toBits 0xEC)
  | .spechold r => some (r.toBits 0xED)
  | .spnew r => some (r.toBits 0xEE)
  | .spnewAttach r => some (r.toBits 0xEE)
  | .spfree r => some (r.toBits 0xEF)
  | .spfreeStat r => some (r.toBits 0xEF)
  | .seal r => some (r.toBits 0xF0)
  | .sealFree r => some (r.toBits 0xF0)
  | .sealQ r => some (r.toBits 0xF0)
  | .digest r => some (r.toBits 0xF1)
  | .dtset r => some (r.toBits 0xF2)
  | .gtrap r => some (r.toBits 0xF4)
  | .sread r => some (r.toBits 0xF5)
  | .swrite r => some (r.toBits 0xF6)
  | .eret r => some (r.toBits 0xF7)
  | .eretSkip r => some (r.toBits 0xF7)
  | .eretTarget r => some (r.toBits 0xF7)
  | .ctxsaveRec r => some (r.toBits 0xF8)
  | .ctxloadRec r => some (r.toBits 0xF9)
  | .ctxsaveSquad r => some (r.toBits 0xF8)
  | .ctxloadSquad r => some (r.toBits 0xF9)
  | .tmask r => some (r.toBits 0xFA)
  | .umprel r => some (r.toBits 0xFB)
  | .umprelKill r => some (r.toBits 0xFB)
  | .gnop r => some (r.toBits 0xFC)
  | .tresume r => some (r.toBits 0xFD)
  | .clauseHeaderDecode | .stretchDeliver | .replayIteration | .playbookFill | .flagIdle | .lineWaitResume 
  | .tileStarvedTimeout | .huddleWaitEnd | .matrixUnitStart | .claimGrant | .giveReturn | .tfreeEffect | .teamEvict 
  | .teamReturn | .teamEnd | .squadExit | .voteReadable | .trapEntry | .contextWaitResume | .mwaitReread 
  | .preemptContext | .preemptDeferTimeout | .contextRestore | .copyStart | .copyLineWrite | .copyComplete | .l1Fill 
  | .faultRecord | .fdoneWrite | .firstTouchService | .bullpenRefill | .shootdownStart | .shootdownComplete 
  | .mailboxCreate | .mailboxDestroy | .configRegWrite | .patrolScrub | .taskReady | .lineupRise | .taskPlace 
  | .quantumExpiry | .exclLoad | .taskRetire | .versionFold | .specReady | .specValidate | .specCommit | .hostRead 
  | .hostWrite | .launchFrame | .hostAck | .messageResend | .managementMessage | .spdmGetMeasurements | .ownerCreate 
  | .ownerRetire | .logConsumeAdvance | .powerOn | .hostReset | .flitCrcRetry | .linkFailure | .opEntryWrite 
  | .opointRecompute | .governorInterval | .energyUpdate | .sensorSample | .clampLift | .undervoltStep | .powerEvent 
  | .undervoltLockoutEnd | .violationRecord | .sealHashDone | .firmwareUpdate | .firmwareHeartbeat | .probationTimeout 
  | .remoteRequest | .remoteResponse | .remoteTimeout | .shootdownNotice | .illegalLaneOpc | .illegalGenOpc => none

end Sys2Proof
end

