-- ==== Sys2Proof/Config.lean ====
section
/-! DEFINITION. The values the spec leaves open, as opaque constants: nothing in Lean can evaluate one or prove a
value of it, so a statement about one holds for every value. Each is applied to the counter `State.free`
(which the step advances) or to the operands it depends on. The assumption log names each use. -/

namespace Sys2Proof.Config

/-- A free bit for each value of the counter and an index: which of two values a hazarded read or write takes (R25), which copy
of a line a plain read sees, whether the predictor's update of a tied case lands.
(DESIGN CHOICE, log 4) -/
opaque freeBool : Nat → Nat → Bool

/-- A free natural number for each value of the counter and an index.
(DESIGN CHOICE, log 4) -/
opaque freeNat : Nat → Nat → Nat

/-- The capacity in bytes of a die's rename pool (R365): the spec gives none.
(DESIGN CHOICE, log 14) -/
opaque renamePool : Nat

/-- The fused minimum voltage in mV for a frequency in MHz (R406), which differs from device to device.
(DESIGN CHOICE, log 15) -/
opaque fusedMin : Nat → Nat

/-- A free byte for each value of the counter and an index: bytes read under another owner's key (R327).
(DESIGN CHOICE, log 4) -/
opaque freeByte : Nat → Nat → Byte

/-- The F32 bits an approximating lane function gives before its last rounding (R107), for the function, the operand bits and the counter; the
model takes them only where they lie within the bound that R107 states.
(DESIGN CHOICE, log 5) -/
opaque approxBits : Nat → Nat → Nat → Nat

/-- Whole energy in microjoules that cluster `a` uses in `n` ns from time `t` on, which the spec leaves to the hardware (R411).
(DESIGN CHOICE, log 64) -/
opaque energyUsed (a t n : Nat) : Nat

/-- A 256-bit or 384-bit signature or attestation value over the listed bytes (R429): the spec names the scheme and
gives no key.
(DESIGN CHOICE, log 16) -/
opaque signature : List Byte → List Byte

/-- A firmware image verifies under RSA-3072 with PSS and SHA-384 against the fused public key (R429), which the spec does not give.
(DESIGN CHOICE, log 16) -/
opaque rsaVerifies : List Byte → Bool

/-- A firmware image verifies under SLH-DSA-SHA2-192s against the fused public key (R429).
(DESIGN CHOICE, log 16) -/
opaque slhVerifies : List Byte → Bool

/-- The security version of a firmware image (R429), whose place in the image the spec does not give.
(DESIGN CHOICE, log 16) -/
opaque securityVersion : List Byte → Nat

/-- The fused minimum security version (R429).
(DESIGN CHOICE, log 16) -/
opaque fusedVersion : Nat

/-- The 32-bit version with which a firmware image tags the structure it hands over (R430).
(DESIGN CHOICE, log 70) -/
opaque stateVersion : List Byte → BitVec 32

/-- A firmware image accepts a structure of a version (R430).
(DESIGN CHOICE, log 70) -/
opaque acceptsVersion : List Byte → BitVec 32 → Bool

/-- The size in bytes of a squad's save area, which capability 0x0001 reports (R294, R416): the spec gives no number. The bound of 1 GiB
is the model's, far above what R296 and R297 list.
(DESIGN CHOICE, log 13) -/
opaque saveAreaBytes : Fin (2 ^ 30)

end Sys2Proof.Config
end

