-- ==== Sys2Proof/Machine/Classes.lean ====
section
/-! DEFINITION. Classes of instructions that the issue rules name: the long-latency words (R24) and the words that issue in one slot
(R446). -/

namespace Sys2Proof.Machine

/-- A long-latency word (R24).
(DESIGN CHOICE, log 3) -/
def isLong (i : Instr) : Bool :=
  match i with
  | .idiv _ | .irem _ | .fdiv _ | .fsqrt _ | .frcp _ | .frsq _ | .fexp2 _ | .flog2 _ | .ftanh _ | .fsin _ | .ldw _ 
  | .stw _ | .ldg _ | .stg _ | .atom _ | .atomn _ | .cas _ | .prefw _ | .ldt _ | .stt _ | .tempty _ | .tfull _ 
  | .harrive _ | .hsync _ | .hwait _ | .hexpect _ | .spld _ | .spst _ | .spnext _ | .spadd _ | .mma _ | .mmaz _ | .had _ 
  | .tcvt _ | .tepi _ | .tepiMem _ | .tnew _ | .tfree _ | .tzero _ | .tfromv _ | .ttov _ | .ttrans _ | .tred _ 
  | .descend _ | .dregroup _ | .dtrace _ | .dgrad _ | .dleaf _ | .sdiv _ | .srem _ | .sfcvt _ | .sld _ | .satom _ 
  | .scas _ => true
  | .lnop _ | .iadd _ | .isub _ | .imul _ | .imulhi _ | .imad _ | .imadw _ | .imin _ | .imax _ | .iabs _ | .iadds _ 
  | .andv _ | .orv _ | .xorv _ | .andn _ | .shl _ | .shr _ | .sar _ | .rot _ | .popc _ | .clz _ | .brev _ | .bfx _ 
  | .bfi _ | .mov _ | .sel _ | .icmp _ | .ldi _ | .iaddi _ | .imuli _ | .andi _ | .ori _ | .xori _ | .shifti _ 
  | .icmpi _ | .fadd _ | .fsub _ | .fmul _ | .ffma _ | .fmin _ | .fmax _ | .fcmp _ | .fclass _ | .faddi _ | .fmuli _ 
  | .cvtf _ | .cvtfi _ | .cvtif _ | .scaleb _ | .packmx _ | .unpkmx _ | .packds _ | .unpkds _ | .shfl _ | .lrot _ 
  | .lscan _ | .lred _ | .lbcast _ | .compact _ | .mlog _ | .mset _ | .menter _ | .mflip _ | .mleave _ | .mfirst _ 
  | .mtov _ | .vtom _ | .vote _ | .setfmt _ | .claim _ | .give _ | .trapw _ | .lbrk _ | .wset _ | .lfence _ | .sadd _ 
  | .ssub _ | .smul _ | .smulhi _ | .smin _ | .smax _ | .sand _ | .sor _ | .sxor _ | .sshl _ | .sshr _ | .ssar _ 
  | .spopc _ | .sclz _ | .sbfx _ | .sbfi _ | .smov _ | .ssel _ | .scmp _ | .sldi _ | .sldih _ | .saddi _ | .sandi _ 
  | .sshli _ | .scmpi _ | .sfadd _ | .sfmul _ | .sffma _ | .br _ | .brz _ | .loop _ | .call _ | .ret _ | .jmpr _ 
  | .exitw _ | .yield _ | .yieldTag _ | .emit _ | .recw _ | .replay _ | .pbdrop _ | .vread _ | .vpeek _ | .sdrain _ 
  | .trans _ | .sst _ | .sfence _ | .mwait _ | .spref _ | .copy _ | .copywait _ | .copyq _ | .copyqResume _ | .copycan _ 
  | .gwin _ | .gunwin _ | .gharrive _ | .ghsync _ | .chsend _ | .chrecv _ | .chset _ | .tspawn _ | .tretire _ 
  | .tretireAt _ | .tscore _ | .tscoreFree _ | .twait _ | .twaitAny _ | .specq _ | .spechold _ | .spnew _ 
  | .spnewAttach _ | .spfree _ | .spfreeStat _ | .seal _ | .sealFree _ | .sealQ _ | .digest _ | .dtset _ | .gtrap _ 
  | .sread _ | .swrite _ | .eret _ | .eretSkip _ | .eretTarget _ | .ctxsaveRec _ | .ctxloadRec _ | .ctxsaveSquad _ 
  | .ctxloadSquad _ | .tmask _ | .umprel _ | .umprelKill _ | .gnop _ | .tresume _ | .clauseHeaderDecode 
  | .stretchDeliver | .replayIteration | .playbookFill | .flagIdle | .lineWaitResume | .tileStarvedTimeout 
  | .huddleWaitEnd | .matrixUnitStart | .claimGrant | .giveReturn | .tfreeEffect | .teamEvict | .teamReturn | .teamEnd 
  | .squadExit | .voteReadable | .trapEntry | .contextWaitResume | .mwaitReread | .preemptContext | .preemptDeferTimeout 
  | .contextRestore | .copyStart | .copyLineWrite | .copyComplete | .l1Fill | .faultRecord | .fdoneWrite 
  | .firstTouchService | .bullpenRefill | .shootdownStart | .shootdownComplete | .mailboxCreate | .mailboxDestroy 
  | .configRegWrite | .patrolScrub | .taskReady | .lineupRise | .taskPlace | .quantumExpiry | .exclLoad | .taskRetire 
  | .versionFold | .specReady | .specValidate | .specCommit | .hostRead | .hostWrite | .launchFrame | .hostAck 
  | .messageResend | .managementMessage | .spdmGetMeasurements | .ownerCreate | .ownerRetire | .logConsumeAdvance 
  | .powerOn | .hostReset | .flitCrcRetry | .linkFailure | .opEntryWrite | .opointRecompute | .governorInterval 
  | .energyUpdate | .sensorSample | .clampLift | .undervoltStep | .powerEvent | .undervoltLockoutEnd | .violationRecord 
  | .sealHashDone | .firmwareUpdate | .firmwareHeartbeat | .probationTimeout | .remoteRequest | .remoteResponse 
  | .remoteTimeout | .shootdownNotice | .illegalLaneOpc | .illegalGenOpc => false

/-- A lane word that issues in exactly one issue slot (R446), apart from a matrix word whose A comes from the latch. -/
def oneSlot (i : Instr) : Bool :=
  match i with
  | .lnop _ | .menter _ | .mflip _ | .mleave _ | .setfmt _ | .claim _ | .give _ | .trapw _ | .lbrk _ | .wset _ 
  | .lfence _ | .harrive _ | .hsync _ | .hwait _ | .hexpect _ | .had _ | .tcvt _ | .tnew _ | .tfree _ | .tzero _ 
  | .ttrans _ | .tred _ => true
  | .iadd _ | .isub _ | .imul _ | .imulhi _ | .imad _ | .imadw _ | .idiv _ | .irem _ | .imin _ | .imax _ | .iabs _ 
  | .iadds _ | .andv _ | .orv _ | .xorv _ | .andn _ | .shl _ | .shr _ | .sar _ | .rot _ | .popc _ | .clz _ | .brev _ 
  | .bfx _ | .bfi _ | .mov _ | .sel _ | .icmp _ | .ldi _ | .iaddi _ | .imuli _ | .andi _ | .ori _ | .xori _ | .shifti _ 
  | .icmpi _ | .fadd _ | .fsub _ | .fmul _ | .ffma _ | .fmin _ | .fmax _ | .fdiv _ | .fsqrt _ | .frcp _ | .frsq _ 
  | .fexp2 _ | .flog2 _ | .ftanh _ | .fsin _ | .fcmp _ | .fclass _ | .faddi _ | .fmuli _ | .cvtf _ | .cvtfi _ | .cvtif _ 
  | .scaleb _ | .packmx _ | .unpkmx _ | .packds _ | .unpkds _ | .shfl _ | .lrot _ | .lscan _ | .lred _ | .lbcast _ 
  | .compact _ | .mlog _ | .mset _ | .mfirst _ | .mtov _ | .vtom _ | .vote _ | .ldw _ | .stw _ | .ldg _ | .stg _ 
  | .atom _ | .atomn _ | .cas _ | .prefw _ | .ldt _ | .stt _ | .tempty _ | .tfull _ | .spld _ | .spst _ | .spnext _ 
  | .spadd _ | .mma _ | .mmaz _ | .tepi _ | .tepiMem _ | .tfromv _ | .ttov _ | .descend _ | .dregroup _ | .dtrace _ 
  | .dgrad _ | .dleaf _ | .sadd _ | .ssub _ | .smul _ | .smulhi _ | .sdiv _ | .srem _ | .smin _ | .smax _ | .sand _ 
  | .sor _ | .sxor _ | .sshl _ | .sshr _ | .ssar _ | .spopc _ | .sclz _ | .sbfx _ | .sbfi _ | .smov _ | .ssel _ 
  | .scmp _ | .sldi _ | .sldih _ | .saddi _ | .sandi _ | .sshli _ | .scmpi _ | .sfadd _ | .sfmul _ | .sffma _ | .sfcvt _ 
  | .br _ | .brz _ | .loop _ | .call _ | .ret _ | .jmpr _ | .exitw _ | .yield _ | .yieldTag _ | .emit _ | .recw _ 
  | .replay _ | .pbdrop _ | .vread _ | .vpeek _ | .sdrain _ | .trans _ | .sld _ | .sst _ | .satom _ | .scas _ 
  | .sfence _ | .mwait _ | .spref _ | .copy _ | .copywait _ | .copyq _ | .copyqResume _ | .copycan _ | .gwin _ 
  | .gunwin _ | .gharrive _ | .ghsync _ | .chsend _ | .chrecv _ | .chset _ | .tspawn _ | .tretire _ | .tretireAt _ 
  | .tscore _ | .tscoreFree _ | .twait _ | .twaitAny _ | .specq _ | .spechold _ | .spnew _ | .spnewAttach _ | .spfree _ 
  | .spfreeStat _ | .seal _ | .sealFree _ | .sealQ _ | .digest _ | .dtset _ | .gtrap _ | .sread _ | .swrite _ | .eret _ 
  | .eretSkip _ | .eretTarget _ | .ctxsaveRec _ | .ctxloadRec _ | .ctxsaveSquad _ | .ctxloadSquad _ | .tmask _ 
  | .umprel _ | .umprelKill _ | .gnop _ | .tresume _ | .clauseHeaderDecode | .stretchDeliver | .replayIteration 
  | .playbookFill | .flagIdle | .lineWaitResume | .tileStarvedTimeout | .huddleWaitEnd | .matrixUnitStart | .claimGrant 
  | .giveReturn | .tfreeEffect | .teamEvict | .teamReturn | .teamEnd | .squadExit | .voteReadable | .trapEntry 
  | .contextWaitResume | .mwaitReread | .preemptContext | .preemptDeferTimeout | .contextRestore | .copyStart 
  | .copyLineWrite | .copyComplete | .l1Fill | .faultRecord | .fdoneWrite | .firstTouchService | .bullpenRefill 
  | .shootdownStart | .shootdownComplete | .mailboxCreate | .mailboxDestroy | .configRegWrite | .patrolScrub 
  | .taskReady | .lineupRise | .taskPlace | .quantumExpiry | .exclLoad | .taskRetire | .versionFold | .specReady 
  | .specValidate | .specCommit | .hostRead | .hostWrite | .launchFrame | .hostAck | .messageResend | .managementMessage 
  | .spdmGetMeasurements | .ownerCreate | .ownerRetire | .logConsumeAdvance | .powerOn | .hostReset | .flitCrcRetry 
  | .linkFailure | .opEntryWrite | .opointRecompute | .governorInterval | .energyUpdate | .sensorSample | .clampLift 
  | .undervoltStep | .powerEvent | .undervoltLockoutEnd | .violationRecord | .sealHashDone | .firmwareUpdate 
  | .firmwareHeartbeat | .probationTimeout | .remoteRequest | .remoteResponse | .remoteTimeout | .shootdownNotice 
  | .illegalLaneOpc | .illegalGenOpc => false

end Sys2Proof.Machine
end

