-- ==== Sys2Proof/Machine/Sources.lean ====
section
/-! DEFINITION. The lane registers an instruction word reads (R32, R204, R208). -/

namespace Sys2Proof.Machine

/-- `k` registers from `v` on. -/
def runRegs (v k : Nat) : List Nat := (upTo k).map (v + ·)

/-- The registers a source operand names: none for a special operand, a pair for a 64-bit type (R31, R32). -/
def srcRegs (wide : Bool) (v : Nat) : List Nat := if 0x80 ≤ v then [] else if wide then [v, v + 1] else [v]

/-- The lane registers that a lane word reads in its passes, apart from the words of `matrixRegs`, the coordinates of region words, which their window
gives, and the registers that TNEW and TRAP read in one lane. -/
def readRegs (e : CkEnv) (i : Instr) : List Nat :=
  match i with
  | .iadd w | .isub w | .imul w | .imulhi w | .idiv w | .irem w | .imin w | .imax w | .iadds w | .andv w | .orv w
  | .xorv w | .andn w | .shl w | .shr w | .sar w | .rot w | .bfx w | .sel w | .icmp w | .fadd w | .fsub w | .fmul w
  | .fmin w | .fmax w | .fdiv w | .fcmp w =>
    srcRegs (wideTy e w.ty) w.a.toNat ++ srcRegs (wideTy e w.ty) w.b.toNat
  | .imad w | .bfi w | .ffma w =>
    srcRegs (wideTy e w.ty) w.a.toNat ++ srcRegs (wideTy e w.ty) w.b.toNat ++ srcRegs (wideTy e w.ty) w.c.toNat
  | .imadw w =>
    srcRegs false w.a.toNat ++ srcRegs false w.b.toNat ++ srcRegs true w.c.toNat
  | .iabs w | .popc w | .clz w | .brev w | .mov w | .iaddi w | .imuli w | .andi w | .ori w | .xori w | .shifti w
  | .icmpi w | .fsqrt w | .frcp w | .frsq w | .fexp2 w | .flog2 w | .ftanh w | .fsin w | .fclass w | .faddi w
  | .fmuli w | .lrot w | .lscan w | .lred w | .lbcast w | .compact w =>
    srcRegs (wideTy e w.ty) w.a.toNat
  | .cvtf w | .cvtfi w | .cvtif w =>
    srcRegs (let t := if w.ty = 0x1F then field32 e.fm 0 5 else fieldN w.fn.toNat 0 5; t == 6 || t == 7) w.a.toNat
  | .scaleb w | .shfl w =>
    srcRegs (wideTy e w.ty) w.a.toNat ++ srcRegs false w.b.toNat
  | .packmx w | .unpkmx w | .packds w | .unpkds w | .vtom w =>
    srcRegs false w.a.toNat
  | .ldw w | .prefw w | .descend w =>
    [w.a.toNat]
  | .stw w | .atom w | .atomn w =>
    [w.a.toNat] ++ srcRegs (wideTy e w.ty) w.d.toNat
  | .ldg w | .dregroup w | .dgrad w =>
    runRegs w.a.toNat 2
  | .stg w =>
    runRegs w.a.toNat 2 ++ srcRegs (wideTy e w.ty) w.d.toNat
  | .cas w =>
    [w.a.toNat] ++ runRegs w.d.toNat (if wideTy e w.ty then 4 else 2)
  | .ldt w | .tempty w | .tfull w =>
    srcRegs false w.a.toNat ++ srcRegs false w.c.toNat
  | .stt w =>
    srcRegs false w.a.toNat ++ srcRegs false w.c.toNat ++ srcRegs (wideTy e w.ty) w.d.toNat
  | .dleaf w =>
    srcRegs false w.a.toNat ++ if w.fn.getLsbD 6 then runRegs w.d.toNat (fieldN w.fn.toNat 3 3 + 1) else []
  | _ => []

/-- The lane registers that an MMA, MMAZ, TFROMV or TEPI reads, whose checks come before the registers' own errors (R177). -/
def matrixRegs (e : CkEnv) (i : Instr) : List Nat :=
  match i with
  | .mma w | .mmaz w =>
    runRegs w.a.toNat (if mmaA.contains (effTy e w.ty) then mmaSpan (effTy e w.ty) (w.ex.getLsbD 2) else 1)
  | .tfromv w => runRegs w.a.toNat (fieldN w.fn.toNat 0 5 + 1)
  | .tepi w =>
    runRegs (w.a.toNat + 1) (b2n (w.fn.getLsbD 5)) ++ runRegs (w.a.toNat + 2) (b2n (w.fn.getLsbD 4))
  | .tepiMem w =>
    runRegs w.a.toNat 1 ++ runRegs (w.a.toNat + 1) (b2n (w.fn.getLsbD 5)) ++ runRegs (w.a.toNat + 2) (b2n (w.fn.getLsbD 4))
  | _ => []

end Sys2Proof.Machine
end

