-- ==== Sys2Proof/Machine/Fp.lean ====
section
/-! DEFINITION. Number formats and rounding (03_lane_numbers.md R52 to R75): exact values, Decode, RoundTo, Overflowed,
the integer conversions, DS8 and MXINT8, microscaled blocks and EncodeBlock, and exact sums. -/

namespace Sys2Proof.Machine

/-! ## Types (R34) -/

/-- The operand types of TY (R34). -/
inductive NumTy where
  | i8 | n8 | i16 | n16 | i32 | n32 | i64 | n64
  | f16 | bf16 | f32 | f64 | e4m3 | e5m2
  | mxe4m3 | mxe5m2 | mxe2m3 | mxe3m2 | mxe2m1 | mxi8 | ds8
deriving DecidableEq, Repr

/-- The type a code names; 0x15 to 0x1F name none (R34). -/
def NumTy.ofCode : Nat → Option NumTy
  | 0x00 => some .i8 | 0x01 => some .n8 | 0x02 => some .i16 | 0x03 => some .n16
  | 0x04 => some .i32 | 0x05 => some .n32 | 0x06 => some .i64 | 0x07 => some .n64
  | 0x08 => some .f16 | 0x09 => some .bf16 | 0x0A => some .f32 | 0x0B => some .f64
  | 0x0C => some .e4m3 | 0x0D => some .e5m2
  | 0x0E => some .mxe4m3 | 0x0F => some .mxe5m2 | 0x10 => some .mxe2m3
  | 0x11 => some .mxe3m2 | 0x12 => some .mxe2m1 | 0x13 => some .mxi8 | 0x14 => some .ds8
  | _ => none

/-- The code of a type (R34). -/
def NumTy.code : NumTy → Nat
  | .i8 => 0 | .n8 => 1 | .i16 => 2 | .n16 => 3 | .i32 => 4 | .n32 => 5 | .i64 => 6 | .n64 => 7
  | .f16 => 8 | .bf16 => 9 | .f32 => 10 | .f64 => 11 | .e4m3 => 12 | .e5m2 => 13
  | .mxe4m3 => 14 | .mxe5m2 => 15 | .mxe2m3 => 16 | .mxe3m2 => 17 | .mxe2m1 => 18 | .mxi8 => 19 | .ds8 => 20

/-- Width of one element in bits (R52, R55, R59, R61). -/
def NumTy.width : NumTy → Nat
  | .i8 | .n8 | .e4m3 | .e5m2 | .mxe4m3 | .mxe5m2 | .mxi8 | .ds8 => 8
  | .i16 | .n16 | .f16 | .bf16 => 16
  | .i32 | .n32 | .f32 => 32
  | .i64 | .n64 | .f64 => 64
  | .mxe2m3 | .mxe3m2 => 6
  | .mxe2m1 => 4

/-- An integer type. -/
def NumTy.isInt : NumTy → Bool
  | .i8 | .n8 | .i16 | .n16 | .i32 | .n32 | .i64 | .n64 => true
  | _ => false

/-- A signed integer type. -/
def NumTy.isSigned : NumTy → Bool
  | .i8 | .i16 | .i32 | .i64 => true
  | _ => false

/-- A type that occurs only in blocks with an E8M0 scale (R55, R59). -/
def NumTy.isBlock : NumTy → Bool
  | .mxe4m3 | .mxe5m2 | .mxe2m3 | .mxe3m2 | .mxe2m1 | .mxi8 | .ds8 => true
  | _ => false

/-- Which codes of the top exponent are special (R52). -/
inductive Special where
  | ieee   -- all ones: infinity for a zero mantissa, NaN for the others
  | e4m3   -- all ones with an all-ones mantissa: NaN; no infinity
  | none   -- neither
deriving DecidableEq, Repr

/-- The layout of a float element (R52): exponent bits, mantissa bits, bias and the special codes. -/
structure FFmt where
  eb : Nat
  mb : Nat
  bias : Int
  special : Special
deriving DecidableEq, Repr

/-- The float layout of a type; MXINT8, DS8 and integers have none (R52). -/
def NumTy.fmt : NumTy → Option FFmt
  | .f16 => some ⟨5, 10, 15, .ieee⟩
  | .bf16 => some ⟨8, 7, 127, .ieee⟩
  | .f32 => some ⟨8, 23, 127, .ieee⟩
  | .f64 => some ⟨11, 52, 1023, .ieee⟩
  | .e4m3 | .mxe4m3 => some ⟨4, 3, 7, .e4m3⟩
  | .e5m2 | .mxe5m2 => some ⟨5, 2, 15, .ieee⟩
  | .mxe2m3 => some ⟨2, 3, 1, .none⟩
  | .mxe3m2 => some ⟨3, 2, 3, .none⟩
  | .mxe2m1 => some ⟨2, 1, 1, .none⟩
  | _ => none

/-- Magnitude code of the largest finite value (R52). -/
def FFmt.maxCode (f : FFmt) : Nat :=
  match f.special with
  | .ieee => (2 ^ f.eb - 1) * 2 ^ f.mb - 1
  | .e4m3 => 2 ^ (f.eb + f.mb) - 2
  | .none => 2 ^ (f.eb + f.mb) - 1

/-- Magnitude code of infinity; the canonical NaN where the type has none. -/
def FFmt.infCode (f : FFmt) : Nat :=
  match f.special with
  | .ieee => (2 ^ f.eb - 1) * 2 ^ f.mb
  | .e4m3 => 2 ^ (f.eb + f.mb) - 1
  | .none => 2 ^ (f.eb + f.mb) - 1

/-- The canonical NaN (R53): positive, quiet, no payload. -/
def FFmt.nanCode (f : FFmt) : Nat :=
  match f.special with
  | .ieee => (2 ^ f.eb - 1) * 2 ^ f.mb + 2 ^ (f.mb - 1)
  | .e4m3 => 2 ^ (f.eb + f.mb) - 1
  | .none => 0

/-- The exponent EMIN = 1 − bias of R65. -/
def FFmt.emin (f : FFmt) : Int := 1 - f.bias

/-! ## Exact values -/

/-- An exact value as RoundTo takes it (R65): a NaN, an infinity, a zero, or ± m × 2^e with m > 0. -/
inductive XVal where
  | nan (signalling : Bool)
  | inf (neg : Bool)
  | zero (neg : Bool)
  | fin (neg : Bool) (m : Nat) (e : Int)
deriving DecidableEq, Repr

/-- A dyadic number m × 2^e, zero for m = 0. -/
structure Dy where
  m : Int
  e : Int
deriving DecidableEq, Repr

/-- The sum of two dyadic numbers, exact. -/
def Dy.add (a b : Dy) : Dy :=
  if a.m = 0 then b
  else if b.m = 0 then a
  else if a.e ≤ b.e then ⟨a.m + b.m * (2 ^ (b.e - a.e).toNat : Nat), a.e⟩
  else ⟨a.m * (2 ^ (a.e - b.e).toNat : Nat) + b.m, b.e⟩

/-- The exact value of a dyadic number, with the sign given to a zero. -/
def Dy.toX (a : Dy) (zneg : Bool) : XVal :=
  if a.m = 0 then .zero zneg else .fin (a.m < 0) a.m.natAbs a.e

/-- The dyadic number of a finite value. -/
def XVal.toDy : XVal → Dy
  | .fin s m e => ⟨if s then -(m : Int) else m, e⟩
  | _ => ⟨0, 0⟩

/-- The sign of a value; a NaN is positive (R53). -/
def XVal.neg : XVal → Bool
  | .nan _ => false
  | .inf s => s
  | .zero s => s
  | .fin s _ _ => s

/-- A NaN. -/
def XVal.isNan : XVal → Bool
  | .nan _ => true
  | _ => false

/-- A signalling NaN. -/
def XVal.isSnan : XVal → Bool
  | .nan s => s
  | _ => false

/-- An infinity. -/
def XVal.isInf : XVal → Bool
  | .inf _ => true
  | _ => false

/-- A zero. -/
def XVal.isZero : XVal → Bool
  | .zero _ => true
  | _ => false

/-- The value with its sign turned over. -/
def XVal.negate : XVal → XVal
  | .nan s => .nan s
  | .inf s => .inf (!s)
  | .zero s => .zero (!s)
  | .fin s m e => .fin (!s) m e

/-- The value times 2^k, exact. -/
def XVal.scale2 (x : XVal) (k : Int) : XVal :=
  match x with
  | .fin s m e => .fin s m (e + k)
  | y => y

/-- The exact value of an integer. -/
def XVal.ofInt (i : Int) : XVal :=
  if i = 0 then .zero false else .fin (i < 0) i.natAbs 0

/-- floor(log2 |x|) of ± m × 2^e. -/
def flog2 (m : Nat) (e : Int) : Int := (Nat.log2 m : Int) + e

/-- Compares the magnitudes m1 × 2^e1 and m2 × 2^e2 (first by their floor of log2, so no large shift is made). -/
def magCmp (m1 : Nat) (e1 : Int) (m2 : Nat) (e2 : Int) : Ordering :=
  if flog2 m1 e1 < flog2 m2 e2 then .lt
  else if flog2 m2 e2 < flog2 m1 e1 then .gt
  else if e1 ≤ e2 then compare m1 (m2 <<< (e2 - e1).toNat)
  else compare (m1 <<< (e1 - e2).toNat) m2

/-- Numeric comparison of two values that are not NaN; the two zeros are equal. -/
def XVal.cmp : XVal → XVal → Ordering
  | .inf s, .inf t => if s = t then .eq else if s then .lt else .gt
  | .inf s, _ => if s then .lt else .gt
  | _, .inf t => if t then .gt else .lt
  | .fin s m e, .fin t n f =>
    if s then (if t then magCmp n f m e else .lt) else (if t then .gt else magCmp m e n f)
  | .fin s _ _, _ => if s then .lt else .gt
  | _, .fin t _ _ => if t then .gt else .lt
  | _, _ => .eq

/-! ## Decode (R52, R55, R59) -/

/-- Decodes a float element of layout `f`; a NaN of a type of 16 bits or more is signalling when its top mantissa bit is
0 (R53). -/
def FFmt.decode (f : FFmt) (c : Nat) : XVal :=
  let m := c % 2 ^ f.mb
  let e := (c >>> f.mb) % 2 ^ f.eb
  let s := c.testBit (f.eb + f.mb)
  let mag := c % 2 ^ (f.eb + f.mb)
  let snan := decide (8 ≤ f.eb + f.mb) && !(c.testBit (f.mb - 1))
  if f.special = .ieee ∧ e = 2 ^ f.eb - 1 then (if m = 0 then .inf s else .nan snan)
  else if f.special = .e4m3 ∧ mag = 2 ^ (f.eb + f.mb) - 1 then .nan false
  else if e = 0 then (if m = 0 then .zero s else .fin s m (f.emin - f.mb))
  else .fin s (2 ^ f.mb + m) ((e : Int) - f.bias - f.mb)

/-- One term of a DS8 byte in units of 1/64 (R59). -/
def ds8Term (s : Bool) (c : Nat) : Int :=
  if c = 7 then 0 else if s then -(2 ^ (6 - c) : Nat) else (2 ^ (6 - c) : Nat)

/-- The value of a DS8 byte in units of 1/64 (R59). -/
def ds8Value (b : Nat) : Int :=
  ds8Term (b.testBit 7) (fieldN b 4 3) + ds8Term (b.testBit 3) (fieldN b 0 3)

/-- The element value of a code of type `t` before any block scale. -/
def NumTy.decode (t : NumTy) (c : Nat) : XVal :=
  match t.fmt with
  | some f => f.decode (c % 2 ^ t.width)
  | none =>
    match t with
    | .mxi8 => (XVal.ofInt (signed c 8)).scale2 (-6)
    | .ds8 => (XVal.ofInt (ds8Value (c % 256))).scale2 (-6)
    | _ => if t.isSigned then XVal.ofInt (signed c t.width) else XVal.ofInt ((c % 2 ^ t.width : Nat) : Int)

/-- Decode(type, element, c) of a block element under scale code `sc` (R55), with zero-block mode `zb`. -/
def decodeBlk (t : NumTy) (zb : Bool) (sc c : Nat) : XVal :=
  if zb ∧ sc = 0 then .zero false
  else if sc = 0xFF then .nan false
  else (t.decode c).scale2 ((sc : Int) - 127)

/-! ## Flags (R71) -/

/-- IV of FFLAGS. -/
def fIV : Flags5 := 0b10000
/-- DZ of FFLAGS. -/
def fDZ : Flags5 := 0b01000
/-- OF of FFLAGS. -/
def fOF : Flags5 := 0b00100
/-- UF of FFLAGS. -/
def fUF : Flags5 := 0b00010
/-- NX of FFLAGS. -/
def fNX : Flags5 := 0b00001
/-- No flag. -/
def f0 : Flags5 := 0

/-- A flag set when a condition holds. -/
def fIf (b : Bool) (f : Flags5) : Flags5 := if b then f else 0

/-! ## Rounding (R64 to R66) -/

/-- Rounding modes, code order of RND (R64). -/
inductive Rnd where
  | ne | tz | dn | up
deriving DecidableEq, Repr

/-- The rounding mode of a two-bit code. -/
def Rnd.ofCode : Nat → Rnd
  | 0 => .ne | 1 => .tz | 2 => .dn | _ => .up

/-- Overflow outcomes, code order of OVF (R66). -/
inductive Ovf where
  | sat | inf | nan | trap
deriving DecidableEq, Repr

/-- The overflow code of a two-bit field. -/
def Ovf.ofCode : Nat → Ovf
  | 0 => .sat | 1 => .inf | 2 => .nan | _ => .trap

/-- Rounds the magnitude m × 2^−sh to an integer under `rnd` for sign `s`; a tie goes to the even integer. -/
def roundShift (rnd : Rnd) (s : Bool) (m : Nat) (sh : Int) : Nat :=
  if sh ≤ 0 then m <<< (-sh).toNat
  else
    -- a magnitude below one quarter rounds as any nonzero value below one half does
    let k := sh.toNat
    let (q, r, h) :=
      if Nat.log2 m + 2 < k then (0, 1, 2) else (m >>> k, m % 2 ^ k, 2 ^ (k - 1))
    match rnd with
    | .tz => q
    | .dn => if s ∧ r ≠ 0 then q + 1 else q
    | .up => if ¬ s ∧ r ≠ 0 then q + 1 else q
    | .ne => if h < r ∨ (r = h ∧ q % 2 = 1) then q + 1 else q

/-- Whether m × 2^−sh is no integer. -/
def inexactShift (m : Nat) (sh : Int) : Bool :=
  if sh ≤ 0 then false
  else if Nat.log2 m + 2 < sh.toNat then decide (m ≠ 0) else decide (m % 2 ^ sh.toNat ≠ 0)

/-- A rounded code with the flags it sets; `trap` stands for an overflow under OVF 11 (R67), which sets no flag. -/
structure Rounded where
  code : Nat
  flags : Flags5
  trap : Bool
deriving DecidableEq, Repr

/-- The sign bit of a float layout added to a magnitude code. -/
def FFmt.withSign (f : FFmt) (s : Bool) (mag : Nat) : Nat := mag + b2n s * 2 ^ (f.eb + f.mb)

/-- The zero of a float layout, whose sign is kept (ZeroOf, R65). -/
def FFmt.zeroCode (f : FFmt) (s : Bool) : Nat := f.withSign s 0

/-- The IEEE overflow result is an infinity for this sign and mode (R66). -/
def ovfToInf (rnd : Rnd) (s : Bool) : Bool :=
  match rnd with
  | .ne => true
  | .tz => false
  | .dn => s
  | .up => !s

/-- Overflowed of R66 for a float layout. -/
def FFmt.overflowed (f : FFmt) (s : Bool) (rnd : Rnd) (ovf : Ovf) : Rounded :=
  match ovf with
  | .sat => ⟨f.withSign s f.maxCode, fOF ||| fNX, false⟩
  | .inf =>
    if ovfToInf rnd s then
      ⟨if f.special = .ieee then f.withSign s f.infCode else f.nanCode, fOF ||| fNX, false⟩
    else ⟨f.withSign s f.maxCode, fOF ||| fNX, false⟩
  | .nan => ⟨f.nanCode, fOF ||| fNX, false⟩
  | .trap => ⟨0, 0, true⟩

/-- The magnitude code of the rounding of m × 2^e with the exponent unbounded above (the y of R65): codes count up
through the finite values, so a code above `maxCode` is an overflow. A value with an exponent beyond the layout's gives
`maxCode + 1`. -/
def FFmt.roundMag (f : FFmt) (rnd : Rnd) (s : Bool) (m : Nat) (e : Int) : Nat :=
  let l := flog2 m e
  if l > f.bias + 2 ^ f.eb then f.maxCode + 1
  else
    let le := max l f.emin
    let q := le - f.mb
    (le - f.emin).toNat * 2 ^ f.mb + roundShift rnd s m (q - e)

/-- The value rounded is no value of the layout (y ≠ x of R65). -/
def FFmt.inexactMag (f : FFmt) (m : Nat) (e : Int) : Bool :=
  inexactShift m (max (flog2 m e) f.emin - f.mb - e)

/-- |RoundUnbounded(type, x, rnd)| < MINN(type) of R65. -/
def FFmt.tiny (f : FFmt) (rnd : Rnd) (s : Bool) (m : Nat) (e : Int) : Bool :=
  let l := flog2 m e
  if f.emin ≤ l then false
  else if l + 1 < f.emin then true
  else decide (roundShift rnd s m (l - f.mb - e) < 2 ^ (f.mb + 1))

/-- RoundTo for a float layout (R65). -/
def FFmt.roundTo (f : FFmt) (x : XVal) (rnd : Rnd) (ovf : Ovf) : Rounded :=
  match x with
  | .nan sg => ⟨f.nanCode, fIf sg fIV, false⟩
  | .inf s => if f.special = .ieee then ⟨f.withSign s f.infCode, 0, false⟩ else f.overflowed s rnd ovf
  | .zero s => ⟨f.zeroCode s, 0, false⟩
  | .fin s m e =>
    let y := f.roundMag rnd s m e
    if f.maxCode < y then f.overflowed s rnd ovf
    else
      let nx := f.inexactMag m e
      ⟨f.withSign s y, if nx then fNX ||| fIf (f.tiny rnd s m e) fUF else 0, false⟩

/-- RoundInt of R65: the exact value rounded to an integer. Values of 2^200 and above in magnitude are not expanded: the callers
clamp first. -/
def roundInt (rnd : Rnd) (x : XVal) : Int :=
  match x with
  | .fin s m e => let r := roundShift rnd s m (-e); if s then -(r : Int) else r
  | _ => 0

/-! ## DS8 and MXINT8 (R59, R60, R65, R66) -/

/-- A value in units of 1/64 belongs to the DS8 set (R59). -/
def ds8Member (v : Int) : Bool := (upTo 256).any fun b => ds8Value b == v

/-- The magnitudes of the DS8 set in units of 1/64, rising (R59). -/
def ds8Mags : List Nat := (upTo 129).filter fun n => ds8Member n

/-- |first term| ≥ |second term| for a DS8 byte (R60). -/
def ds8Canon (b : Nat) : Bool :=
  decide ((ds8Term (b.testBit 3) (fieldN b 0 3)).natAbs ≤ (ds8Term (b.testBit 7) (fieldN b 4 3)).natAbs)

/-- Encode(DS8, v) for v in units of 1/64 (R60). -/
def ds8Encode (v : Int) : Nat :=
  if v = 0 then 0x77
  else
    match (upTo 7).find? (fun c => v.natAbs == 2 ^ (6 - c)) with
    | some c => b2n (v < 0) * 128 + c * 16 + 7
    | none => ((upTo 256).find? (fun b => ds8Value b == v && ds8Canon b)).getD 0x77

/-- The largest DS8 magnitude not above m × 2^e (in units of 1/64) and whether it equals it, and the least one not below. -/
def ds8Around (m : Nat) (e : Int) : Nat × Nat × Bool :=
  let lo := (ds8Mags.filter fun n => n == 0 || magCmp n 0 m e != .gt).foldl max 0
  let exact := lo != 0 && magCmp lo 0 m e == .eq
  let hi := if exact then lo else (ds8Mags.filter fun n => lo < n).foldl min 128
  (lo, hi, exact)

/-- DS8Round for |x| ≤ 2, x = ± m × 2^e, as a magnitude in units of 1/64 with exactness (R65). -/
def ds8Round (rnd : Rnd) (s : Bool) (m : Nat) (e : Int) : Nat × Bool :=
  let (lo, hi, exact) := ds8Around m (e + 6)
  if exact then (lo, true)
  else
    let pick := match rnd with
      | .tz => lo
      | .dn => if s then hi else lo
      | .up => if s then lo else hi
      | .ne => if magCmp m (e + 7) (lo + hi) 0 == .gt then hi else lo
    (pick, false)

/-- Overflowed of R66 for MXINT8 and DS8, given as (code of the largest, code of the least); under OVF 01 an infinite outcome has
no code in these types and is taken as NaN, which R68 decides: code 0. -/
def blkOverflowed (hi lo : Nat) (s : Bool) (rnd : Rnd) (ovf : Ovf) : Rounded :=
  let sat := if s then lo else hi
  match ovf with
  | .sat => ⟨sat, fOF ||| fNX, false⟩
  | .inf => ⟨if ovfToInf rnd s then 0 else sat, fOF ||| fNX, false⟩
  | .nan => ⟨0, fOF ||| fNX, false⟩
  | .trap => ⟨0, 0, true⟩

/-- RoundTo(DS8, …) (R65). -/
def ds8RoundTo (x : XVal) (rnd : Rnd) (ovf : Ovf) : Rounded :=
  match x with
  | .nan sg => ⟨0x77, fIf sg fIV, false⟩
  | .inf s => blkOverflowed 0x00 0x88 s rnd ovf
  | .zero _ => ⟨0x77, 0, false⟩
  | .fin s m e =>
    if magCmp m e 2 0 == .gt then blkOverflowed 0x00 0x88 s rnd ovf
    else
      let (y, exact) := ds8Round rnd s m e
      ⟨ds8Encode (if s then -(y : Int) else y),
        if exact then 0 else fNX ||| fIf (y == 0) fUF, false⟩

/-- RoundTo(MXI8, …) (R65). -/
def mxi8RoundTo (x : XVal) (rnd : Rnd) (ovf : Ovf) : Rounded :=
  match x with
  | .nan sg => ⟨0, fIf sg fIV, false⟩
  | .inf s => blkOverflowed 0x7F 0x80 s rnd ovf
  | .zero _ => ⟨0, 0, false⟩
  | .fin s m e =>
    if flog2 m (e + 6) > 8 then blkOverflowed 0x7F 0x80 s rnd ovf
    else
      let r := roundInt rnd (.fin s m (e + 6))
      if 127 < r ∨ r < -128 then blkOverflowed 0x7F 0x80 s rnd ovf
      else ⟨wrapN r 8, fIf (inexactShift m (-(e + 6))) (fNX ||| fIf (r == 0) fUF), false⟩

/-! ## Integers (R61, R63) -/

/-- Least value of an integer type. -/
def NumTy.minInt (t : NumTy) : Int := if t.isSigned then -((2 ^ (t.width - 1) : Nat) : Int) else 0
/-- Greatest value of an integer type. -/
def NumTy.maxInt (t : NumTy) : Int :=
  if t.isSigned then ((2 ^ (t.width - 1) : Nat) : Int) - 1 else ((2 ^ t.width : Nat) : Int) - 1

/-- The integer an element code holds. -/
def NumTy.toInt (t : NumTy) (c : Nat) : Int :=
  if t.isSigned then signed c t.width else ((c % 2 ^ t.width : Nat) : Int)

/-- A result narrowed to an integer type: wrapped, or clamped when SAT is in force (R61). -/
def NumTy.narrow (t : NumTy) (sat : Bool) (x : Int) : Nat :=
  if sat then wrapN (max t.minInt (min t.maxInt x)) t.width else wrapN x t.width

/-- A float-to-integer conversion (R63). -/
def toIntTy (t : NumTy) (x : XVal) (rnd : Rnd) : Rounded :=
  match x with
  | .nan _ => ⟨0, fIV, false⟩
  | .inf s => ⟨wrapN (if s then t.minInt else t.maxInt) t.width, fIV, false⟩
  | .zero _ => ⟨0, 0, false⟩
  | .fin s m e =>
    if flog2 m e > 66 then ⟨wrapN (if s then t.minInt else t.maxInt) t.width, fIV, false⟩
    else
      let r := roundInt rnd (.fin s m e)
      if t.maxInt < r then ⟨wrapN t.maxInt t.width, fIV, false⟩
      else if r < t.minInt then ⟨wrapN t.minInt t.width, fIV, false⟩
      else ⟨wrapN r t.width, fIf (inexactShift m (-e)) fNX, false⟩

/-- RoundTo of R65 for every type; an integer type takes the conversion of R63. -/
def roundTo (t : NumTy) (x : XVal) (rnd : Rnd) (ovf : Ovf) : Rounded :=
  match t.fmt with
  | some f => f.roundTo x rnd ovf
  | none =>
    match t with
    | .ds8 => ds8RoundTo x rnd ovf
    | .mxi8 => mxi8RoundTo x rnd ovf
    | _ => toIntTy t x rnd

/-- The register image of a result code of a type (R54): I8 and I16 are sign-extended to 32 bits, all others zero-extended. -/
def NumTy.image32 (t : NumTy) (c : Nat) : Word :=
  if t.isSigned then BitVec.ofInt 32 (signed c (min t.width 32)) else BitVec.ofNat 32 (c % 2 ^ t.width)

/-! ## Exact arithmetic -/

/-- The sum of two values with R105's sign of an exact zero, and IV for ∞ − ∞ or a signalling NaN (R72). -/
def xadd (rnd : Rnd) (x y : XVal) : XVal × Flags5 :=
  let sn := fIf (x.isSnan || y.isSnan) fIV
  match x, y with
  | .nan _, _ => (.nan false, sn)
  | _, .nan _ => (.nan false, sn)
  | .inf s, .inf t => if s = t then (.inf s, 0) else (.nan false, fIV)
  | .inf s, _ => (.inf s, 0)
  | _, .inf t => (.inf t, 0)
  | .zero s, .zero t => (.zero (if s = t then s else rnd == .dn), 0)
  | .zero _, z => (z, 0)
  | z, .zero _ => (z, 0)
  | a, b => ((a.toDy.add b.toDy).toX (rnd == .dn), 0)

/-- The product of two values, with IV for ∞ × 0 or a signalling NaN (R72). -/
def xmul (x y : XVal) : XVal × Flags5 :=
  let sn := fIf (x.isSnan || y.isSnan) fIV
  let s := x.neg != y.neg
  match x, y with
  | .nan _, _ => (.nan false, sn)
  | _, .nan _ => (.nan false, sn)
  | .inf _, .zero _ => (.nan false, fIV)
  | .zero _, .inf _ => (.nan false, fIV)
  | .inf _, _ => (.inf s, 0)
  | _, .inf _ => (.inf s, 0)
  | .zero _, _ => (.zero s, 0)
  | _, .zero _ => (.zero s, 0)
  | .fin _ m e, .fin _ n f => (.fin s (m * n) (e + f), 0)

/-- x × y + z, exact, with the flags of R72. -/
def xfma (rnd : Rnd) (x y z : XVal) : XVal × Flags5 :=
  let (p, f) := xmul x y
  let (r, g) := xadd rnd p z
  (r, f ||| g)

/-- A nonzero magnitude with a sticky bit put below it: twice the magnitude, plus one when something was cut off. -/
def sticky (q : Nat) (r : Bool) : Nat := 2 * q + b2n r

/-- The quotient of two values, to 70 bits or more with a sticky bit, which rounds as the exact quotient does; DZ for a
finite nonzero value over zero, IV for 0/0 and ∞/∞. -/
def xdiv (x y : XVal) : XVal × Flags5 :=
  let sn := fIf (x.isSnan || y.isSnan) fIV
  let s := x.neg != y.neg
  match x, y with
  | .nan _, _ => (.nan false, sn)
  | _, .nan _ => (.nan false, sn)
  | .inf _, .inf _ => (.nan false, fIV)
  | .inf _, _ => (.inf s, 0)
  | _, .inf _ => (.zero s, 0)
  | .zero _, .zero _ => (.nan false, fIV)
  | .zero _, _ => (.zero s, 0)
  | .fin _ _ _, .zero _ => (.inf s, fDZ)
  | .fin _ m e, .fin _ n f =>
    let k := Nat.log2 n + 70
    let q := (m <<< k) / n
    (.fin s (sticky q ((m <<< k) % n != 0)) (e - f - k - 1), 0)

/-- The floor of the square root by bitwise search from bit `k` down. -/
def isqrtAux (n : Nat) : Nat → Nat → Nat
  | 0, acc => acc
  | k + 1, acc =>
    let c := acc + 2 ^ k
    isqrtAux n k (if c * c ≤ n then c else acc)

/-- The floor of the square root. -/
def isqrt (n : Nat) : Nat := isqrtAux n (Nat.log2 n / 2 + 1) 0

/-- The square root of a value with a sticky bit, which rounds as the exact root does; IV below −0. -/
def xsqrt (x : XVal) : XVal × Flags5 :=
  match x with
  | .nan sg => (.nan false, fIf sg fIV)
  | .zero s => (.zero s, 0)
  | .inf s => if s then (.nan false, fIV) else (.inf false, 0)
  | .fin s m e =>
    if s then (.nan false, fIV)
    else
      -- an even exponent and at least 140 bits under the root
      let k := 140 + (if (e - 140) % 2 = 0 then 0 else 1)
      let n := m <<< k
      let r := isqrt n
      (.fin false (sticky r (r * r != n)) ((e - k) / 2 - 1), 0)

/-! ## Blocks (R68) -/

/-- The element layout overflows for x × 2^−e rounded under rnd (R68). -/
def elemOverflows (t : NumTy) (rnd : Rnd) (e : Int) (x : XVal) : Bool :=
  match x with
  | .fin _ _ _ => (roundTo t (x.scale2 (-e)) rnd .trap).trap
  | _ => false

/-- Elem(type) has an infinity: only MXE5M2 (R52, R59). -/
def NumTy.elemHasInf (t : NumTy) : Bool :=
  match t.fmt with
  | some f => f.special == .ieee
  | none => false

/-- floor(log2) of the largest magnitude of the element type (R52). -/
def NumTy.emax (t : NumTy) : Int :=
  match t.fmt with
  | some f => match f.decode f.maxCode with
    | .fin _ m e => flog2 m e
    | _ => 0
  | none => 1

/-- The least e from `e` up, within `fuel` steps, under which no element overflows.
(DEDUCED, log 19) -/
def searchScale (t : NumTy) (rnd : Rnd) (xs : List XVal) : Nat → Int → Int
  | 0, e => e
  | k + 1, e => if xs.any (elemOverflows t rnd e) then searchScale t rnd xs k (e + 1) else e

/-- The greatest floor(log2 |x|) of the finite values listed.
(DEDUCED, log 19) -/
def maxLog (xs : List XVal) : Option Int :=
  xs.foldl (fun a x => match x with
    | .fin _ m e => some (match a with
      | none => flog2 m e
      | some b => max b (flog2 m e))
    | _ => a) none

/-- An encoded block: scale code, element codes, flags, and the trap of OVF 11. -/
structure Block where
  scale : Nat
  elems : List Nat
  flags : Flags5
  trap : Bool
deriving DecidableEq, Repr

/-- EncodeBlock of R68. -/
def encodeBlock (t : NumTy) (xs : List XVal) (rnd : Rnd) (ovf : Ovf) (zblk : Bool) : Block :=
  let bad (fl : Flags5) : Block := ⟨0xFF, xs.map fun _ => 0, fl, false⟩
  if xs.any (fun x => x.isNan || (x.isInf && !t.elemHasInf)) then bad fIV
  else if xs.all (·.isZero) then ⟨0x00, xs.map fun x => (roundTo t x rnd .sat).code, 0, false⟩
  else
    let low : Int := if zblk then -126 else -127
    let start := match maxLog xs with
      | some l => max low (l - t.emax)
      | none => low
    let e := searchScale t rnd xs 6 start
    let enc (e : Int) : Block :=
      let rs := xs.map fun x => roundTo t (x.scale2 (-e)) rnd .sat
      ⟨(e + 127).toNat, rs.map (·.code), rs.foldl (fun a r => a ||| r.flags) 0, false⟩
    if 127 < e then
      match ovf with
      | .sat => enc 127
      | .inf => bad fOF
      | .nan => bad fOF
      | .trap => ⟨0, [], 0, true⟩
    else enc e

/-! ## Exact sums (R69, R70) -/

/-- An exact sum in progress: whether a product was formed, the finite sum, the kinds of infinity and NaN met, whether
every zero sum so far is of −0 or +0 products only, and the flags. -/
structure Acc where
  formed : Bool := false
  dy : Dy := ⟨0, 0⟩
  nan : Bool := false
  pinf : Bool := false
  ninf : Bool := false
  allNeg0 : Bool := true
  allPos0 : Bool := true
  flags : Flags5 := 0
deriving DecidableEq, Repr

/-- Adds one formed product to an exact sum (R69, R70). -/
def Acc.product (a : Acc) (x y : XVal) : Acc :=
  let (p, f) := xmul x y
  { a with
    formed := true
    dy := match p with
      | .fin _ _ _ => a.dy.add p.toDy
      | _ => a.dy
    nan := a.nan || p.isNan
    pinf := a.pinf || (p.isInf && !p.neg)
    ninf := a.ninf || (p.isInf && p.neg)
    allNeg0 := a.allNeg0 && p.isZero && p.neg
    allPos0 := a.allPos0 && p.isZero && !p.neg
    flags := a.flags ||| f }

/-- The sum S of R69 and R70 under rounding mode `rnd` (which decides the sign of a cancelled zero), with its flags. -/
def Acc.total (a : Acc) (rnd : Rnd) : XVal × Flags5 :=
  if a.nan then (.nan false, a.flags ||| fIf (a.pinf && a.ninf) fIV)
  else if a.pinf && a.ninf then (.nan false, a.flags ||| fIV)
  else if a.pinf then (.inf false, a.flags)
  else if a.ninf then (.inf true, a.flags)
  else
    let z := if a.allNeg0 then true else if a.allPos0 then false else rnd == .dn
    (a.dy.toX z, a.flags)

/-- The new accumulator: RoundTo(F32, acc + S) when a product was formed (R69). -/
def Acc.into (a : Acc) (acc : Nat) (rnd : Rnd) (ovf : Ovf) : Rounded :=
  if a.formed then
    let (s, f) := a.total rnd
    let (r, g) := xadd rnd (NumTy.f32.decode acc) s
    let o := roundTo .f32 r rnd ovf
    { o with flags := if o.trap then 0 else o.flags ||| f ||| g }
  else ⟨acc, 0, false⟩

/-! ## The keyed Hadamard transform (R74) -/

/-- Mix of R74 (the splitmix64 finaliser). -/
def mix64 (z : DWord) : DWord :=
  let a := (z ^^^ (z >>> 30)) * 0xBF58476D1CE4E5B9#64
  let b := (a ^^^ (a >>> 27)) * 0x94D049BB133111EB#64
  b ^^^ (b >>> 31)

/-- The sign word g of block `b` (R74): s_j is −1 where bit j is 1. -/
def hadSigns (seed : DWord) (b : Nat) : DWord :=
  mix64 (seed ^^^ BitVec.ofNat 64 (b * 0x9E3779B97F4A7C15))

/-- (−1)^PopCount(i AND j) is −1. -/
def hadNeg (i j : Nat) : Bool := popN 6 (i &&& j) % 2 == 1

/-- The exact sum of signed terms, zero as a sum of zeros gives it (the sum's zero sign follows R70's rule 6), and IV
for infinities of both signs. -/
def xsum (rnd : Rnd) (xs : List XVal) : XVal × Flags5 :=
  let a := xs.foldl (fun a x => a.product x (.fin false 1 0)) ({} : Acc)
  a.total rnd

/-- Output i of the transform of one block of n values, before its rounding (R74): forward applies the signs to the
inputs, inverse to the outputs. -/
def hadOut (rnd : Rnd) (inv : Bool) (k : Nat) (g : DWord) (xs : List XVal) (i : Nat) : XVal × Flags5 :=
  let terms := xs.zipIdx.map fun (x, j) =>
    let s := hadNeg i j != (!inv && g.getLsbD j)
    if s then x.negate else x
  let (y, f) := xsum rnd terms
  let y := if inv && g.getLsbD i then y.negate else y
  (y.scale2 (-(k : Int)), f)

end Sys2Proof.Machine
end

