-- ==== Sys2Proof/Machine/Types.lean ====
section
/-! DEFINITION. The plain-data types of the state below the die: windows, tiles, teams, generator contexts, copies, squads, lane
cores and clusters (chapters 04 to 12). -/

namespace Sys2Proof.Machine

/-! ## Windows (R313) -/

/-- A window register: its three words, and the four descriptor words of a TREE window (R313, R266); all zero is invalid. `pgBase`
and `pgSize` are the model's own record of the page that BASE lies in, which a shootdown compares (R316), and `zor` that the
page's leaf had ZOR 1 when the window was made (R321). `span` names the task whose declared span the window resolved to, whose lines lie in versions or in home
memory from `home` on (R366).
(DEDUCED, log 72) -/
structure Window where
  w0 : DWord := 0
  w1 : DWord := 0
  w2 : DWord := 0
  tree : List DWord := []
  pgBase : Nat := 0
  pgSize : Nat := 0
  zor : Bool := false
  span : Option Nat := none
  home : Nat := 0
deriving DecidableEq, Repr

/-- KIND of a window: 0 invalid, 1 MEM, 2 GATHER, 3 COORD, 4 REMOTE, 5 TREE (R313). -/
def Window.kind (w : Window) : Nat := field64 w.w0 60 4
/-- W permission. -/
def Window.wr (w : Window) : Bool := w.w0.getLsbD 58
/-- R permission. -/
def Window.rd (w : Window) : Bool := w.w0.getLsbD 57
/-- BASE. -/
def Window.base (w : Window) : Nat := field64 w.w0 0 56
/-- KEY. -/
def Window.key (w : Window) : Nat := field64 w.w1 52 12
/-- The physical address of the byte at BASE: FRAME times 128. -/
def Window.frame (w : Window) : Nat := field64 w.w1 7 45 * 128
/-- DEVID. -/
def Window.devid (w : Window) : Nat := field64 w.w2 50 14
/-- AUX. -/
def Window.aux (w : Window) : Nat := field64 w.w2 32 18
/-- LIMIT. -/
def Window.limit (w : Window) : Nat := field64 w.w2 0 32

/-! ## Tiles (R152, R191) -/

/-- A 128-byte tile line: FULL or EMPTY, its fresh bit, whether an uncorrectable error marks it (R176, R414), its bytes (shorter lists stand for trailing
zeros). -/
structure TileLine where
  full : Bool := false
  fresh : Bool := true
  bad : Bool := false
  bytes : List Byte := []
deriving DecidableEq, Repr

/-- Levels of R191, by code: 0 ACC, 1 TS, 2 L2P. -/
abbrev Level := Nat

/-- A tile-table entry and its storage (R191 to R195): unlisted lines are EMPTY and fresh, unlisted accumulator elements zero; `bad`
lists accumulator elements marked bad (R208). -/
structure Tile where
  level : Level
  ty : NumTy
  rows : Nat
  cols : Nat
  core : Nat
  lines : List (Nat × TileLine) := []
  acc : List (Nat × Word) := []
  bad : List Nat := []
deriving DecidableEq, Repr

/-! ## Stream words and origins (R87, R88) -/

/-- Origin of a buffered word: EMIT or REC, or a Playbook id, word offset and replay iteration (R88). -/
inductive Origin where
  | direct
  | replay (id off iter : Nat)
deriving DecidableEq, Repr

/-- A word of a stream buffer (R22, R87, R88): the word, its stretch-end mark, its origin, the system-origin side band of a WSET
(R128), the sending context and channel (R235, R238), the serial number of the merged vote it contributes to (R236), and the issue mode of the
squad that emitted it, native with its L_LANE (R27, R447).
(DEDUCED, log 73) -/
structure BufWord where
  word : DWord
  last : Bool
  origin : Origin := .direct
  sys : Option Window := none
  sq : Nat := 0
  sc : Nat := 0
  ch : Nat := 0
  merge : Option Nat := none
  native : Bool := false
  lLane : Nat := 0
deriving DecidableEq, Repr

/-- A clause in progress: its header and the index of the next word (R19, R20, R290). -/
structure Clause where
  header : DWord
  idx : Nat
deriving DecidableEq, Repr

/-- LEN of a clause header. -/
def Clause.len (c : Clause) : Nat := field64 c.header 60 4
/-- STALL count i of a clause header. -/
def Clause.stall (c : Clause) (i : Nat) : Nat := field64 c.header (4 * i + 7) 4
/-- The flag bound to a long-latency word at index i, when valid (R20). -/
def Clause.flag (c : Clause) (i : Nat) : Option Nat :=
  if field64 c.header 35 3 ≤ i ∧ field64 c.header 35 3 ≠ 7 then
    (if c.header.getLsbD 38 then some (field64 c.header 39 4) else none)
  else if c.header.getLsbD 43 then some (field64 c.header 44 4) else none

/-- A write to one lane of a register (lane 0 for a scalar register) that may not have landed (R25, R447): the value it lands over, whether a long-latency
word made it, the flag whose idle state tells that it has landed, or the cycle from which it has. The hazards of a unit stand with the last to land first. -/
structure Hazard where
  reg : Nat
  lane : Nat
  old : DWord
  flag : Option Nat
  long : Bool
  ready : Nat
deriving DecidableEq, Repr

/-! ## Teams (R77) -/

/-- A parking record (R89): cause, position, unfinished-lane mask, origin, information words; `header` for a clause header's
CLAUSE_FORMAT (R90); `emptied` when CTXLOAD.REC has removed its last lane (R293). -/
structure Park where
  cause : Cause
  pos : BitVec 48
  mask : Mask
  origin : Origin
  info : List DWord
  header : Bool := false
  emptied : Bool := false
deriving DecidableEq, Repr

/-- The fault of a lane that is unfinished for good while other lanes of its word still wait (R144, R420, R442): what the lane would park the team
with, and for a page fault its record.
(DEDUCED, log 52) -/
structure LaneFault where
  lane : Nat
  cause : Cause
  info : List DWord
  record : List Byte
deriving DecidableEq, Repr

/-- A path digest (R278). -/
structure DigestSlot where
  sealId : Nat
  tree : Nat
  leaf : Nat
  depth : Nat
  digest : List Byte
deriving DecidableEq, Repr

/-- The A latch of a team (R173): the word's A, rb, A type and SPA, and the register values it read, by lane of the row block.
(DEDUCED, log 26) -/
structure Latch where
  a : Nat
  rb : Nat
  ty : Nat
  spa : Bool
  vals : List (List Word)
deriving DecidableEq, Repr

/-- Why a team is in Waiting at its oldest word. -/
inductive TeamWait where
  | lines (ls : List (Nat × Nat)) (since : Nat)  -- EMPTY tile lines (handle, line) awaited since a cycle (R94, R153)
  | huddle (h : Nat)                  -- a huddle phase (R158)
  | matrix                            -- the busy matrix unit (R162)
  | descent                           -- the busy descent unit (R273)
  | claim                             -- a pending CLAIM (R198)
  | give                              -- a GIVE with busy flags (R125)
  | tfree (h : Nat)                   -- a TFREE with accesses under way (R196)
  | vote                              -- a VOTE with no queue entry (R236)
  | touch                             -- first-touch service (R320)
  | faultSlot                         -- a full fault ring (R318)
  | remote                            -- outstanding remote accesses (R442)
  | spec                              -- an effect of R385
  | held                              -- a held trap of a speculative task (R386)
  | frozen                            -- a violating word of a frozen master (R420)
  | ring                              -- a system-call record that the owner's full ring holds back (R405)
deriving DecidableEq, Repr

/-- A team (R77): `owner` is its owning context by squad key and index, `stream` the channel of that context through whose STREAM entry it is
owned, none when R209 gives it (R259, R260). Registers are lists by register number of the values by lane; unlisted registers are zero. `bad` lists the (register,
lane) whose stored value is marked bad (R208). `ready` and `readyOdd` count issue slots spent in Ready, on the team's core and, for a team on a pair, on
the odd core (R93, R202); `started` is the cycle at which its oldest word took its issue slot, if it has (R446); `oddNext` of an even team of a ganged
pair tells that the odd team is served next (R92); `wrote` lists the registers and lanes written since the last word retired,
and `owedFlags` the flags of lanes that the oldest word has performed, which reach FFLAGS when it completes or parks (R73); `lostTiles` lists the handles
that were freed while it awaited lines of them, and `awaits` those of which the oldest word has awaited lines (R196); `faulted` lists, in lane order, the
lanes of the oldest word that have faulted while others of its lanes wait; `inUnit` tells that the descent unit has started the oldest word (R275);
`claimAt` is the serial number at which its CLAIM issued (R198); `half` is the lane core of a pair that has issued its passes of the oldest word ahead of
the other core, and the cycle at which they end (R91). -/
structure Team where
  lanes : Nat
  gw : Nat
  owner : Option (Nat × Nat)
  stream : Option Nat := none
  core : Nat
  pair : Bool
  v : List (Nat × List Word) := []
  n : Nat
  masks : List Mask
  stack : List (Mask × Word) := []
  fmtr : Word := 0
  fflags : Flags5 := 0
  owedFlags : Flags5 := 0
  lostTiles : List Nat := []
  awaits : List Nat := []
  claimAt : Nat := 0
  half : Option (Nat × Nat) := none
  inUnit : Bool := false
  sstep : Word := 0
  win : List (Nat × Window) := []
  pt : List (Nat × List (Word × Nat)) := []
  digests : List (Nat × DigestSlot) := []
  busy : BitVec 12 := 0
  buffer : List BufWord := []
  pos : BitVec 48 := 0
  clause : Option Clause := none
  park : Option Park := none
  wait : Option TeamWait := none
  todo : Option Mask := none
  tp : List (Nat × Nat) := []
  latch : Option Latch := none
  age : Nat := 0
  ready : Nat := 0
  readyOdd : Nat := 0
  started : Option Nat := none
  legacy : Bool := false
  oddNext : Bool := false
  evictReq : Bool := false
  evicted : Bool := false
  frozen : Bool := false
  violating : Mask := 0
  faulted : List LaneFault := []
  starved : Bool := false
  ended : Bool := false
  hazards : List Hazard := []
  wrote : List (Nat × Mask) := []
  nextIssue : Nat := 0
  bad : List (Nat × Nat) := []
deriving DecidableEq, Repr

/-! ## Generator contexts (R210) -/

/-- The condition codes. -/
structure CC where
  z : Bool := false
  n : Bool := false
  c : Bool := false
  v : Bool := false
deriving DecidableEq, Repr

/-- A recording of the Playbook (R228, R232): unpatched block, hole word indices, and the model's serial number of the recording. -/
structure Recording where
  serial : Nat
  block : List DWord
  holes : List Nat
deriving DecidableEq, Repr

/-- What the emission sequencer holds (R227): one stretch, or a replay with its binding (R231). -/
inductive SeqItem where
  | block (ch : Nat) (words : List DWord) (sys : Option Window)
  | replay (ch id : Nat) (r : Recording) (next step : List Int) (left iter : Nat)
deriving DecidableEq, Repr

/-- A vote record in a context's queue: the record and the cycle at which it became pushed, with its lower bound (R237), and the keys of the squads whose
teams it came from (R390). -/
structure VoteRec where
  rec_ : DWord
  lower : Nat
  upper : Nat
  readable : Bool := false
  squads : List Nat := []
deriving DecidableEq, Repr

/-- One contribution to a merged vote: squad and team, and the per-team record. -/
structure VotePart where
  q : Nat
  t : Nat
  rec_ : DWord
deriving DecidableEq, Repr

/-- A merged vote record not yet complete (R236): its serial, the destinations in the channel's order, the contributions, the kind;
`entry` tells that it holds a queue entry.
(DEDUCED, log 71) -/
structure Partial where
  serial : Nat
  dests : List (Nat × Nat)
  parts : List VotePart
  first : Bool
  entry : Bool
deriving DecidableEq, Repr

/-- KIND of a trap (R285). -/
inductive TrapKind where
  | word | team (k : Nat) | copy (tag : Nat)
deriving DecidableEq, Repr

/-- The place of a trap among those of one cycle (R284): the context's own word, then teams by owned-team number, then copies by tag. -/
def TrapKind.rank : TrapKind → Nat
  | .word => 0
  | .team k => 1 + k
  | .copy tag => 256 + tag

/-- A pending trap (R284): its kind, cause, TRAPCAUSE bits [53:0] above the kind, TRAPPC, TRAPINFO words, the cycle of its detection, and for a trap of
the context's own word the clause it stands in (R290) and how many words of a hole map and block follow it (R228). `task` is the task of the
agent that trapped, with which the trap is held (R386), and `masked` tells that the trap arose with TMASK set. -/
structure Pending where
  kind : TrapKind
  cause : Cause
  causeBits : Nat
  pc : DWord
  info : List DWord
  task : Nat := 0
  cycle : Nat := 0
  clause : Option Clause := none
  gap : Nat := 0
  masked : Bool := false
deriving DecidableEq, Repr

/-- A line of pending traps with one more: behind every trap of an earlier cycle and every one of its own cycle that ranks before it (R284). -/
def pendInsert (p : Pending) : List Pending → List Pending
  | [] => [p]
  | x :: t => if x.cycle = p.cycle ∧ p.kind.rank < x.kind.rank then p :: x :: t else x :: pendInsert p t

/-- Why a context is not runnable; an MWAIT keeps its address, access size, register and whether it acquires wider than the cluster. -/
inductive CtxWait where
  | yieldTag (tag : Nat)                               -- YIELD.TAG: the tag's copy (R220)
  | vread                                              -- VREAD: a readable record (R238)
  | mwait (addr : DWord) (n d : Nat) (wide : Bool)     -- MWAIT (R224)
  | sdrain (ch : Option Nat)                           -- SDRAIN: a channel, or all (R235)
  | emission                                           -- a place of the sequencer (R227)
  | huddle (h : Nat)                                   -- GHSYNC (R265)
  | mailbox (d i ch : Nat) (send : Bool)               -- CHSEND or CHRECV on a channel (R262)
  | copyRoom (tag n : Nat)                             -- COPY: a place for the slice and its lock entries (R239, R250, R251)
  | copyEnd (tag : Nat)                                -- COPYWAIT (R254)
  | twait (id : Option Nat)                            -- TWAIT: a task, or any of the set (R368)
  | admission (d : Nat) (rec_ : List DWord)            -- TSPAWN: an entry of a dependence table for the record it has read (R363)
  | spec                                               -- the commit of the task (R385)
  | digest (n : Nat)                                   -- DIGEST: room in the owner's log (R428)
  | idle (q : Nat)                                     -- CTXSAVE.SQUAD: idle flags of the squad's contexts (R24)
  | sealFree (i : Nat)                                 -- SEAL.FREE: audited descents under way (R426)
  | resident (n : Nat)                                 -- the squad of an owned team
  | faultSlot                                          -- a slot of the fault ring (R318)
  | fault                                              -- a page fault being served (R283)
  | touch                                              -- first-touch service (R320)
  | remote                                             -- another package (R434)
  | frozen                                             -- a violation (R420)
deriving DecidableEq, Repr

/-- A wait of R213, at which the context is at an instruction boundary. -/
def CtxWait.boundary : CtxWait → Bool
  | .touch | .remote | .faultSlot | .fault | .frozen => false
  | _ => true

/-- A generator context (R210). `arrived` is the address of a GHSYNC that has arrived and still waits (R265); `ret` the return point of R284
with its clause state (R290) and the arrival of a GHSYNC abandoned there, and `retWaited` that the WAIT of that clause was satisfied; `trapClause` the clause
state of the word at TRAPPC, and `trapGap` the words of a hole map and block behind it, which `faultGap` keeps for a word whose page fault is being served;
`waited` tells that the clause is a kept one, whose WAIT is not checked again (R290); `spawning` is the record of a TSPAWN whose wait has ended (R363); `fenced` that the context has executed a release fence at CLUSTER scope or wider (R230); `wrote` lists the scalar registers written since its last word completed. -/
structure Ctx where
  role : Nat
  s : List (Nat × DWord) := []
  cc : CC := {}
  pc : DWord := 0
  busy : BitVec 12 := 0
  votes : List VoteRec := []
  partials : List Partial := []
  seq : List SeqItem := []
  chans : List (Nat × List DWord) := []
  tp : List (Nat × Nat) := []
  arrived : Option Nat := none
  tmask : Bool := false
  trapvec : DWord := 0
  trapcause : DWord := 0
  trappc : DWord := 0
  trapinfo : List DWord := []
  ret : Option (DWord × Option Clause × Option Nat) := none
  retWaited : Bool := false
  trapClause : Option Clause := none
  trapGap : Nat := 0
  pending : List Pending := []
  clause : Option Clause := none
  wait : Option CtxWait := none
  tasks : List Nat := []
  exited : Bool := false
  preempted : Bool := false
  preemptReq : Option Nat := none
  frozen : Bool := false
  waited : Bool := false
  fenced : Bool := false
  spawning : Option (List DWord) := none
  hazards : List Hazard := []
  wrote : List Nat := []
  nextIssue : Nat := 0
  faulted : List DWord := []
  faultGap : Nat := 0
deriving DecidableEq, Repr

/-! ## Copies (R239 to R255) -/

/-- States of a copy (R250). -/
inductive CopyState where
  | collecting | queued | running | failed
deriving DecidableEq, Repr

/-- The code of a copy state (R250); NONE is 0. -/
def CopyState.code : CopyState → Nat
  | .collecting => 1 | .queued => 2 | .running => 3 | .failed => 4

/-- One slice: the issuing context, its eight record registers, the index values read under ROWG (R247), the number of its units of work
done, ZBLK and SCALEVA in force (R246), whether its header has been read, and the codes and scale codes of the elements that the engine has read, in
iteration order. -/
structure Slice where
  ctx : Nat
  rec_ : List DWord
  idx : List Nat := []
  next : Nat := 0
  done : Bool := false
  zblk : Bool := false
  scaleVa : Nat := 0
  started : Bool := false
  codes : List (Nat × Nat) := []
deriving DecidableEq, Repr

/-- A copy (R250): the squad, its tag, slice count, huddle, slices in order of arrival, state, bytes written, the slice that failed and
why; `fault` while a page fault of it is being served; `violVa` the address of its violation, and `suppress` the lines in which the Umpire has released
one of it (R422).
(DEDUCED, log 41) -/
structure Copy where
  q : Nat
  tag : Nat
  count : Nat
  huddle : Option Nat
  slices : List Slice := []
  state : CopyState := .collecting
  bytes : Nat := 0
  fslice : Nat := 0
  cause : Option Cause := none
  fault : Bool := false
  frozen : Bool := false
  faultInfo : List DWord := []
  order : Nat := 0
  violVa : Option Nat := none
  suppress : List Nat := []
  stalled : Bool := false
deriving DecidableEq, Repr

/-- What a range lock covers (R251): virtual bytes of an owner in half-open ranges, read or written by the copy, or lines of a tile. -/
inductive LockRange where
  | mem (owner : Nat) (ranges : List (Nat × Nat)) (write : Bool)
  | tile (q h : Nat) (lines : List Nat)
deriving DecidableEq, Repr

/-- An entry of a die's range-lock table (R251), of a slice of a copy. -/
structure Lock where
  copy : Nat
  slice : Nat
  range : LockRange
deriving DecidableEq, Repr

/-! ## Squads -/

/-- A huddle (R156): EXP, ARR, OWED and PH. -/
structure Huddle where
  exp : Nat := 0
  arr : Nat := 0
  owed : Int := 0
  ph : Nat := 0
deriving DecidableEq, Repr

/-- A resident squad: one instance of a task (R14). `required` is its
required operating point, `joinBy` the latest finish in ns that meets the join of its task graph, 0 when it reaches none (R408), and `hintAt` the time in ns of a
written HINT that no recomputation has followed yet (R409). `named` is one more than the key of the squad that the dispatch core names to a handler squad
(R294), 0 for none; `queueFrozen` tells that the copies of the squad are frozen (R420); `off` tells that it was pre-empted whole and waits in the Lineup (R375), and `pinned` is the number of bytes of the owner's memory that back its Playbook
(R233).
(DEDUCED, log 72) -/
structure Squad where
  task : Nat
  instance_ : Nat
  cluster : Nat
  id : Nat
  native : Bool
  lLane : Nat := 0
  lGen : Nat := 0
  legacy : Bool
  priv : Bool := false
  gw : Nat
  lanes : Nat
  teams : List Team
  ctxs : List Ctx
  tiles : List (Nat × Tile) := []
  claim : Nat := 0
  huddles : List (Nat × Huddle) := []
  seeds : List (Nat × DWord) := []
  slots : List (Nat × List DWord) := []
  playbook : List (Nat × Recording) := []
  copyStatus : List (Nat × Nat) := []
  opoint : Nat := 0
  required : Nat := 5
  joinBy : Nat := 0
  hintAt : Option Nat := none
  placed : Nat := 0
  quantum : Nat := 0
  expired : Bool := false
  off : Bool := false
  pinned : Nat := 0
  named : Nat := 0
  queueFrozen : Bool := false
deriving DecidableEq, Repr

/-! ## Clusters -/

/-- A TLB entry (R312): owner, page base and size, and the leaf. -/
structure TlbEnt where
  owner : Nat
  base : Nat
  size : Nat
  leaf : DWord
deriving DecidableEq, Repr

/-- A lane core: its TLB, the CLAIMs in issue order, the team that holds the matrix unit while it waits, the matrix words waiting in
order (R162), and accumulator bytes in use are found from the tiles. -/
structure LaneCore where
  tlb : List TlbEnt := []
  claims : List (Nat × Nat) := []
  holder : Option (Nat × Nat) := none
  queue : List (Nat × Nat) := []
  slots : Nat := 0
  busyUntil : Nat := 0
deriving DecidableEq, Repr

/-- An L1 miss entry (R257): the line, the fill it will deliver, and the cycle of its allocation. -/
structure MissEnt where
  line : Nat
  bytes : List Byte
  since : Nat
deriving DecidableEq, Repr

/-- The power state of a cluster (22_package_power.md): its operating-point entries (each MHz and mV), the point in force, how many mV below
the safe set point it runs, the corrected errors of the interval that began at `stepAt` (R413), the time until which undervolting is locked
out, the thermal limits in force in °C with the time since which each has been 5 °C below, and that two sensors failed (R412); `event` tells
that an uncorrectable error was met below the safe set point and awaits its power event (R414). -/
structure ClusterPower where
  points : List (Nat × Nat)
  point : Nat := 0
  under : Nat := 0
  errors : Nat := 0
  stepAt : Nat := 0
  lockout : Option Nat := none
  hot : List (Nat × Option Nat) := []
  failed : Bool := false
  event : Bool := false
deriving DecidableEq, Repr

/-- A cluster: four lane cores, the cluster TLB, the L1, the generator core's round-robin pointer, the Playbook recordings on chip, the
copies held, the team whose word the descent unit executes and those that wait for it in order of issue, the cycle count,
the squad that has the cluster to itself (R376) and when it stopped for it, and its power state. -/
structure Cluster where
  cores : List LaneCore
  tlb : List TlbEnt := []
  l1 : List (Nat × List Byte) := []
  miss : List MissEnt := []
  rr : Nat := 0
  onchip : List Nat := []
  descent : List (Nat × Nat) := []
  cycle : Nat := 0
  nextAge : Nat := 0
  excl : Option Nat := none
  exclAt : Nat := 0
  power : ClusterPower
deriving DecidableEq, Repr

end Sys2Proof.Machine
end

