-- ==== Sys2Proof/Machine/DieTypes.lean ====
section
/-! DEFINITION. The plain-data types of the state of dies, tasks, owners, the host transport, power, firmware and the fabric (chapters
15 to 25). -/

namespace Sys2Proof.Machine

/-! ## Die: translation, faults, frames (chapter 15) -/

/-- Who waits on a fault record (R283, R319). -/
inductive FaultSrc where
  | team (q t : Nat)
  | ctx (q c : Nat)
  | copy (k : Nat)
deriving DecidableEq, Repr

/-- A fault to be recorded or recorded (R318): its source and its 64-byte record. -/
structure FaultReq where
  src : FaultSrc
  record : List Byte
deriving DecidableEq, Repr

/-- A frame of the Bullpen (R321): owner, size in bytes, physical address. -/
structure Frame where
  owner : Nat
  size : Nat
  pa : Nat
deriving DecidableEq, Repr

/-- A first-touch service under way (R320): owner, virtual page, page size, the entry's address and the value walked. -/
structure Touch where
  owner : Nat
  va : Nat
  size : Nat
  entry : Nat
  value : DWord
deriving DecidableEq, Repr

/-- A gather entry of an owner (R324). -/
structure Gather where
  bound : Bool := false
  gen : Nat := 0
  idxVa : Nat := 0
  srcVa : Nat := 0
  size : Nat := 1
  limit : Nat := 0
deriving DecidableEq, Repr

/-- A node of a coordinate region's tree (R356): a leaf's keys and values, or an inner node's keys and children. -/
structure RegNode where
  leaf : Bool
  keys : List Nat
  vals : List DWord := []
  kids : List Nat := []
deriving DecidableEq, Repr

/-- An entry of the region table (R346 to R352): generation, owner, shape word, pool base and node count, the frames of the pool by
virtual page, the root and the nodes in use. -/
structure Region where
  live : Bool := false
  gen : Nat := 0
  owner : Nat := 0
  shape : Nat := 0
  base : Nat := 0
  count : Nat := 0
  frames : List (Nat × Nat × Nat) := []
  root : Nat := 0
  nodes : List (Nat × RegNode) := []
deriving DecidableEq, Repr

/-- A mailbox (R262, R263). -/
structure Mailbox where
  live : Bool := false
  key : DWord := 0
  msgs : List DWord := []
deriving DecidableEq, Repr

/-- A tile scoreboard (R369): owner, bounds, stencil mask, and by position y × width + x how often its counter was decremented. -/
structure Scoreboard where
  owner : Nat
  width : Nat
  height : Nat
  mask : Nat
  dec : List (Nat × Nat) := []
deriving DecidableEq, Repr

/-- A predictor entry (R378): key, the bytes of the last two committed versions, and its last use. -/
structure Predictor where
  owner : Nat
  base : Nat
  len : Nat
  a : Option (List Byte) := none
  b : Option (List Byte) := none
  used : Nat := 0
deriving DecidableEq, Repr

/-- A master that can violate (R420); a fabric requester is one for each die (R438). -/
inductive Master where
  | ctx (q c : Nat)
  | copies (q : Nat)
  | descent (q t : Nat)
  | conn (n : Nat)
  | fabric (dev die : Nat)
deriving DecidableEq, Repr

/-- The master code of R420. -/
def Master.code : Master → Nat
  | .ctx _ _ => 0 | .copies _ => 1 | .descent _ _ => 2 | .conn _ => 3 | .fabric _ _ => 4

/-- A violation (R419 to R421): its code, its master, and the fields of its record. -/
structure Violation where
  code : Nat
  master : Master
  die : Nat
  cluster : Nat
  owner : Nat
  target : Nat
  va : Nat
  pa : Nat
  ident : Nat
  lanes : Nat
  time : Nat := 0
deriving DecidableEq, Repr

/-- A launch frame held in the inbound table (R364). -/
structure Inbound where
  conn : Nat
  seq : DWord
  record : List Byte
deriving DecidableEq, Repr

/-- One die (R307 to R328, R345 to R393): its translation control block, mailboxes, fault ring, Bullpen, first-touch work, gather
entries, regions, range locks, scoreboards, admission count, predictor, violation ring and inbound table.
(DESIGN CHOICE, log 8) -/
structure Die where
  roots : List (Nat × DWord) := []
  flist0 : List (Nat × DWord) := []
  flist1 : List (Nat × DWord) := []
  shootOwn : DWord := 0
  shootVa : DWord := 0
  shootLen : DWord := 0
  shooting : Option (Nat × Nat × Nat) := none
  shootQueue : List (Nat × Nat × Nat) := []
  fring : DWord := 0
  mbsel : Nat := 0
  mbkey : DWord := 0
  mberr : Bool := false
  mailboxes : List (Nat × Mailbox) := []
  ring : List (Nat × FaultReq) := []
  ringNext : Nat := 0
  faultQ : List FaultReq := []
  bullpen : List Frame := []
  touches : List Touch := []
  gathers : List (Nat × Gather) := []
  regions : List (Nat × Region) := []
  locks : List (Nat × Lock) := []
  boards : List (Nat × Scoreboard) := []
  admitted : Nat := 0
  predictor : List Predictor := []
  viol : List (Nat × Violation) := []
  violNext : Nat := 0
  violQ : List Violation := []
  inbound : List Inbound := []
deriving DecidableEq, Repr

/-! ## Tasks and versions (chapters 18 and 19) -/

/-- Where a task stands (R365 to R376). -/
inductive TaskPhase where
  | waiting          -- dependences or its scoreboard position not yet met
  | ready            -- in the Lineup, not wholly placed
  | running          -- every instance placed
  | completed        -- every instance exited and copies done; a speculative task not yet committed stays here
  | retired
deriving DecidableEq, Repr

/-- STATE of SPECSTATE (R392). -/
inductive SpecPhase where
  | none | pending | passed | committed
deriving DecidableEq, Repr

/-- What a declared span of a task resolves to, for a run of lines (R365): a version key, from its first line. -/
structure Binding where
  lo : Nat
  hi : Nat
  version : Nat
deriving DecidableEq, Repr

/-- A task (R361 to R393): its id, record, and what its die keeps of it from admission on. Instance i has the squad key `keyBase` + i, and
`placed` instances have been placed. `front` is its place ahead of its level: 0 none, 1 a squashed task (R390), above that a pre-empted
instance (R375). `image0` is the channel image as it was read (R258).
`retiredAt` numbers its retirement among those of the package (R368). `heldV` and `heldT` are the violations of a speculative task and the traps of its teams whose context has gone, held with the squad of that context until it commits (R386). -/
structure Task where
  id : Nat
  die : Nat
  record : List DWord
  conn : Option Nat := none
  phase : TaskPhase := .waiting
  level : Nat := 0
  entered : Nat := 0
  readyTime : Nat := 0
  admittedAt : Nat := 0
  retiredPos : Bool := false
  deps : List Nat := []
  reads : List Binding := []
  writes : List Binding := []
  keyBase : Nat := 0
  placed : Nat := 0
  exited : List Nat := []
  requeue : List Nat := []
  front : Nat := 0
  image0 : Option (List (Nat × List DWord)) := none
  image : List (Nat × List DWord) := []
  killed : Bool := false
  endCode : Nat := 0
  endCause : Nat := 0
  endInfo : List DWord := []
  recix : Nat := 0
  rdie : Nat := 0
  energy : Nat := 0
  energyRead : Nat := 0
  spec : Bool := false
  specPhase : SpecPhase := .none
  depth : Nat := 0
  potDepth : Nat := 0
  producer : Option Nat := none
  predicted : Option Nat := none
  pspan : Option (Nat × Nat) := none
  rerun : Nat := 0
  overlay : List (Nat × Byte) := []
  retiredAt : Nat := 0
  heldV : List Violation := []
  heldT : List (Nat × Pending) := []
deriving DecidableEq, Repr

/-- A version of a run of lines of an owner (R365, R366): its home lines, where the rename pool holds it, its writers (the first of them the task
that received it), the tasks that read it, the tasks that read what it replaces, whether it is predicted (R383), and whether it holds its
copy of the version it replaces. -/
structure Version where
  key : Nat
  owner : Nat
  die : Nat
  lo : Nat
  hi : Nat
  pa : Nat
  writers : List Nat
  readers : List Nat
  after : List Nat
  predicted : Bool := false
  started : Bool := false
deriving DecidableEq, Repr

/-! ## Package: owners, seals, host, power, firmware, fabric (chapters 22, 23 and 25) -/

/-- A seal-table entry (R423); `zors` tells for each of its frames that the page's leaf has ZOR 1. -/
structure SealEnt where
  owner : Nat
  base : Nat
  len : Nat
  frames : List (Nat × Nat)
  zors : List Bool := []
  hashed : Bool := false
  hash : List Byte := []
  freeing : Bool := false
deriving DecidableEq, Repr

/-- An owner (R418, R427): the generation of its key, whether a digest log has been designated, that log, the quantum the dispatch core set, whether it is admitted to remote
access, and its designated system-call ring.
(DESIGN CHOICE, log 61; DEDUCED, log 68) -/
structure Owner where
  num : Nat
  keyGen : Nat
  logged : Bool := false
  logBase : Nat := 0
  logCap : Nat := 1024
  logWrite : Nat := 0
  logRead : Nat := 0
  quantum : Nat := 1000000
  remote : Bool := false
  ringConn : Option Nat := none
  ringCap : Nat := 0
  ringUsed : Nat := 0
deriving DecidableEq, Repr

/-- An Eceth message (R403): its header's fields and its payload. -/
structure Message where
  kind : Nat
  status : Nat
  conn : Nat
  seq : DWord
  addr : DWord := 0
  len : Nat := 0
  payload : List Byte := []
deriving DecidableEq, Repr

/-- An Eceth connection (R402, R403): its owner and port, the next request number to perform, the next number of the device's own messages and
those not yet acknowledged, the replies given, and for a frozen connection the reply that its violating message gets on release (R422). -/
structure Conn where
  num : Nat
  owner : Nat
  port : Nat := 0
  nextRx : DWord := 0
  nextTx : DWord := 0
  unacked : List Message := []
  replies : List Message := []
  frozen : Bool := false
  denied : Option Message := none
deriving DecidableEq, Repr

/-- States of a firmware update (R430). -/
inductive FwState where
  | active | quiesce | check | handover | probation
deriving DecidableEq, Repr

/-- The structure into which the old image writes its state (R430): its version, the tasks of the Lineups in their order, and the keys of the resident squads.
(DESIGN CHOICE, log 70) -/
structure Handover where
  version : BitVec 32
  lineup : List Nat
  squads : List Nat
deriving DecidableEq, Repr

/-- The scheduler firmware (R429, R430): the active slot, the images in it and in the spare slot, the state of an update, when probation began, the structure handed
over, that its verification failed at power-on, and the measurements reported.
(DESIGN CHOICE, log 8; DESIGN CHOICE, log 70) -/
structure Firmware where
  slot : Nat := 0
  image : List Byte := []
  spare : List Byte := []
  state : FwState := .active
  since : Nat := 0
  handover : Option Handover := none
  closed : Bool := false
  measurements : List (List Byte) := []
deriving DecidableEq, Repr

/-- The image that runs may write hardware tables: one in PROBATION may not (R430).
(DESIGN CHOICE, log 70) -/
def Firmware.writes (f : Firmware) : Bool := f.state != .probation

/-- A sensor of a cluster or die (R412): the last code, how many samples it has stayed, the power when it began to stay, and its
permanent failure.
(DESIGN CHOICE, log 65) -/
structure Sensor where
  value : Int := 0
  same : Nat := 0
  power0 : Nat := 0
  failed : Bool := false
deriving DecidableEq, Repr

/-- Package power (R410 to R412): the operand ration, the cap on points, when the governor and the energy counters last acted, the sensors (of
cluster cl: 3·cl and 3·cl + 1 its diodes, 3·cl + 2 its current sense; of die d: 396 + 4·d on), and the dies that run at half frequency.
(DESIGN CHOICE, log 8) -/
structure Power where
  ration : Nat := 16
  cap : Nat := 7
  governAt : Nat := 0
  energyAt : Nat := 0
  sensors : List (Nat × Sensor) := []
  halved : List Nat := []
deriving DecidableEq, Repr

/-- What an outstanding remote request was made for (R434 to R442): its issuer, its lane or the TRANS it serves, kind, target, address,
size, operands, and its time of issue; `held` tells that it waits or has waited at the Umpire of its target, which ends the limit of 1 ms
(R438, R442). -/
structure RemoteReq where
  id : Nat
  cluster : Nat
  src : UnitRef
  lane : Nat
  op : Nat
  dev : Nat
  addr : Nat
  size : Nat
  data : List Nat
  issued : Nat
  held : Bool := false
deriving DecidableEq, Repr

/-- The fabric side of the package (R433 to R443): device id, other reachable devices, requests outstanding with the answers on their way to them
(id, status, bytes) and those that arrived, the source devices that a die's Umpire has frozen, the violating requests that wait for it (device, die,
request), the requests of frozen devices that each die has not begun, the packages that lost their route with the shootdown notices owed to them (R436), the notices of other packages
(device and number) that await requests before they are answered, and the messages sent to other packages.
(DESIGN CHOICE, log 8) -/
structure Fabric where
  devid : Nat := 0
  routes : List Nat := []
  nextReq : Nat := 0
  out : List RemoteReq := []
  answers : List (Nat × Nat × List Byte) := []
  results : List (Nat × Nat × List Byte) := []
  frozenIn : List (Nat × Nat) := []
  waitingIn : List (Nat × Nat × Nat) := []
  held : List (Nat × HostFrame) := []
  lost : List Nat := []
  owed : List (Nat × List Byte) := []
  notices : List ((Nat × DWord) × List Nat) := []
  sent : List Message := []
deriving DecidableEq, Repr

end Sys2Proof.Machine
end

