-- ==== Sys2Proof/Machine/State.lean ====
section
/-! DEFINITION. The state of the package as plain data, the reasons a step can stop, and the state after reset
(01_machine.md R14 to R18; 04_team_state.md R77; 09_cluster_generator.md R210; 22_package_power.md R417). -/

namespace Sys2Proof.Machine

/-- What a device step acts on: up to three numbers (a squad key and a team or context, a die, a task, a table index), a word, a unit, and a
message. Each step's meaning says which it uses.
(DESIGN CHOICE, log 56; DESIGN CHOICE, log 59) -/
structure Operand where
  a : Nat := 0
  b : Nat := 0
  c : Nat := 0
  w : DWord := 0
  unit : Option UnitRef := none
  frame : Option HostFrame := none
deriving DecidableEq, Repr

/-- A turn of the plain-data schedule that says which agent moves next. The spec orders agents only by its own rules (R202, R213,
the consistency model); every other order is taken from this list.
(DESIGN CHOICE, log 1) -/
inductive Turn where
  | lane (cl core : Nat)            -- lane core `core` of cluster `cl` uses an issue slot
  | lanePart (cl core n : Nat)      -- the same, and a region word performs at most n + 1 lanes of those still to do (R355)
  | gen (cl : Nat)                  -- the generator core of cluster `cl` issues a word of its next runnable context
  | event (i : Instr) (x : Operand) -- a device step and what it acts on
  | tick (cycles ns : Nat)          -- time passes
  | memError (line : Nat)           -- a 128-byte line of memory or L2 becomes uncorrectable (R328)
  | regError (q t r l : Nat)        -- register r of lane l becomes uncorrectable (R208)
  | accError (q h e : Nat)          -- an accumulator element becomes uncorrectable (R208)
  | tileError (q h l : Nat)         -- line l of a tile becomes uncorrectable (R176, R414)
  | corrected (cl : Nat)            -- a corrected error is counted (R208, R413)
  | tlbDrop (cl : Nat)              -- the TLBs of a cluster lose their entries (R312)
  | l1Drop (cl line : Nat)          -- the L1 of a cluster replaces a line (R257)
deriving DecidableEq, Repr

/-- The reasons a step faults. -/
inductive Fault where
  /-- Raised by the execution of an instruction word when the unit named by `State.cur` does not exist or is of the other level: no
  step of the machine does this. Safe: the hardware has no such event. -/
  | noUnit
deriving DecidableEq, Repr

/-- The reasons a step refuses. -/
inductive Refusal where
  /-- Raised by the dispatcher for an instruction that has no meaning in this model. Safe: nothing can be proved of it. -/
  | notModelled (mnemonic : String)
deriving DecidableEq, Repr

/-- The state of one UVK3-A package. `streams` holds the channel entries of placed tasks in the order in which R259 settles what they own: a
task's image at its first placement, then each entry that CHSET wrote. `limit` is the number of lanes, less one, after which a region word of the turn lets
other agents move (R355).
(DESIGN CHOICE, log 1; DEDUCED, log 72) -/
structure State where
  cur : Option UnitRef := none
  operand : Operand := {}
  limit : Option Nat := none
  schedule : List Turn := []
  free : Nat := 0
  up : Bool := false
  fatal : Bool := false
  now : Nat := 0
  serial : Nat := 0
  mem : List Host.Cell := []
  tags : List (Nat × (Nat × Nat)) := []
  zorFrames : List (Nat × Nat) := []
  zorWritten : List Nat := []
  badLines : List Nat := []
  poison : List Nat := []
  dies : List Die
  clusters : List Cluster
  squads : List (Nat × Squad) := []
  nextSquad : Nat := 1
  copies : List (Nat × Copy) := []
  nextCopy : Nat := 0
  tasks : List (Nat × Task) := []
  streams : List (Nat × List (Nat × List DWord)) := []
  versions : List (Nat × Version) := []
  nextVersion : Nat := 0
  poolNext : Nat := 0
  seals : List (Nat × SealEnt) := []
  owners : List (Nat × Owner) := []
  conns : List (Nat × Conn) := []
  outbox : List (List Byte) := []
  keyGen : Nat := 0
  ddr : List Nat := []
  tagsNative : List (Nat × Nat × Nat) := []
  firmware : Firmware := {}
  power : Power := {}
  fabric : Fabric := {}
  saves : List (Nat × Squad) := []
  events : List (List Byte) := []
deriving DecidableEq, Repr

/-- The default operating points P0 to P7 as frequency and voltage (R406). -/
def defaultPoints : List (Nat × Nat) :=
  [(400, 500), (600, 550), (800, 600), (1000, 650), (1100, 680), (1200, 700), (1400, 750), (1600, 800)]

/-- A cluster after bring-up (R417): four empty lane cores, empty TLBs and L1, cycle count 0, the default points, point P5 (R408) at
its safe set point.
(DESIGN CHOICE, log 8) -/
def Cluster.fresh : Cluster :=
  { cores := [{}, {}, {}, {}], power := { points := defaultPoints, point := 5 } }

/-- The package right after reset is applied, before bring-up (R417): no owner, no task, empty tables, 3 dies and 132 clusters, the
stepping tag 0x0001 accepted natively with L_LANE 4 and L_GEN 2 (R447).
(DESIGN CHOICE, log 6; DESIGN CHOICE, log 8) -/
def State.reset : State :=
  { dies := [{}, {}, {}], clusters := List.replicate 132 Cluster.fresh, ddr := [0, 0, 0], tagsNative := [(0x0001, 4, 2)] }

end Sys2Proof.Machine
end

