-- ==== Sys2Proof/Machine/Ops.lean ====
section
/-! DEFINITION. The named operations over squads, teams, contexts and registers: reading and writing registers and masks, hazards (R25),
retiring a word (R88, R90), parking a team (R89), raising and pending a trap (R284 to R286), killing a task and reclaiming a squad
(R295, R299), and the shape every lane word and generator word shares. -/

namespace Sys2Proof.Machine

open Host (Outcome)

/-! ## Units of the state -/

/-- The resident squad of key `q`. -/
def State.squad (s : State) (q : Nat) : Option Squad := aget? s.squads q

/-- Replaces the squad of key `q`. -/
def State.setSquad (s : State) (q : Nat) (x : Squad) : State := { s with squads := aset s.squads q x }

/-- Changes the squad of key `q` when it is resident. -/
def State.modSquad (s : State) (q : Nat) (f : Squad → Squad) : State :=
  match s.squad q with
  | some x => s.setSquad q (f x)
  | none => s

/-- Team `t` of the squad of key `q`. -/
def State.team (s : State) (q t : Nat) : Option Team :=
  match s.squad q with
  | some x => x.teams[t]?
  | none => none

/-- Changes team `t` of the squad of key `q`. -/
def State.modTeam (s : State) (q t : Nat) (f : Team → Team) : State :=
  s.modSquad q fun x => { x with teams := x.teams.modify t f }

/-- Context `c` of the squad of key `q`. -/
def State.ctx (s : State) (q c : Nat) : Option Ctx :=
  match s.squad q with
  | some x => x.ctxs[c]?
  | none => none

/-- Changes context `c` of the squad of key `q`. -/
def State.modCtx (s : State) (q c : Nat) (f : Ctx → Ctx) : State :=
  s.modSquad q fun x => { x with ctxs := x.ctxs.modify c f }

/-- Cluster `cl`, 44 to a die (R17). -/
def State.cluster (s : State) (cl : Nat) : Cluster := s.clusters.getD cl Cluster.fresh

/-- Changes cluster `cl`. -/
def State.modCluster (s : State) (cl : Nat) (f : Cluster → Cluster) : State :=
  { s with clusters := s.clusters.modify cl f }

/-- Changes lane core `k` of cluster `cl`. -/
def State.modCore (s : State) (cl k : Nat) (f : LaneCore → LaneCore) : State :=
  s.modCluster cl fun x => { x with cores := x.cores.modify k f }

/-- Die `d`. -/
def State.die (s : State) (d : Nat) : Die := s.dies.getD d {}

/-- Changes die `d`. -/
def State.modDie (s : State) (d : Nat) (f : Die → Die) : State := { s with dies := s.dies.modify d f }

/-- The die of a cluster. -/
def dieOf (cl : Nat) : Nat := cl / 44

/-- The task of id `k`. -/
def State.task (s : State) (k : Nat) : Option Task := aget? s.tasks k

/-- Changes the task of id `k`. -/
def State.modTask (s : State) (k : Nat) (f : Task → Task) : State :=
  match s.task k with
  | some x => { s with tasks := aset s.tasks k (f x) }
  | none => s

/-- The copy of key `k`. -/
def State.copy (s : State) (k : Nat) : Option Copy := aget? s.copies k

/-- Changes the copy of key `k`. -/
def State.modCopy (s : State) (k : Nat) (f : Copy → Copy) : State :=
  match s.copy k with
  | some x => { s with copies := aset s.copies k (f x) }
  | none => s

/-- Word `i` of a task record. -/
def Task.word (t : Task) (i : Nat) : DWord := t.record.getD i 0

/-- OWNER of a task record (R361). -/
def Task.owner (t : Task) : Nat := field64 (t.word 3) 8 12

/-- The owner a squad's accesses carry. -/
def State.ownerOf (s : State) (sq : Squad) : Nat :=
  match s.task sq.task with
  | some t => t.owner
  | none => 0

/-- A speculative task that has not committed (R382, R392). -/
def Task.uncommitted (t : Task) : Bool := t.spec && (t.specPhase == .pending || t.specPhase == .passed)

/-- The squad belongs to an uncommitted speculative task. -/
def State.speculative (s : State) (sq : Squad) : Bool :=
  match s.task sq.task with
  | some t => t.uncommitted
  | none => false

/-- The resident squads of a task. -/
def State.squadsOf (s : State) (k : Nat) : List (Nat × Squad) := s.squads.filter fun p => p.2.task == k

/-- The resident squad of an instance of a task. -/
def State.squadOfInstance (s : State) (k inst : Nat) : Option (Nat × Squad) :=
  s.squads.find? fun p => p.2.task == k && p.2.instance_ == inst

/-- The cycle count of the cluster a squad is on. -/
def State.cycleOf (s : State) (q : Nat) : Nat :=
  match s.squad q with
  | some x => (s.cluster x.cluster).cycle
  | none => 0

/-! ## Masks (R28, R78) -/

/-- Mask register m_k of a team. -/
def Team.m (tm : Team) (k : Nat) : Mask := tm.masks.getD k 0

/-- EffMask of R44: m0, or m[ms] AND m0. -/
def Team.effMask (tm : Team) (ms : BitVec 3) : Mask := if ms = 0 then tm.m 0 else tm.m ms.toNat &&& tm.m 0

/-- The lanes that a word of a team acts for: its effective mask, or the unfinished lanes of a word that executes again (R44, R147). -/
def Team.acting (tm : Team) (ms : BitVec 3) : Mask := tm.todo.getD (tm.effMask ms)

/-- Writes mask register m_k; bits of lanes that do not exist stay 0 (R76, R78). -/
def Team.setM (tm : Team) (k : Nat) (x : Mask) : Team :=
  { tm with masks := tm.masks.set k (x &&& maskBelow tm.lanes) }

/-- Number of passes of `w` lanes with a lane of the mask (R83, R92). -/
def passCount (w : Nat) (m : Mask) : Nat := ((upTo (1024 / w)).filter fun p => fieldN m.toNat (w * p) w != 0).length

/-- The lowest lane of a mask. -/
def lowLane (m : Mask) : Option Nat := (upTo 1024).find? fun l => m.getLsbD l

/-- The lanes of a mask in ascending order, for a team. -/
def Team.lanesOf (tm : Team) (m : Mask) : List Nat := maskLanes m tm.lanes

/-- The lanes of row block rb (R163). -/
def rowBlock (rb : Nat) : Mask := BitVec.ofNat 1024 ((2 ^ 64 - 1) <<< (64 * rb))

/-! ## Lane registers (R31, R32, R77) -/

/-- The values of register `r` by lane. -/
def Team.vreg (tm : Team) (r : Nat) : List Word := aget [] tm.v r

/-- V(l, r) of R44. -/
def Team.V (tm : Team) (l r : Nat) : Word := (tm.vreg r).getD l 0

/-- V64(l, r) of R44. -/
def Team.V64 (tm : Team) (l r : Nat) : DWord := (tm.V l (r + 1)) ++ (tm.V l r)

/-- Writes register `r` of the lanes of a mask, each lane's value given by a function; every other lane keeps its value (R95). A lane register
written is no longer marked bad (R208), and `wrote` keeps that it was written. -/
def Team.setV (tm : Team) (r : Nat) (m : Mask) (f : Nat → Word) : Team :=
  { tm with
    v := aset tm.v r ((upTo tm.lanes).map fun l => if m.getLsbD l then f l else tm.V l r)
    wrote := (r, m) :: tm.wrote
    bad := tm.bad.filter fun b => !(b.1 == r && m.getLsbD b.2) }

/-- Writes the pair at `r` of the lanes of a mask (R32). -/
def Team.setV64 (tm : Team) (r : Nat) (m : Mask) (f : Nat → DWord) : Team :=
  (tm.setV r m fun l => (f l).extractLsb' 0 32).setV (r + 1) m fun l => (f l).extractLsb' 32 32

/-- A decode environment of a team (R41). -/
def Team.ckEnv (tm : Team) : CkEnv := { dyn := true, n := tm.n, fm := tm.fmtr, g := tm.gw, l := tm.lanes }

/-- The 32-bit value a special operand supplies to lane `l` (R31); `one` is what ONE reads as. -/
def specialOp (inst t gw one l f : Nat) : Nat :=
  match f with
  | 0x80 => l
  | 0x81 => l % gw
  | 0x82 => l / gw
  | 0x83 => t
  | 0x84 => 0
  | 0x85 => one
  | _ => inst % 2 ^ 32

/-! ## Issue timing and hazards (R21, R25, R27, R83, R446, R447) -/

/-- The A latch that an MMA or MMAZ finds held and matching (R173).
(DEDUCED, log 26) -/
def Team.latchHit (tm : Team) (w : LR) : Option Latch :=
  if w.ex.getLsbD 7 then
    tm.latch.filter fun k => k.a == w.a.toNat && k.rb == fieldN w.c.toNat 4 4 && k.ty == effTy tm.ckEnv w.ty && k.spa == w.ex.getLsbD 2
  else none

/-- The lanes over whose passes a word with effective mask `m` issues, none for a word of one slot (R83, R446). -/
def issueMask (tm : Team) (i : Instr) (m : Mask) : Mask :=
  match i with
  | .mma w | .mmaz w => if (tm.latchHit w).isSome then 0 else m &&& rowBlock (fieldN w.c.toNat 4 4)
  | .tepi w | .tepiMem w => m &&& rowBlock (fieldN w.c.toNat 4 4)
  | .vote _ => tm.m 0
  | j => if oneSlot j then 0 else m

/-- The slots that a word takes on the team's core, and on the odd core of a pair, which issues the passes of lanes 512 and above
(R83, R91, R92, R446). -/
def passesOf (tm : Team) (i : Instr) (m : Mask) : Nat × Nat :=
  let w := if tm.legacy then 16 else 32
  let k := issueMask tm i m
  let odd := if tm.pair then passCount w (k &&& ~~~maskBelow 512) else 0
  (if odd = 0 then max (passCount w k) 1 else passCount w (k &&& maskBelow 512), odd)

/-- The oldest word of the team was emitted in native mode (R27): WAIT, SETA, SETB and STALL have their meaning for it, and registers are not
interlocked.
(DEDUCED, log 73) -/
def Team.native (tm : Team) : Bool := (tm.buffer.head?.map (·.native)).getD false

/-- L_LANE of the stepping in whose mode the oldest word was emitted (R447).
(DEDUCED, log 73) -/
def Team.lLane (tm : Team) : Nat := (tm.buffer.head?.map (·.lLane)).getD 0

/-- A hazard that a WAIT or the bound of R447 has not covered.
(DESIGN CHOICE, log 3) -/
def Hazard.live (busy : BitVec 12) (cycle : Nat) (h : Hazard) : Bool :=
  match h.flag with
  | some f => busy.getLsbD f
  | none => h.long || decide (cycle < h.ready)

/-- The hazard concerns lane `l` of register `r`. -/
def Hazard.at (h : Hazard) (r l : Nat) : Bool := h.reg == r && h.lane == l

/-- The hazards that have not landed: one that has takes with it those that land before it at its place (R25). -/
def settle (live : Hazard → Bool) : List Hazard → List Hazard
  | [] => []
  | h :: t => if live h then h :: settle live t else (settle live t).filter fun z => !z.at h.reg h.lane

/-- What a word reads at a place whose stored value is `cur` (R25): that value, or one that a write which has not landed lands over, as the free
value says.
(DESIGN CHOICE, log 3; DESIGN CHOICE, log 4) -/
def readHazard (hs : List Hazard) (free r l : Nat) (cur : DWord) : DWord :=
  let vs := cur :: (hs.filter (·.at r l)).map (·.old)
  vs.getD (Config.freeNat free (r * 1024 + l) % vs.length) cur

/-- How many writes that have not landed at a place a new write lands before (R25): two writes land in their order unless one of them is
long-latency.
(DESIGN CHOICE, log 3; DESIGN CHOICE, log 4) -/
def landUnder (hs : List Hazard) (free : Nat) (long : Bool) (r l : Nat) : Nat :=
  Config.freeNat free (131072 + r * 1024 + l) % (((hs.filter (·.at r l)).takeWhile fun h => h.long || long).length + 1)

/-- The hazards with a new one for a write of `new` under the first `k` at its place; `e.old` is the value stored there before. -/
def Hazard.place (e : Hazard) (new : DWord) : Nat → List Hazard → List Hazard
  | 0, hs => e :: hs
  | _ + 1, [] => [e]
  | k + 1, h :: t =>
    if h.at e.reg e.lane then
      if k = 0 then { h with old := new } :: { e with old := h.old } :: t else h :: e.place new k t
    else h :: e.place new (k + 1) t

/-- What a native-mode word of the team reads (R25). -/
def Team.seen (tm : Team) (free cycle : Nat) : Team :=
  let hs := settle (·.live tm.busy cycle) tm.hazards
  { tm with v := hs.foldl (fun v h => aset v h.reg ((upTo tm.lanes).map fun l =>
      (readHazard hs free h.reg l ((tm.V l h.reg).setWidth 64)).extractLsb' 0 32)) tm.v }

/-- What the team's oldest word reads: in interlocked mode every older write has landed (R25, R27).
(DEDUCED, log 73) -/
def Team.reads (tm : Team) (free cycle : Nat) : Team := if tm.native then tm.seen free cycle else tm

/-- The registers below 128 and lanes that `wrote` lists, each once. -/
def Team.written (tm : Team) : List (Nat × Nat) :=
  ((tm.wrote.map (·.1)).eraseDups.filter (· < 128)).flatMap fun r =>
    ((upTo tm.lanes).filter fun l => tm.wrote.any fun p => p.1 == r && p.2.getLsbD l).map fun l => (r, l)

/-- After a word of the team that took it from `old` to `new`: a native-mode word's writes become hazards, each of which may land before older
long-latency ones, whose value then stays (R25); an interlocked word's writes land after every older one (R27).
(DESIGN CHOICE, log 3) -/
def Team.noteHazards (old new : Team) (free cycle : Nat) (flag : Option Nat) (long : Bool) (ready : Nat) : Team :=
  let hs := settle (·.live old.busy cycle) old.hazards
  let ws := new.written
  if old.native then
    { new with
      v := (ws.filter fun p => landUnder hs free long p.1 p.2 != 0).foldl (fun v p => aset v p.1 ((aget [] v p.1).set p.2 (old.V p.2 p.1))) new.v
      hazards := ws.foldl (fun z p =>
        (⟨p.1, p.2, (old.V p.2 p.1).setWidth 64, flag, long, ready⟩ : Hazard).place ((new.V p.2 p.1).setWidth 64) (landUnder hs free long p.1 p.2) z) hs
      wrote := [] }
  else { new with hazards := hs.filter fun h => !ws.contains (h.reg, h.lane), wrote := [] }

/-! ## Retiring lane words (R24, R87, R88) -/

/-- The clause position after a word: within the clause, or at the next header (R19). -/
def Clause.advance (c : Clause) : Option Clause := if c.idx + 1 < c.len then some { c with idx := c.idx + 1 } else none

/-- The oldest word of a team leaves its buffer and the cursor moves on (R87, R88). -/
def Team.pop (tm : Team) : Team :=
  { tm with
    buffer := tm.buffer.drop 1, pos := tm.pos + 1, clause := tm.clause.bind Clause.advance
    fflags := tm.fflags ||| tm.owedFlags, owedFlags := 0, lostTiles := [], awaits := [], inUnit := false
    wait := none, todo := none, started := none, half := none, violating := 0, faulted := [], starved := false }

/-- The flag a word of the team binds under its clause (R20, R24). -/
def Team.boundFlag (tm : Team) (i : Instr) : Option Nat :=
  if isLong i then (tm.clause.bind fun c => c.flag c.idx) else none

/-- The STALL count after the team's word, native mode only (R21, R27). -/
def Team.stall (tm : Team) : Nat :=
  if tm.native then (match tm.clause with | some c => c.stall c.idx | none => 0) else 0

/-- Core `k` of a cluster issues `p` passes from a cycle on: those of a team on a pair behind what the core still issues, others with those of a ganged
mate (R92). -/
def State.occupy (s : State) (cl k cyc p : Nat) (pair : Bool) : State :=
  if p = 0 then s else s.modCore cl k fun c => { c with busyUntil := if pair then max c.busyUntil cyc + p else max c.busyUntil (cyc + p) }

/-- A word of team (q, t) takes its issue slots, unless it has taken them before (R446): its cores are busy for its passes, and the team's next
word issues after them and its STALL count (R21). Of a pair a core that has issued its passes already takes none (R91). -/
def State.takeSlot (s : State) (q t : Nat) (sq : Squad) (old : Team) (i : Instr) (m : Mask) : State :=
  if old.started.isSome then s
  else
    let cyc := (s.cluster sq.cluster).cycle
    let p := passesOf old i m
    let due (k n : Nat) : Nat := if old.half.any (·.1 == k) then 0 else n
    let a := due old.core p.1
    let b := due (old.core + 1) p.2
    let done := (old.half.map (·.2)).getD 0
    let s := s.modTeam q t fun tm =>
      { tm with started := some cyc, half := none, nextIssue := max (cyc + max a b) done + old.stall }
    (s.occupy sq.cluster old.core cyc a old.pair).occupy sq.cluster (old.core + 1) cyc b old.pair

/-- A completed word of team (q, t) retires: `old` is the team before the word, and the state holds its effects. A long-latency word marks
its flag busy unless its mask is empty (R24).
(DESIGN CHOICE, log 3) -/
def State.retire (s : State) (q t : Nat) (sq : Squad) (old : Team) (i : Instr) (m : Mask) : State :=
  let cyc := (s.cluster sq.cluster).cycle
  let p := passesOf old i m
  let flag := if old.native then old.boundFlag i else none
  let s := (s.takeSlot q t sq old i m).modTeam q t fun tm =>
    let tm := Team.noteHazards old tm s.free cyc flag (isLong i) (cyc + max p.1 p.2 - 1 + old.lLane)
    let tm := match flag with
      | some f => if m = 0 then tm else { tm with busy := tm.busy ||| (1#12 <<< f) }
      | none => tm
    tm.pop
  { s with free := s.free + 1 }

/-- A word of team (q, t) waits and will execute again, in no further slot (R446). -/
def State.waits (s : State) (q t : Nat) (sq : Squad) (old : Team) (i : Instr) (m : Mask) (w : TeamWait) : State :=
  (s.takeSlot q t sq old i m).modTeam q t fun tm =>
    { tm with wait := some w, awaits := match w with
        | .lines ls _ => (ls.map (·.1)).eraseDups
        | _ => tm.awaits }

/-! ## Channels and owned teams (R209, R258 to R260, R264) -/

/-- Instances of a task record (R361). -/
def Task.insts (t : Task) : Nat := field64 (t.word 2) 0 24 + 1
/-- Teams in each squad of a task record. -/
def Task.teamCount (t : Task) : Nat := field64 (t.word 2) 24 4 + 1
/-- Contexts in each squad of a task record. -/
def Task.ctxCount (t : Task) : Nat := field64 (t.word 2) 28 4 + 1

/-- Word `k` of channel entry `ch` of a context; c0 and unset entries are all zero here. -/
def Ctx.chan (cx : Ctx) (ch k : Nat) : DWord := (aget [] cx.chans ch).getD k 0

/-- KIND of an entry word 0 for a context of a role (R258): ROLEV hides a STREAM entry from every other role. -/
def entryKind (e : DWord) (role : Nat) : Nat :=
  if field64 e 0 2 = 1 ∧ e.getLsbD 12 ∧ field64 e 8 4 ≠ role then 0 else field64 e 0 2

/-- KIND of a channel entry (R258). -/
def Ctx.chanKind (cx : Ctx) (ch : Nat) : Nat := entryKind (cx.chan ch 0) cx.role

/-- The task whose instances a STREAM entry of task `k` names (R259). -/
def entryTask (e0 e1 : DWord) (k : Nat) : Nat := if e0.getLsbD 5 then field64 e1 0 32 else k

/-- The first instance a STREAM entry names, from the sender's instance (R259). -/
def entryFirst (e0 : DWord) (inst : Nat) : Int := (inst : Int) + signed (field64 e0 40 24) 24

/-- The destinations of a STREAM entry, as task, instance and team, in the channel's order (R259). -/
def entryDests (e0 e1 : DWord) (k inst : Nat) : List (Nat × Nat × Nat) :=
  (upTo (field64 e0 36 4 + 1)).flatMap fun (j : Nat) =>
    ((upTo 16).filter fun t => e0.getLsbD (20 + t)).map fun t => (entryTask e0 e1 k, (entryFirst e0 inst + j).toNat, t)

/-- A STREAM entry that R264 lets stand: at most 64 teams, instances inside the destination task, TEAMS within its squads. -/
def State.entryOk (s : State) (e0 e1 : DWord) (k inst : Nat) : Bool :=
  match s.task (entryTask e0 e1 k) with
  | none => false
  | some d =>
    let f := entryFirst e0 inst
    let n := field64 e0 36 4 + 1
    decide (n * popN 16 (field64 e0 20 16) ≤ 64) && decide (0 ≤ f) && decide (f + n ≤ d.insts)
      && decide (field64 e0 20 16 < 2 ^ d.teamCount)

/-- The entries of a list of task `x`'s that name team `t` of instance `i` of task `k`, as sending instance, role and channel.
(DEDUCED, log 35) -/
def State.claimants (s : State) (x : Task) (entries : List (Nat × List DWord)) (k i t : Nat) : List (Nat × Nat × Nat) :=
  entries.flatMap fun p =>
    let e0 := p.2.getD 0 0
    let e1 := p.2.getD 1 0
    if p.1 = 0 ∨ field64 e0 0 2 ≠ 1 ∨ e0.getLsbD (20 + t) = false ∨ entryTask e0 e1 x.id ≠ k then []
    else
      (upTo (field64 e0 36 4 + 1)).flatMap fun (j : Nat) =>
        let a := (i : Int) - j - signed (field64 e0 40 24) 24
        if a < 0 ∨ (x.insts : Int) ≤ a ∨ !s.entryOk e0 e1 x.id a.toNat then []
        else ((upTo x.ctxCount).filter fun r => entryKind e0 r == 1).map fun r => (a.toNat, r, p.1)

/-- The claimant that owns: lowest instance, then role, then channel (R259).
(DEDUCED, log 35) -/
def firstClaim (l : List (Nat × Nat × Nat)) : Option (Nat × Nat × Nat) := leastBy (fun c => (c.1 * 16 + c.2.1) * 64 + c.2.2) l

/-- What entries that are settled make of the owner of team `t` of instance `i` of task `k` (R259): a team that is owned stays so, its own entry's
replacement included where that still names the team for the same context; a team that none owns takes the first claim.
(DEDUCED, log 35) -/
def State.settleStep (s : State) (tk : Task) (k i t : Nat) (cur : Option (Nat × Nat × Nat × Nat)) (b : Nat × List (Nat × List DWord)) :
    Option (Nat × Nat × Nat × Nat) :=
  match s.task b.1 with
  | none => cur
  | some x =>
    let claims := if x.owner = tk.owner then s.claimants x b.2 k i t else []
    let claim := (firstClaim claims).map fun c => (b.1, c)
    match cur with
    | none => claim
    | some o => if o.1 = b.1 ∧ (b.2.any fun e => e.1 == o.2.2.2) = true then (if claims.contains o.2 then cur else claim) else cur

/-- The STREAM entry that owns team `t` of instance `i` of task `k` (R259, R260), as task, instance, role and channel: what the entries settled so far, in
their order, come to. An entry that another one kept from owning a team stays invalid for it.
(DEDUCED, log 35) -/
def State.streamOwner (s : State) (k i t : Nat) : Option (Nat × Nat × Nat × Nat) :=
  match s.task k with
  | none => none
  | some tk => s.streams.foldl (s.settleStep tk k i t) none

/-- Channel entry `ch` of a context of a squad owns a team (R259). -/
def State.ownsDest (s : State) (sq : Squad) (cx : Ctx) (ch : Nat) (d : Nat × Nat × Nat) : Bool :=
  s.streamOwner d.1 d.2.1 d.2.2 == some (sq.task, sq.instance_, cx.role, ch)

/-- A channel entry that is written for a task is settled behind all before it (R259, R261).
(DEDUCED, log 35) -/
def State.addStream (s : State) (k ch : Nat) (ws : List DWord) : State := { s with streams := s.streams ++ [(k, [(ch, ws)])] }

/-- The owner of a team of a task's instance, as squad key and context, and the channel through which it owns it (R209, R259): a squad's key is
that of its task's first instance plus its instance number.
(DEDUCED, log 35) -/
def State.settleOwner (s : State) (k i t : Nat) : Option (Nat × Nat) × Option Nat :=
  match s.task k with
  | none => (none, none)
  | some tk =>
    match s.streamOwner k i t with
    | some (x, a, r, ch) => (some ((((s.task x).map (·.keyBase)).getD 0) + a, r), some ch)
    | none => (some (tk.keyBase + i, t % tk.ctxCount), none)

/-- The teams outside its own squad that a channel entry of a context owns, in the channel's order (R259, R260, R264). -/
def State.foreignOf (s : State) (sq : Squad) (cx : Ctx) (ch : Nat) : List (Nat × Nat × Nat) :=
  if cx.chanKind ch = 1 ∧ s.entryOk (cx.chan ch 0) (cx.chan ch 1) sq.task sq.instance_ then
    (entryDests (cx.chan ch 0) (cx.chan ch 1) sq.task sq.instance_).filter fun d =>
      !(d.1 == sq.task && d.2.1 == sq.instance_) && s.ownsDest sq cx ch d
  else []

/-- The teams that channels below `n` give a context from outside its own squad, in the order that numbers them from 16; an entry that would take
them past 48 gives none (R260).
(DEDUCED, log 35) -/
def State.foreignBelow (s : State) (sq : Squad) (cx : Ctx) (n : Nat) : List (Nat × Nat × Nat) :=
  ((upTo n).drop 1).foldl (fun l ch =>
    let ds := s.foreignOf sq cx ch
    if l.length + ds.length ≤ 48 then l ++ ds else l) []

/-- The teams a context owns only through STREAM entries, as task, instance and team, in the order that numbers them from 16 (R260). -/
def State.foreign (s : State) (sq : Squad) (cx : Ctx) : List (Nat × Nat × Nat) := s.foreignBelow sq cx 64

/-- The owned-team number of team `t` of squad `q` at context `c` of squad `cq` (R260). -/
def State.ownedNumber (s : State) (cq c q t : Nat) : Nat :=
  if cq = q then t
  else match s.squad cq, s.squad q, s.ctx cq c with
    | some a, some b, some cx => 16 + (s.foreign a cx).idxOf (b.task, b.instance_, t)
    | _, _, _ => 0

/-- What an owned-team number of a context names (R260): no team it owns, a team of a squad that is not resident, or a resident team.
(DEDUCED, log 25) -/
inductive Owned where
  | no
  | away
  | team (q t : Nat)
deriving DecidableEq, Repr

/-- The team that an owned-team number of a context names (R260).
(DEDUCED, log 25) -/
def State.ownedTeam (s : State) (q c n : Nat) : Owned :=
  match s.squad q, s.ctx q c with
  | some sq, some cx =>
    let own (q' t : Nat) : Owned := match s.team q' t with
      | some tm => if tm.owner = some (q, c) then .team q' t else .no
      | none => .no
    if n < 16 then own q n
    else match (s.foreign sq cx)[n - 16]? with
      | some (k, i, t) => match s.squadOfInstance k i with
        | some (q', _) => own q' t
        | none => .away
      | none => .no
  | _, _ => .no

/-! ## Operating points (R408) -/

/-- A point lowered by the limits of R410 and R412. -/
def State.limitPoint (s : State) (cl p : Nat) : Nat :=
  let c := (s.cluster cl).power
  if c.failed || (aget? c.hot 105).isSome then 0 else min p s.power.cap

/-- A cluster takes the highest required point of its resident squads, as the limits allow (R408); a change of point starts from the new
point's safe set point (R413). A cluster with no resident squad keeps its point within the limits. Frequency and voltage change in one step, so the
order of R407 between them, which no result shows, is left out.
(DESIGN CHOICE, log 64) -/
def State.repoint (s : State) (cl : Nat) : State :=
  let rs := s.squads.filter fun p => p.2.cluster == cl && !p.2.off
  let c := (s.cluster cl).power
  let p := s.limitPoint cl (if rs.isEmpty then c.point else (rs.map fun p => p.2.required).foldl max 0)
  if p = c.point then s else s.modCluster cl fun k => { k with power := { k.power with point := p, under := 0 } }

/-! ## Reclaiming a squad and killing a task (R255, R295, R299) -/

/-- A copy leaves the outstanding states: its locks go, and its description stays for its squad's COPYQ (R252, R254, R255). -/
def State.dropCopy (s : State) (k : Nat) : State :=
  match s.copy k with
  | none => s
  | some cp =>
    let status := min cp.bytes (2 ^ 32 - 1) * 2 ^ 32 + cp.fslice * 2 ^ 20 + (cp.slices.length - 1) * 2 ^ 16
      + ((cp.cause.map (·.code)).getD 0) * 2 ^ 8
    let s := s.modSquad cp.q fun sq => { sq with copyStatus := aset sq.copyStatus cp.tag status }
    { s with copies := adel s.copies k
             dies := s.dies.map fun d => { d with locks := d.locks.filter fun l => l.2.copy != k } }

/-- The keys of a squad's outstanding copies. -/
def State.copiesOf (s : State) (q : Nat) : List Nat := (s.copies.filter fun p => p.2.q == q).map (·.1)

/-- Frees everything a squad holds (R299): its copies are cancelled, its claims and places in the matrix and descent units go, and the
squad leaves its cluster.
(DEDUCED, log 23) -/
def State.reclaim (s : State) (q : Nat) : State :=
  let s := (s.copiesOf q).foldl (fun s k => s.dropCopy k) s
  match s.squad q with
  | none => s
  | some sq =>
    let s := s.modCluster sq.cluster fun cl =>
      { cl with
        cores := cl.cores.map fun c =>
          { c with claims := c.claims.filter fun p => p.1 != q
                   holder := if c.holder.any fun p => p.1 == q then none else c.holder
                   queue := c.queue.filter fun p => p.1 != q }
        descent := cl.descent.filter fun p => p.1 != q
        excl := if cl.excl = some q then none else cl.excl }
    { s with squads := adel s.squads q }.repoint sq.cluster

/-- A task ends by a kill: every squad of it is reclaimed at once, and its end status is kept for the report (R286, R295, R368).
(DEDUCED, log 23) -/
def State.killTask (s : State) (k endCode cause : Nat) (info : List DWord) : State :=
  let s := (s.squadsOf k).foldl (fun s p => s.reclaim p.1) s
  s.modTask k fun t =>
    if t.phase = .retired then t
    else { t with killed := true, phase := .completed, endCode := endCode, endCause := cause, endInfo := info }

/-! ## Traps (R284 to R286) -/

/-- The bits of TRAPCAUSE for a team's parking record (R285). -/
def teamCauseBits (cause : Cause) (n : Nat) (o : Origin) : Nat :=
  let base := cause.code + (n % 16) * 2 ^ 8 + 2 ^ 12 + (n / 16) * 2 ^ 52
  match o with
  | .direct => base
  | .replay id off iter => base + 2 ^ 14 + id * 2 ^ 16 + off * 2 ^ 28 + iter * 2 ^ 36

/-- The four information words of a cause (R285). -/
def info4 (info : List DWord) : List DWord := (upTo 4).map fun k => info.getD k 0

/-- A task is killed by a trap that no handler takes: its report carries TRAPCAUSE and TRAPINFO0 to TRAPINFO3 (R286). -/
def State.trapKill (s : State) (k : Nat) (cause : Cause) (causeBits : Nat) (info : List DWord) : State :=
  s.killTask k 1 cause.code (BitVec.ofNat 64 causeBits :: info4 info)

/-- A trap of an agent of a speculative task is held until the task commits (R386). -/
def State.held (s : State) (p : Pending) : Bool := (s.task p.task).any Task.uncommitted

/-- The task that a trap kills whose context is no longer there (R221, R260): the context's, while it has not retired, or else that of the team or copy that
trapped.
(DEDUCED, log 23) -/
def State.lostTask (s : State) (q : Nat) (p : Pending) : Nat :=
  ((s.tasks.find? fun t => t.2.placed != 0 && t.2.phase != .retired && decide (t.2.keyBase ≤ q) && decide (q < t.2.keyBase + t.2.insts)).map (·.1)).getD p.task

/-- A trap pends for a context behind the older ones (R284); for an exited one, whose squad may be gone, the task is killed, unless the trap is held (R221,
R286, R386). -/
def State.pend (s : State) (q c : Nat) (p : Pending) : State :=
  match s.squad q, s.ctx q c with
  | some sq, some cx =>
    if cx.exited && !s.held p then s.trapKill sq.task p.cause p.causeBits p.info
    else s.modCtx q c fun cx => { cx with pending := pendInsert { p with cycle := s.cycleOf q } cx.pending }
  | _, _ =>
    if s.held p then s.modTask p.task fun t => { t with heldT := t.heldT ++ [(q, p)] }
    else s.trapKill (s.lostTask q p) p.cause p.causeBits p.info

/-- The number of records a die's fault ring holds or awaits (R318).
(DEDUCED, log 22) -/
def Die.faults (d : Die) : Nat := d.ring.length + d.faultQ.length

/-- The word of a team stops and the team parks (R89): it records cause, position, unfinished lanes, origin and information words, and
its latch is released (R174). A page fault goes to the die's fault service with its record, waiting while the ring is full (R318);
every other cause pends at the owning context. While the ring is full the lanes whose faults are kept, other than page faults, stay as they are.
(DEDUCED, log 22) -/
def State.park (s : State) (q t : Nat) (cause : Cause) (info : List DWord) (m : Mask) (header : Bool) (rec_ : List Byte) : State :=
  match s.squad q, s.team q t with
  | some sq, some tm =>
    let d := dieOf sq.cluster
    if cause = .pageFault ∧ 1024 ≤ (s.die d).faults then
      let pages := maskOf ((tm.faulted.filter fun f => f.cause == .pageFault).map (·.lane))
      s.modTeam q t fun tm =>
        { tm with wait := some .faultSlot, todo := some (if pages = 0 then m else pages), faulted := tm.faulted.filter fun f => f.cause != .pageFault }
    else
      let origin := (tm.buffer.head?.map (·.origin)).getD .direct
      let s := s.modTeam q t fun tm =>
        { tm with park := some { cause := cause, pos := tm.pos, mask := m, origin := origin, info := info, header := header }
                  fflags := tm.fflags ||| tm.owedFlags, owedFlags := 0, lostTiles := [], awaits := [], inUnit := false
                  latch := none, wait := none, todo := none, started := none, half := none, starved := false, faulted := [] }
      if cause = .pageFault then
        s.modDie d fun x => { x with faultQ := x.faultQ ++ [⟨.team q t, rec_⟩] }
      else
        match tm.owner with
        | some (oq, oc) =>
          let n := s.ownedNumber oq oc q t
          s.pend oq oc { kind := .team n, cause := cause, causeBits := teamCauseBits cause n origin, pc := tm.pos.setWidth 64, info := info, task := sq.task }
        | none => s
  | _, _ => s

/-! ## The shape of a lane word -/

/-- What a lane word's meaning is given: the state, the team by squad key and index, the squad, the team it writes (`tm`) and the team as
the word reads it (`rd`, R25), and the lanes it acts for (the effective mask, or the unfinished lanes of a replay, R147). -/
structure LaneIn where
  s : State
  q : Nat
  t : Nat
  sq : Squad
  tm : Team
  rd : Team
  m : Mask

/-- How a lane word's meaning ends: it completes and retires; it parks its team, with its unfinished lanes, information words and, for a
page fault, its fault record; it waits and executes again; or it lets other agents move before it goes on with the lanes of `rest` (R355). -/
inductive LaneRes where
  | done (s : State)
  | park (cause : Cause) (info : List DWord) (m : Mask) (rec_ : List Byte) (s : State)
  | wait (w : TeamWait) (s : State)
  | more (rest : Mask) (s : State)

/-- A word that completes with a new team.
(DESIGN CHOICE, log 2) -/
def LaneIn.finish (x : LaneIn) (tm : Team) : LaneRes := .done (x.s.modTeam x.q x.t fun _ => tm)

/-- A word that parks having performed nothing: its unfinished-lane mask is M (R84). -/
def LaneIn.trap (x : LaneIn) (c : Cause) (info : List DWord) : LaneRes := .park c info x.m [] x.s

/-- The first of some registers marked bad in a pass of `m`, with its lane (R208). -/
def Team.badIn (tm : Team) (rs : List Nat) (m : Mask) : Option (Nat × Nat) :=
  match tm.bad with
  | [] => none
  | bs => bs.find? fun b => rs.contains b.1 && (fieldN m.toNat (32 * (b.2 / 32)) 32 != 0)

/-- The first of some registers marked bad in a lane of `m`, with its lane (R208). -/
def Team.badAt (tm : Team) (rs : List Nat) (m : Mask) : Option (Nat × Nat) := tm.bad.find? fun b => rs.contains b.1 && m.getLsbD b.2

/-- The first register marked bad that a word reads in its passes, with its lane (R208). -/
def Team.badRead (tm : Team) (i : Instr) (m : Mask) : Option (Nat × Nat) := tm.badIn (readRegs tm.ckEnv i) m

/-- The cluster runs below the safe set point of its point (R413, R414). -/
def Cluster.undervolted (c : Cluster) : Bool := c.power.under != 0

/-- The power event that an uncorrectable error is, met below the safe set point (R414). -/
def State.powerError (s : State) (cl : Nat) : State := s.modCluster cl fun c => { c with power := { c.power with event := true } }

/-- A word of a team meets an uncorrectable error (R208): the team parks with `m` unfinished, or, below the safe set point, the error becomes a
power event and the team waits for it (R414).
(DEDUCED, log 17) -/
def LaneIn.uncorrectable (x : LaneIn) (m : Mask) (info : List DWord) (s : State) : LaneRes :=
  if (x.s.cluster x.sq.cluster).undervolted then .wait .held (s.powerError x.sq.cluster)
  else .park .uncorrectableData info m [] s

/-- An error in a line of a tile lies in the power domain of its cluster: not that of a tile at level L2P, whose lines lie in L2 (R191, R414). -/
def Tile.clustered (t : Tile) : Bool := t.level != 2

/-- The information words of a bad register (R178, R208): word 2 gives the register and the pass. -/
def badInfo (info : List DWord) (r l : Nat) : List DWord := [info.getD 0 0, info.getD 1 0, BitVec.ofNat 64 (r + l / 32 * 2 ^ 8), 0]

/-- The information words of a matrix word (R178).
(DEDUCED, log 21) -/
def matInfo (d b sstep w2 w3 : Nat) : List DWord :=
  [BitVec.ofNat 64 (d + b * 2 ^ 8), BitVec.ofNat 64 sstep, BitVec.ofNat 64 w2, BitVec.ofNat 64 w3]

/-- SSTEP as a matrix word finds it when it traps before its first step: what an interrupted word left, or 0 (R176, R178). -/
def Team.sstepInfo (tm : Team) : Nat := if tm.sstep.getLsbD 31 then tm.sstep.toNat else 0

/-- The information words of a lane word's decode fault: those of R178 for a matrix word, none for the others. -/
def Team.decodeInfo (tm : Team) (i : Instr) : List DWord :=
  match i with
  | .mma w | .mmaz w | .had w | .tcvt w | .tepi w | .ttrans w | .tred w | .tfromv w | .ttov w => matInfo w.d.toNat w.b.toNat tm.sstepInfo 0 0
  | .tepiMem _ => [0, BitVec.ofNat 64 tm.sstepInfo, 0, 0]
  | _ => []

/-- The unfinished-lane mask of a word that traps before it performs anything: M (R84), the existing lanes of the row block for MMA and MMAZ,
and m0 for the words on whole tiles (R177). -/
def Team.trapMask (tm : Team) (i : Instr) (m : Mask) : Mask :=
  match i with
  | .mma w | .mmaz w => rowBlock (fieldN w.c.toNat 4 4) &&& maskBelow tm.lanes
  | .had _ | .tcvt _ | .ttrans _ | .tred _ => tm.m 0
  | _ => m

/-- What a lane word comes to: its decode checks in order (R41), whose failure parks the team with M unfinished; an uncorrectable error of a
register it reads (R208); then its meaning. -/
def LaneIn.result (x : LaneIn) (i : Instr) (body : LaneIn → LaneRes) : LaneRes :=
  match fieldCheck x.tm.ckEnv i with
  | some c => .park c (x.tm.decodeInfo i) (x.tm.trapMask i x.m) [] x.s
  | none =>
    match x.tm.badRead i x.m with
    | some (r, l) => x.uncorrectable (x.tm.trapMask i x.m) (badInfo (x.tm.decodeInfo i) r l) x.s
    | none => body x

/-- What a lane word does: it retires, parks its team, waits, or goes on later.
(DESIGN CHOICE, log 2; DEDUCED, log 17) -/
def laneRun (i : Instr) (ms : BitVec 3) (body : LaneIn → LaneRes) (s : State) : Outcome State Fault Refusal :=
  match s.cur with
  | some (.team q t) =>
    match s.squad q, s.team q t with
    | some sq, some tm =>
      let m := tm.acting ms
      match LaneIn.result ⟨s, q, t, sq, tm, tm.reads s.free (s.cluster sq.cluster).cycle, m⟩ i body with
      | .done s' => .next (s'.retire q t sq tm i m)
      | .park c info u rec_ s' => .next ((s'.takeSlot q t sq tm i m).park q t c info u false rec_)
      | .wait w s' => .next (s'.waits q t sq tm i m w)
      | .more u s' => .next ((s'.takeSlot q t sq tm i m).modTeam q t fun tm => { tm with todo := some u })
    | _, _ => .fault .noUnit
  | _ => .fault .noUnit

/-! ## Scalar registers and generator words (R37, R44, R210) -/

/-- S(n): s0 reads 0 (R44). -/
def Ctx.S (cx : Ctx) (n : Nat) : DWord := if n = 0 then 0 else aget 0 cx.s n

/-- S(n) := x: writes to s0 are discarded (R44); `wrote` keeps that the register was written. -/
def Ctx.setS (cx : Ctx) (n : Nat) (x : DWord) : Ctx := if n = 0 then cx else { cx with s := asetD 0 cx.s n x, wrote := n :: cx.wrote }

/-- The predicate of a condition code over CC (R37). -/
def CC.holds (c : CC) : Nat → Bool
  | 0x0 => true
  | 0x1 => c.z
  | 0x2 => !c.z
  | 0x3 => c.n != c.v
  | 0x4 => c.n == c.v
  | 0x5 => !c.c
  | 0x6 => c.c
  | 0x7 => !c.z && c.n == c.v
  | 0x8 => c.z || c.n != c.v
  | 0x9 => c.c && !c.z
  | 0xA => !c.c || c.z
  | 0xB => c.v
  | 0xC => !c.v
  | _ => false

/-- What a generator word of a native-mode context reads (R25); an interlocked context has no hazard. -/
def Ctx.seen (cx : Ctx) (free cycle : Nat) : Ctx :=
  let hs := settle (·.live cx.busy cycle) cx.hazards
  { cx with s := hs.foldl (fun v h => asetD 0 v h.reg (readHazard hs free h.reg 0 (cx.S h.reg))) cx.s }

/-- After a generator word of a native-mode context: as `Team.noteHazards`, for scalar registers (R25).
(DESIGN CHOICE, log 3) -/
def Ctx.noteHazards (old new : Ctx) (free cycle : Nat) (flag : Option Nat) (long : Bool) (ready : Nat) : Ctx :=
  let hs := settle (·.live old.busy cycle) old.hazards
  let ws := new.wrote.eraseDups
  { new with
    s := (ws.filter fun r => landUnder hs free long r 0 != 0).foldl (fun v r => asetD 0 v r (old.S r)) new.s
    hazards := ws.foldl (fun z r =>
      (⟨r, 0, old.S r, flag, long, ready⟩ : Hazard).place (new.S r) (landUnder hs free long r 0) z) hs }

/-- What a generator word's meaning is given: the state, the context by squad key and index, the squad, the context it writes and the
context as the word reads it. -/
structure GenIn where
  s : State
  q : Nat
  c : Nat
  sq : Squad
  cx : Ctx
  rd : Ctx

/-- How a generator word's meaning ends: it completes; it completes and continues at an address that is decoded as a clause header (R23), or
at an address inside a kept clause, whose WAIT has been satisfied or not (R290); it traps; it page-faults with a fault record; or it waits. -/
inductive GenRes where
  | done (s : State)
  | goto (pc : DWord) (s : State)
  | back (pc : DWord) (k : Option Clause) (waited : Bool) (s : State)
  | trap (cause : Cause) (info : List DWord) (s : State)
  | fault (rec_ : List Byte) (info : List DWord) (s : State)
  | wait (w : CtxWait) (s : State)

/-- A word that completes with a new context.
(DESIGN CHOICE, log 2) -/
def GenIn.finish (x : GenIn) (cx : Ctx) : GenRes := .done (x.s.modCtx x.q x.c fun _ => cx)

/-- A context's own word traps (R284, KIND 0): it pends precise at the word, with the clause it stands in (R290); with TMASK set the task is killed
instead (R286), once it is not speculative (R386). `gap` counts the words of a hole map and block behind the word. -/
def State.ctxTrap (s : State) (q c : Nat) (cause : Cause) (info : List DWord) (gap : Nat := 0) : State :=
  match s.squad q, s.ctx q c with
  | some sq, some cx =>
    if cx.tmask && !s.speculative sq then s.trapKill sq.task cause cause.code info
    else (s.modCtx q c fun cx => { cx with wait := none }).pend q c
      { kind := .word, cause := cause, causeBits := cause.code, pc := cx.pc, info := info, task := sq.task, clause := cx.clause, gap := gap
        masked := cx.tmask }
  | _, _ => s

/-- A context's word page-faults: the fault goes to the die's fault service, waiting while its ring is full (R283, R318); the information
words are kept for verdict 1. -/
def State.ctxFault (s : State) (q c : Nat) (rec_ : List Byte) (info : List DWord) (gap : Nat := 0) : State :=
  match s.squad q with
  | some sq =>
    let d := dieOf sq.cluster
    if 1024 ≤ (s.die d).faults then s.modCtx q c fun cx => { cx with wait := some .faultSlot }
    else (s.modCtx q c fun cx => { cx with wait := some .fault, faulted := info, faultGap := gap }).modDie d fun x =>
      { x with faultQ := x.faultQ ++ [⟨.ctx q c, rec_⟩] }
  | none => s

/-- The PC moves past a completed word and the clause goes on (R19, R23). -/
def Ctx.advance (cx : Ctx) : Ctx :=
  { cx with pc := cx.pc + 8, clause := cx.clause.bind Clause.advance, wait := none }

/-- The PC moves to a target, which is decoded as a clause header (R23). -/
def Ctx.jump (cx : Ctx) (pc : DWord) : Ctx := { cx with pc := pc, clause := none, wait := none }

/-- The PC moves into a kept clause, whose WAIT is not checked again once it was satisfied (R290). -/
def Ctx.resumeAt (cx : Ctx) (pc : DWord) (k : Option Clause) (waited : Bool) : Ctx := { cx.jump pc with clause := k, waited := waited }

/-- The words of a hole map and a block behind an EMIT or REC that ends its clause, which no clause header lies among (R23, R228).
(DEDUCED, log 20) -/
def Ctx.gap (cx : Ctx) (i : Instr) : Nat :=
  match i with
  | .emit w | .recw w => if cx.clause.all fun c => c.idx + 1 == c.len then w.len.toNat + b2n (w.nh != 0) else 0
  | _ => 0

/-- The flag a generator word binds under its clause (R20, R24). -/
def Ctx.boundFlag (cx : Ctx) (i : Instr) : Option Nat :=
  if isLong i then (cx.clause.bind fun c => c.flag c.idx) else none

/-- A completed generator word leaves its context (R24, R447); `old` is the context before the word.
(DESIGN CHOICE, log 3) -/
def State.genRetire (s : State) (q c : Nat) (sq : Squad) (old : Ctx) (i : Instr) (move : Ctx → Ctx) : State :=
  let cyc := (s.cluster sq.cluster).cycle
  let flag := if sq.native then old.boundFlag i else none
  let stall := if sq.native then (match old.clause with | some k => k.stall k.idx | none => 0) else 0
  let s := s.modCtx q c fun cx =>
    let cx := if sq.native then Ctx.noteHazards old cx s.free cyc flag (isLong i) (cyc + sq.lGen) else cx
    let cx := match flag with
      | some f => { cx with busy := cx.busy ||| (1#12 <<< f) }
      | none => cx
    { move cx with nextIssue := cyc + 1 + stall, wrote := [] }
  { s with free := s.free + 1 }

/-- The information words of a generator word's decode fault: TRAPINFO0 is 8 for a field of a COPY (R249), and the channel for CHANNEL_INVALID
(R264). -/
def genDecodeInfo (i : Instr) (cause : Cause) : List DWord :=
  match i with
  | .copy _ => [8, 0, 0, 0]
  | .emit w | .recw w | .replay w => if cause = .channelInvalid then [w.ch.setWidth 64, 0, 0, 0] else []
  | _ => []

/-- What a generator word does: its decode checks in order (R41), its predicate (R37), then its meaning. A word whose predicate is false changes
only the PC, so it marks no flag.
(DESIGN CHOICE, log 2; DEDUCED, log 17; DEDUCED, log 20) -/
def genRun (i : Instr) (cnd : BitVec 4) (body : GenIn → GenRes) (s : State) : Outcome State Fault Refusal :=
  match s.cur with
  | some (.ctx q c) =>
    match s.squad q, s.ctx q c with
    | some sq, some cx =>
      match fieldCheck {} i with
      | some cause => .next (s.ctxTrap q c cause (genDecodeInfo i cause) (cx.gap i))
      | none =>
        if cx.cc.holds cnd.toNat then
          match body ⟨s, q, c, sq, cx, cx.seen s.free (s.cluster sq.cluster).cycle⟩ with
          | .done s' => .next (s'.genRetire q c sq cx i Ctx.advance)
          | .goto pc s' => .next (s'.genRetire q c sq cx i (·.jump pc))
          | .back pc k b s' => .next (s'.genRetire q c sq cx i (·.resumeAt pc k b))
          | .trap cause info s' => .next (s'.ctxTrap q c cause info (cx.gap i))
          | .fault rec_ info s' => .next (s'.ctxFault q c rec_ info (cx.gap i))
          | .wait w s' => .next (s'.modCtx q c fun cx => { cx with wait := some w })
        else .next (s.genRetire q c sq cx .illegalGenOpc Ctx.advance)
    | _, _ => .fault .noUnit
  | _ => .fault .noUnit

end Sys2Proof.Machine
end

