-- ==== Sys2Proof/Machine/Operands.lean ====
section
/-! DEFINITION. Operand forms of lane and generator words (R28 to R37, R54, R80, R96, R214): the value each operand supplies, the type and
rounding controls in force, and the writes of typed results. -/

namespace Sys2Proof.Machine

/-! ## Lane words -/

/-- What ONE reads as under a source type (R31). -/
def oneOf : NumTy → Nat
  | .f16 => 0x3C00
  | .bf16 => 0x3F80
  | .f32 => 0x3F800000
  | _ => 1

/-- Op(l, f) of R44 as a 32-bit value. -/
def LaneIn.op (x : LaneIn) (one l f : Nat) : Nat :=
  if f < 0x80 then (x.rd.V l f).toNat else specialOp x.sq.instance_ x.t x.tm.gw one l f

/-- Op(l, f) of R44 as a 64-bit value: a pair, or a special operand zero-extended (R32). -/
def LaneIn.op64 (x : LaneIn) (l f : Nat) : Nat :=
  if f < 0x80 then (x.rd.V64 l f).toNat else specialOp x.sq.instance_ x.t x.tm.gw 1 l f

/-- Op(l, f) under a type: its element code. -/
def LaneIn.opTy (x : LaneIn) (t : NumTy) (l f : Nat) : Nat :=
  if t.width = 64 then x.op64 l f else x.op (oneOf t) l f % 2 ^ t.width

/-- The type in force (R34, R80, R96). -/
def LaneIn.ty (x : LaneIn) (ty : BitVec 5) : NumTy := (NumTy.ofCode (effTy x.tm.ckEnv ty)).getD .i32

/-- The rounding mode in force (R64). -/
def LaneIn.rnd (x : LaneIn) (ty : BitVec 5) (ex : BitVec 8) : Rnd :=
  Rnd.ofCode (if ty = 0x1F then field32 x.tm.fmtr 10 2 else fieldN ex.toNat 3 2)

/-- The overflow code in force (R64). -/
def LaneIn.ovf (x : LaneIn) (ty : BitVec 5) (ex : BitVec 8) : Ovf :=
  Ovf.ofCode (if ty = 0x1F then field32 x.tm.fmtr 12 2 else fieldN ex.toNat 5 2)

/-- Zero-block mode (R57). -/
def Team.zblk (tm : Team) : Bool := tm.fmtr.getLsbD 14

/-- The team with a typed result written to D for each lane of a mask (R54, R95): a pair for a 64-bit type. -/
def Team.setTy (tm : Team) (t : NumTy) (d : Nat) (m : Mask) (f : Nat → Nat) : Team :=
  if t.width = 64 then tm.setV64 d m fun l => BitVec.ofNat 64 (f l) else tm.setV d m fun l => t.image32 (f l)

/-- The team with flags ORed into FFLAGS (R73). -/
def Team.orFlags (tm : Team) (f : Flags5) : Team := { tm with fflags := tm.fflags ||| f }

/-- The team with the flags of lanes performed, which reach FFLAGS when its word completes or parks (R73). -/
def Team.holdFlags (tm : Team) (f : Flags5) : Team := { tm with owedFlags := tm.owedFlags ||| f }

/-- The information words of FP_OVERFLOW (R67), from the lanes that overflowed in ascending order. -/
def ovfInfo (ls : List Nat) : List DWord :=
  match ls with
  | [] => [0, 0, 0, 0]
  | l :: _ =>
    let k := l / 64
    [BitVec.ofNat 64 (l + ls.length * 2 ^ 16),
     (ls.filter fun j => j / 64 == k).foldl (fun a j => a ||| (1#64 <<< (j % 64))) 0, 0, 0]

/-- A word whose result for each lane is a rounded value of type `t`: an overflow under OVF 11 in any lane parks with nothing written (R67);
otherwise D is written and the flags are set (R73, R95). -/
def LaneIn.rounded (x : LaneIn) (t : NumTy) (d : Nat) (f : Nat → Rounded) : LaneRes :=
  let ls := x.tm.lanesOf x.m
  let traps := ls.filter fun l => (f l).trap
  if traps.isEmpty then
    x.finish ((x.tm.setTy t d x.m fun l => (f l).code).orFlags (ls.foldl (fun a l => a ||| (f l).flags) 0))
  else x.trap .fpOverflow (ovfInfo traps)

/-- A word whose result for each lane is a code of type `t`, with no flag and no trap (R95). -/
def LaneIn.plain (x : LaneIn) (t : NumTy) (d : Nat) (f : Nat → Nat) : LaneRes := x.finish (x.tm.setTy t d x.m f)

/-- A word that writes a mask register for the lanes of M and leaves its other bits (R97). -/
def LaneIn.maskOut (x : LaneIn) (k : Nat) (f : Nat → Bool) : LaneRes :=
  x.finish (x.tm.setM k ((x.tm.m k &&& ~~~x.m) ||| (maskOf ((x.tm.lanesOf x.m).filter f))))

/-! ## Generator words -/

/-- The width an integer SZ code names (R36, R214). -/
def szWidth : Nat → Nat
  | 0 => 64 | 1 => 32 | 2 => 16 | _ => 8

/-- The operand a of a GR integer word (R214). -/
def GenIn.a (x : GenIn) (w : GR) : Nat := (x.rd.S w.a.toNat).toNat % 2 ^ szWidth w.sz.toNat

/-- The operand b of a GR integer word: S(B), or the sign-extended IMM16 in the immediate form (R214). -/
def GenIn.b (x : GenIn) (w : GR) : Nat :=
  (if w.fn.getLsbD 0 then wrapN (signed w.imm.toNat 16) 64 else (x.rd.S w.b.toNat).toNat) % 2 ^ szWidth w.sz.toNat

/-- A w-bit result as D receives it: zero-extended under U, sign-extended otherwise (R214). -/
def extRes (wd : Nat) (u : Bool) (r : Nat) : DWord :=
  if u then BitVec.ofNat 64 (r % 2 ^ wd) else BitVec.ofInt 64 (signed r wd)

/-- SignExtend(IMM32, 64) of a GI word (R216). -/
def imm32 (v : BitVec 32) : DWord := v.signExtend 64

end Sys2Proof.Machine
end

