-- ==== Sys2Proof/Machine/Mem.lean ====
section
/-! DEFINITION. Memory: the canonical list of bytes, encryption tags and zero-on-read lines (15_die_memory.md R307, R321, R326,
R327), errors and poison (R328), page walks and TLBs (R309 to R312), the protection of seals and region pools (R351, R423),
range locks (R251), and the reads and writes of every master through the cluster L1 (R257) or past it. -/

namespace Sys2Proof.Machine

/-! ## Plain bytes -/

/-- The byte at a physical address: an unlisted byte reads as zero.
(DESIGN CHOICE, log 6) -/
def memGet : List Host.Cell → Nat → Byte
  | [], _ => 0
  | (k, v) :: t, a => if k = a then v else memGet t a

/-- Memory with one byte written, kept sorted with no zero byte listed.
(DESIGN CHOICE, log 6) -/
def memSet : List Host.Cell → Nat → Byte → List Host.Cell
  | [], a, b => if b = 0 then [] else [(a, b)]
  | (k, v) :: t, a, b =>
    if a < k then (if b = 0 then (k, v) :: t else (a, b) :: (k, v) :: t)
    else if a = k then (if b = 0 then t else (a, b) :: t)
    else (k, v) :: memSet t a b

/-- Memory with consecutive bytes written from an address. -/
def memSets (m : List Host.Cell) (a : Nat) : List Byte → List Host.Cell
  | [] => m
  | b :: bs => memSets (memSet m a b) (a + 1) bs

/-- The addresses listed are strictly above `lo`, rising, and no listed byte is zero. -/
def memAbove : Nat → List Host.Cell → Bool
  | _, [] => true
  | lo, (k, v) :: t => decide (lo ≤ k) && v != 0 && memAbove (k + 1) t

/-- The canonical form of memory.
(DESIGN CHOICE, log 6) -/
def Memory.wf (m : List Host.Cell) : Bool := memAbove 0 m

/-! ## The physical map (R307) -/

/-- The first address of configuration space. -/
def cfgBase : Nat := 2 ^ 51
/-- The first address the model gives a renamed version: not an address of R307, and reached only through a window that a TRANS resolved to
the version (R366).
(DESIGN CHOICE, log 14) -/
def poolBase : Nat := 2 ^ 50

/-- A memory backs the address: HBM4, installed DDR-5 or configuration space (R307). -/
def State.backed (s : State) (pa : Nat) : Bool :=
  (decide (pa < 3 * 2 ^ 38) && decide (pa % 2 ^ 38 < 192 * 2 ^ 30))
    || (decide (2 ^ 42 ≤ pa) && decide (pa < 2 ^ 42 + 3 * 2 ^ 40) && decide ((pa - 2 ^ 42) % 2 ^ 40 < s.ddr.getD ((pa - 2 ^ 42) / 2 ^ 40) 0))
    || (decide (cfgBase ≤ pa) && decide (pa < 2 ^ 52))

/-- A device id names a reachable target (R433). -/
def State.reachable (s : State) (dev : Nat) : Bool := dev == s.fabric.devid || s.fabric.routes.contains dev

/-- The home die of a line (R308).
(DESIGN CHOICE, log 10) -/
def homeDie (pa : Nat) : Nat :=
  if pa < 3 * 2 ^ 38 then pa / 2 ^ 38
  else if pa < 2 ^ 42 + 3 * 2 ^ 40 then (pa - 2 ^ 42) / 2 ^ 40
  else 0

/-! ## Tags and zero-on-read lines (R321, R326, R327) -/

/-- The generation of the key in a slot; 0 for an empty slot.
(DESIGN CHOICE, log 7) -/
def State.keyOf (s : State) (slot : Nat) : Nat := ((aget? s.owners slot).map (·.keyGen)).getD 0

/-- A line of a frame taken from the Bullpen that nothing has written since (R321).
(DEDUCED, log 43) -/
def State.unwritten (s : State) (line : Nat) : Bool :=
  (s.zorFrames.any fun f => decide (f.1 ≤ line * 128) && decide (line * 128 < f.1 + f.2)) && !s.zorWritten.contains line

/-- The line was last written under another key than the slot's present one. What a walker, the first-touch unit or the Bullpen does for an owner bears the
owner's slot; the fault unit writes its ring under the device's, slot 0.
(DESIGN CHOICE, log 7) -/
def State.foreignTag (s : State) (slot line : Nat) : Bool :=
  match aget? s.tags line with
  | none => false
  | some k => k != (slot, s.keyOf slot)

/-- An access to a line that L2 holds under another tag drops the L2 line without write-back (R326): whether what was written last had reached
memory before is free, and where it had not the line decrypts to no one's bytes.
(DESIGN CHOICE, log 4; DESIGN CHOICE, log 7) -/
def State.dropForeign (s : State) (slot line : Nat) : State :=
  if s.foreignTag slot line && Config.freeBool s.free (2 ^ 40 + line) then { s with tags := aset s.tags line (4096, 1) } else s

/-- The byte that memory gives an access of a key slot; `zor` tells that the page's leaf has ZOR 1.
(DESIGN CHOICE, log 6; DESIGN CHOICE, log 7) -/
def State.byteAt (s : State) (slot : Nat) (zor : Bool) (pa : Nat) : Byte :=
  if zor && s.unwritten (pa / 128) then 0
  else if s.foreignTag slot (pa / 128) then Config.freeByte (slot * 2 ^ 32 + s.keyOf slot) pa
  else memGet s.mem pa

/-- The bytes of a range as `byteAt` gives them. -/
def State.bytesAt (s : State) (slot : Nat) (zor : Bool) (pa n : Nat) : List Byte :=
  (upTo n).map fun i => s.byteAt slot zor (pa + i)

/-- Writes bytes that lie within one line (R321, R327, R328): the rest of an unwritten zero-on-read line becomes zero, the rest of a line
under another key becomes what it decrypted to, and a whole-line write clears a poison mark.
(DESIGN CHOICE, log 7) -/
def State.writeLine (s : State) (slot : Nat) (zor : Bool) (pa : Nat) (bs : List Byte) : State :=
  let line := pa / 128
  let whole := bs.length == 128
  let mem :=
    if whole then s.mem
    else if zor && s.unwritten line then memSets s.mem (line * 128) (List.replicate 128 0)
    else if s.foreignTag slot line then memSets s.mem (line * 128) (s.bytesAt slot false (line * 128) 128)
    else s.mem
  { s with
    mem := memSets mem pa bs
    tags := if decide (poolBase ≤ pa) then s.tags else aset s.tags line (slot, s.keyOf slot)
    zorWritten := if s.unwritten line then line :: s.zorWritten else s.zorWritten
    poison := if whole then s.poison.filter (· != line) else s.poison
    badLines := if whole then s.badLines.filter (· != line) else s.badLines }

/-- Writes bytes that may cross lines. -/
def writeSpan (slot : Nat) (zor : Bool) : Nat → State → Nat → List Byte → State
  | 0, s, _, _ => s
  | f + 1, s, pa, bs =>
    if bs.isEmpty then s
    else
      let k := 128 - pa % 128
      writeSpan slot zor f (s.writeLine slot zor pa (bs.take k)) (pa + k) (bs.drop k)

/-- Writes bytes to memory under a key slot. -/
def State.writeMem (s : State) (slot : Nat) (zor : Bool) (pa : Nat) (bs : List Byte) : State :=
  writeSpan slot zor (bs.length / 128 + 2) s pa bs

/-- A 64-bit word of memory as a device agent that acts for a slot reads it.
(DESIGN CHOICE, log 7) -/
def State.devRead (s : State) (slot pa : Nat) : DWord := BitVec.ofNat 64 (ofBytes (s.bytesAt slot false pa 8))

/-- A write by a device agent that acts for a slot.
(DESIGN CHOICE, log 7) -/
def State.devWrite (s : State) (slot pa : Nat) (bs : List Byte) : State := s.writeMem slot false pa bs

/-! ## The cluster L1 (R257) -/

/-- The index of a line in an L1, which hits only under the same key slot (R326). -/
def l1Key (slot line : Nat) : Nat := line * 4096 + slot

/-- Bytes put into a line's bytes at an offset. -/
def patch (line : List Byte) (off : Nat) (bs : List Byte) : List Byte := line.take off ++ bs ++ line.drop (off + bs.length)

/-- A cluster's L1 loses every copy, as an acquire wider than the cluster requires (R257, R332).
(DESIGN CHOICE, log 12) -/
def State.l1Clear (s : State) (cl : Nat) : State := s.modCluster cl fun c => { c with l1 := [], miss := [] }

/-- A cluster's L1 loses one line.
(DESIGN CHOICE, log 12) -/
def State.l1Forget (s : State) (cl slot line : Nat) : State :=
  let k := l1Key slot line
  s.modCluster cl fun c => { c with l1 := adel c.l1 k, miss := c.miss.filter fun e => e.line != k }

/-- A store of the cluster updates the copies its L1 holds (R257).
(DESIGN CHOICE, log 12) -/
def State.l1Store (s : State) (cl slot pa : Nat) (bs : List Byte) : State :=
  let k := l1Key slot (pa / 128)
  s.modCluster cl fun c =>
    { c with
      l1 := c.l1.map fun p => if p.1 = k then (p.1, patch p.2 (pa % 128) bs) else p
      miss := c.miss.map fun e => if e.line = k then { e with bytes := patch e.bytes (pa % 128) bs } else e }

/-- An L1 with a line put into it: of its 2,048 lines (R16) the one filled longest ago is replaced.
(DESIGN CHOICE, log 12) -/
def l1Put (l : List (Nat × List Byte)) (k : Nat) (bs : List Byte) : List (Nat × List Byte) := ((k, bs) :: adel l k).take 2048

/-- The oldest fill of a cluster arrives (R257).
(DESIGN CHOICE, log 12) -/
def Cluster.fillOldest (c : Cluster) : Cluster :=
  match c.miss with
  | [] => c
  | e :: es => { c with l1 := l1Put c.l1 e.line e.bytes, miss := es }

/-! ## Accesses and their failures -/

/-- Who makes an access: its key slot and task, its cluster, the lane core whose TLB it uses, whether its task is an uncommitted
speculative one (R384), and whether its squad is privileged. -/
structure Access where
  owner : Nat
  task : Nat
  cl : Nat
  core : Option Nat := none
  spec : Bool := false
  priv : Bool := false
deriving DecidableEq, Repr

/-- Why an access is not performed: a cause with its information word 2, a page fault with the level and entry at which the walk ended
(R318; `indexPage` one met by the index read of a gather access), first-touch service (R320), a violation with its code, physical address and target owner (R419), an effect of R385, or a
request to another package that is under way (R434). -/
inductive MemFail where
  | cause (c : Cause) (info2 : Nat)
  | page (level : Nat) (entry : DWord)
  | indexPage (level : Nat) (entry : DWord)
  | touch (t : Touch)
  | violation (code pa target : Nat)
  | spec
  | remote
deriving DecidableEq, Repr

/-- The place of a failure in the order of R145, with a violation and the waits first. -/
def MemFail.rank : MemFail → Nat
  | .violation _ _ _ => 0
  | .spec => 1
  | .remote => 1
  | .touch _ => 1
  | .cause .windowInvalid _ => 2
  | .cause .misaligned _ => 3
  | .cause .gatherBound _ => 5
  | .page _ _ => 6
  | .indexPage _ _ => 6
  | .cause .protection _ => 7
  | .cause .rangeConflict _ => 8
  | .cause .fpOverflow _ => 9
  | .cause .fabricUnreachable _ => 10
  | .cause .uncorrectableData _ => 11
  | .cause _ _ => 12

/-- An overflow of the same lane ranks before the failure (R145). -/
def MemFail.afterOverflow (f : MemFail) : Bool := decide (9 < f.rank)

/-- The result of an access with the state after it. -/
abbrev MR (α : Type) := Except MemFail α × State

/-- Goes on with a result, or passes its failure on. -/
def MR.andThen {α β : Type} (r : MR α) (f : α → State → MR β) : MR β :=
  match r with
  | (.ok a, s) => f a s
  | (.error e, s) => (.error e, s)

/-! ## Errors and poison (R328) -/

/-- The number of lines a range touches. -/
def lineSpan (pa n : Nat) : Nat := if n = 0 then 0 else (pa + n - 1) / 128 - pa / 128 + 1

/-- The lines a range touches. -/
def linesOf (pa n : Nat) : List Nat := (upTo (lineSpan pa n)).map fun i => pa / 128 + i

/-- Reading lines of memory under a key slot meets an uncorrectable error, which poisons its line, or else poison (R145, R328). An unwritten line of a
page with ZOR 1 (`zor`) is not read (R321).
(DESIGN CHOICE, log 7) -/
def State.linesCheck (s : State) (slot : Nat) (zor : Bool) (lines : List Nat) : MR Unit :=
  let ls := lines.filter fun l => !(zor && s.unwritten l)
  let bad := ls.filter s.badLines.contains
  if !bad.isEmpty then
    (.error (.cause .uncorrectableData 0), { s with badLines := s.badLines.filter fun l => !bad.contains l, poison := bad ++ s.poison })
  else if ls.any s.poison.contains then (.error (.cause .poison 0), s)
  else (.ok (), ls.foldl (State.dropForeign · slot ·) s)

/-! ## Protected frames (R351, R423, R427) -/

/-- The physical ranges [a, a+n) and [b, b+m) overlap. -/
def overlaps (a n b m : Nat) : Bool := decide (a < b + m) && decide (b < a + n) && n != 0 && m != 0

/-- The bytes lie in a region's pool, which belongs to the region unit (R351). -/
def State.inPool (s : State) (pa n : Nat) : Bool :=
  s.dies.any fun d => d.regions.any fun r => r.2.live && r.2.frames.any fun f => overlaps pa n f.2.1 f.2.2

/-- The bytes lie in a sealed frame or a digest log (R423, R427). -/
def State.sealedAt (s : State) (pa n : Nat) : Bool :=
  (s.seals.any fun e => e.2.frames.any fun f => overlaps pa n f.1 f.2)
    || (s.owners.any fun o => o.2.logged && overlaps pa n o.2.logBase (o.2.logCap * 64))

/-- The owner whose tag a line carries, or 0. -/
def State.tagOwner (s : State) (pa : Nat) : Nat := ((aget? s.tags (pa / 128)).map (·.1)).getD 0

/-- The violation that an access to physical bytes would be (R351, R423). -/
def State.guardPa (s : State) (pa n : Nat) (wr : Bool) : Option MemFail :=
  if s.inPool pa n then some (.violation 4 pa (s.tagOwner pa))
  else if wr && s.sealedAt pa n then some (.violation 2 pa (s.tagOwner pa))
  else none

/-! ## Range locks (R145, R251) -/

/-- A range lock that an access to virtual bytes of an owner conflicts with: a read with a destination range, a write with any. -/
def LockRange.hitsMem (r : LockRange) (owner va n : Nat) (wr : Bool) : Bool :=
  match r with
  | .mem o rs w => o == owner && (wr || w) && rs.any fun r => overlaps va n r.1 (r.2 - r.1)
  | _ => false

/-- The index of the range-lock entry that an access conflicts with: where it conflicts with several, the first over the dies in order.
(DESIGN CHOICE, log 78) -/
def State.lockHit (s : State) (owner va n : Nat) (wr : Bool) : Option Nat :=
  (s.dies.flatMap fun d => (d.locks.filter fun l => l.2.range.hitsMem owner va n wr).map (·.1)).head?

/-- The index of the entry that holds a copy's destination range covering a tile line (R146, R155). -/
def State.tileLockHit (s : State) (q h line : Nat) : Option Nat :=
  (s.dies.flatMap fun d => (d.locks.filter fun l => match l.2.range with
    | .tile q' h' ls => q' == q && h' == h && ls.contains line
    | _ => false).map (·.1)).head?

/-- RANGE_CONFLICT with the entry's index. -/
def State.lockCheck (s : State) (owner va n : Nat) (wr : Bool) : Option MemFail :=
  (s.lockHit owner va n wr).map fun i => .cause .rangeConflict i

/-! ## Page walks and TLBs (R309 to R312, R320) -/

/-- Index of a virtual address at a level (R309). -/
def walkIndex (va level : Nat) : Nat :=
  match level with
  | 0 => fieldN va 48 8
  | 1 => fieldN va 39 9
  | 2 => fieldN va 30 9
  | 3 => fieldN va 21 9
  | _ => fieldN va 16 5

/-- Bytes a leaf of a level maps (R309). -/
def leafSize (level : Nat) : Nat :=
  match level with
  | 2 => 2 ^ 30
  | 3 => 2 ^ 21
  | _ => 2 ^ 16

/-- LEAF of an entry. -/
def pteLeaf (e : DWord) : Bool := e.getLsbD 1
/-- VALID of an entry. -/
def pteValid (e : DWord) : Bool := e.getLsbD 0
/-- ZOR of a leaf. -/
def pteZor (e : DWord) : Bool := e.getLsbD 8
/-- ANON of an invalid entry. -/
def pteAnon (e : DWord) : Bool := e.getLsbD 7

/-- The malformed entries of R311. -/
def pteBad (e : DWord) (level : Nat) : Bool :=
  if pteLeaf e then
    field64 e 12 4 != 0 || field64 e 2 2 != 0 || decide (level < 2) || (field64 e 16 36 * 2 ^ 16) % leafSize level != 0
  else field64 e 2 6 != 0 || level == 4 || (decide (level < 3) && field64 e 8 4 != 0)

/-- Where a walk ends: a leaf, or any other entry, with its level, its address and its value. -/
structure WalkEnd where
  level : Nat
  addr : Nat
  entry : DWord
deriving DecidableEq, Repr

/-- The walk from a table of a level for the owner of a slot (R309): it stops at a leaf, an invalid or a malformed entry. Walks read past every L1.
(DEDUCED, log 11; DEDUCED, log 42) -/
def walkFrom (slot va : Nat) : Nat → State → Nat → Nat → MR WalkEnd
  | 0, s, level, table => (.ok ⟨level, table, 0⟩, s)
  | f + 1, s, level, table =>
    let a := table + 8 * walkIndex va level
    (s.linesCheck slot false [a / 128]).andThen fun _ s =>
      let e := s.devRead slot a
      if !pteValid e || pteBad e level || pteLeaf e then (.ok ⟨level, a, e⟩, s)
      else walkFrom slot va f s (level + 1) (field64 e 8 44 * 256)

/-- The root slot of an owner on a die (R317); an invalid root ends the walk at level 0 as an invalid entry does.
(DEDUCED, log 42) -/
def State.walkRoot (s : State) (d owner va : Nat) : MR WalkEnd :=
  let r := aget 0 (s.die d).roots owner
  if r.getLsbD 0 then walkFrom owner va 5 s 0 (field64 r 11 41 * 2 ^ 11)
  else (.ok ⟨0, 0, 0⟩, s)

/-- The accesses that a translation judges (R311, R318). -/
structure Need where
  rd : Bool := false
  wr : Bool := false
  ex : Bool := false
deriving DecidableEq, Repr

/-- The permission test of a leaf. -/
def Need.allowed (n : Need) (e : DWord) : Bool :=
  (!n.rd || e.getLsbD 4) && (!n.wr || e.getLsbD 5) && (!n.ex || e.getLsbD 6)

/-- A translation: the physical address, the page's first virtual byte and its size, and the leaf. -/
structure Xl where
  pa : Nat
  base : Nat
  size : Nat
  leaf : DWord
deriving DecidableEq, Repr

/-- The translation that a leaf of a page size gives. -/
def xlOf (va size : Nat) (e : DWord) : Xl :=
  { pa := field64 e 16 36 * 2 ^ 16 + va % size, base := va - va % size, size := size, leaf := e }

/-- The level of a leaf by its page size. -/
def sizeLevel (size : Nat) : Nat := if size = 2 ^ 30 then 2 else if size = 2 ^ 21 then 3 else 4

/-- A leaf judged for an access (R311).
(DEDUCED, log 42) -/
def judgeLeaf (va size : Nat) (e : DWord) (n : Need) : Except MemFail Xl :=
  if n.allowed e then .ok (xlOf va size e)
  else if e.getLsbD 9 then .error (.page (sizeLevel size) e)
  else .error (.cause .protection 0)

/-- A frame of an owner and size waits in a die's Bullpen (R320). -/
def Die.hasFrame (d : Die) (owner size : Nat) : Bool := d.bullpen.any fun f => f.owner == owner && f.size == size

/-- A walk judged for an access (R311): the walker sets A, and D for a write, before the access is performed, which is a sealed write where
the entry lies in a sealed frame. -/
def State.judge (s : State) (d owner va : Nat) (n : Need) (w : WalkEnd) : MR Xl :=
  let e := w.entry
  if pteValid e then
    if pteBad e w.level then (.error (.cause .protection 0), s)
    else if field64 e 52 12 != owner then (.error (.violation 1 (xlOf va (leafSize w.level) e).pa (field64 e 52 12)), s)
    else
      match judgeLeaf va (leafSize w.level) e n with
      | .error f => (.error f, s)
      | .ok _ =>
        let e' := e ||| 0x400#64 ||| (if n.wr then 0x800#64 else 0)
        if e' = e then (.ok (xlOf va (leafSize w.level) e), s)
        else match s.guardPa w.addr 8 true with
          | some f => (.error f, s)
          | none => (.ok (xlOf va (leafSize w.level) e'), s.devWrite owner w.addr (toBytes 8 e'.toNat))
  else if pteAnon e && decide (3 ≤ w.level) && (s.die d).hasFrame owner (leafSize w.level) then
    let size := leafSize w.level
    match s.guardPa w.addr 8 true with
    | some f => (.error f, s)
    | none => (.error (.touch { owner := owner, va := va - va % size, size := size, entry := w.addr, value := e }), s)
  else (.error (.page w.level e), s)

/-- The TLB entry that maps an address.
(DEDUCED, log 11) -/
def tlbFind (l : List TlbEnt) (owner va : Nat) : Option TlbEnt :=
  l.find? fun e => e.owner == owner && decide (e.base ≤ va) && decide (va < e.base + e.size)

/-- A TLB with an entry added, at most `cap` entries kept, the newest first.
(DEDUCED, log 11) -/
def tlbAdd (cap : Nat) (l : List TlbEnt) (e : TlbEnt) : List TlbEnt :=
  (e :: l.filter fun x => !(x.owner == e.owner && x.base == e.base && x.size == e.size)).take cap

/-- Walk(owner, va) of R314 for a master of a cluster: a TLB entry that serves the access is used as it is; otherwise the die walks, and the
TLBs keep the leaf (R312).
(DEDUCED, log 11) -/
def State.translate (s : State) (a : Access) (va : Nat) (n : Need) : MR Xl :=
  let cl := s.cluster a.cl
  let hit := ((a.core.bind fun k => (cl.cores[k]?).bind fun c => tlbFind c.tlb a.owner va).orElse fun _ => tlbFind cl.tlb a.owner va)
  match hit with
  | some e =>
    if n.allowed e.leaf && (!n.wr || e.leaf.getLsbD 11) then onlyBacked (xlOf va e.size e.leaf) s
    else walkNow s
  | none => walkNow s
where
  /-- An access to an address that no memory backs raises PROTECTION (R307). -/
  onlyBacked (x : Xl) (s : State) : MR Xl := if s.backed x.pa then (.ok x, s) else (.error (.cause .protection 0), s)
  /-- The walk by the die's walkers. -/
  walkNow (s : State) : MR Xl :=
    let d := dieOf a.cl
    (s.walkRoot d a.owner va).andThen fun w s =>
      (s.judge d a.owner va n w).andThen fun x s =>
        let e : TlbEnt := ⟨a.owner, x.base, x.size, x.leaf⟩
        let s := s.modCluster a.cl fun c => { c with tlb := tlbAdd 4096 c.tlb e }
        let s := match a.core with
          | some k => s.modCore a.cl k fun c => { c with tlb := tlbAdd 256 c.tlb e }
          | none => s
        onlyBacked x s

/-- A translation for an access of n bytes: a range conflict of the bytes ranks before an error or poison that the walk met (R145, R328). -/
def State.translateFor (s : State) (a : Access) (va n : Nat) (need : Need) : MR Xl :=
  match s.translate a va need with
  | (.error f, s) => (.error (if f.afterOverflow then (s.lockCheck a.owner va n need.wr).getD f else f), s)
  | r => r

/-! ## Spans and versions (R361, R365, R366) -/

/-- The base address of the span whose record word is `i`. -/
def Task.spanBase (t : Task) (i : Nat) : Nat := field64 (t.word i) 0 56
/-- The length in bytes of that span. -/
def Task.spanLen (t : Task) (i : Nat) : Nat := field64 (t.word (i + 1)) 0 40
/-- The record words at which the read spans begin. -/
def readSpans : List Nat := [8, 10, 12, 14, 16, 18]
/-- The record words at which the write spans begin. -/
def writeSpans : List Nat := [20, 22, 24, 26, 28, 30]

/-- The span covers the 128-byte line of an address (R361). -/
def Task.inSpan (t : Task) (i va : Nat) : Bool :=
  t.spanLen i != 0 && decide (t.spanBase i / 128 ≤ va / 128) && decide (va / 128 ≤ (t.spanBase i + t.spanLen i - 1) / 128)

/-- Bytes from an address to the end of the declared span that it lies in, writes first.
(DEDUCED, log 37) -/
def Task.spanRoom (t : Task) (va : Nat) : Option Nat :=
  ((writeSpans ++ readSpans).find? fun i => t.inSpan i va).map fun i => t.spanBase i + t.spanLen i - va

/-- The binding of a task that covers a line, writes first.
(DESIGN CHOICE, log 14) -/
def Task.binding (t : Task) (line : Nat) : Option Binding :=
  (t.writes ++ t.reads).find? fun b => decide (b.lo ≤ line) && decide (line < b.hi)

/-- Where an address of a task's declared span lies when a version of the task covers its line (R366).
(DESIGN CHOICE, log 14) -/
def State.versionPa (s : State) (t : Task) (va : Nat) : Option Nat :=
  (t.binding (va / 128)).bind fun b => (aget? s.versions b.version).map fun v => v.pa + (va - v.lo * 128)

/-- The physical address of the byte at an offset in a window: of a window on a declared span, line by line in the version that the task is bound to, or in
home memory (R366).
(DEDUCED, log 37) -/
def State.winPa (s : State) (w : Window) (off : Nat) : Nat :=
  match w.span with
  | none => w.frame + off
  | some k => ((s.task k).bind fun t => s.versionPa t (w.base + off)).getD (w.home + off)

/-! ## Reads and writes -/

/-- The speculative allowance in bytes that a die's tasks use (R384): buffered writes, predicted versions and the renamed versions that speculative tasks
received. -/
def State.allowanceUsed (s : State) (d : Nat) : Nat :=
  let ts := s.tasks.filter fun t => t.2.die == d && t.2.uncommitted
  (ts.map fun t => t.2.overlay.length).sum
    + ((s.versions.filter fun v => v.2.die == d && (v.2.predicted || v.2.writers.head?.any fun k => ts.any fun t => t.1 == k)).map
        fun v => (v.2.hi - v.2.lo) * 128).sum

/-- The address lies in a renamed version that the task received (R365); one that it writes in place is another's. -/
def State.ownPool (s : State) (k pa : Nat) : Bool :=
  s.versions.any fun v => !v.2.predicted && v.2.writers.head? == some k && decide (v.2.pa ≤ pa) && decide (pa < v.2.pa + (v.2.hi - v.2.lo) * 128)

/-- A write of the access is buffered (R384): its task is speculative and the address is outside the versions it received. -/
def State.buffers (s : State) (a : Access) (pa : Nat) : Bool := a.spec && !s.ownPool a.task pa

/-- The bytes that a write adds to a task's buffered writes. -/
def Task.newBytes (t : Task) (pa n : Nat) : Nat := ((upTo n).filter fun i => (aget? t.overlay (pa + i)).isNone).length

/-- The bytes an access reads, its task's buffered writes laid over them (R384). -/
def State.overlaid (s : State) (a : Access) (pa : Nat) (bs : List Byte) : List Byte :=
  if a.spec then
    match s.task a.task with
    | some t => if t.overlay.isEmpty then bs else bs.zipIdx.map fun (b, i) => (aget? t.overlay (pa + i)).getD b
    | none => bs
  else bs

/-- A read past the L1, of bytes in memory (R326, R328).
(DESIGN CHOICE, log 12) -/
def State.readPast (s : State) (a : Access) (zor : Bool) (pa n : Nat) : MR (List Byte) :=
  (s.linesCheck a.owner zor (linesOf pa n)).andThen fun _ s => (.ok (s.overlaid a pa (s.bytesAt a.owner zor pa n)), s)

/-- A plain read of bytes within one line through the cluster L1 (R257): a valid copy or an outstanding fill serves it; otherwise a miss
entry is allocated, the oldest fill arriving first when all 512 are taken.
(DESIGN CHOICE, log 12; DEDUCED, log 55) -/
def State.readL1 (s : State) (a : Access) (zor : Bool) (pa n : Nat) : MR (List Byte) :=
  let k := l1Key a.owner (pa / 128)
  let cut (l : List Byte) : List Byte := (l.drop (pa % 128)).take n
  let cl := s.cluster a.cl
  match (aget? cl.l1 k).orElse fun _ => (cl.miss.find? fun e => e.line == k).map (·.bytes) with
  | some l => (.ok (s.overlaid a pa (cut l)), s)
  | none =>
    (s.linesCheck a.owner zor [pa / 128]).andThen fun _ s =>
      let l := s.bytesAt a.owner zor (pa / 128 * 128) 128
      let s := s.modCluster a.cl fun c =>
        let c := if 512 ≤ c.miss.length then c.fillOldest else c
        { c with miss := c.miss ++ [⟨k, l, c.cycle⟩] }
      (.ok (s.overlaid a pa (cut l)), s)

/-- Plain reads through the L1 of bytes that may cross lines, each line's part at one instant. -/
def readSpanL1 (a : Access) (zor : Bool) : Nat → State → Nat → Nat → MR (List Byte)
  | 0, s, _, _ => (.ok [], s)
  | f + 1, s, pa, n =>
    if n = 0 then (.ok [], s)
    else
      let k := min n (128 - pa % 128)
      (s.readL1 a zor pa k).andThen fun bs s => (readSpanL1 a zor f s (pa + k) (n - k)).andThen fun cs s => (.ok (bs ++ cs), s)

/-- A write by a master of a cluster: buffered for an uncommitted speculative task outside its versions (R384), and otherwise to memory
and to the copies of its own cluster's L1 (R257). -/
def State.store (s : State) (a : Access) (zor : Bool) (pa : Nat) (bs : List Byte) : State :=
  if s.buffers a pa then
    s.modTask a.task fun t => { t with overlay := bs.zipIdx.foldl (fun o (b, i) => aset o (pa + i) b) t.overlay }
  else (s.writeMem a.owner zor pa bs).l1Store a.cl a.owner pa bs

/-- The write would exceed the speculative allowance of 8 MiB (R384). -/
def State.overAllowance (s : State) (a : Access) (pa n : Nat) : Bool :=
  s.buffers a pa &&
    (match s.task a.task with
     | some t => decide (8 * 2 ^ 20 < s.allowanceUsed t.die + t.newBytes pa n)
     | none => false)

/-- The pieces of one write, as physical addresses and lengths, would together exceed the speculative allowance (R384). -/
def State.overTogether (s : State) (a : Access) (ps : List (Nat × Nat)) : Bool :=
  a.spec && (match s.task a.task with
    | some t =>
      let new := ((ps.filter fun p => s.buffers a p.1).map fun p => t.newBytes p.1 p.2).sum
      new != 0 && decide (8 * 2 ^ 20 < s.allowanceUsed t.die + new)
    | none => false)

/-- A read with .ACQ or .AR at DIE scope or wider, or REMOTE, which leaves no copy older than it in the cluster (R332, R333).
(DESIGN CHOICE, log 12; DEDUCED, log 55) -/
def wideAcq (ord scope : Nat) : Bool := (ord == 1 || ord == 3) && decide (3 ≤ scope)

end Sys2Proof.Machine
end

