-- ==== Sys2Proof/Machine/Resume.lean ====
section
/-! DEFINITION. Restarting a parked team (R90, R147), the failure of a copy (R253), and the completion of a fault record (R283,
R319). -/

namespace Sys2Proof.Machine

/-- The rest of a buffer after the stretch its first word lies in. -/
def dropStretch : List BufWord → List BufWord
  | [] => []
  | b :: t => if b.last then t else dropStretch t

/-- A team goes on from its parking record: without skip the word executes again for its unfinished lanes (R147), a header is decoded
again; with skip (which clears SSTEP at a matrix multiply, R176), or once its last lane was removed, the word retires with no effect, and of a header's CLAUSE_FORMAT the rest of its stretch
(R90, R293). -/
def Team.resume (tm : Team) (skip : Bool) : Team :=
  match tm.park with
  | none => tm
  | some p =>
    let tm := { tm with park := none, wait := none }
    if skip || p.emptied then
      let op := field64 ((tm.buffer.head?.map (·.word)).getD 0) 56 8
      let tm := if op = 0x80 ∨ op = 0x81 then { tm with sstep := 0 } else tm
      if p.header then
        let rest := dropStretch tm.buffer
        { tm with
          buffer := rest, pos := tm.pos + BitVec.ofNat 48 (tm.buffer.length - rest.length), clause := none, todo := none }
      else tm.pop
    else if p.header then { tm with clause := none, todo := none }
    else { tm with todo := some p.mask }

/-- TRESUME of a team (R90, R291). -/
def State.resumeTeam (s : State) (q t : Nat) (skip : Bool) : State := s.modTeam q t (·.resume skip)

/-- The information words of a copy trap (R253): the tag, the slice and the iteration vector (i0, …, i4).
(DEDUCED, log 21) -/
def copyInfo (va tag slice : Nat) (i : List Nat) : List DWord :=
  [BitVec.ofNat 64 va, BitVec.ofNat 64 (tag + slice * 2 ^ 8 + i.getD 4 0 * 2 ^ 24),
   BitVec.ofNat 64 (i.getD 0 0 + i.getD 1 0 * 2 ^ 24), BitVec.ofNat 64 (i.getD 2 0 + i.getD 3 0 * 2 ^ 24)]

/-- A trap of a copy pends at context c of its squad (R253, R285). -/
def State.pendCopy (s : State) (q c tag : Nat) (cause : Cause) (info : List DWord) : State :=
  s.pend q c { kind := .copy tag, cause := cause, causeBits := cause.code + 2 * 2 ^ 12, pc := 0, info := info
               task := ((s.squad q).map (·.task)).getD 0 }

/-- A copy stops in FAILED, its locks kept; the cause pends at the context that issued the slice (R253). TRAPPC of a copy trap is the
boundary at which it is taken, which trap entry fills in. -/
def State.copyFail (s : State) (k slice : Nat) (cause : Cause) (info : List DWord) : State :=
  match s.copy k with
  | none => s
  | some cp =>
    let s := s.modCopy k fun c => { c with state := .failed, cause := some cause, fslice := slice, fault := false }
    let c := ((cp.slices[slice]?).map (·.ctx)).getD 0
    s.pendCopy cp.q c cp.tag cause info

/-- The verdict on a fault record (R283, R319): 0 restarts the source at the faulting access; 1 makes the fault PROTECTION, delivered as any
other trap (R284).
(DEDUCED, log 22) -/
def State.settleFault (s : State) (src : FaultSrc) (protect : Bool) : State :=
  match src with
  | .team q t =>
    match s.squad q, s.team q t with
    | some sq, some tm =>
      match tm.park with
      | some p =>
        if p.cause != .pageFault then s
        else if protect then
          let s := s.modTeam q t fun tm => { tm with park := some { p with cause := .protection } }
          match tm.owner with
          | some (oq, oc) =>
            let n := s.ownedNumber oq oc q t
            s.pend oq oc { kind := .team n, cause := .protection, causeBits := teamCauseBits .protection n p.origin, pc := p.pos.setWidth 64
                           info := p.info, task := sq.task }
          | none => s
        else s.resumeTeam q t false
      | none => s
    | _, _ => s
  | .ctx q c =>
    match s.ctx q c with
    | some cx =>
      if cx.wait == some .fault then
        if protect then s.ctxTrap q c .protection cx.faulted cx.faultGap
        else s.modCtx q c fun cx => { cx with wait := none, faulted := [] }
      else s
    | none => s
  | .copy k =>
    match s.copy k with
    | some cp =>
      if !cp.fault then s
      else if protect then
        let sl := (cp.slices.findIdx? fun x => !x.done).getD 0
        s.copyFail k sl .protection cp.faultInfo
      else s.modCopy k fun c => { c with fault := false, faultInfo := [] }
    | none => s

/-- The teams and contexts of a die that wait as given execute their words again.
(DESIGN CHOICE, log 39) -/
def State.wakeDie (s : State) (d : Nat) (tw : TeamWait) (cw : CtxWait) : State :=
  { s with squads := s.squads.map fun p =>
      if dieOf p.2.cluster = d then
        (p.1, { p.2 with
          teams := p.2.teams.map fun tm => if tm.wait = some tw then { tm with wait := none } else tm
          ctxs := p.2.ctxs.map fun cx => if cx.wait = some cw then { cx with wait := none } else cx })
      else p }

/-- A write to FDONE: [9:0] the record's index, [16] the verdict (R317, R319), which frees a slot of the ring (R318). An index of no record does
nothing.
(DEDUCED, log 22) -/
def State.fdone (s : State) (d : Nat) (v : DWord) : State :=
  let i := field64 v 0 10
  match aget? (s.die d).ring i with
  | none => s
  | some r => ((s.modDie d fun x => { x with ring := adel x.ring i }).settleFault r.src (v.getLsbD 16)).wakeDie d .faultSlot .faultSlot

end Sys2Proof.Machine
end

