-- ==== Sys2Proof/Machine/Device.lean ====
section
/-! DEFINITION. Configuration space (15_die_memory.md R307, R317; 10_cluster_engines.md R263; 22_package_power.md R406, R415, R416):
the capability list, the translation control block and mailbox control block of each die, and the operating-point entries. The spec gives
the blocks' contents and leaves their addresses to the device: the model places the list at the start of configuration space, the block
of die d at (d+1) × 2^24 above it, and the entries of cluster cl at 2^28 + 32 × cl. -/

namespace Sys2Proof.Machine

/-- CAPBASE (R225, R415).
(DESIGN CHOICE, log 10) -/
def capBase : Nat := cfgBase
/-- The address of die d's translation control block (R317).
(DESIGN CHOICE, log 10) -/
def tcbBase (d : Nat) : Nat := cfgBase + (d + 1) * 2 ^ 24
/-- The offset of the mailbox control block in it (R263).
(DESIGN CHOICE, log 10) -/
def mbOff : Nat := 0x40000
/-- The address of a cluster's operating-point entries (R406).
(DESIGN CHOICE, log 10) -/
def opBase (cl : Nat) : Nat := cfgBase + 2 ^ 28 + 32 * cl

/-! ## The capability list (R415, R416) -/

/-- An operating-point entry word (R406) of a frequency in MHz and a voltage in mV. -/
def opWord (p : Nat × Nat) : Nat := (p.1 - 400) / 25 * 2 ^ 8 + (p.2 - 500) / 5

/-- Words of a list packed four 16-bit values to a word, lowest first. -/
def pack16 : Nat → List Nat → List Nat
  | 0, _ => []
  | n + 1, l => (l.getD 0 0 + l.getD 1 0 * 2 ^ 16 + l.getD 2 0 * 2 ^ 32 + l.getD 3 0 * 2 ^ 48) :: pack16 n (l.drop 4)

/-- The entries of the capability list: id and content words (R416). -/
def State.capEntries (s : State) : List (Nat × List Nat) :=
  [ (1, [3 + 44 * 2 ^ 8 + 4 * 2 ^ 16 + 16 * 2 ^ 24 + 4096 * 2 ^ 32 + 512 * 2 ^ 48, tcbBase 0, tcbBase 1, tcbBase 2, Config.saveAreaBytes.val]
        ++ (upTo 3).map fun d => s.ddr.getD d 0),
    (2, [24 + 48 * 2 ^ 16 + 20 * 2 ^ 32]),
    (3, [262144 + 4095 * 2 ^ 32 + 4 * 2 ^ 44 + 2 * 2 ^ 48]),
    (4, [2 ^ 21 - 1 - 2 ^ 11 + 2 ^ 31 + 2 ^ 32 + 2 ^ 33]),
    (5, [0x1E + 0x0F * 2 ^ 8 + 32 * 2 ^ 16 + 8192 * 2 ^ 24 + 16 * 2 ^ 40]),
    (6, [4 + 1024 * 2 ^ 4 + 2 ^ 24 * 2 ^ 16]),
    (7, [7 + 7 * 2 ^ 3 + 1023 * 2 ^ 6 + 20 * 2 ^ 16 + 8 * 2 ^ 24 + 3 * 2 ^ 32]),
    (8, [1 + 16 * 2 ^ 8 + 512 * 2 ^ 16]),
    (9, [s.fabric.devid + 36 * 2 ^ 16 + 64 * 2 ^ 24 + 16383 * 2 ^ 32]),
    (10, defaultPoints.map opWord),
    (11, s.tagsNative.length :: pack16 ((s.tagsNative.length + 3) / 4) (s.tagsNative.map (·.1))),
    (12, s.tagsNative.map fun t => t.1 + t.2.1 * 2 ^ 16 + t.2.2 * 2 ^ 24) ]

/-- The words of the list from an entry on, which lies at a byte offset from CAPBASE: each entry's header names the next. -/
def capWords : Nat → List (Nat × List Nat) → List Nat
  | _, [] => []
  | off, (id, ws) :: t =>
    let len := ws.length + 1
    let next := if t.isEmpty then 0 else off + 8 * len
    (id + 2 ^ 16 + len * 2 ^ 24 + next * 2 ^ 32) :: ws ++ capWords (off + 8 * len) t

/-- The capability list. -/
def State.capList (s : State) : List Nat := capWords 0 s.capEntries

/-! ## Mailboxes (R262, R263) -/

/-- MBST of the selected mailbox. -/
def Die.mbst (d : Die) : Nat :=
  match aget? d.mailboxes d.mbsel with
  | some m => 1 + m.msgs.length * 2 ^ 4 + b2n d.mberr * 2 ^ 12
  | none => b2n d.mberr * 2 ^ 12

/-- Create: a free mailbox becomes live and empty with the key MBKEY. -/
def Die.mbCreate (d : Die) : Die :=
  if (aget? d.mailboxes d.mbsel).isSome then { d with mberr := true }
  else { d with mailboxes := aset d.mailboxes d.mbsel { live := true, key := d.mbkey }, mberr := false }

/-- Destroy: a live mailbox becomes free and its messages go. -/
def Die.mbDestroy (d : Die) : Die :=
  if (aget? d.mailboxes d.mbsel).isSome then { d with mailboxes := adel d.mailboxes d.mbsel, mberr := false }
  else { d with mberr := true }

/-- A mailbox has been destroyed: every context that waits on it ends its wait and traps at its word (R263). -/
def State.mailboxGone (s : State) (d i : Nat) : State :=
  let ws : List (Nat × Nat × Nat) := s.squads.flatMap fun p => p.2.ctxs.zipIdx.filterMap fun x => match x.1.wait with
    | some (.mailbox d' i' ch _) => if d' = d ∧ i' = i then some (p.1, x.2, ch) else none
    | _ => none
  ws.foldl (fun s w => s.ctxTrap w.1 w.2.1 .channelInvalid [BitVec.ofNat 64 w.2.2, 0, 0, 0]) s

/-- A write to MBCMD of a die (R263). -/
def State.mbCommand (s : State) (d : Nat) (v : DWord) : State :=
  let i := (s.die d).mbsel
  let live := (aget? (s.die d).mailboxes i).isSome
  if v = 1 then s.modDie d Die.mbCreate
  else if v = 2 then (if live then (s.modDie d Die.mbDestroy).mailboxGone d i else s.modDie d Die.mbDestroy)
  else s

/-! ## Shootdowns (R316, R317) -/

/-- The notice of a shootdown to another package (R436).
(DEDUCED, log 44) -/
def shootNotice (owner va n : Nat) : List Byte := toBytes 2 owner ++ toBytes 8 va ++ toBytes 8 n

/-- The notice of a shootdown goes out as it starts (R436): to every package that can be reached, and to be owed to those that cannot.
(DEDUCED, log 44) -/
def State.shootTold (s : State) (r : Nat × Nat × Nat) : State :=
  let bs := shootNotice r.1 r.2.1 r.2.2
  { s with fabric := { s.fabric with
    sent := if s.fabric.routes.isEmpty then s.fabric.sent else s.fabric.sent ++ [{ kind := 0, status := 0, conn := 0, seq := 0, payload := bs }]
    owed := s.fabric.owed ++ s.fabric.lost.map fun d => (d, bs) } }

/-- A shootdown starts, or waits for the one under way.
(DEDUCED, log 44) -/
def Die.shoot (d : Die) (r : Nat × Nat × Nat) : Die :=
  if d.shooting.isNone then { d with shooting := some r } else { d with shootQueue := d.shootQueue ++ [r] }

/-- The value SHOOTLEN takes. -/
def shootLenOk (v : DWord) : Bool := field64 v 0 41 != 0 && field64 v 0 16 == 0 && field64 v 41 23 == 0

/-- A write to SHOOTLEN by a master that may: it starts the shootdown of SHOOTOWN and SHOOTVA; a length outside R317 starts none. Bits [63:41], to which
R317 gives no access code, keep what is written.
(DESIGN CHOICE, log 74) -/
def State.shootWrite (s : State) (d : Nat) (v : DWord) : State :=
  let x := s.die d
  let r := (field64 x.shootOwn 0 12, field64 x.shootVa 0 56, field64 v 0 41)
  let s := s.modDie d fun x =>
    let x := { x with shootLen := v }
    if shootLenOk v then x.shoot r else x
  if shootLenOk v && x.shooting.isNone then s.shootTold r else s

/-- A virtual range of an owner overlaps a sealed range (R423). -/
def State.sealedRange (s : State) (owner va n : Nat) : Bool :=
  s.seals.any fun e => e.2.owner == owner && overlaps va n e.2.base e.2.len

/-! ## Register reads and writes -/

/-- A register of a die's control blocks as a privileged master reads it (R263, R317). -/
def State.tcbRead (s : State) (d off : Nat) : DWord :=
  let x := s.die d
  if off < 0x8000 then aget 0 x.roots (off / 8)
  else if 0x10000 ≤ off ∧ off < 0x20000 then
    aget 0 (if off % 16 = 0 then x.flist0 else x.flist1) ((off - 0x10000) / 16)
  else match off with
    | 0x30000 => x.shootOwn
    | 0x30008 => x.shootVa
    | 0x30010 => x.shootLen
    | 0x30018 => BitVec.ofNat 64 (b2n (x.shooting.isSome))
    | 0x30080 => x.fring
    | 0x40000 => BitVec.ofNat 64 x.mbsel
    | 0x40018 => BitVec.ofNat 64 x.mbst
    | _ => 0

/-- A write to a register of a die's control blocks, whose RZ bits stay zero (R263, R317). Bits of SHOOTOWN, SHOOTVA and FRING to which R317 gives no field
(SHOOTOWN[63:12], SHOOTVA[63:56] and [15:0], FRING[63:52] and [15:12]) are dropped and read as zero.
(DESIGN CHOICE, log 74) -/
def State.tcbWrite (s : State) (d off : Nat) (v : DWord) : State :=
  if off < 0x8000 then s.modDie d fun x => { x with roots := asetD 0 x.roots (off / 8) (v &&& 0x000F_FFFF_FFFF_F801#64) }
  else if 0x10000 ≤ off ∧ off < 0x20000 then
    s.modDie d fun x =>
      if off % 16 = 0 then { x with flist0 := asetD 0 x.flist0 ((off - 0x10000) / 16) v }
      else { x with flist1 := asetD 0 x.flist1 ((off - 0x10000) / 16) v }
  else match off with
    | 0x30000 => s.modDie d fun x => { x with shootOwn := v &&& 0xFFF#64 }
    | 0x30008 => s.modDie d fun x => { x with shootVa := v &&& 0x00FF_FFFF_FFFF_0000#64 }
    | 0x30010 => s.shootWrite d v
    | 0x30040 => s.fdone d v
    | 0x30080 => s.modDie d fun x => { x with fring := v &&& 0x000F_FFFF_FFFF_0FFF#64 }
    | 0x40000 => s.modDie d fun x => { x with mbsel := field64 v 0 8 }
    | 0x40008 => s.modDie d fun x => { x with mbkey := v }
    | 0x40010 => s.mbCommand d v
    | _ => s

/-- A write to an operating-point entry (R406): codes out of range leave it unchanged. A write to the entry in force changes the point, which starts from
its safe set point (R413). -/
def Cluster.opWrite (c : Cluster) (p v : Nat) : Cluster :=
  let f := fieldN v 8 6
  let vc := fieldN v 0 6
  if 48 < f ∨ 60 < vc then c
  else { c with power := { c.power with points := c.power.points.set p (400 + 25 * f, 500 + 5 * vc)
                                        under := if p = c.power.point then 0 else c.power.under } }

/-- The required point of a squad (R408): `est` estimated cycles, the time now and the latest finish in ns (0 for none), and the hint. -/
def Cluster.requiredPoint (c : Cluster) (est now joinBy hint : Nat) : Nat :=
  let base := if est = 0 ∨ joinBy = 0 then 5
    else ((c.power.points.zipIdx.find? fun p => decide (now < joinBy) && decide (est * 1000 ≤ p.1.1 * (joinBy - now))).map (·.2)).getD 7
  max base hint

/-- The aligned 64-bit word of configuration space at an address, as a master reads it: control blocks read as zero to a master without
privilege.
(DESIGN CHOICE, log 10) -/
def State.cfgWord (s : State) (priv : Bool) (pa : Nat) : DWord :=
  let off := pa - cfgBase
  if off < 2 ^ 24 then BitVec.ofNat 64 (s.capList.getD (off / 8) 0)
  else if off < 4 * 2 ^ 24 then (if priv then s.tcbRead (off / 2 ^ 24 - 1) (off % 2 ^ 24) else 0)
  else if 2 ^ 28 ≤ off ∧ off < 2 ^ 28 + 32 * 132 then
    let ps := (s.cluster ((off - 2 ^ 28) / 32)).power.points
    let p := (off - 2 ^ 28) % 32 / 4
    BitVec.ofNat 64 (((ps[p]?).map opWord).getD 0 + ((ps[p + 1]?).map opWord).getD 0 * 2 ^ 32)
  else 0

/-- Bytes of configuration space as a master reads them.
(DESIGN CHOICE, log 10) -/
def State.cfgRead (s : State) (priv : Bool) (pa n : Nat) : List Byte :=
  (upTo n).map fun i => BitVec.ofNat 8 (field64 (s.cfgWord priv ((pa + i) / 8 * 8)) (8 * ((pa + i) % 8)) 8)

/-- The violation a write to configuration space would be (R263, R317, R406, R423): any write without privilege, any to an operating-point
entry, and a shootdown of a sealed range. -/
def State.cfgGuard (s : State) (priv : Bool) (pa : Nat) (bs : List Byte) : Option MemFail :=
  let off := pa - cfgBase
  let bad : Option MemFail := some (.violation 4 pa 0)
  if !priv || decide (2 ^ 28 ≤ off) then bad
  else if 2 ^ 24 ≤ off ∧ off < 4 * 2 ^ 24 ∧ off % 2 ^ 24 / 8 * 8 = 0x30010 then
    let x := s.die (off / 2 ^ 24 - 1)
    if s.sealedRange (field64 x.shootOwn 0 12) (field64 x.shootVa 0 56) (ofBytes bs % 2 ^ 41) then bad else none
  else none

/-- A permitted write to configuration space: the register takes the bytes written, its other bytes as they read.
(DESIGN CHOICE, log 10) -/
def State.cfgWrite (s : State) (pa : Nat) (bs : List Byte) : State :=
  let off := pa - cfgBase
  if 2 ^ 24 ≤ off ∧ off < 4 * 2 ^ 24 then
    let d := off / 2 ^ 24 - 1
    let r := off % 2 ^ 24 / 8 * 8
    s.tcbWrite d r (BitVec.ofNat 64 (ofBytes (patch (toBytes 8 (s.tcbRead d r).toNat) (pa % 8) (bs.take 8))))
  else s

end Sys2Proof.Machine
end

