-- ==== Sys2Proof/Machine/Umpire.lean ====
section
/-! DEFINITION. Violations and the freezing of masters (23_package_security.md R419, R420; R386), fault records (R318), and the accesses to
virtual and physical bytes that lanes and contexts make. -/

namespace Sys2Proof.Machine

/-! ## Freezing -/

/-- Freezes or releases every team that a context owns (R420). -/
def State.freezeOwned (s : State) (q c : Nat) (on : Bool) : State :=
  { s with squads := s.squads.map fun p => (p.1, { p.2 with
      teams := p.2.teams.map fun tm => if tm.owner = some (q, c) then { tm with frozen := on } else tm }) }

/-- Another record that is open, or waits for a slot, names a master. -/
def State.stillNamed (s : State) (m : Master) : Bool := s.dies.any fun d => (d.viol.any fun v => v.2.master == m) || d.violQ.any fun v => v.master == m

/-- A master starts nothing new (R420). -/
def State.freeze (s : State) (m : Master) : State :=
  match m with
  | .ctx q c => (s.freezeOwned q c true).modCtx q c fun cx => { cx with frozen := true }
  | .copies q =>
    { s with copies := s.copies.map fun (p : Nat × Copy) => if p.2.q = q then (p.1, { p.2 with frozen := true }) else p }.modSquad q fun sq => { sq with queueFrozen := true }
  | .descent q t => s.modTeam q t fun tm => { tm with frozen := true }
  | .conn n => { s with conns := s.conns.map fun p => if p.1 = n then (p.1, { p.2 with frozen := true }) else p }
  | .fabric _ _ => s

/-- The die whose Umpire handles a violation (R419).
(DEDUCED, log 42) -/
def Violation.umpire (v : Violation) : Nat := if v.code ≤ 2 then homeDie v.pa else v.die

/-- A violation goes to the Umpire, which freezes the master and queues its record (R420, R421); one made for an uncommitted speculative
task is held with the task while its master waits (R386).
(DEDUCED, log 52) -/
def State.violate (s : State) (task : Option Nat) (v : Violation) : State :=
  match task with
  | some k => (s.freeze v.master).modTask k fun t => { t with heldV := t.heldV ++ [{ v with time := s.now }] }
  | none => (s.freeze v.master).modDie v.umpire fun d => { d with violQ := d.violQ ++ [{ v with time := s.now }] }

/-! ## Fault records (R318) and first touches (R320) -/

/-- The 64-byte fault record: `src` is the source code, `access` the access bits, `ident` bytes 24 to 31.
(DEDUCED, log 22; DEDUCED, log 42) -/
def faultRecord (va owner src access level die cluster : Nat) (entry : DWord) (ident : Nat) : List Byte :=
  toBytes 8 va ++ toBytes 2 owner ++ toBytes 1 src ++ toBytes 1 access ++ toBytes 1 level ++ toBytes 1 die ++ toBytes 1 cluster ++ [0]
    ++ toBytes 8 entry.toNat ++ toBytes 8 ident ++ List.replicate 32 0

/-- A first touch is handed to the die's first-touch unit once per page.
(DEDUCED, log 43) -/
def State.addTouch (s : State) (d : Nat) (t : Touch) : State :=
  s.modDie d fun x => if x.touches.any (fun u => u.owner == t.owner && u.va == t.va) then x else { x with touches := x.touches ++ [t] }

/-! ## Accesses to bytes -/

/-- A read by a lane, a context or the descent unit of a cluster (R145, R222, R257). -/
def State.pread (s : State) (a : Access) (va pa : Nat) (zor : Bool) (n : Nat) (wide : Bool) : MR (List Byte) :=
  match (s.guardPa pa n false).orElse fun _ => s.lockCheck a.owner va n false with
  | some f => (.error f, s)
  | none =>
    if cfgBase ≤ pa then (.ok (s.cfgRead a.priv pa n), s)
    else
      if wide then (s.l1Clear a.cl).readPast a zor pa n
      else readSpanL1 a zor (n / 128 + 2) s pa n

/-- What stops a write of bytes before it is performed. A write to configuration space cannot be buffered, so it waits for the commit of a
speculative task. -/
def State.writeGuard (s : State) (a : Access) (va pa : Nat) (bs : List Byte) : Option MemFail :=
  if a.spec && cfgBase ≤ pa then some .spec
  else (s.guardPa pa bs.length true).orElse fun _ => (if cfgBase ≤ pa then s.cfgGuard a.priv pa bs else none).orElse fun _ =>
    (s.lockCheck a.owner va bs.length true).orElse fun _ => if s.overAllowance a pa bs.length then some .spec else none

/-- A write by a lane or a context. -/
def State.pwrite (s : State) (a : Access) (va pa : Nat) (zor : Bool) (bs : List Byte) : MR Unit :=
  match s.writeGuard a va pa bs with
  | some f => (.error f, s)
  | none => (.ok (), if cfgBase ≤ pa then s.cfgWrite pa bs else s.store a zor pa bs)

/-- An indivisible read and write by a lane or a context (R139, R223, R341): `f` gives the bytes to store, or none. The read goes past the
L1, which forgets the line. In an uncommitted speculative task an atomic outside its versions waits (R385). -/
def State.patomic (s : State) (a : Access) (va pa : Nat) (zor : Bool) (n : Nat) (wide : Bool) (f : List Byte → Option (List Byte)) :
    MR (List Byte) :=
  let old := s.cfgRead a.priv pa n
  let deny : Option MemFail := if cfgBase ≤ pa then (f old).bind (s.cfgGuard a.priv pa) else none
  if s.buffers a pa then (.error .spec, s)
  else match (s.guardPa pa n true).orElse fun _ => deny.orElse fun _ => s.lockCheck a.owner va n true with
  | some e => (.error e, s)
  | none =>
    if cfgBase ≤ pa then (.ok old, match f old with
      | some bs => s.cfgWrite pa bs
      | none => s)
    else
      let s := if wide then s.l1Clear a.cl else s.l1Forget a.cl a.owner (pa / 128)
      (s.readPast a zor pa n).andThen fun old s =>
        match f old with
        | none => (.ok old, s)
        | some bs => (.ok old, s.store a zor pa bs)

/-- A read of virtual bytes of one page. -/
def State.vread (s : State) (a : Access) (va n : Nat) (wide : Bool) : MR (List Byte) :=
  (s.translateFor a va n { rd := true }).andThen fun x s => s.pread a va x.pa (pteZor x.leaf) n wide

/-- A write of virtual bytes of one page. -/
def State.vwrite (s : State) (a : Access) (va : Nat) (bs : List Byte) : MR Unit :=
  (s.translateFor a va bs.length { wr := true }).andThen fun x s => s.pwrite a va x.pa (pteZor x.leaf) bs

/-- An indivisible read and write of virtual bytes. -/
def State.vatomic (s : State) (a : Access) (va n : Nat) (wide : Bool) (f : List Byte → Option (List Byte)) : MR (List Byte) :=
  (s.translateFor a va n { rd := true, wr := true }).andThen fun x s => s.patomic a va x.pa (pteZor x.leaf) n wide f

/-! ## Generator words and memory -/

/-- The access a context of a squad makes.
(DEDUCED, log 55) -/
def State.genAccess (s : State) (sq : Squad) : Access :=
  { owner := s.ownerOf sq, task := sq.task, cl := sq.cluster, spec := s.speculative sq, priv := sq.priv }

/-- The access a team of a squad makes.
(DEDUCED, log 55) -/
def State.laneAccess (s : State) (sq : Squad) (core : Nat) : Access :=
  { s.genAccess sq with core := some core }

/-- TRAPINFO1 of a generator word's access (R146, R222): `lsize` is log2 of its size. -/
def genMap (lsize : Nat) (wr atomic : Bool) : Nat := lsize * 2 ^ 17 + b2n atomic * 2 ^ 15 + b2n wr * 2 ^ 14

/-- The violation of a context. -/
def ctxViolation (s : State) (q c : Nat) (sq : Squad) (code va pa target : Nat) : Violation :=
  { code := code, master := .ctx q c, die := dieOf sq.cluster, cluster := sq.cluster % 44, owner := s.ownerOf sq, target := target
    va := va, pa := pa, ident := sq.id % 256 + c * 2 ^ 8, lanes := 0 }

/-- The task whose violations and traps are held.
(DEDUCED, log 49) -/
def State.holdTask (s : State) (sq : Squad) : Option Nat := if s.speculative sq then some sq.task else none

/-- A context's word that violates: nothing is performed and the context freezes at the word (R420). -/
def GenIn.violation (x : GenIn) (s : State) (code va pa target : Nat) : GenRes :=
  .wait .frozen (s.violate (s.holdTask x.sq) (ctxViolation s x.q x.c x.sq code va pa target))

/-- How a generator word ends when an access of it fails (R222, R283, R318, R320, R420). -/
def GenIn.memFail (x : GenIn) (s : State) (f : MemFail) (va lsize : Nat) (wr atomic fetch : Bool) : GenRes :=
  let info (w2 : Nat) : List DWord :=
    [BitVec.ofNat 64 va, BitVec.ofNat 64 (genMap lsize wr atomic), BitVec.ofNat 64 w2, 0]
  match f with
  | .cause c w2 => .trap c (info w2) s
  | .page level entry | .indexPage level entry =>
    let acc := b2n (!fetch && (atomic || !wr)) + b2n wr * 2 + b2n fetch * 4 + b2n atomic * 8
    .fault (faultRecord va (s.ownerOf x.sq) 1 acc level (dieOf x.sq.cluster) (x.sq.cluster % 44) entry x.cx.pc.toNat) (info 0) s
  | .touch t => .wait .touch (s.addTouch (dieOf x.sq.cluster) t)
  | .violation code pa target => x.violation s code va pa target
  | .spec => .wait .spec s
  | .remote => .wait .remote s

/-- Goes on with an access's result or ends the word. -/
def GenIn.withMem {α : Type} (x : GenIn) (r : MR α) (va lsize : Nat) (wr atomic : Bool) (f : α → State → GenRes) : GenRes :=
  match r with
  | (.ok v, s) => f v s
  | (.error e, s) => x.memFail s e va lsize wr atomic false

/-- The address checks of R222 that come before translation. -/
def GenIn.addrCheck (x : GenIn) (va n lsize : Nat) (wr atomic : Bool) (f : GenRes) : GenRes :=
  if 2 ^ 56 ≤ va then x.memFail x.s (.cause .protection 0) va lsize wr atomic false
  else if va % n ≠ 0 then x.memFail x.s (.cause .misaligned 0) va lsize wr atomic false
  else f

end Sys2Proof.Machine
end

