-- ==== Sys2Proof/Machine/Clause.lean ====
section
/-! DEFINITION. Fetching generator words (R211) and decoding clause headers (R19 to R23, R90). -/

namespace Sys2Proof.Machine

open Host (Outcome)

/-- The header conditions of R21.
(DEDUCED, log 20) -/
def headerBad (h : DWord) : Bool :=
  let len := field64 h 60 4
  len == 0 || decide (8 ≤ len) || (h.getLsbD 43 && decide (12 ≤ field64 h 44 4)) || (h.getLsbD 38 && decide (12 ≤ field64 h 39 4))
    || field64 h 0 6 != 0

/-- The generator word at an address, read through the cluster's instruction path under the owner's page tables (R211).
(DEDUCED, log 42) -/
def State.fetch (s : State) (a : Access) (va : Nat) : MR DWord :=
  if 2 ^ 56 ≤ va then (.error (.cause .protection 0), s)
  else (s.translate a va { ex := true }).andThen fun x s =>
    match s.guardPa x.pa 8 false with
    | some f => (.error f, s)
    | none =>
      if cfgBase ≤ x.pa then (.ok (s.cfgWord a.priv x.pa), s)
      else (s.readPast a (pteZor x.leaf) x.pa 8).andThen fun bs s => (.ok (BitVec.ofNat 64 (ofBytes bs)), s)

/-- How a generator result ends a fetch or a header decode, outside any instruction word. -/
def endFetch (q c : Nat) (r : GenRes) : State :=
  match r with
  | .done s' => s'
  | .goto _ s' => s'
  | .back _ _ _ s' => s'
  | .trap cause info s' => s'.ctxTrap q c cause info
  | .fault rec_ info s' => s'.ctxFault q c rec_ info
  | .wait w s' => s'.modCtx q c fun cx => { cx with wait := some w }

/-- The fetch of the word at a context's PC, or how its failure ends (R211). -/
def State.fetchPc (s : State) (q c : Nat) (sq : Squad) (cx : Ctx) : Except State (DWord × State) :=
  let va := cx.pc.toNat
  match s.fetch (s.genAccess sq) va with
  | (.ok w, s') => .ok (w, s')
  | (.error f, s') =>
    .error (endFetch q c (GenIn.memFail ⟨s', q, c, sq, cx, cx⟩ s' f va 3 false false true))

/-- A clause of `len` words after a header lies within the header's stretch (R22). -/
def clauseWhole (buffer : List BufWord) (len : Nat) : Bool :=
  !(buffer.take len).any (·.last) && decide (len < buffer.length)

/-- A team decodes the header at its cursor: the header retires and its clause begins, or the team parks with CLAUSE_FORMAT and mask m0
(R21, R22, R90). -/
def State.teamHeader (s : State) (q t : Nat) : State :=
  match s.team q t with
  | some tm =>
    match tm.clause, tm.park, tm.buffer with
    | none, none, b :: rest =>
      if headerBad b.word || !clauseWhole tm.buffer (field64 b.word 60 4) then s.park q t .clauseFormat [] (tm.m 0) true []
      else s.modTeam q t fun tm => { tm with buffer := rest, pos := tm.pos + 1, clause := some ⟨b.word, 0⟩ }
    | _, _, _ => s
  | none => s

/-- A context decodes the header at its PC (R19, R21, R23). -/
def State.ctxHeader (s : State) (q c : Nat) : State :=
  match s.squad q, s.ctx q c with
  | some sq, some cx =>
    match cx.clause with
    | some _ => s
    | none =>
      match s.fetchPc q c sq cx with
      | .error s' => s'
      | .ok (w, s') =>
        if headerBad w then s'.ctxTrap q c .clauseFormat []
        else s'.modCtx q c fun cx => { cx with pc := cx.pc + 8, clause := some ⟨w, 0⟩, waited := false }
  | _, _ => s

/-- CLAUSE_HEADER_DECODE (R19): the unit `operand.unit`, at a clause boundary, decodes the word there as a header.
(DESIGN CHOICE, log 59) -/
def evClauseHeaderDecode (s : State) : Outcome State Fault Refusal :=
  match s.operand.unit with
  | some (.team q t) => .next (s.teamHeader q t)
  | some (.ctx q c) => .next (s.ctxHeader q c)
  | none => .next s

end Sys2Proof.Machine
end

