-- ==== Sys2Proof/Machine/Flags.lean ====
section
/-! DEFINITION. The condition codes a generator word sets: the integer rules of R214, the float results of R218, and comparisons (R37,
R215, R218). -/

namespace Sys2Proof.Machine

/-- CC of a w-bit result with C and V given (R214). -/
def ccOf (wd r : Nat) (c v : Bool) : CC := { z := r % 2 ^ wd == 0, n := r.testBit (wd - 1), c := c, v := v }

/-- CC of a + b at width w: the carry out and the signed overflow (R214). -/
def ccAdd (wd a b : Nat) : CC :=
  let r := (a + b) % 2 ^ wd
  ccOf wd r (decide (2 ^ wd ≤ a + b)) (decide (signed a wd + signed b wd ≠ signed r wd))

/-- CC of a − b = a + NOT b + 1 at width w: C = 1 means a ≥ b unsigned (R37, R214). -/
def ccSub (wd a b : Nat) : CC :=
  let r := (a + (2 ^ wd - 1 - b) + 1) % 2 ^ wd
  ccOf wd r (decide (2 ^ wd ≤ a + (2 ^ wd - 1 - b) + 1)) (decide (signed a wd - signed b wd ≠ signed r wd))

/-- CC of a float result (R218): Z for a zero, N its sign (0 for NaN), C inexact, V invalid or overflow. -/
def ccFloat (t : NumTy) (r : Rounded) : CC :=
  let y := t.decode r.code
  { z := y.isZero, n := y.neg, c := r.flags.getLsbD 0, v := r.flags.getLsbD 4 || r.flags.getLsbD 2 }

/-- CC of a float comparison (R218): NZCV is less 0b1000, equal 0b0110, greater 0b0010, unordered 0b0011; a signalling NaN sets V. -/
def ccCmp (x y : XVal) : CC :=
  if x.isNan || y.isNan then { n := false, z := false, c := true, v := true }
  else match x.cmp y with
    | .lt => { n := true, z := false, c := false, v := false }
    | .eq => { n := false, z := true, c := true, v := false }
    | .gt => { n := false, z := false, c := true, v := false }

/-- CC with Z given and N, C, V zero. -/
def ccZ (z : Bool) : CC := { z := z }

end Sys2Proof.Machine
end

