-- ==== Sys2Proof/Machine/Notify.lean ====
section
/-! DEFINITION. Messages that the device sends to the host (22_package_power.md R402, R403) and reports to owners. -/

namespace Sys2Proof.Machine

/-- A message as bytes (R403).
(DESIGN CHOICE, log 60) -/
def Message.encode (m : Message) : List Byte :=
  toBytes 1 m.kind ++ toBytes 1 m.status ++ toBytes 2 m.conn ++ toBytes 4 m.payload.length ++ toBytes 8 m.seq.toNat ++ toBytes 8 m.addr.toNat
    ++ toBytes 4 m.len ++ toBytes 4 0 ++ m.payload

/-- A device-to-host message on a connection: it takes the connection's next sequence number and stays unacknowledged until the host
acknowledges it (R403). -/
def State.send (s : State) (conn kind : Nat) (payload : List Byte) : State :=
  match aget? s.conns conn with
  | none => s
  | some c =>
    let m : Message := { kind := kind, status := 0, conn := conn, seq := c.nextTx, payload := payload }
    { s with
      conns := aset s.conns conn { c with nextTx := c.nextTx + 1, unacked := c.unacked ++ [m] }
      outbox := s.outbox ++ [m.encode] }

/-- A reply to a request of the host (R403). -/
def State.reply (s : State) (m : Message) : State :=
  match aget? s.conns m.conn with
  | none => s
  | some c => { s with conns := aset s.conns m.conn { c with replies := c.replies ++ [m] }, outbox := s.outbox ++ [m.encode] }

/-- The device's acknowledgement of a message of the host (R402). -/
def State.ack (s : State) (conn : Nat) (seq : DWord) : State :=
  { s with outbox := s.outbox ++ [({ kind := 10, status := 0, conn := conn, seq := seq } : Message).encode] }

/-- A report or event kept for an owner or the dispatch core, as bytes.
(DESIGN CHOICE, log 69) -/
def State.event (s : State) (e : List Byte) : State := { s with events := s.events ++ [e] }

/-- A health or failure event for the host: the model's report begins with a code of its own, and goes out as a management message on the
lowest-numbered connection, or with none bound on the management channel itself.
(DESIGN CHOICE, log 69) -/
def State.tellHost (s : State) (e : List Byte) : State :=
  let s := s.event e
  match s.conns.head? with
  | some c => s.send c.1 9 e
  | none => { s with outbox := s.outbox ++ [({ kind := 9, status := 0, conn := 0, seq := 0, payload := e } : Message).encode] }

end Sys2Proof.Machine
end

