-- ==== Sys2Proof/Machine/Sched.lean ====
section
/-! DEFINITION. Who moves next: the launch state of teams and contexts (R77, R209, R210), the lane core's choice of a team (R201, R202), the
generator core's choice of a context (R213), the turns of `State.schedule`, and the automatic turns when the schedule is empty. -/

namespace Sys2Proof.Machine

open Host (Outcome)

/-! ## Launch (R77, R209, R210) -/

/-- A team as it is launched (R77). -/
def freshTeam (lanes gw n core : Nat) (pair : Bool) (owner : Option (Nat × Nat)) (age : Nat) (legacy : Bool := false) : Team :=
  { lanes := lanes, gw := gw, owner := owner, core := core, pair := pair, n := n
    masks := maskBelow lanes :: List.replicate 7 0, age := age, legacy := legacy }

/-- A context as it is launched (R209, R210). -/
def freshCtx (role inst : Nat) (entry arg : DWord) (chans : List (Nat × List DWord)) : Ctx :=
  { role := role, s := asetD 0 (asetD 0 [] 1 arg) 2 (BitVec.ofNat 64 inst), pc := entry, chans := chans }

/-! ## Lane cores -/

/-- The team issues nothing: a team that is asked for still ends the word it has started (R205). -/
def Team.stopped (tm : Team) : Bool :=
  tm.park.isSome || tm.wait.isSome || tm.evicted || (tm.evictReq && tm.started.isNone && tm.half.isNone) || tm.frozen || tm.ended || tm.buffer.isEmpty

/-- The WAIT flags of the clause's first word are idle (R20, R27). -/
def Team.flagsIdle (tm : Team) : Bool :=
  match tm.clause with
  | some c => !tm.native || c.idx != 0 || (field64 c.header 48 12 &&& tm.busy.toNat) == 0
  | none => true

/-- The team is in Ready but for its STALL count (the table before R93). -/
def Team.couldIssue (tm : Team) : Bool := !tm.stopped && tm.clause.isSome && tm.flagsIdle

/-- The teams of a lane core, a team on a pair on both its cores (R91), as squad key and index. -/
def State.teamsOn (s : State) (cl core : Nat) : List (Nat × Nat × Squad × Team) :=
  s.squads.flatMap fun p =>
    if p.2.cluster = cl then
      (p.2.teams.zipIdx.filter fun x => x.1.core == core || (x.1.pair && x.1.core + 1 == core)).map fun x => (p.1, x.2, p.2, x.1)
    else []

/-- The issue slots that a team has spent in Ready on a lane core (R93, R202). -/
def Team.readyOn (tm : Team) (core : Nat) : Nat := if tm.core = core then tm.ready else tm.readyOdd

/-- What counts as one team for the scheduler: a team, or a ganged pair (R92, R201), by squad key and even index. -/
def gang (x : Nat × Nat × Squad × Team) : Nat × Nat := (x.1, if x.2.2.2.legacy then x.2.1 / 2 * 2 else x.2.1)

/-- The choice of R202 among the teams in Ready on a lane core: a starving team first, the one that became starving first; otherwise the oldest; ties
to the lower squad id and then the lower team index. -/
def pickTeam (core : Nat) (l : List (Nat × Nat × Squad × Team)) : Option (Nat × Nat × Squad × Team) :=
  let tie (x : Nat × Nat × Squad × Team) : Nat := (x.2.2.2.age * 256 + x.2.2.1.id) * 16 + x.2.1
  let slots (x : Nat × Nat × Squad × Team) : Nat := ((l.filter fun y => gang y == gang x).map fun y => y.2.2.2.readyOn core).foldl max 0
  match l.filter fun x => 32 ≤ slots x with
  | [] => leastBy tie l
  | st =>
    let top := (st.map slots).foldl max 0
    leastBy tie (st.filter fun x => slots x == top)

/-- An opcode of format LI (R28). -/
def formatLI (opc : Nat) : Bool :=
  (decide (0x20 ≤ opc) && decide (opc ≤ 0x27)) || opc == 0x40 || opc == 0x41 || (decide (0x60 ≤ opc) && decide (opc ≤ 0x66))
    || (decide (0x74 ≤ opc) && decide (opc ≤ 0x77))

/-- An opcode of format LM (R28). -/
def formatLM (opc : Nat) : Bool :=
  (decide (0x67 ≤ opc) && decide (opc ≤ 0x6F)) || (decide (0x78 ≤ opc) && decide (opc ≤ 0x7B))

/-- The oldest word of a team. -/
def Team.word (tm : Team) : DWord := (tm.buffer.head?.map (·.word)).getD 0

/-- The oldest words of the teams of a ganged pair share an issue slot: they have the same OPC, TY and EX (R92), of which the formats LI and LM have no EX. -/
def sameSlot (a b : Team) : Bool :=
  let ex (w : DWord) : Nat := if formatLI (opcOf w) || formatLM (opcOf w) then 0 else field64 w 0 8
  opcOf a.word == opcOf b.word && field64 a.word 48 5 == field64 b.word 48 5 && ex a.word == ex b.word

/-- The instruction a lane core reads from a word (R40). -/
def laneInstr (w : DWord) : Instr := (laneOfWord w).getD .illegalLaneOpc

/-- The instruction a generator core reads from a word (R40). -/
def genInstr (w : DWord) : Instr := (genOfWord w).getD .illegalGenOpc

/-- What a turn comes to: an instruction or device step to execute at a state, or a state reached. -/
inductive Sel where
  | run (i : Instr) (s : State)
  | done (s : State)

/-- The passes of the team's oldest word that a lane core issues (R83, R91, R446). -/
def Team.passesNow (tm : Team) (core : Nat) : Nat :=
  let p := passesOf tm (laneInstr tm.word) (tm.acting (tm.word.extractLsb' 53 3))
  if tm.core = core then p.1 else p.2

/-- The team's oldest word has passes that this lane core is still to issue: a core of a pair issues its own ones at its own choice (R91, R202). -/
def Team.dueOn (tm : Team) (core : Nat) : Bool :=
  !tm.pair || match tm.half with
    | some (k, _) => k != core
    | none => tm.passesNow core != 0

/-- Both cores of the team's pair have passes of its oldest word to issue, and none has. -/
def Team.halves (tm : Team) : Bool := tm.pair && tm.half.isNone && tm.passesNow tm.core != 0 && tm.passesNow (tm.core + 1) != 0

/-- The issue slot of the gang `g` has gone to the team of index `t`, alone or with its mate: the teams of the core that were in Ready count the slot
(R93, R202), for a team on a pair each core apart, and the odd team of a ganged pair is served next where the even one was served alone (R92). -/
def State.countSlot (s : State) (core : Nat) (g : Nat × Nat) (t : Nat) (alone : Bool) (ok : List (Nat × Nat × Squad × Team)) : State :=
  ok.foldl (fun s x => s.modTeam x.1 x.2.1 fun m =>
    if gang x = g then { m with ready := if m.core = core then 0 else m.ready, readyOdd := if m.core = core then m.readyOdd else 0, oddNext := if m.legacy && alone then t % 2 == 0 else m.oddNext }
    else if m.core = core then { m with ready := m.ready + 1 } else { m with readyOdd := m.readyOdd + 1 }) s

/-- The word of team (q, t) starts in the issue slot of cycle `cyc`, with that of its mate when `mate` names one (R92). -/
def State.issueSlot (s : State) (cl : Nat) (q t : Nat) (tm : Team) (mate : Option (Nat × Nat × Squad × Team)) (cyc : Nat) : Sel :=
  let s := s.modCluster cl fun c => { c with cycle := cyc }
  let s := match mate with
    | some (q', t', sq', tm') => s.takeSlot q' t' sq' tm' (laneInstr tm'.word) (tm'.acting (tm'.word.extractLsb' 53 3))
    | none => s
  .run (laneInstr tm.word) { s with cur := some (.team q t) }

/-- The first of the two cores of a pair issues its passes of the word of team (q, t), which is performed when the other one issues its own (R91).
(DESIGN CHOICE, log 2) -/
def State.issueHalf (s : State) (cl core q t : Nat) (tm : Team) (cyc : Nat) : State :=
  let p := tm.passesNow core
  (((s.modCluster cl fun c => { c with cycle := cyc }).modTeam q t fun tm => { tm with half := some (core, cyc + p) }).occupy cl core cyc p true)

/-- A lane core's turn: a team at a clause boundary decodes its header; a word that has started and no longer waits goes on, in no further slot (R202,
R446); otherwise the core starts the word of the team that R202 picks, in the first cycle in which the core is free and a team's STALL count has run
out. Of a ganged pair whose words differ the slot serves one team, the two in turn and the even one first (R92); of a team on a pair a core issues its own
passes (R91). -/
def State.laneTurn (s : State) (cl core : Nat) : Sel :=
  let ts := s.teamsOn cl core
  match ts.find? fun x => !x.2.2.2.stopped && x.2.2.2.clause.isNone with
  | some (q, t, _, _) => .run .clauseHeaderDecode { s with operand := { unit := some (.team q t) } }
  | none =>
    let cs := ts.filter fun x => x.2.2.2.couldIssue
    match cs.find? fun x => x.2.2.2.started.isSome with
    | some (q, t, _, tm) => .run (laneInstr tm.word) { s with cur := some (.team q t) }
    | none =>
      let cs := cs.filter fun x => x.2.2.2.dueOn core
      match cs with
      | [] => .done s
      | y :: ys =>
        let soon := (ys.map fun x => x.2.2.2.nextIssue).foldl min y.2.2.2.nextIssue
        let busy := (((s.cluster cl).cores[core]?).map (·.busyUntil)).getD 0
        let cyc := max (s.cluster cl).cycle (max soon busy)
        let ok := cs.filter fun x => x.2.2.2.nextIssue ≤ cyc
        match pickTeam core ok with
        | none => .done s
        | some x =>
          match ok.filter fun z => gang z = gang x with
          | [a, b] =>
            if sameSlot a.2.2.2 b.2.2.2 then (s.countSlot core (gang x) a.2.1 false ok).issueSlot cl a.1 a.2.1 a.2.2.2 (some b) cyc
            else
              let z := if a.2.2.2.oddNext then b else a
              (s.countSlot core (gang x) z.2.1 true ok).issueSlot cl z.1 z.2.1 z.2.2.2 none cyc
          | _ =>
            let s := s.countSlot core (gang x) x.2.1 false ok
            if x.2.2.2.halves then .done (s.issueHalf cl core x.1 x.2.1 x.2.2.2 cyc) else s.issueSlot cl x.1 x.2.1 x.2.2.2 none cyc

/-! ## Generator cores -/

/-- The context issues nothing. A trap of its own word stops it until its entry (R284, R386), but not the handler of an older trap, whose own
words' traps stop it too; a pre-emption that is due stops it until its flags are idle (R295, R297). -/
def Ctx.stopped (cx : Ctx) : Bool :=
  cx.exited || cx.preempted || cx.frozen || cx.wait.isSome || (cx.preemptReq.isSome && !cx.tmask)
    || cx.pending.any fun p => p.kind == .word && (p.masked || !(cx.tmask && cx.ret.isSome))

/-- The WAIT flags of the clause's first word are idle, or it is a kept clause whose WAIT is not checked again (R20, R290). -/
def Ctx.flagsIdle (cx : Ctx) (native : Bool) : Bool :=
  match cx.clause with
  | some c => !native || cx.waited || c.idx != 0 || (field64 c.header 48 12 &&& cx.busy.toNat) == 0
  | none => true

/-- A pending trap that is not held (R386) and that `ripe` lets be taken is taken at the context's next boundary (R284): TMASK is clear and the context is
at one, where a word trap or any boundary wait leaves it. -/
def State.trapTakes (s : State) (q c : Nat) (ripe : Pending → Bool) : Bool :=
  match s.ctx q c with
  | some cx =>
    !cx.exited && !cx.preempted && !cx.frozen && !cx.tmask && (cx.pending.find? (!s.held ·)).any ripe
      && (match cx.wait with
          | some w => w.boundary
          | none => true)
  | none => false

/-- A trap is to be taken at the context's next boundary. -/
def State.trapNext (s : State) (q c : Nat) : Bool := s.trapTakes q c fun _ => true

/-- A trap is taken now: it arose in an earlier cycle, so every trap of its cycle has found its place before it or behind it (R284). -/
def State.trapDue (s : State) (q c : Nat) : Bool := s.trapTakes q c fun p => decide (p.cycle < s.cycleOf q)

/-- The contexts of a cluster. -/
def State.ctxsOn (s : State) (cl : Nat) : List (Nat × Nat × Squad × Ctx) :=
  s.squads.flatMap fun p =>
    if p.2.cluster = cl then p.2.ctxs.zipIdx.map fun x => (p.1, x.2, p.2, x.1) else []

/-- A generator core's turn: the next context round-robin takes a pending trap, decodes a header, or issues a word (R213). -/
def State.genTurn (s : State) (cl : Nat) : Sel :=
  let cs := (s.ctxsOn cl).filter fun x => s.trapDue x.1 x.2.1 || (!x.2.2.2.stopped && x.2.2.2.flagsIdle x.2.2.1.native)
  let key (x : Nat × Nat × Squad × Ctx) : Nat := x.1 * 16 + x.2.1
  let cyc0 := (s.cluster cl).cycle
  match cs with
  | [] => .done s
  | y :: ys =>
    let soon := (ys.map fun x => x.2.2.2.nextIssue).foldl min y.2.2.2.nextIssue
    let cyc := max cyc0 soon
    let ok := cs.filter fun x => x.2.2.2.nextIssue ≤ cyc
    let rr := (s.cluster cl).rr
    match (leastBy key (ok.filter fun x => rr < key x)).orElse fun _ => leastBy key ok with
    | none => .done s
    | some x =>
      let (q, c, sq, cx) := x
      let s := s.modCluster cl fun k => { k with cycle := cyc, rr := key x }
      if s.trapDue q c then .run .trapEntry { s with operand := { a := q, b := c } }
      else match cx.clause with
        | none => .run .clauseHeaderDecode { s with operand := { unit := some (.ctx q c) } }
        | some _ =>
          match s.fetchPc q c sq cx with
          | .error s' => .done s'
          | .ok (w, s') => .run (genInstr w) { s' with cur := some (.ctx q c) }

/-! ## Turns -/

/-- The clusters on which a task has a squad resident, each once (R411, R414). -/
def State.residences (s : State) (k : Nat) : List Nat :=
  ((s.squads.filter fun p => p.2.task == k && !p.2.off).map (·.2.cluster)).eraseDups

/-- Some ns pass, in which every task counts the whole energy of the clusters on which it has a squad resident (R411). What a cluster uses is a free value.
(DESIGN CHOICE, log 64) -/
def State.spend (s : State) (ns : Nat) : State :=
  { s with
    now := s.now + ns
    tasks := s.tasks.map fun p => (p.1, { p.2 with energy := p.2.energy + ((s.residences p.1).map fun cl => Config.energyUsed cl s.now ns).sum }) }

/-- At a boundary of the 1 ms timer every task's count becomes what ENERGY reads (R411).
(DESIGN CHOICE, log 64) -/
def State.energyMark (s : State) : State :=
  { s with tasks := s.tasks.map fun p => (p.1, { p.2 with energyRead := p.2.energy })
           power := { s.power with energyAt := s.now / 1000000 } }

/-- Time passes (R16, R401): every cluster counts cycles and the package counts nanoseconds; ENERGY advances at the last boundary of the 1 ms timer that
is reached (R411). -/
def State.tick (s : State) (cycles ns : Nat) : State :=
  let s := { s with clusters := s.clusters.map fun (c : Cluster) => { c with cycle := c.cycle + cycles } }
  let past := (s.now + ns) % 1000000
  if past < ns then ((s.spend (ns - past)).energyMark).spend past else s.spend ns

/-- The required point of a squad is computed again for a latest finish, and its cluster takes its point (R408). -/
def State.recompute (s : State) (q fin : Nat) : State :=
  match s.squad q with
  | none => s
  | some sq =>
    let est := ((s.task sq.task).map fun t => field64 (t.word 4) 0 48).getD 0
    let req := (s.cluster sq.cluster).requiredPoint est s.now fin sq.opoint
    (s.modSquad q fun q => { q with joinBy := fin, required := req, hintAt := none }).repoint sq.cluster

/-- The recomputations that a HINT written 10 µs ago is due (R409).
(DESIGN CHOICE, log 64) -/
def State.hintsDue (s : State) : State :=
  (s.squads.filter fun p => p.2.hintAt.any fun h => decide (h + 10000 ≤ s.now)).foldl (fun s p => s.recompute p.1 p.2.joinBy) s

/-- One turn of the schedule. In the fatal state no cluster issues (R400).
(DESIGN CHOICE, log 1) -/
def State.turn (s : State) (t : Turn) : Sel :=
  match t with
  | .lane cl core => if s.fatal || !s.up then .done s else State.laneTurn { s with limit := none } cl core
  | .lanePart cl core n => if s.fatal || !s.up then .done s else State.laneTurn { s with limit := some n } cl core
  | .gen cl => if s.fatal || !s.up then .done s else s.genTurn cl
  | .event i x => if isWord i || i == .illegalLaneOpc || i == .illegalGenOpc then .done s else .run i { s with operand := x }
  | .tick cycles ns => .done (s.tick cycles ns).hintsDue
  | .memError line => .done { s with badLines := line :: s.badLines.filter (· != line) }
  | .regError q t r l => .done (s.modTeam q t fun tm => { tm with bad := (r, l) :: tm.bad })
  | .accError q h e =>
    .done (s.modSquad q fun sq => { sq with tiles := sq.tiles.map fun p => if p.1 = h then (p.1, { p.2 with bad := e :: p.2.bad }) else p })
  | .tileError q h l =>
    .done (s.modSquad q fun sq => { sq with tiles := sq.tiles.map fun p =>
      if p.1 = h then (p.1, { p.2 with lines := aset p.2.lines l { aget {} p.2.lines l with bad := true } }) else p })
  | .corrected cl => .done (s.modCluster cl fun c => { c with power := { c.power with errors := c.power.errors + 1 } })
  | .tlbDrop cl => .done (s.modCluster cl fun c => { c with tlb := [], cores := c.cores.map fun k => { k with tlb := [] } })
  | .l1Drop cl line => .done (s.modCluster cl fun c => { c with l1 := c.l1.filter fun p => p.1 / 4096 != line })

/-- The turns the model tries in order when the schedule is empty: bring-up, then every device step that state still owes, then the cores in
an order that rotates with the words retired.
(DESIGN CHOICE, log 1) -/
def State.autoTurns (s : State) : List Turn :=
  let two (q : Nat) (k : Nat) (is : List Instr) : List Turn := is.map fun i => .event i { a := q, b := k }
  let unit (u : UnitRef) : List Turn :=
    .event .huddleWaitEnd { unit := some u } :: (upTo 12).map fun k => .event .flagIdle { unit := some u, c := k }
  let units := s.squads.flatMap fun p =>
    (upTo p.2.ctxs.length).flatMap (fun c =>
      two p.1 c [.trapEntry, .stretchDeliver, .replayIteration, .contextWaitResume, .mwaitReread, .voteReadable, .playbookFill,
        .preemptContext, .preemptDeferTimeout]
        ++ unit (.ctx p.1 c))
    ++ (upTo p.2.teams.length).flatMap (fun t =>
      two p.1 t [.lineWaitResume, .matrixUnitStart, .giveReturn, .tfreeEffect, .tileStarvedTimeout, .teamEnd, .teamEvict] ++ unit (.team p.1 t))
    ++ two p.1 0 [.squadExit]
  let cls := (s.squads.map fun p => p.2.cluster).foldl (fun l c => if l.contains c then l else l ++ [c]) []
  let device := cls.flatMap (fun cl => (upTo 4).flatMap (fun k => two cl k [.claimGrant]) ++ two cl 0 [.copyStart, .exclLoad, .powerEvent, .undervoltStep, .undervoltLockoutEnd]
      ++ two cl 95 [.clampLift] ++ two cl 105 [.clampLift]
      ++ (s.cluster cl).miss.flatMap fun e => two cl e.line [.l1Fill])
    ++ s.copies.flatMap (fun p => two p.1 0 [.copyLineWrite, .copyComplete])
    ++ (upTo 3).flatMap (fun d => two d 0 [.faultRecord, .violationRecord, .shootdownComplete]
      ++ (s.die d).touches.map (fun t => .event .firstTouchService { a := d, b := t.owner, c := t.va })
      ++ ((s.die d).flist0 ++ (s.die d).flist1).flatMap (fun f => [.event .bullpenRefill { a := d, b := f.1 }, .event .bullpenRefill { a := d, b := f.1, c := 1 }])
      ++ two d 0 [.launchFrame, .taskPlace])
    ++ s.fabric.out.flatMap (fun r => two r.id 0 [.remoteRequest, .remoteResponse, .remoteTimeout])
    ++ (if s.fabric.held.isEmpty then [] else two 0 1 [.remoteRequest])
    ++ (if s.fabric.notices.isEmpty then [] else two 0 0 [.shootdownNotice])
    ++ two 0 0 [.probationTimeout]
    ++ s.tasks.flatMap (fun p => two p.1 0 [.taskReady, .specReady, .specValidate, .specCommit, .taskRetire, .lineupRise])
    ++ s.versions.flatMap (fun p => two p.1 0 [.versionFold])
    ++ s.seals.flatMap (fun p => two p.1 0 [.sealHashDone])
    ++ s.squads.flatMap (fun p => two p.1 0 [.quantumExpiry] ++ if p.2.hintAt.isSome then two p.1 0 [.opointRecompute] else [])
  let back (p : Nat × Squad) : List Turn :=
    (upTo p.2.ctxs.length).flatMap (fun c => two p.1 c [.contextRestore]) ++ (upTo p.2.teams.length).flatMap fun t => two p.1 t [.teamReturn]
  let calm (p : Nat × Squad) : Bool := !p.2.expired && !s.tasks.any fun t => t.2.phase == .ready && t.2.die == dieOf p.2.cluster
  let cores := cls.flatMap fun cl => Turn.gen cl :: (upTo 4).map fun k => Turn.lane cl k
  let k := if cores.isEmpty then 0 else s.free % cores.length
  (if s.up then [] else [.event .powerOn {}]) ++ units ++ device ++ (s.squads.filter calm).flatMap back
    ++ cores.drop k ++ cores.take k ++ s.squads.flatMap back

/-- The first turn of a list that changes the state, or the passing of one cycle.
(DESIGN CHOICE, log 1) -/
def firstEffective (run : Instr → State → Outcome State Fault Refusal) (s : State) : List Turn → Outcome State Fault Refusal
  | [] => .next (s.tick 1 1)
  | t :: ts =>
    let o := match s.turn t with
      | .run i s' => run i s'
      | .done s' => .next s'
    match o with
    | .next s' => if { s' with operand := s.operand, cur := s.cur, limit := s.limit } = s then firstEffective run s ts else .next s'
    | other => other

/-- One step of the package: the schedule's next turn, or an automatic one.
(DESIGN CHOICE, log 1) -/
def stepWith (run : Instr → State → Outcome State Fault Refusal) (s : State) : Outcome State Fault Refusal :=
  match s.schedule with
  | t :: ts =>
    match State.turn { s with schedule := ts } t with
    | .run i s' => run i s'
    | .done s' => .next s'
  | [] => firstEffective run s s.autoTurns

/-! ## Placing one word before the next step -/

/-- A clause header of one word with no flag, no wait and no stall.
(DESIGN CHOICE, log 9) -/
def plainHeader : DWord := 0x1000003800000000#64

/-- The physical address of generator code that `withFetchWord` uses, which is also its virtual address.
(DESIGN CHOICE, log 9) -/
def codeAddr : Nat := 0x4000

/-- A squad of one 16-lane team and one context, mid-clause at its next word, as `withFetchWord` installs it.
(DESIGN CHOICE, log 9) -/
def wordSquad (key : Nat) (lane : Option DWord) : Squad :=
  let tm := freshTeam 16 16 128 0 false (some (key, 0)) 0
  let cx := freshCtx 0 0 (BitVec.ofNat 64 codeAddr) 0 []
  { task := 0, instance_ := 0, cluster := 0, id := 0, native := false, legacy := false, gw := 16, lanes := 16
    teams := [match lane with
      | some w => { tm with clause := some ⟨plainHeader, 0⟩, buffer := [{ word := w, last := true }] }
      | none => tm]
    ctxs := [match lane with
      | some _ => cx
      | none => { cx with clause := some ⟨plainHeader, 0⟩ }] }

/-- The task of that squad: owner 1, one team of 16 lanes, running.
(DESIGN CHOICE, log 9) -/
def wordTask (key : Nat) : Task :=
  { id := 0, keyBase := key, die := 0, record := [BitVec.ofNat 64 codeAddr, 0, 0xF00000000#64, 0x100#64], phase := .running, placed := 1 }

/-- The package with owner 1's first 1 GiB mapped to the first 1 GiB of die 0.
(DESIGN CHOICE, log 9) -/
def State.withIdentityPage (s : State) : State :=
  let s := s.modDie 0 fun d => { d with roots := asetD 0 d.roots 1 0x1001#64 }
  let s := s.devWrite 1 0x1000 (toBytes 8 0x2001)
  let s := s.devWrite 1 0x2000 (toBytes 8 0x3001)
  s.devWrite 1 0x3000 (toBytes 8 (2 ^ 52 + 0xC73))

/-- The state with a word placed where the next step fetches it: in the stream buffer of a team for a lane opcode, at the PC of a context
otherwise; the schedule's next turn goes to that core.
(DESIGN CHOICE, log 9) -/
def State.placeWord (s : State) (w : DWord) : State :=
  let key := s.nextSquad
  let lane := decide (opcOf w < 0xA0)
  let s := { s with owners := aset s.owners 1 { num := 1, keyGen := 1 } }
  let s := if lane then s else s.withIdentityPage.devWrite 1 codeAddr (toBytes 8 w.toNat)
  let s := s.modDie 0 fun d => { d with admitted := d.admitted + 1 }
  { s with
    up := true, fatal := false
    squads := aset s.squads key (wordSquad key (if lane then some w else none))
    nextSquad := key + 1
    tasks := aset s.tasks 0 (wordTask key)
    schedule := [if lane then Turn.lane 0 0 else .gen 0] }

end Sys2Proof.Machine
end

