-- ==== Sys2Proof/Machine/LaneTeam.lean ====
section
/-! DEFINITION. The team words (05_lane_alu.md R121 to R129): votes into the owning context's queue (R236, R237), FMTR, register claims and
returns (08_core_tiles_sched.md R198, R199), TRAP and LBRK, WSET, and LFENCE. -/

namespace Sys2Proof.Machine

open Host (Outcome)

/-! ## Votes -/

/-- The record a team pushes (R123).
(DEDUCED, log 71) -/
def voteRecord (t : Nat) (kind tag : Nat) (m0 mA : Mask) : DWord :=
  let tt := m0 &&& mA
  let first := if kind = 3 then (lowLane tt).getD 0x3FF else 0x3FF
  let count := if kind = 2 then popN 1024 tt.toNat else 0
  BitVec.ofNat 64 (tag * 2 ^ 48 + t * 2 ^ 28 + first * 2 ^ 18 + b2n (m0 &&& ~~~mA == 0) * 2 ^ 17 + b2n (tt != 0) * 2 ^ 16 + count)

/-- The entries of a context's vote queue in use (R236).
(DEDUCED, log 71) -/
def Ctx.voteEntries (cx : Ctx) : Nat := cx.votes.length + (cx.partials.filter (·.entry)).length

/-- The merged record of a vote (R236): `first` tells that its kind is FIRST.
(DEDUCED, log 71) -/
def mergeVotes (parts : List VotePart) (first : Bool) : DWord :=
  let rs := parts.map (·.rec_)
  let tag := field64 (rs.headD 0) 48 16
  let count := min ((rs.map fun r => field64 r 0 16).sum) 0xFFFF
  let any := rs.any fun r => r.getLsbD 16
  let all := rs.all fun r => r.getLsbD 17
  let f := if first then rs.find? fun r => r.getLsbD 16 else none
  let fl := match f with
    | some r => field64 r 18 10
    | none => 0x3FF
  let ti := match f with
    | some r => field64 r 28 8
    | none => 0xFF
  BitVec.ofNat 64 (tag * 2 ^ 48 + ti * 2 ^ 28 + fl * 2 ^ 18 + b2n all * 2 ^ 17 + b2n any * 2 ^ 16 + count)

/-- The die boundaries between two resident squads: 0 or 1 (R237). -/
def State.dieHops (s : State) (q1 q2 : Nat) : Nat :=
  match s.squad q1, s.squad q2 with
  | some a, some b => b2n (dieOf a.cluster != dieOf b.cluster)
  | _, _ => 0

/-- A complete record enters the queue with the bounds of R237, counted from the retirement of the VOTE, `delay` cycles from now (R88, R446).
(DEDUCED, log 71) -/
def State.pushVote (s : State) (oq oc : Nat) (r : DWord) (h delay : Nat) (squads : List Nat) : State :=
  let cyc := s.cycleOf oq + delay
  s.modCtx oq oc fun cx => { cx with votes := cx.votes ++ [{ rec_ := r, lower := cyc + 24 + 20 * h, upper := cyc + 48 + 20 * h, squads := squads }] }

/-- A team's contribution to its owning context's vote path when its VOTE retires: none when the word must wait for an entry. A record
for a context that has exited is discarded (R221). -/
def State.vote (s : State) (q t : Nat) (tm : Team) (kind : Nat) (r : DWord) (delay : Nat) : Option State :=
  match tm.owner with
  | none => some s
  | some (oq, oc) =>
    match s.ctx oq oc with
    | none => some s
    | some cx =>
      if cx.exited then some s
      else match tm.buffer.head?.bind (·.merge) with
        | none => if 64 ≤ cx.voteEntries then none else some (s.pushVote oq oc r (s.dieHops oq q) delay [q])
        | some serial =>
          match cx.partials.find? fun p => p.serial == serial with
          | none => some s
          | some p =>
            if !p.entry && decide (64 ≤ cx.voteEntries) then none
            else
              let parts := p.parts ++ [⟨q, t, r⟩]
              let p' := { p with parts := parts, entry := true, first := kind == 3 }
              if p.dests.all fun d => parts.any fun x => x.q == d.1 && x.t == d.2 then
                let ordered := p.dests.filterMap fun d => parts.find? fun x => x.q == d.1 && x.t == d.2
                let h := (ordered.map fun x => s.dieHops oq x.q).foldl max 0
                let s := s.modCtx oq oc fun cx => { cx with partials := cx.partials.filter fun x => x.serial != serial }
                some (s.pushVote oq oc (mergeVotes ordered p'.first) h delay (ordered.map (·.q)))
              else
                some (s.modCtx oq oc fun cx => { cx with partials := cx.partials.map fun x => if x.serial = serial then p' else x })

/-- The teams that wait for an entry of a context's vote queue execute their VOTE again (R236).
(DESIGN CHOICE, log 39) -/
def State.wakeVoters (s : State) (q c : Nat) : State :=
  { s with squads := s.squads.map fun p => (p.1, { p.2 with
      teams := p.2.teams.map fun tm => if tm.owner = some (q, c) ∧ tm.wait = some .vote then { tm with wait := none } else tm }) }

/-- VOTE (R122). -/
def execVote (w : LI) (s : State) : Outcome State Fault Refusal :=
  laneRun (.vote w) w.ms (fun x =>
    let kind := fieldN w.imm.toNat 16 2
    let p := passesOf x.tm (.vote w) x.m
    let delay := if x.tm.started.isSome then 0 else max p.1 p.2 - 1
    match x.s.vote x.q x.t x.tm kind (voteRecord x.t kind (fieldN w.imm.toNat 0 16) (x.tm.m 0) (x.tm.m w.a.toNat)) delay with
    | some s' => .done s'
    | none => .wait .vote x.s) s

/-! ## FMTR, TRAP, LBRK, WSET, LFENCE -/

/-- SETFMT (R124). -/
def execSetfmt (w : LI) (s : State) : Outcome State Fault Refusal :=
  laneRun (.setfmt w) w.ms (fun x => x.finish { x.tm with fmtr := w.imm }) s

/-- The system-call record of TRAP (R126).
(DEDUCED, log 68) -/
def LaneIn.sysRecord (x : LaneIn) (imm : BitVec 32) (l : Nat) : List Byte :=
  toBytes 4 imm.toNat ++ toBytes 4 x.sq.instance_ ++ toBytes 2 l ++ toBytes 1 x.t ++ toBytes 1 (x.sq.cluster % 44)
    ++ toBytes 6 x.tm.pos.toNat ++ toBytes 2 0
    ++ ((upTo 8).flatMap fun r => toBytes 4 (if r < x.tm.n then (x.rd.V l r).toNat else 0)) ++ List.replicate 12 0

/-- TRAP (R126): the record goes into the owner's designated ring before the trap pends, and the word waits while that ring is full
(R405); with no designated ring no record is written. In an uncommitted speculative task the word waits (R385).
(DEDUCED, log 68) -/
def execTrapw (w : LI) (s : State) : Outcome State Fault Refusal :=
  laneRun (.trapw w) w.ms (fun x =>
    match lowLane x.m with
    | none => .done x.s
    | some l =>
      if x.s.speculative x.sq then .wait .spec x.s
      else
        let o := x.s.ownerOf x.sq
        match aget? x.s.owners o with
        | none => .park .userTrap [] x.m [] x.s
        | some ow =>
          match ow.ringConn with
          | none => .park .userTrap [] x.m [] x.s
          | some c =>
            if ow.ringCap ≤ ow.ringUsed then .wait .ring x.s
            else match x.tm.badAt (runRegs 0 (min 8 x.tm.n)) (maskOf [l]) with
              | some (r, l) => x.uncorrectable x.m (badInfo [] r l) x.s
              | none =>
                let s := { x.s with owners := aset x.s.owners o { ow with ringUsed := ow.ringUsed + 1 } }
                .park .userTrap [] x.m [] (s.send c 7 (x.sysRecord w.imm l))) s

/-- LBRK (R127). -/
def execLbrk (w : LI) (s : State) : Outcome State Fault Refusal :=
  laneRun (.lbrk w) w.ms (fun x =>
    if x.m = 0 then .done x.s else x.trap .breakTrap [BitVec.ofNat 64 (fieldN w.imm.toNat 0 16), 0, 0, 0]) s

/-- WSET (R128): only a word with the system-origin side-band loads a window. -/
def execWset (w : LI) (s : State) : Outcome State Fault Refusal :=
  laneRun (.wset w) w.ms (fun x =>
    match x.tm.buffer.head?.bind (·.sys) with
    | some win => x.finish { x.tm with win := aset x.tm.win (fieldN w.d.toNat 0 3) win }
    | none => x.trap .privWord []) s

/-- LFENCE (R129, R334): an acquire wider than the cluster leaves no copy in the cluster's L1 that is older than it (R339).
(DEDUCED, log 55) -/
def execLfence (w : LM) (s : State) : Outcome State Fault Refusal :=
  laneRun (.lfence w) w.ms (fun x =>
    .done (if wideAcq w.ord.toNat w.scope.toNat then x.s.l1Clear x.sq.cluster else x.s)) s

/-! ## Register claims (R125, R198 to R200) -/

/-- The passes of a team that run on lane core `k` (R91). -/
def Team.passesOn (tm : Team) (k : Nat) : Nat :=
  let p := (tm.lanes + 31) / 32
  if !tm.pair then p else if tm.core = k then min p 16 else p - 16

/-- The register count of the CLAIM or GIVE at the head of a team's buffer. -/
def Team.claimAmount (tm : Team) : Nat := field64 ((tm.buffer.head?.map (·.word)).getD 0) 0 32

/-- The lane cores a team runs on (R91). -/
def Team.cores (tm : Team) : List Nat := if tm.pair then [tm.core, tm.core + 1] else [tm.core]

/-- Granules of a lane core in use (R198): a team's registers, which an ended team holds until its squad exits (R200, R299), and the half of a claim that
this core has granted already (R199). -/
def State.granules (s : State) (cl k : Nat) : Nat :=
  ((s.teamsOn cl k).map fun x =>
    let tm := x.2.2.2
    if tm.evicted then 0
    else
      let waiting := (((s.cluster cl).cores[k]?).map (·.claims)).getD []
      let half := if tm.wait == some .claim && !waiting.contains (x.1, x.2.1) then tm.claimAmount else 0
      tm.passesOn k * (tm.n + half) / 8).sum

/-- A completed word at the head of team (q, t), which waited and whose effect a device step has now brought about, retires. -/
def State.retireHead (s : State) (q t : Nat) : State :=
  match s.squad q, s.team q t with
  | some sq, some tm => s.retire q t sq tm (laneInstr ((tm.buffer.head?.map (·.word)).getD 0)) (BitVec.allOnes 1024)
  | _, _ => s

/-- The head claim of a lane core is granted when its granules are free (R198): the team holds them on this core, and the CLAIM completes
once every core of the team has granted. -/
def State.grant (s : State) (cl k : Nat) : State :=
  match (((s.cluster cl).cores[k]?).map (·.claims)).getD [] with
  | [] => s
  | (q, t) :: rest =>
    match s.team q t with
    | none => s.modCore cl k fun c => { c with claims := rest }
    | some tm =>
      if s.granules cl k + tm.passesOn k * tm.claimAmount / 8 ≤ 512 then
        let s := s.modCore cl k fun c => { c with claims := rest }
        if tm.cores.any fun j => ((((s.cluster cl).cores[j]?).map (·.claims)).getD []).contains (q, t) then s
        else (s.retireHead q t).modTeam q t fun m => { m with n := m.n + tm.claimAmount }
      else s

/-- A claim of team (q, t) stands in the line of a core in the order in which the claims issued (R198, R206). -/
def State.joinClaims (s : State) (cl k q t n : Nat) : State :=
  let before (p : Nat × Nat) : Bool := (s.team p.1 p.2).any fun tm => decide (tm.claimAt < n)
  s.modCore cl k fun c => { c with claims := c.claims.takeWhile before ++ (q, t) :: c.claims.dropWhile before }

/-- CLAIM (R125): the claim joins the line of each of the team's cores; it completes now when every core can grant it now. -/
def execClaim (w : LI) (s : State) : Outcome State Fault Refusal :=
  laneRun (.claim w) w.ms (fun x =>
    let cl := x.sq.cluster
    let n := w.imm.toNat
    let free (k : Nat) : Bool :=
      ((((x.s.cluster cl).cores[k]?).map (·.claims)).getD []).isEmpty && decide (x.s.granules cl k + x.tm.passesOn k * n / 8 ≤ 512)
    if x.tm.cores.all free then x.finish { x.tm with n := x.tm.n + n }
    else
      let n := x.s.serial + 1
      let s := { x.s with serial := n }.modTeam x.q x.t fun tm => { tm with claimAt := n }
      .wait .claim (x.tm.cores.foldl (fun s k => if free k then s else s.joinClaims cl k x.q x.t n) s)) s

/-- The registers from `c` on are lost (R125). A hazard of R25 on one of them, which a native-mode word may have left, is not: for its two issue slots
a register claimed again may read as before the write.
(DESIGN CHOICE, log 87) -/
def Team.dropRegs (tm : Team) (c : Nat) : Team :=
  { tm with n := c, v := tm.v.filter fun p => decide (p.1 < c), bad := tm.bad.filter fun b => decide (b.1 < c) }

/-- GIVE (R125). -/
def execGive (w : LI) (s : State) : Outcome State Fault Refusal :=
  laneRun (.give w) w.ms (fun x =>
    if x.tm.busy = 0 then x.finish (x.tm.dropRegs (x.tm.n - w.imm.toNat)) else .wait .give x.s) s

/-- CLAIM_GRANT (R198): lane core b of cluster a grants its head claim. -/
def evClaimGrant (s : State) : Outcome State Fault Refusal := .next (s.grant s.operand.a s.operand.b)

/-- GIVE_RETURN (R125): a waiting GIVE of team (a, b) completes once every flag of the team is idle. -/
def evGiveReturn (s : State) : Outcome State Fault Refusal :=
  let q := s.operand.a
  let t := s.operand.b
  match s.team q t with
  | some tm =>
    if tm.wait = some .give ∧ tm.busy = 0 then .next ((s.retireHead q t).modTeam q t fun m => m.dropRegs (tm.n - tm.claimAmount)) else .next s
  | none => .next s

end Sys2Proof.Machine
end

