-- ==== Sys2Proof/Machine/Huddle.lean ====
section
/-! DEFINITION. Huddles (06_lane_memory.md R156 to R161; 10_cluster_engines.md R265): the huddle words of teams and contexts, and the end
of their waits. -/

namespace Sys2Proof.Machine

open Host (Outcome)

/-! ## Huddle state (R157 to R159) -/

/-- The completion test of R157. -/
def Huddle.check (h : Huddle) : Huddle :=
  if h.arr = h.exp ∧ h.exp ≠ 0 ∧ h.owed = 0 then { h with ph := (h.ph + 1) % 2 ^ 32, arr := 0 } else h

/-- arrive(h, n) of R158: none for HUDDLE_MISMATCH, which changes no huddle state. The tracked phase is the PH before any completion. -/
def Huddle.arrive (h : Huddle) (n : Nat) : Option Huddle :=
  let exp := if n ≠ 0 ∧ h.arr = 0 then n else h.exp
  if n ≠ 0 ∧ h.arr ≠ 0 ∧ n ≠ h.exp then none
  else if exp = 0 ∨ h.arr = exp then none
  else some ({ h with exp := exp, arr := h.arr + 1 } : Huddle).check

/-- HEXPECT's change of OWED (R159): none outside its range. -/
def Huddle.expect (h : Huddle) (n : Int) : Option Huddle :=
  let o := h.owed + n
  if o < -32768 ∨ 32767 < o then none else some ({ h with owed := o } : Huddle).check

/-- A completed copy decreases OWED (R159, R253): none when the count would fall below its range. -/
def Huddle.paid (h : Huddle) : Option Huddle := h.expect (-1)

/-- Huddle `h` of a squad. -/
def Squad.huddle (sq : Squad) (h : Nat) : Huddle := aget {} sq.huddles h

/-- Sets huddle `h` of the squad of key `q`. -/
def State.setHuddle (s : State) (q h : Nat) (x : Huddle) : State :=
  s.modSquad q fun sq => { sq with huddles := asetD {} sq.huddles h x }

/-! ## Team words -/

/-- The huddle that a team's word names. -/
def liHuddle (w : LI) : Nat := fieldN w.imm.toNat 0 4

/-- The huddle word of a team traps with the unfinished-lane mask m0 (R158). -/
def LaneIn.mismatch (x : LaneIn) : LaneRes := .park .huddleMismatch [] (x.tm.m 0) [] x.s

/-- The team with its tracked phase of a huddle. -/
def Team.setTp (tm : Team) (h p : Nat) : Team := { tm with tp := asetD 0 tm.tp h p }

/-- HARRIVE (R158). -/
def execHarrive (w : LI) (s : State) : Outcome State Fault Refusal :=
  laneRun (.harrive w) w.ms (fun x =>
    let h := liHuddle w
    let hd := x.sq.huddle h
    match hd.arrive (fieldN w.imm.toNat 16 16) with
    | none => x.mismatch
    | some hd' => .done ((x.s.setHuddle x.q h hd').modTeam x.q x.t fun tm => tm.setTp h hd.ph)) s

/-- HSYNC (R158): the arrival happens once; when it completes the phase the wait ends at once, and otherwise HUDDLE_WAIT_END ends it. -/
def execHsync (w : LI) (s : State) : Outcome State Fault Refusal :=
  laneRun (.hsync w) w.ms (fun x =>
    let h := liHuddle w
    let hd := x.sq.huddle h
    match hd.arrive (fieldN w.imm.toNat 16 16) with
    | none => x.mismatch
    | some hd' =>
      let s := x.s.setHuddle x.q h hd'
      if hd'.ph = hd.ph then .wait (.huddle h) (s.modTeam x.q x.t fun tm => tm.setTp h hd.ph)
      else .done (s.modTeam x.q x.t fun tm => tm.setTp h hd'.ph)) s

/-- HWAIT (R158, R160). -/
def execHwait (w : LI) (s : State) : Outcome State Fault Refusal :=
  laneRun (.hwait w) w.ms (fun x =>
    let h := liHuddle w
    let hd := x.sq.huddle h
    if hd.ph = aget 0 x.tm.tp h then .wait (.huddle h) x.s else x.finish (x.tm.setTp h hd.ph)) s

/-- HEXPECT (R159). -/
def execHexpect (w : LI) (s : State) : Outcome State Fault Refusal :=
  laneRun (.hexpect w) w.ms (fun x =>
    let h := liHuddle w
    match (x.sq.huddle h).expect (signed (fieldN w.imm.toNat 16 16) 16) with
    | none => x.mismatch
    | some hd => .done (x.s.setHuddle x.q h hd)) s

/-! ## Context words (R265) -/

/-- The context with its tracked phase of a huddle. -/
def Ctx.setTp (cx : Ctx) (h p : Nat) : Ctx := { cx with tp := asetD 0 cx.tp h p }

/-- The huddle that a context's word names. -/
def grHuddle (w : GR) : Nat := fieldN w.fn.toNat 0 4

/-- HUDDLE_MISMATCH of a context's word. -/
def GenIn.mismatch (x : GenIn) (h exp n : Nat) : GenRes :=
  .trap .huddleMismatch [BitVec.ofNat 64 h, BitVec.ofNat 64 exp, BitVec.ofNat 64 n, 0] x.s

/-- GHARRIVE (R265). -/
def execGharrive (w : GR) (s : State) : Outcome State Fault Refusal :=
  genRun (.gharrive w) w.cnd (fun x =>
    let h := grHuddle w
    let hd := x.sq.huddle h
    match hd.arrive w.imm.toNat with
    | none => x.mismatch h hd.exp w.imm.toNat
    | some hd' => .done ((x.s.setHuddle x.q h hd').modCtx x.q x.c fun cx => cx.setTp h hd.ph)) s

/-- GHSYNC (R265): the arrival happens once, and a word that a trap or a pre-emption abandoned goes on waiting. -/
def execGhsync (w : GR) (s : State) : Outcome State Fault Refusal :=
  genRun (.ghsync w) w.cnd (fun x =>
    let h := grHuddle w
    let hd := x.sq.huddle h
    if x.cx.arrived = some x.cx.pc.toNat then
      if hd.ph = aget 0 x.cx.tp h then .wait (.huddle h) x.s
      else x.finish { x.cx.setTp h hd.ph with arrived := none }
    else match hd.arrive w.imm.toNat with
      | none => x.mismatch h hd.exp w.imm.toNat
      | some hd' =>
        let s := x.s.setHuddle x.q h hd'
        if hd'.ph = hd.ph then
          .wait (.huddle h) (s.modCtx x.q x.c fun cx => { cx.setTp h hd.ph with arrived := some cx.pc.toNat })
        else .done (s.modCtx x.q x.c fun cx => cx.setTp h hd'.ph)) s

/-! ## The end of a wait -/

/-- The word at a context's PC, which is no long-latency word, waited, and its effect has now been brought about: it retires. -/
def State.genDone (s : State) (q c : Nat) (i : Instr) : State :=
  match s.squad q, s.ctx q c with
  | some sq, some cx => s.genRetire q c sq cx i Ctx.advance
  | _, _ => s

/-- HUDDLE_WAIT_END (R158, R265): the unit `operand.unit` goes on once its huddle's phase has moved past the one it tracks.
(DESIGN CHOICE, log 39) -/
def evHuddleWaitEnd (s : State) : Outcome State Fault Refusal :=
  match s.operand.unit with
  | some (.team q t) =>
    match s.squad q, s.team q t with
    | some sq, some tm =>
      match tm.wait with
      | some (.huddle h) =>
        let p := (sq.huddle h).ph
        if p = aget 0 tm.tp h ∨ tm.evicted then .next s
        else .next ((s.retireHead q t).modTeam q t fun tm => tm.setTp h p)
      | _ => .next s
    | _, _ => .next s
  | some (.ctx q c) =>
    match s.squad q, s.ctx q c with
    | some sq, some cx =>
      match cx.wait with
      | some (.huddle h) =>
        let p := (sq.huddle h).ph
        if p = aget 0 cx.tp h ∨ cx.preempted then .next s
        else .next ((s.modCtx q c fun cx => { cx.setTp h p with arrived := none, wait := none }).genDone q c .illegalGenOpc)
      | _ => .next s
    | _, _ => .next s
  | none => .next s

end Sys2Proof.Machine
end

