-- ==== Sys2Proof/Machine/Approx.lean ====
section
/-! DEFINITION. The approximating functions of R107: their special and exact cases, and, where only a bound is stated, the value that
`Config.approxBits` gives whenever it lies within the bound of a fixed-point reference, and otherwise the reference itself. -/

namespace Sys2Proof.Machine

/-- The functions of R107. -/
inductive ApproxFn where
  | rcp | rsq | exp2 | log2 | tanh | sin | cos
deriving DecidableEq, Repr

/-- A number for each function, to tell their open values apart. -/
def ApproxFn.code : ApproxFn → Nat
  | .rcp => 0 | .rsq => 1 | .exp2 => 2 | .log2 => 3 | .tanh => 4 | .sin => 5 | .cos => 6

/-! ## Fixed-point references: integers in units of 2^−80 -/

/-- One in fixed point. -/
def fxOne : Int := 2 ^ 80
/-- The product of two fixed-point numbers. -/
def fxMul (a b : Int) : Int := (a * b) >>> 80
/-- The quotient of two fixed-point numbers. -/
def fxDiv (a b : Int) : Int := if b = 0 then 0 else (a <<< 80) / b
/-- ln 2 in fixed point. -/
def fxLn2 : Int := 837963523372001241319907
/-- π in fixed point. -/
def fxPi : Int := 3797952473636338580787993
/-- log2 e in fixed point. -/
def fxLog2e : Int := 1744111284760651037637903

/-- A dyadic number in fixed point, cut towards minus infinity. -/
def Dy.toFx (a : Dy) : Int := let k := a.e + 80; if 0 ≤ k then a.m * (2 ^ k.toNat : Nat) else a.m >>> (-k).toNat

/-- The sum of `n` terms of the exponential series from a term on. -/
def expSeries (x : Int) : Nat → Nat → Int → Int
  | 0, _, _ => 0
  | n + 1, k, term => term + expSeries x n (k + 1) (fxMul term x / (k : Int))

/-- 2^f for a fixed-point f in [0, 1). -/
def fxExp2Frac (f : Int) : Int := expSeries (fxMul f fxLn2) 30 1 fxOne

/-- 2^x for a fixed-point x, as a dyadic number. -/
def fxExp2 (x : Int) : Dy :=
  let n := x >>> 80
  ⟨fxExp2Frac (x - n * fxOne), n - 80⟩

/-- The fraction bits of log2 of a fixed-point number in [1, 2), by repeated squaring. -/
def log2Bits : Nat → Int → Int → Int
  | 0, _, acc => acc
  | n + 1, v, acc =>
    let q := fxMul v v
    if 2 * fxOne ≤ q then log2Bits n (q / 2) (2 * acc + 1) else log2Bits n q (2 * acc)

/-- log2 of m × 2^e in units of 2^−60. -/
def log2Of (m : Nat) (e : Int) : Dy :=
  let k := Nat.log2 m
  let v : Int := (⟨(m : Int), -(k : Int)⟩ : Dy).toFx
  ⟨((k : Int) + e) * (2 ^ 60 : Nat) + log2Bits 60 v 0, -60⟩

/-- The alternating series of sine (from x) or cosine (from 1). -/
def trigSeries (x2 : Int) : Nat → Nat → Int → Int
  | 0, _, _ => 0
  | n + 1, k, term => term - trigSeries x2 n (k + 2) (fxMul term x2 / ((k : Int) * ((k : Int) + 1)))

/-- sin(π r) for a fixed-point r in [0, 1/2]. -/
def fxSinHalf (r : Int) : Int := let x := fxMul r fxPi; trigSeries (fxMul x x) 16 2 x

/-- sin(π r) for a fixed-point r, by its period and symmetries. -/
def fxSin (r : Int) : Int :=
  let r := r % (2 * fxOne)
  let (neg, r) := if fxOne ≤ r then (true, r - fxOne) else (false, r)
  let r := if fxOne < 2 * r then fxOne - r else r
  if neg then -(fxSinHalf r) else fxSinHalf r

/-- tanh of a fixed-point x of magnitude below 40. -/
def fxTanh (x : Int) : Int :=
  let a := if x < 0 then -x else x
  let e := fxExp2 (fxMul (2 * a) fxLog2e)
  let v := e.toFx
  let t := fxDiv (v - fxOne) (v + fxOne)
  if x < 0 then -t else t

/-- The reference value of a function at ± m × 2^e.
(DESIGN CHOICE, log 5) -/
def ApproxFn.ref (f : ApproxFn) (s : Bool) (m : Nat) (e : Int) : Dy :=
  let x : Dy := ⟨if s then -(m : Int) else m, e⟩
  match f with
  | .rcp => (xdiv (.fin false 1 0) (.fin s m e)).1.toDy
  | .rsq => (xdiv (.fin false 1 0) (xsqrt (.fin false m e)).1).1.toDy
  | .exp2 => fxExp2 x.toFx
  | .log2 => log2Of m e
  | .tanh => if 5 < flog2 m e then ⟨if s then -1 else 1, 0⟩ else ⟨fxTanh x.toFx, -80⟩
  | .sin => ⟨fxSin x.toFx, -80⟩
  | .cos => ⟨fxSin (x.toFx + fxOne / 2), -80⟩

/-- The absolute error R107 allows around a reference value for the input ± m × 2^e.
(DESIGN CHOICE, log 5) -/
def ApproxFn.bound (f : ApproxFn) (m : Nat) (e : Int) (r : Dy) : Dy :=
  match f with
  | .rcp | .rsq => ⟨(r.m.natAbs : Int), r.e - 14⟩
  | .exp2 => ⟨(r.m.natAbs : Int), r.e - 21⟩
  | .log2 => if magCmp m e 1 (-1) != .lt && magCmp m e 2 0 != .gt then ⟨1, -21⟩ else ⟨(r.m.natAbs : Int), r.e - 21⟩
  | .tanh | .sin | .cos => ⟨1, -20⟩

/-- |c − r| ≤ b, exactly.
(DESIGN CHOICE, log 5) -/
def withinDy (c r b : Dy) : Bool :=
  let d := c.add ⟨-r.m, r.e⟩
  let g := (⟨(d.m.natAbs : Int), d.e⟩ : Dy).add ⟨-b.m, b.e⟩
  decide (g.m ≤ 0)

/-- An F32 result of FEXP2 below the normal range, for which R107 states no bound: what rounding under RND makes of a value within the bound of
2^a, as R65 has it underflow.
(DESIGN CHOICE, log 5) -/
def tinyExp2 (r : Dy) (rnd : Rnd) (code : Nat) : Bool :=
  let edge (k : Int) : Nat := (roundTo .f32 ((⟨r.m * (2 ^ 21 + k), r.e - 21⟩ : Dy).toX false) rnd .inf).code
  decide (edge (-1) ≤ code) && decide (code ≤ edge 1)

/-- The approximated value: the open F32 value within the bound, or the reference; `rnd` is the rounding mode of an F32 word.
(DESIGN CHOICE, log 5) -/
def ApproxFn.value (f : ApproxFn) (rnd : Option Rnd) (bits ctr : Nat) (s : Bool) (m : Nat) (e : Int) : XVal :=
  let r := f.ref s m e
  let code := Config.approxBits f.code bits ctr % 2 ^ 32
  let c := NumTy.f32.decode code
  let tiny : Bool := match rnd with
    | some rnd => f == .exp2 && decide (flog2 r.m.natAbs r.e < -126) && tinyExp2 r rnd code
    | none => false
  match c with
  | .fin _ _ _ => if withinDy c.toDy r (f.bound m e r) || tiny then c else r.toX s
  | .zero _ => if withinDy ⟨0, 0⟩ r (f.bound m e r) || tiny then c else r.toX s
  | _ => r.toX s

/-- ± m × 2^e is a power of two. -/
def pow2Of (m : Nat) : Bool := decide (m = 2 ^ Nat.log2 m)

/-- A finite value times two is an integer. -/
def halfInt (m : Nat) (e : Int) : Bool := !inexactShift m (-(e + 1))

/-- The exact cases and special values of R107: the value and its flags, or none where only the bound is stated. `fits` tells that an exact
reciprocal is representable in the word's type.
(DESIGN CHOICE, log 5) -/
def ApproxFn.exact (f : ApproxFn) (x : XVal) (fits : XVal → Bool) : Option (XVal × Flags5) :=
  match f, x with
  | _, .nan sg => some (.nan false, fIf sg fIV)
  | .rcp, .zero s => some (.inf s, fDZ)
  | .rcp, .inf s => some (.zero s, 0)
  | .rcp, .fin s m e =>
    let v := XVal.fin s 1 (-(e + Nat.log2 m))
    if pow2Of m && fits v then some (v, 0) else none
  | .rsq, .zero s => some (.inf s, fDZ)
  | .rsq, .inf s => if s then some (.nan false, fIV) else some (.zero false, 0)
  | .rsq, .fin s m e =>
    let k := e + Nat.log2 m
    if s then some (.nan false, fIV)
    else if pow2Of m && k % 2 == 0 then some (.fin false 1 (-(k / 2)), 0) else none
  | .exp2, .zero _ => some (.fin false 1 0, 0)
  | .exp2, .inf s => some (if s then .zero false else .inf false, 0)
  | .exp2, .fin s m e =>
    if !inexactShift m (-e) then
      let k := min (roundShift .tz s m (-(min e 12))) 4096
      some (.fin false 1 (if s then -(k : Int) else k), 0)
    else none
  | .log2, .zero _ => some (.inf true, fDZ)
  | .log2, .inf s => if s then some (.nan false, fIV) else some (.inf false, 0)
  | .log2, .fin s m e =>
    if s then some (.nan false, fIV)
    else if pow2Of m then some (XVal.ofInt (e + Nat.log2 m), 0) else none
  | .tanh, .zero s => some (.zero s, 0)
  | .tanh, .inf s => some (.fin s 1 0, 0)
  | .tanh, .fin _ _ _ => none
  | .sin, .zero s => some (.zero s, 0)
  | .sin, .inf _ => some (.nan false, fIV)
  | .sin, .fin s m e =>
    if !halfInt m e then none
    else
      -- twice the value, modulo 4
      let h := roundShift .tz s m (-(min (e + 1) 2)) % 4
      let v := if s then (4 - h) % 4 else h
      some (if v = 0 ∨ v = 2 then .zero s else .fin (v = 3) 1 0, 0)
  | .cos, .zero _ => some (.fin false 1 0, 0)
  | .cos, .inf _ => some (.nan false, fIV)
  | .cos, .fin s m e =>
    if !halfInt m e then none
    else
      let v := roundShift .tz s m (-(min (e + 1) 2)) % 4
      some (if v = 1 ∨ v = 3 then .zero false else .fin (v = 2) 1 0, 0)

/-- The result of an approximating instruction of type `t` on an element code (R107): an exact case rounds as any exact value; every other
result is rounded once and sets NX. An overflow to infinity of FRCP follows R66, and FEXP2 underflows where the exact result does (R65). Of the other
functions, whose underflow R107 does not name, a result sets UF where its rounding to the word's type does: the reference's, or an F32 value's to F16 or BF16.
(DESIGN CHOICE, log 5) -/
def ApproxFn.apply (f : ApproxFn) (t : NumTy) (rnd : Rnd) (ovf : Ovf) (ctr c : Nat) : Rounded :=
  let x := t.decode c
  let fits (v : XVal) : Bool := let r := roundTo t v .tz .sat; r.flags == 0
  match f.exact x fits with
  | some (v, fl) =>
    let r := roundTo t v rnd ovf
    { r with flags := if r.trap then 0 else r.flags ||| fl }
  | none =>
    match x with
    | .fin s m e =>
      let r := roundTo t (f.value (if t = .f32 then some rnd else none) ((t.image32 c).toNat) ctr s m e) rnd ovf
      let under := f == .exp2 && (roundTo t ((f.ref s m e).toX false) rnd ovf).flags &&& fUF != 0
      { r with flags := if r.trap then 0 else r.flags ||| fNX ||| fIf under fUF }
    | _ => ⟨0, 0, false⟩

end Sys2Proof.Machine
end

