-- ==== Sys2Proof/Machine/LaneFloat.lean ====
section
/-! DEFINITION. The floating-point and conversion lane words (05_lane_alu.md R104 to R114). -/

namespace Sys2Proof.Machine

open Host (Outcome)

/-- An exact value with its flags, rounded into a type (R65, R73). -/
def roundX (t : NumTy) (rnd : Rnd) (ovf : Ovf) (v : XVal × Flags5) : Rounded :=
  let r := roundTo t v.1 rnd ovf
  { r with flags := if r.trap then 0 else r.flags ||| v.2 }

/-- The decoded value of an operand of a float word. -/
def LaneIn.opX (x : LaneIn) (t : NumTy) (l f : Nat) : XVal := t.decode (x.opTy t l f)

/-- A rounded float word of one operand. -/
def LaneIn.flt1 (x : LaneIn) (w : LR) (f : Rnd → XVal → XVal × Flags5) : LaneRes :=
  let t := x.ty w.ty
  let rnd := x.rnd w.ty w.ex
  x.rounded t w.d.toNat fun l => roundX t rnd (x.ovf w.ty w.ex) (f rnd (x.opX t l w.a.toNat))

/-- A rounded float word of two operands. -/
def LaneIn.flt2 (x : LaneIn) (w : LR) (f : Rnd → XVal → XVal → XVal × Flags5) : LaneRes :=
  let t := x.ty w.ty
  let rnd := x.rnd w.ty w.ex
  x.rounded t w.d.toNat fun l => roundX t rnd (x.ovf w.ty w.ex) (f rnd (x.opX t l w.a.toNat) (x.opX t l w.b.toNat))

/-- minimumNumber or maximumNumber on two codes (R106): −0 is less than +0, and a NaN gives way. -/
def fminmax (t : NumTy) (max : Bool) (a b : Nat) : Nat × Flags5 :=
  let x := t.decode a
  let y := t.decode b
  let fl := fIf (x.isSnan || y.isSnan) fIV
  let less := match x.cmp y with
    | .lt => true
    | .gt => false
    | .eq => x.neg && !y.neg
  let r :=
    if x.isNan && y.isNan then ((t.fmt.map FFmt.nanCode).getD 0)
    else if x.isNan then b
    else if y.isNan then a
    else if less != max then a else b
  (r, fl)

/-- FMIN and FMAX. -/
def LaneIn.minmax (x : LaneIn) (w : LR) (max : Bool) : LaneRes :=
  let t := x.ty w.ty
  x.rounded t w.d.toNat fun l =>
    let (c, f) := fminmax t max (x.opTy t l w.a.toNat) (x.opTy t l w.b.toNat)
    ⟨c, f, false⟩

/-- The conditions of R108. -/
def fltCond (k : Nat) (a b : XVal) : Bool :=
  let un := a.isNan || b.isNan
  match k with
  | 0 => !un && a.cmp b == .eq
  | 1 => un || a.cmp b != .eq
  | 2 => !un && a.cmp b == .lt
  | 3 => !un && a.cmp b != .gt
  | 4 => !un && a.cmp b == .gt
  | 5 => !un && a.cmp b != .lt
  | 6 => un
  | _ => !un

/-- The one-hot class of a float code (R109). -/
def fclassOf (t : NumTy) (c : Nat) : Nat :=
  let sub := match t.fmt with
    | some f => (c >>> f.mb) % 2 ^ f.eb == 0
    | none => false
  match t.decode c with
  | .nan sg => if sg then 2 ^ 8 else 2 ^ 9
  | .inf s => if s then 2 ^ 0 else 2 ^ 7
  | .zero s => if s then 2 ^ 3 else 2 ^ 4
  | .fin s _ _ => if s then (if sub then 2 ^ 2 else 2 ^ 1) else if sub then 2 ^ 5 else 2 ^ 6

/-- An approximating word (R107).
(DESIGN CHOICE, log 5) -/
def LaneIn.approx (x : LaneIn) (w : LR) (f : ApproxFn) : LaneRes :=
  let t := x.ty w.ty
  x.rounded t w.d.toNat fun l => f.apply t (x.rnd w.ty w.ex) (x.ovf w.ty w.ex) (x.s.free * 1024 + l) (x.opTy t l w.a.toNat)

/-! ## Floating point -/

/-- FADD (R104, R105). -/
def execFadd (w : LR) (s : State) : Outcome State Fault Refusal :=
  laneRun (.fadd w) w.ms (fun x => x.flt2 w fun rnd a b => xadd rnd a b) s

/-- FSUB (R104, R105). -/
def execFsub (w : LR) (s : State) : Outcome State Fault Refusal :=
  laneRun (.fsub w) w.ms (fun x => x.flt2 w fun rnd a b => xadd rnd a b.negate) s

/-- FMUL (R104, R105). -/
def execFmul (w : LR) (s : State) : Outcome State Fault Refusal :=
  laneRun (.fmul w) w.ms (fun x => x.flt2 w fun _ a b => xmul a b) s

/-- FFMA (R104, R105). -/
def execFfma (w : LR) (s : State) : Outcome State Fault Refusal :=
  laneRun (.ffma w) w.ms (fun x =>
    let t := x.ty w.ty
    let rnd := x.rnd w.ty w.ex
    x.rounded t w.d.toNat fun l =>
      roundX t rnd (x.ovf w.ty w.ex) (xfma rnd (x.opX t l w.a.toNat) (x.opX t l w.b.toNat) (x.opX t l w.c.toNat))) s

/-- FMIN (R106). -/
def execFmin (w : LR) (s : State) : Outcome State Fault Refusal := laneRun (.fmin w) w.ms (fun x => x.minmax w false) s

/-- FMAX (R106). -/
def execFmax (w : LR) (s : State) : Outcome State Fault Refusal := laneRun (.fmax w) w.ms (fun x => x.minmax w true) s

/-- FDIV (R104, R105). -/
def execFdiv (w : LR) (s : State) : Outcome State Fault Refusal :=
  laneRun (.fdiv w) w.ms (fun x => x.flt2 w fun _ a b => xdiv a b) s

/-- FSQRT (R104, R105). -/
def execFsqrt (w : LR) (s : State) : Outcome State Fault Refusal :=
  laneRun (.fsqrt w) w.ms (fun x => x.flt1 w fun _ a => xsqrt a) s

/-- FRCP (R107). -/
def execFrcp (w : LR) (s : State) : Outcome State Fault Refusal := laneRun (.frcp w) w.ms (fun x => x.approx w .rcp) s

/-- FRSQ (R107). -/
def execFrsq (w : LR) (s : State) : Outcome State Fault Refusal := laneRun (.frsq w) w.ms (fun x => x.approx w .rsq) s

/-- FEXP2 (R107). -/
def execFexp2 (w : LR) (s : State) : Outcome State Fault Refusal := laneRun (.fexp2 w) w.ms (fun x => x.approx w .exp2) s

/-- FLOG2 (R107). -/
def execFlog2 (w : LR) (s : State) : Outcome State Fault Refusal := laneRun (.flog2 w) w.ms (fun x => x.approx w .log2) s

/-- FTANH (R107). -/
def execFtanh (w : LR) (s : State) : Outcome State Fault Refusal := laneRun (.ftanh w) w.ms (fun x => x.approx w .tanh) s

/-- FSIN (R107): FN[0] selects the cosine. -/
def execFsin (w : LR) (s : State) : Outcome State Fault Refusal :=
  laneRun (.fsin w) w.ms (fun x => x.approx w (if w.fn.getLsbD 0 then .cos else .sin)) s

/-- FCMP (R108). -/
def execFcmp (w : LR) (s : State) : Outcome State Fault Refusal :=
  laneRun (.fcmp w) w.ms (fun x =>
    let t := x.ty w.ty
    let fl := (x.tm.lanesOf x.m).foldl (fun a l => a ||| fIf ((x.opX t l w.a.toNat).isSnan || (x.opX t l w.b.toNat).isSnan) fIV) f0
    let k := w.d.toNat
    let bits := maskOf ((x.tm.lanesOf x.m).filter fun l => fltCond w.fn.toNat (x.opX t l w.a.toNat) (x.opX t l w.b.toNat))
    x.finish ((x.tm.setM k ((x.tm.m k &&& ~~~x.m) ||| bits)).orFlags fl)) s

/-- FCLASS (R109). -/
def execFclass (w : LR) (s : State) : Outcome State Fault Refusal :=
  laneRun (.fclass w) w.ms (fun x =>
    let t := x.ty w.ty
    x.plain .n32 w.d.toNat fun l => fclassOf t (x.opTy t l w.a.toNat)) s

/-- The F32 immediate of R110. -/
def immX (imm : BitVec 32) : XVal := NumTy.f32.decode imm.toNat

/-- FADDI (R110): RND and OVF are zero but under TY 0x1F. -/
def execFaddi (w : LI) (s : State) : Outcome State Fault Refusal :=
  laneRun (.faddi w) w.ms (fun x =>
    let t := x.ty w.ty
    let rnd := x.rnd w.ty 0
    x.rounded t w.d.toNat fun l => roundX t rnd (x.ovf w.ty 0) (xadd rnd (x.opX t l w.a.toNat) (immX w.imm))) s

/-- FMULI (R110). -/
def execFmuli (w : LI) (s : State) : Outcome State Fault Refusal :=
  laneRun (.fmuli w) w.ms (fun x =>
    let t := x.ty w.ty
    x.rounded t w.d.toNat fun l => roundX t (x.rnd w.ty 0) (x.ovf w.ty 0) (xmul (x.opX t l w.a.toNat) (immX w.imm))) s

/-! ## Conversions -/

/-- The source type of a conversion (R111). -/
def LaneIn.cvtSrc (x : LaneIn) (w : LR) : NumTy :=
  (NumTy.ofCode (if w.ty = 0x1F then field32 x.tm.fmtr 0 5 else fieldN w.fn.toNat 0 5)).getD .i32

/-- The destination type of a conversion (R111). -/
def LaneIn.cvtDst (x : LaneIn) (w : LR) : NumTy :=
  (NumTy.ofCode (if w.ty = 0x1F then field32 x.tm.fmtr 5 5 else w.ty.toNat)).getD .i32

/-- CVTF (R111): arithmetic, so a NaN becomes canonical. -/
def execCvtf (w : LR) (s : State) : Outcome State Fault Refusal :=
  laneRun (.cvtf w) w.ms (fun x =>
    let a := x.cvtSrc w
    let t := x.cvtDst w
    x.rounded t w.d.toNat fun l => roundTo t (x.opX a l w.a.toNat) (x.rnd w.ty w.ex) (x.ovf w.ty w.ex)) s

/-- CVTFI (R63, R111). -/
def execCvtfi (w : LR) (s : State) : Outcome State Fault Refusal :=
  laneRun (.cvtfi w) w.ms (fun x =>
    let a := x.cvtSrc w
    let t := x.cvtDst w
    x.rounded t w.d.toNat fun l => toIntTy t (x.opX a l w.a.toNat) (x.rnd w.ty w.ex)) s

/-- CVTIF (R111). -/
def execCvtif (w : LR) (s : State) : Outcome State Fault Refusal :=
  laneRun (.cvtif w) w.ms (fun x =>
    let a := x.cvtSrc w
    let t := x.cvtDst w
    x.rounded t w.d.toNat fun l => roundTo t (x.opX a l w.a.toNat) (x.rnd w.ty w.ex) (x.ovf w.ty w.ex)) s

/-- SCALEB (R112). -/
def execScaleb (w : LR) (s : State) : Outcome State Fault Refusal :=
  laneRun (.scaleb w) w.ms (fun x =>
    let t := x.ty w.ty
    x.rounded t w.d.toNat fun l =>
      roundTo t ((x.opX t l w.a.toNat).scale2 (signed (x.op 1 l w.b.toNat) 32)) (x.rnd w.ty w.ex) (x.ovf w.ty w.ex)) s

/-! ## Blocks -/

/-- The block of pass p of a packing word (R113): inactive lanes contribute +0.
(DEDUCED, log 19) -/
def LaneIn.packBlock (x : LaneIn) (w : LR) (t : NumTy) (p : Nat) : List XVal × Block :=
  let xs := (upTo 32).map fun i =>
    let l := 32 * p + i
    if x.m.getLsbD l then NumTy.f32.decode (x.op (oneOf .f32) l w.a.toNat) else .zero false
  (xs, encodeBlock t xs (x.rnd w.ty w.ex) (x.ovf w.ty w.ex) x.tm.zblk)

/-- PACKMX and PACKDS (R113): under OVF 11 an overflowing block parks with no pass written; the lanes reported are those whose element
overflows under the greatest scale.
(DEDUCED, log 19) -/
def LaneIn.pack (x : LaneIn) (w : LR) : LaneRes :=
  let t := x.ty w.ty
  let ps := (upTo 32).filter fun p => fieldN x.m.toNat (32 * p) 32 != 0
  let bs := ps.map fun p => (p, x.packBlock w t p)
  let bad := bs.flatMap fun b =>
    if b.2.2.trap then
      (b.2.1.zipIdx.filter fun e => x.m.getLsbD (32 * b.1 + e.2) && elemOverflows t (x.rnd w.ty w.ex) 127 e.1).map fun e => 32 * b.1 + e.2
    else []
  if bs.any (·.2.2.trap) then x.trap .fpOverflow (ovfInfo bad)
  else
    let tm := x.tm.setV w.d.toNat x.m fun l =>
      let b := ((bs.find? fun b => b.1 == l / 32).map (·.2.2)).getD ⟨0, [], 0, false⟩
      BitVec.ofNat 32 (b.scale * 256 + b.elems.getD (l % 32) 0)
    x.finish (tm.orFlags (bs.foldl (fun a b => a ||| b.2.2.flags) f0))

/-- UNPKMX and UNPKDS (R114). -/
def LaneIn.unpack (x : LaneIn) (w : LR) : LaneRes :=
  let t := x.ty w.ty
  x.rounded .f32 w.d.toNat fun l =>
    let a := x.op 1 l w.a.toNat
    let sc := fieldN a 8 8
    roundX .f32 (x.rnd w.ty w.ex) (x.ovf w.ty w.ex) (decodeBlk t x.tm.zblk sc (a % 2 ^ t.width), fIf (sc == 0xFF) fIV)

/-- PACKMX (R113). -/
def execPackmx (w : LR) (s : State) : Outcome State Fault Refusal := laneRun (.packmx w) w.ms (fun x => x.pack w) s

/-- UNPKMX (R114). -/
def execUnpkmx (w : LR) (s : State) : Outcome State Fault Refusal := laneRun (.unpkmx w) w.ms (fun x => x.unpack w) s

/-- PACKDS (R113). -/
def execPackds (w : LR) (s : State) : Outcome State Fault Refusal := laneRun (.packds w) w.ms (fun x => x.pack w) s

/-- UNPKDS (R114). -/
def execUnpkds (w : LR) (s : State) : Outcome State Fault Refusal := laneRun (.unpkds w) w.ms (fun x => x.unpack w) s

end Sys2Proof.Machine
end

