-- ==== Sys2Proof/Machine/LaneStop.lean ====
section
/-! DEFINITION. How the lanes of a memory, tile, region or descent word end, and how the word ends from that (06_lane_memory.md R144 to
R148; 15_die_memory.md R320; 19_die_speculation.md R385; 23_package_security.md R420, R422). -/

namespace Sys2Proof.Machine

/-- Why a lane was not performed: a fault with its information words and, for a page fault, its record; a violation; or a wait for
first-touch service, for the task's commit, for another package, or for a tile line (with what it reports when starved, R94). -/
inductive Stop where
  | fault (c : Cause) (info : List DWord) (record : List Byte)
  | violation (code va pa target : Nat)
  | touch (t : Touch)
  | spec
  | remote
  | line (h l : Nat) (info : List DWord)
deriving DecidableEq, Repr

/-- What information word 1 of R146 says of a word, apart from its lane. -/
structure MemWord where
  win : Nat := 0
  raw : Bool := false
  atomic : Bool := false
  wr : Bool := false
  tile : Bool := false
  lsize : Nat := 0
deriving DecidableEq, Repr

/-- Information word 1 of R146. -/
def MemWord.map (w : MemWord) (l : Nat) : Nat :=
  w.lsize * 2 ^ 17 + b2n w.raw * 2 ^ 16 + b2n w.atomic * 2 ^ 15 + b2n w.wr * 2 ^ 14 + b2n w.tile * 2 ^ 13 + w.win * 2 ^ 10 + l

/-- The lane core that runs lane `l` of a team (R91). -/
def Team.coreOf (tm : Team) (l : Nat) : Nat := if tm.pair && decide (512 ≤ l) then tm.core + 1 else tm.core

/-- The access that lane `l` makes.
(DEDUCED, log 21) -/
def LaneIn.acc (x : LaneIn) (s : State) (l : Nat) : Access := s.laneAccess x.sq (x.tm.coreOf l)

/-- The fault record of a lane's page fault (R318): source 0 with the squad id, the team and the stream position.
(DEDUCED, log 21) -/
def LaneIn.record (x : LaneIn) (s : State) (va : Nat) (rd wr atomic : Bool) (level : Nat) (entry : DWord) : List Byte :=
  faultRecord va (s.ownerOf x.sq) 0 (b2n rd + b2n wr * 2 + b2n atomic * 8) level (dieOf x.sq.cluster) (x.sq.cluster % 44) entry
    (x.sq.id % 256 + x.t * 2 ^ 8 + x.tm.pos.toNat * 2 ^ 16)

/-- The stop of a lane whose access failed, with the information words of R146. -/
def LaneIn.stopOf (x : LaneIn) (s : State) (w : MemWord) (l va : Nat) (f : MemFail) : Stop :=
  let info (v w2 : Nat) : List DWord := [BitVec.ofNat 64 v, BitVec.ofNat 64 (w.map l), BitVec.ofNat 64 w2, 0]
  match f with
  | .cause .windowInvalid w2 => .fault .windowInvalid (info 0 w2) []
  | .cause c w2 => .fault c (info va w2) []
  | .page level entry => .fault .pageFault (info va 0) (x.record s va (!w.wr || w.atomic) w.wr w.atomic level entry)
  | .indexPage level entry => .fault .pageFault (info va 0) (x.record s va true false false level entry)
  | .touch t => .touch t
  | .violation code pa target => .violation code va pa target
  | .spec => .spec
  | .remote => .remote

/-- The violation of a team's word, made by its owning context (R420, R421). -/
def LaneIn.violationOf (x : LaneIn) (s : State) (m : Master) (code va pa target : Nat) (lanes : Mask) : Violation :=
  let c := (x.tm.owner.map (·.2)).getD 0
  { code := code, master := m, die := dieOf x.sq.cluster, cluster := x.sq.cluster % 44, owner := s.ownerOf x.sq, target := target
    va := va, pa := pa, ident := x.sq.id % 256 + c * 2 ^ 8 + x.t * 2 ^ 12 + x.tm.pos.toNat * 2 ^ 16, lanes := field64 (lanes.setWidth 64) 0 64 }

/-- The master that a team's memory words act for: its owning context. -/
def LaneIn.master (x : LaneIn) : Master :=
  match x.tm.owner with
  | some (q, c) => .ctx q c
  | none => .ctx x.q 0

/-- The stopped lanes of a kind, as a mask. -/
def stopMask (stops : List (Nat × Stop)) (p : Stop → Bool) : Mask := maskOf ((stops.filter fun z => p z.2).map (·.1))

/-- A lane that met an uncorrectable error. -/
def Stop.isUncorrectable : Stop → Bool
  | .fault .uncorrectableData _ _ => true
  | _ => false

/-- A lane that violates. -/
def Stop.isViolation : Stop → Bool
  | .violation _ _ _ _ => true
  | _ => false

/-- A lane that waits. -/
def Stop.waits : Stop → Bool
  | .touch _ | .spec | .remote | .line _ _ _ => true
  | _ => false

/-- The faults among the stops. -/
def faultsOf (stops : List (Nat × Stop)) : List LaneFault :=
  stops.filterMap fun z => match z.2 with
    | .fault c i r => some ⟨z.1, c, i, r⟩
    | _ => none

/-- The lowest faulting lane's cause, information words and record (R84, R145). -/
def firstFault (stops : List (Nat × Stop)) : Option (Cause × List DWord × List Byte) :=
  (faultsOf stops).head?.map fun f => (f.cause, f.info, f.record)

/-- The faults that a team's word keeps with those of its stops, one of each lane, in lane order. -/
def Team.faults (tm : Team) (stops : List (Nat × Stop)) : List LaneFault :=
  let l := faultsOf stops ++ tm.faulted
  (upTo tm.lanes).filterMap fun i => l.find? fun f => f.lane == i

/-- The lanes of some faults. -/
def faultMask (l : List LaneFault) : Mask := maskOf (l.map (·.lane))

/-- A word ends with its lanes performed but for the faults listed: it parks with the lowest of them, or completes (R84, R144). -/
def LaneIn.settled (x : LaneIn) (s : State) (faults : List LaneFault) (extra : Mask) : LaneRes :=
  match faults with
  | f :: _ => .park f.cause f.info (faultMask faults ||| extra) f.record (s.modTeam x.q x.t fun tm => { tm with faulted := if extra = 0 then faults else [] })
  | [] => .done s

/-- How a word ends whose lanes stopped as listed in ascending lane order, `s` holding the effects of the lanes performed: a violation freezes
the master first (R420); lanes that wait keep the word waiting, and meanwhile a lane that has faulted is not tried again (R144, R442); otherwise the word
parks with its faulting lanes unfinished, or completes. A lane that still awaits a line after the time of R94 faults. The lanes of `extra` stopped at
nothing and were not performed either; then nothing was performed, and while it waits the word judges every lane anew. -/
def LaneIn.ending (x : LaneIn) (s : State) (m : Master) (stops : List (Nat × Stop)) (extra : Mask := 0) : LaneRes :=
  let stops := if x.tm.starved then stops.map fun z => match z.2 with
    | .line _ _ info => (z.1, .fault .tileStarved info [])
    | _ => z
  else stops
  let faults := x.tm.faults stops
  let keep (w : TeamWait) (s : State) : LaneRes :=
    .wait w (s.modTeam x.q x.t fun tm =>
      if extra = 0 then { tm with todo := some (stopMask stops Stop.waits), faulted := faults }
      else { tm with todo := some (stopMask stops (fun z => !z.isViolation) ||| extra) })
  match stops.find? fun z => z.2.isViolation with
  | some (_, .violation code va pa target) =>
    let vm := stopMask stops Stop.isViolation
    let s := s.violate (s.holdTask x.sq) (x.violationOf s m code va pa target vm)
    keep .frozen (s.modTeam x.q x.t fun tm => { tm with violating := vm })
  | _ =>
    if stops.any fun z => z.2 == .spec then keep .spec s
    else
      let touches := stops.filterMap fun z => match z.2 with
        | .touch t => some t
        | _ => none
      if !touches.isEmpty then keep .touch (touches.foldl (fun s t => s.addTouch (dieOf x.sq.cluster) t) s)
      else if stops.any fun z => z.2 == .remote then keep .remote s
      else
        let ls := stops.filterMap fun z => match z.2 with
          | .line h l _ => some (h, l)
          | _ => none
        if !ls.isEmpty then keep (.lines ls (s.cluster x.sq.cluster).cycle) s else x.settled s faults extra

end Sys2Proof.Machine
end

