-- ==== Sys2Proof/Machine/LaneMem.lean ====
section
/-! DEFINITION. The memory lane words (06_lane_memory.md R130 to R149; 15_die_memory.md R314, R325; 25_fabric.md R434 to R443): addresses,
loads, stores, atomics, CAS and prefetch. -/

namespace Sys2Proof.Machine

open Host (Outcome)

/-! ## Addresses -/

/-- Where a lane's access goes: bytes of this package's memory, or bytes of another device (R434). -/
inductive Tgt where
  | loc (va pa : Nat) (zor : Bool)
  | rem (va dev addr : Nat)
deriving DecidableEq, Repr

/-- A lane's result, or its failure with the virtual address that information word 0 reports, and the state after it. -/
abbrev LR2 (α : Type) := Except (MemFail × Nat) α × State

/-- The failure of an access of which information word 0 reports `va`. -/
def MR.at {α : Type} (r : MR α) (va : Nat) : LR2 α :=
  match r with
  | (.ok v, s) => (.ok v, s)
  | (.error f, s) => (.error (f, va), s)

/-- Goes on with a lane's result, or passes its failure on. -/
def LR2.andThen {α β : Type} (r : LR2 α) (f : α → State → LR2 β) : LR2 β :=
  match r with
  | (.ok a, s) => f a s
  | (.error e, s) => (.error e, s)

/-- What an access does (R311, R314). -/
structure Dir where
  rd : Bool := false
  wr : Bool := false
deriving DecidableEq, Repr

/-- The failure of the index read of a gather access, whose page fault is that of a read (R318, R325). -/
def MemFail.ofIndex : MemFail → MemFail
  | .page level entry => .indexPage level entry
  | f => f

/-- The index read of a gather access (R325): its failure reports the index's own address. -/
def State.indexRead (s : State) (a : Access) (ia : Nat) : LR2 Nat :=
  if 2 ^ 56 ≤ ia then (.error (.cause .protection 0, ia), s)
  else match s.vread a ia 4 false with
    | (.ok bs, s) => (.ok (ofBytes bs), s)
    | (.error f, s) => (.error (f.ofIndex, ia), s)

/-- The element size of a gather window's entry, 1 where it names none. -/
def State.gatherSize (s : State) (a : Access) (w : Window) : Nat :=
  ((aget? (s.die (dieOf a.cl)).gathers (a.owner * 64 + fieldN w.aux 12 6)).map (·.size)).getD 1

/-- Gather(w, off) for an access of n bytes (R133, R325).
(DEDUCED, log 36) -/
def State.gatherAddr (s : State) (a : Access) (w : Window) (off : Int) (n : Nat) (d : Dir) : LR2 Tgt :=
  let va0 := wrapN off 64
  match aget? (s.die (dieOf a.cl)).gathers (a.owner * 64 + fieldN w.aux 12 6) with
  | none => (.error (.cause .windowInvalid 0, 0), s)
  | some e =>
    if !e.bound || e.gen != fieldN w.aux 0 12 then (.error (.cause .windowInvalid 0, 0), s)
    else if n ≠ e.size ∨ off % (n : Int) ≠ 0 then (.error (.cause .misaligned 0, va0), s)
    else if off < 0 ∨ (d.rd ∧ !w.rd) ∨ (d.wr ∧ !w.wr) then (.error (.cause .protection 0, va0), s)
    else
      let j := off.toNat / n
      let ia := e.idxVa + 4 * j
      if w.limit / n ≤ j then (.error (.cause .gatherBound 0, ia), s)
      else
        (s.indexRead a ia).andThen fun i s =>
          if e.limit ≤ i then (.error (.cause .gatherBound i, ia), s)
          else
            let va := e.srcVa + i * n
            if 2 ^ 56 ≤ va then (.error (.cause .protection 0, va), s)
            else ((s.translateFor a va n { rd := d.rd, wr := d.wr }).at va).andThen fun t s => (.ok (.loc va t.pa (pteZor t.leaf)), s)

/-- The address of a window-relative access (R130, R132, R133, R135, R314): `gather` tells that the word accepts a GATHER window. -/
def State.windowAddr (s : State) (a : Access) (w : Window) (off : Int) (n : Nat) (d : Dir) (gather : Bool) : LR2 Tgt :=
  let va := wrapN ((w.base : Int) + off) 64
  if w.kind = 2 ∧ gather then s.gatherAddr a w off n d
  else if w.kind ≠ 1 ∧ w.kind ≠ 4 then (.error (.cause .windowInvalid 0, 0), s)
  else if off % (n : Int) ≠ 0 then (.error (.cause .misaligned 0, va), s)
  else if off < 0 ∨ (d.rd ∧ !w.rd) ∨ (d.wr ∧ !w.wr) then (.error (.cause .protection 0, va), s)
  else if w.kind = 4 then
    if off.toNat + n ≤ w.limit then (.ok (.rem va w.devid (w.frame + off.toNat)), s)
    else (.error (.cause .protection 0, va), s)
  else if off.toNat + n ≤ w.limit then (.ok (.loc va (s.winPa w off.toNat) w.zor), s)
  else if 2 ^ 56 ≤ va then (.error (.cause .protection 0, va), s)
  else ((s.translateFor a va n { rd := d.rd, wr := d.wr }).at va).andThen fun t s => (.ok (.loc va t.pa (pteZor t.leaf)), s)

/-- The address of a raw access (R131, R135). -/
def State.rawAddr (s : State) (a : Access) (va n : Nat) (d : Dir) : LR2 Tgt :=
  if va % n ≠ 0 then (.error (.cause .misaligned 0, va), s)
  else if 2 ^ 56 ≤ va then (.error (.cause .protection 0, va), s)
  else ((s.translateFor a va n { rd := d.rd, wr := d.wr }).at va).andThen fun t s => (.ok (.loc va t.pa (pteZor t.leaf)), s)

/-- The offset of a lane (R130), with a displacement of `dw` bits. -/
def LaneIn.off (x : LaneIn) (w : LM) (dw l : Nat) : Int :=
  ((x.rd.V l w.a.toNat).toNat : Int) + signed w.disp.toNat dw

/-- The window that a word names. -/
def Team.window (tm : Team) (k : Nat) : Window := aget {} tm.win k

/-- The target of lane `l` of a windowed word. -/
def LaneIn.winTgt (x : LaneIn) (w : LM) (dw n : Nat) (d : Dir) (gather : Bool) (s : State) (l : Nat) : LR2 Tgt :=
  s.windowAddr (x.acc s l) (x.tm.window w.w.toNat) (x.off w dw l) n d gather

/-- The target of lane `l` of a raw word. -/
def LaneIn.rawTgt (x : LaneIn) (w : LM) (n : Nat) (d : Dir) (s : State) (l : Nat) : LR2 Tgt :=
  s.rawAddr (x.acc s l) (wrapN ((x.rd.V64 l w.a.toNat).toNat + signed w.disp.toNat 25) 64) n d

/-! ## Remote accesses (R434 to R443) -/

/-- The requests of a cluster that have no response yet. -/
def State.remoteOut (s : State) (cl : Nat) : Nat :=
  (s.fabric.out.filter fun r => r.cluster == cl && !(s.fabric.results.any fun z => z.1 == r.id)).length

/-- The lane number with which a prefetch's remote request is kept, which is no lane's. -/
def prefetchLane : Nat := 1024

/-- A request has been answered, or waits at its target's Umpire. -/
def State.reqSettled (s : State) (id : Nat) : Bool :=
  (s.fabric.answers.any fun z => z.1 == id) || (s.fabric.results.any fun z => z.1 == id)
    || s.fabric.waitingIn.any fun w => w.1 == s.fabric.devid && w.2.2 == id

/-- A remote access of lane `l`: issued once, it waits for its response, whose status is 0 done, 1 unreachable, 2 poisoned, 3 window
invalid (R436), 4 uncorrectable. Remote writes of an uncommitted speculative task wait (R385). -/
def LaneIn.remote (x : LaneIn) (s : State) (l va dev addr n op : Nat) (data : List Nat) (wr : Bool) : LR2 (List Byte) :=
  match s.fabric.out.find? fun r => r.src == .team x.q x.t && r.lane == l with
  | none =>
    if wr && s.speculative x.sq then (.error (.spec, va), s)
    else if !s.reachable dev then (.error (.cause .fabricUnreachable 0, va), s)
    else if 1024 ≤ s.remoteOut x.sq.cluster then (.error (.remote, va), s)
    else
      let r : RemoteReq :=
        { id := s.fabric.nextReq, cluster := x.sq.cluster, src := .team x.q x.t, lane := l, op := op, dev := dev, addr := addr, size := n
          data := data, issued := s.now }
      (.error (.remote, va), { s with fabric := { s.fabric with nextReq := s.fabric.nextReq + 1, out := s.fabric.out ++ [r] } })
  | some r =>
    match s.fabric.results.find? fun z => z.1 == r.id with
    | none => (.error (.remote, va), s)
    | some (_, status, bs) =>
      let s := { s with fabric := { s.fabric with
        out := s.fabric.out.filter (·.id != r.id), results := s.fabric.results.filter (·.1 != r.id) } }
      match status with
      | 0 => (.ok bs, s)
      | 2 => (.error (.cause .poison 0, va), s)
      | 3 => (.error (.cause .windowInvalid 0, 0), s)
      | 4 => (.error (.cause .uncorrectableData 0, va), s)
      | _ => (.error (.cause .fabricUnreachable 0, va), s)

/-! ## Performing the lanes -/

/-- The lanes of a word after some have been performed: the state, the values read by lane, and the lanes that stopped. -/
structure LaneSt where
  s : State
  vals : List (Nat × Nat) := []
  stops : List (Nat × Stop) := []

/-- Performs the listed lanes in order. -/
def LaneIn.each (x : LaneIn) (w : MemWord) (f : State → Nat → LR2 Nat) : List Nat → LaneSt → LaneSt
  | [], z => z
  | l :: ls, z =>
    match f z.s l with
    | (.ok v, s) => each x w f ls { z with s := s, vals := z.vals ++ [(l, v)] }
    | (.error (e, va), s) => each x w f ls { z with s := s, stops := z.stops ++ [(l, x.stopOf s w l va e)] }

/-- The stops in ascending lane order. -/
def LaneSt.ordered (z : LaneSt) (n : Nat) : List (Nat × Stop) :=
  (upTo n).filterMap fun l => (aget? z.stops l).map fun p => (l, p)

/-- The lanes performed. -/
def LaneSt.done (z : LaneSt) : Mask := maskOf (z.vals.map (·.1))

/-- The value of a lane performed. -/
def LaneSt.val (z : LaneSt) (l : Nat) : Nat := aget 0 z.vals l

/-! ## Loads and stores -/

/-- A load's value as D receives it (R137): floats below F32 are widened exactly, a NaN keeping its sign and its mantissa bits. -/
def loadImage (t : NumTy) (c : Nat) : Nat :=
  match t with
  | .f16 | .bf16 | .e4m3 | .e5m2 =>
    match t.fmt with
    | none => c
    | some f =>
      if (t.decode c).isNan then
        c / 2 ^ (f.eb + f.mb) % 2 * 2 ^ 31 + 0xFF * 2 ^ 23 + c % 2 ^ f.mb * 2 ^ (23 - f.mb)
      else (roundTo .f32 (t.decode c) .ne .inf).code
  | _ => c

/-- The register type of a loaded value: narrow floats arrive as F32. -/
def loadTy (t : NumTy) : NumTy :=
  match t with
  | .f16 | .bf16 | .e4m3 | .e5m2 => .f32
  | _ => t

/-- Narrow of R138: what a store writes for a register value, with FMTR's controls. -/
def narrowStore (fm : Word) (t : NumTy) (v : Nat) : Rounded :=
  match t with
  | .f16 | .bf16 | .e4m3 | .e5m2 =>
    roundTo t (NumTy.f32.decode (v % 2 ^ 32)) (Rnd.ofCode (field32 fm 10 2)) (Ovf.ofCode (field32 fm 12 2))
  | _ => ⟨v % 2 ^ t.width, 0, false⟩

/-- log2 of an access size. -/
def lsizeOf (n : Nat) : Nat := Nat.log2 n

/-- A load's lanes, whose targets `tgt` gives. -/
def LaneIn.load (x : LaneIn) (w : LM) (mw : MemWord) (tgt : Nat → Dir → State → Nat → LR2 Tgt) : LaneRes :=
  let t := x.ty w.ty
  let n := t.width / 8
  let wide := wideAcq w.ord.toNat w.scope.toNat
  let one (s : State) (l : Nat) : LR2 Nat :=
    (tgt n { rd := true } s l).andThen fun g s =>
      match g with
      | .loc va pa zor => ((s.pread (x.acc s l) va pa zor n wide).at va).andThen fun bs s => (.ok (ofBytes bs), s)
      | .rem va dev addr =>
        (x.remote s l va dev addr n 0 [] false).andThen fun bs s =>
          (.ok (ofBytes bs), if w.ord.getLsbD 0 then s.l1Clear x.sq.cluster else s)
  let z := x.each { mw with lsize := lsizeOf n } one (x.tm.lanesOf x.m) { s := x.s }
  let s := z.s.modTeam x.q x.t fun tm => tm.setTy (loadTy t) w.d.toNat z.done fun l => loadImage t (z.val l)
  x.ending s x.master (z.ordered x.tm.lanes)

/-- LDW (R136, R137). -/
def execLdw (w : LM) (s : State) : Outcome State Fault Refusal :=
  laneRun (.ldw w) w.ms (fun x => x.load w { win := w.w.toNat } fun n d s l => x.winTgt w 25 n d true s l) s

/-- LDG (R131, R136, R137). -/
def execLdg (w : LM) (s : State) : Outcome State Fault Refusal :=
  laneRun (.ldg w) w.ms (fun x => x.load w { raw := true } fun n d s l => x.rawTgt w n d s l) s

/-- The register value that a store or an atomic of lane `l` takes from register `d`. -/
def LaneIn.datum (x : LaneIn) (t : NumTy) (d l : Nat) : Nat :=
  if t.width = 64 then (x.rd.V64 l d).toNat else (x.rd.V l d).toNat

/-- What keeps a store of bytes to a target from being performed when nothing is stored: its faults, and for a device with no route that it cannot be
reached (R134, R145, R442). -/
def State.storeFault (s : State) (a : Access) (t : Tgt) (bs : List Byte) : Option (MemFail × Nat) :=
  match t with
  | .loc va pa _ => ((s.writeGuard a va pa bs).filter (· != .spec)).map (·, va)
  | .rem va dev _ => if s.reachable dev then none else some (.cause .fabricUnreachable 0, va)

/-- The first fault of a lane or row that overflows: one that ranks behind FP_OVERFLOW gives way to it (R145). -/
def LR2.hot {α : Type} (r : LR2 α) (ok : α) : LR2 α :=
  match r with
  | (.error (f, va), s) => if f.afterOverflow then (.ok ok, s) else (.error (f, va), s)
  | r => r

/-- A store's lanes (R138): when a lane overflows under OVF 11 no lane is stored, every lane keeps its other faults, and M is unfinished.
(DESIGN CHOICE, log 57) -/
def LaneIn.storeLanes (x : LaneIn) (mw : MemWord) (val : Nat → Rounded) (n : Nat) (tgt : State → Nat → LR2 Tgt) : LaneRes :=
  let ls := x.tm.lanesOf x.m
  let traps := ls.filter fun l => (val l).trap
  let bytes (l : Nat) : List Byte := toBytes n (val l).code
  let mw := { mw with lsize := lsizeOf n, wr := true }
  if traps.isEmpty then
    let one (s : State) (l : Nat) : LR2 Nat :=
      (tgt s l).andThen fun g s =>
        match g with
        | .loc va pa zor => ((s.pwrite (x.acc s l) va pa zor (bytes l)).at va).andThen fun _ s => (.ok 0, s)
        | .rem va dev addr => (x.remote s l va dev addr n 1 [(val l).code] true).andThen fun _ s => (.ok 0, s)
    let z := x.each mw one ls { s := x.s }
    let fl := z.vals.foldl (fun a v => a ||| (val v.1).flags) f0
    x.ending (z.s.modTeam x.q x.t fun tm => tm.holdFlags fl) x.master (z.ordered x.tm.lanes)
  else
    let dry (s : State) (l : Nat) : LR2 Nat :=
      (tgt s l).andThen fun g s => match s.storeFault (x.acc s l) g (bytes l) with
        | some e => (.error e, s)
        | none => (.ok 0, s)
    let one (s : State) (l : Nat) : LR2 Nat := if traps.contains l then (dry s l).hot 0 else dry s l
    let z := x.each mw one ls { s := x.s }
    let ovf : List (Nat × Stop) := (z.vals.filter fun v => traps.contains v.1).map fun v => (v.1, .fault .fpOverflow (ovfInfo traps) [])
    let stops := (({ z with stops := z.stops ++ ovf } : LaneSt)).ordered x.tm.lanes
    x.ending z.s x.master stops (x.m &&& ~~~stopMask stops fun _ => true)

/-- A store of a register (R136, R138). -/
def LaneIn.store (x : LaneIn) (w : LM) (mw : MemWord) (tgt : Nat → Dir → State → Nat → LR2 Tgt) : LaneRes :=
  let t := x.ty w.ty
  let n := t.width / 8
  x.storeLanes mw (fun l => narrowStore x.tm.fmtr t (x.datum t w.d.toNat l)) n (tgt n { wr := true })

/-- STW (R136, R138). -/
def execStw (w : LM) (s : State) : Outcome State Fault Refusal :=
  laneRun (.stw w) w.ms (fun x => x.store w { win := w.w.toNat } fun n d s l => x.winTgt w 25 n d true s l) s

/-- STG (R131, R136, R138). -/
def execStg (w : LM) (s : State) : Outcome State Fault Refusal :=
  laneRun (.stg w) w.ms (fun x => x.store w { raw := true } fun n d s l => x.rawTgt w n d s l) s

/-! ## Atomics -/

/-- `new` of R140 for an operation, type, old value and operand. -/
def atomNew (op : Nat) (t : NumTy) (old b : Nat) : Nat :=
  match op with
  | 0 => if t.isInt then (old + b) % 2 ^ t.width else (roundX t .ne .inf (xadd .ne (t.decode old) (t.decode b))).code
  | 1 => if t.isInt then (if t.toInt b < t.toInt old then b else old) else (fminmax t false old b).1
  | 2 => if t.isInt then (if t.toInt old < t.toInt b then b else old) else (fminmax t true old b).1
  | 3 => old &&& b
  | 4 => old ||| b
  | 5 => old ^^^ b
  | 6 => b
  | _ => if b ≤ old then 0 else old + 1

/-- A list sorted by a rank.
(DESIGN CHOICE, log 57) -/
def insertBy (rank : Nat → Nat) (x : Nat) : List Nat → List Nat
  | [] => [x]
  | y :: t => if rank x ≤ rank y then x :: y :: t else y :: insertBy rank x t

/-- The lanes in the order in which the steps of an atomic word are applied: ascending, or in an order the spec leaves open when two of them
name one location (R142).
(DESIGN CHOICE, log 4; DESIGN CHOICE, log 57) -/
def LaneIn.atomOrder (x : LaneIn) (loc : Nat → Option Nat) : List Nat :=
  let ls := x.tm.lanesOf x.m
  let clash := ls.any fun l => ls.any fun k => l != k && (loc l).isSome && loc l == loc k
  if clash then ls.foldr (insertBy fun l => Config.freeNat x.s.free l) [] else ls

/-- The lanes of an atomic or CAS word (R139, R141, R142): `f` gives the value to store for a lane and an old value, or none; `ret` that old
goes to D.
(DESIGN CHOICE, log 57) -/
def LaneIn.atomics (x : LaneIn) (w : LM) (op : Nat) (f : Nat → Nat → Option Nat) (data : Nat → List Nat) (ret : Bool) : LaneRes :=
  let t := x.ty w.ty
  let n := t.width / 8
  let wide := wideAcq w.ord.toNat w.scope.toNat
  let tgt (s : State) (l : Nat) : LR2 Tgt := x.winTgt w 21 n { rd := true, wr := true } false s l
  let loc (l : Nat) : Option Nat := match (tgt x.s l).1 with
    | .ok (.loc _ pa _) => some pa
    | _ => none
  let one (s : State) (l : Nat) : LR2 Nat :=
    (tgt s l).andThen fun g s =>
      match g with
      | .loc va pa zor =>
        ((s.patomic (x.acc s l) va pa zor n wide fun bs => (f l (ofBytes bs)).map (toBytes n)).at va).andThen fun bs s => (.ok (ofBytes bs), s)
      | .rem va dev addr =>
        (x.remote s l va dev addr n op (data l) true).andThen fun bs s =>
          (.ok (ofBytes bs), if w.ord.getLsbD 0 then s.l1Clear x.sq.cluster else s)
  let z := x.each { win := w.w.toNat, atomic := true, wr := true, lsize := lsizeOf n } one (x.atomOrder loc) { s := x.s }
  let s := if ret then z.s.modTeam x.q x.t fun tm => tm.setTy t w.d.toNat z.done z.val else z.s
  x.ending s x.master (z.ordered x.tm.lanes)

/-- ATOM and ATOMN. -/
def LaneIn.atom (x : LaneIn) (w : LM) (ret : Bool) : LaneRes :=
  let t := x.ty w.ty
  let op := fieldN w.disp.toNat 21 4
  let b (l : Nat) : Nat := x.datum t w.d.toNat l % 2 ^ t.width
  x.atomics w (2 + op) (fun l old => some (atomNew op t old (b l))) (fun l => [t.code, b l]) ret

/-- ATOM (R139, R140, R142). -/
def execAtom (w : LM) (s : State) : Outcome State Fault Refusal := laneRun (.atom w) w.ms (fun x => x.atom w true) s

/-- ATOMN (R139, R140, R142). -/
def execAtomn (w : LM) (s : State) : Outcome State Fault Refusal := laneRun (.atomn w) w.ms (fun x => x.atom w false) s

/-- CAS (R141, R142). -/
def execCas (w : LM) (s : State) : Outcome State Fault Refusal :=
  laneRun (.cas w) w.ms (fun x =>
    let t := x.ty w.ty
    let d := w.d.toNat
    let k := if t.width = 64 then 2 else 1
    x.atomics w 10 (fun l old => if old = x.datum t d l then some (x.datum t (d + k) l) else none)
      (fun l => [t.code, x.datum t d l, x.datum t (d + k) l]) true) s

/-! ## Prefetch -/

/-- A prefetch's request to another package, whose answer no lane awaits (R143, R434); none where the cluster's requests outstanding leave no place for
it.
(DEDUCED, log 38) -/
def LaneIn.prefetchRemote (x : LaneIn) (s : State) (dev addr : Nat) : Option State :=
  if !s.reachable dev then some s
  else if 1024 ≤ s.remoteOut x.sq.cluster then none
  else
    let r : RemoteReq :=
      { id := s.fabric.nextReq, cluster := x.sq.cluster, src := .team x.q x.t, lane := prefetchLane, op := 0, dev := dev, addr := addr / 128 * 128, size := 128
        data := [], issued := s.now }
    some { s with fabric := { s.fabric with nextReq := s.fabric.nextReq + 1, out := s.fabric.out ++ [r] } }

/-- A prefetch of one lane (R132, R143): a lane that does not translate, or whose line does not read, is dropped; a line of this package comes into
the cluster L1 unless `deep`, and nothing but the L1's copies and requests changes. Range locks are ignored, by the read of a gather window's index too.
None tells that the lane's request waits for a place (R434).
(DEDUCED, log 38) -/
def LaneIn.prefetch (x : LaneIn) (w : LM) (deep : Bool) (s : State) (l : Nat) : Option State :=
  let win := x.tm.window w.w.toNat
  let off := x.off w 25 l
  let n : Nat := if win.kind = 2 then s.gatherSize (x.acc s l) win else 1
  let free : State := { s with dies := s.dies.map fun d => { d with locks := [] } }
  if off < 0 ∨ !win.rd then some s
  else match (free.windowAddr (x.acc s l) win (off - off % (n : Int)) n { rd := true } true).1 with
    | .ok (.loc _ pa zor) =>
      if deep || decide (cfgBase ≤ pa) || s.badLines.contains (pa / 128) || s.poison.contains (pa / 128) || (s.guardPa pa 1 false).isSome then some s
      else some (s.readL1 (x.acc s l) zor (pa / 128 * 128) 8).2
    | .ok (.rem _ dev addr) => x.prefetchRemote s dev addr
    | .error _ => some s

/-- The prefetches of some lanes in order: the state, and the lanes whose requests wait. -/
def LaneIn.prefetches (x : LaneIn) (w : LM) : List Nat → State → List Nat × State
  | [], s => ([], s)
  | l :: ls, s =>
    match x.prefetch w (w.d.getLsbD 0) s l with
    | some s => prefetches x w ls s
    | none =>
      let (rest, s) := prefetches x w ls s
      (l :: rest, s)

/-- PREFW (R143, R434): a prefetch into L2 alone changes no state of the model.
(DEDUCED, log 38) -/
def execPrefw (w : LM) (s : State) : Outcome State Fault Refusal :=
  laneRun (.prefw w) w.ms (fun x =>
    match x.prefetches w (x.tm.lanesOf x.m) x.s with
    | ([], s) => .done s
    | (ls, s) => .wait .remote (s.modTeam x.q x.t fun tm => { tm with todo := some (maskOf ls) })) s

end Sys2Proof.Machine
end

