-- ==== Sys2Proof/Machine/GenMem.lean ====
section
/-! DEFINITION. The scalar memory words of a generator context (09_cluster_generator.md R222 to R224, R230), and accesses of more than 8
bytes by generator words. -/

namespace Sys2Proof.Machine

open Host (Outcome)

/-! ## Addresses -/

/-- The address of a GM word, with a displacement of `dw` bits (R222). -/
def GenIn.addr (x : GenIn) (w : GM) (dw : Nat) : Nat :=
  wrapN ((x.rd.S w.a.toNat).toNat + signed w.disp.toNat dw) 64

/-- The access size of a GM word: 2^(3 − SZ) bytes. -/
def gmSize (w : GM) : Nat := 2 ^ (3 - w.sz.toNat)

/-- The access that a context's word makes. -/
def GenIn.acc (x : GenIn) : Access := x.s.genAccess x.sq

/-! ## Accesses of more than 8 bytes (R222) -/

/-- A failure within an access that starts at `va0`, in the page whose first byte is `page`: its lowest address in that page. -/
def MR.atPage {α : Type} (r : MR α) (va0 page : Nat) : LR2 α := r.at (max va0 page)

/-- A read of consecutive virtual bytes that may cross pages. -/
def State.spanRead (a : Access) (va0 : Nat) : Nat → State → Nat → Nat → LR2 (List Byte)
  | 0, s, _, _ => (.ok [], s)
  | f + 1, s, va, n =>
    if n = 0 then (.ok [], s)
    else
      let k := min n (2 ^ 16 - va % 2 ^ 16)
      ((s.translateFor a va k { rd := true }).at va).andThen fun x s =>
        ((s.pread a va x.pa (pteZor x.leaf) k false).atPage va0 x.base).andThen fun bs s =>
          (spanRead a va0 f s (va + k) (n - k)).andThen fun bs' s => (.ok (bs ++ bs'), s)

/-- The translations and guards of a write of consecutive virtual bytes, none of it performed; `seen` are the pieces tested before. -/
def State.spanTest (a : Access) (va0 : Nat) : Nat → State → Nat → List Byte → List (Nat × Nat) → LR2 Unit
  | 0, s, _, _, _ => (.ok (), s)
  | f + 1, s, va, bs, seen =>
    if bs.isEmpty then (.ok (), s)
    else
      let k := min bs.length (2 ^ 16 - va % 2 ^ 16)
      ((s.translateFor a va k { wr := true }).at va).andThen fun x s =>
        match s.writeGuard a va x.pa (bs.take k) with
        | some e => (.error (e, max va0 x.base), s)
        | none =>
          if s.overTogether a ((x.pa, k) :: seen) then (.error (.spec, max va0 x.base), s)
          else spanTest a va0 f s (va + k) (bs.drop k) ((x.pa, k) :: seen)

/-- The write itself, once it has been tested. -/
def State.spanPut (a : Access) : Nat → State → Nat → List Byte → State
  | 0, s, _, _ => s
  | f + 1, s, va, bs =>
    if bs.isEmpty then s
    else
      let k := min bs.length (2 ^ 16 - va % 2 ^ 16)
      match s.translate a va { wr := true } with
      | (.ok x, s) => spanPut a f (s.pwrite a va x.pa (pteZor x.leaf) (bs.take k)).2 (va + k) (bs.drop k)
      | (.error _, s) => s

/-- A write of consecutive virtual bytes, all or nothing. -/
def State.spanWrite (s : State) (a : Access) (va : Nat) (bs : List Byte) : LR2 Unit :=
  let f := bs.length / 2 ^ 16 + 2
  (State.spanTest a va f s va bs []).andThen fun _ s => (.ok (), State.spanPut a f s va bs)

/-- A generator word's read of consecutive bytes: its failure reports SIZE 7 (R222). -/
def GenIn.readSpan (x : GenIn) (s : State) (va n : Nat) (f : List Byte → State → GenRes) : GenRes :=
  if 2 ^ 56 < va + n then x.memFail s (.cause .protection 0) va 7 false false false
  else match State.spanRead x.acc va (n / 2 ^ 16 + 2) s va n with
    | (.ok bs, s) => f bs s
    | (.error (e, a), s) => x.memFail s e a 7 false false false

/-- A generator word's write of consecutive bytes. -/
def GenIn.writeSpan (x : GenIn) (s : State) (va : Nat) (bs : List Byte) (f : State → GenRes) : GenRes :=
  if 2 ^ 56 < va + bs.length then x.memFail s (.cause .protection 0) va 7 true false false
  else match s.spanWrite x.acc va bs with
    | (.ok _, s) => f s
    | (.error (e, a), s) => x.memFail s e a 7 true false false

/-! ## Loads, stores and atomics -/

/-- SLD (R222). -/
def execSld (w : GM) (s : State) : Outcome State Fault Refusal :=
  genRun (.sld w) 0 (fun x =>
    let n := gmSize w
    let va := x.addr w 32
    x.addrCheck va n (lsizeOf n) false false
      (x.withMem (x.s.vread x.acc va n (wideAcq w.ord.toNat w.scope.toNat)) va (lsizeOf n) false false fun bs s =>
        .done (s.modCtx x.q x.c fun cx => cx.setS w.d.toNat (BitVec.ofNat 64 (ofBytes bs))))) s

/-- SST (R222). -/
def execSst (w : GM) (s : State) : Outcome State Fault Refusal :=
  genRun (.sst w) 0 (fun x =>
    let n := gmSize w
    let va := x.addr w 32
    x.addrCheck va n (lsizeOf n) true false
      (x.withMem (x.s.vwrite x.acc va (toBytes n (x.rd.S w.d.toNat).toNat)) va (lsizeOf n) true false fun _ s => .done s)) s

/-- The new value of SATOM for a width in bits (R223). -/
def satomNew (op wd old b : Nat) : Nat :=
  match op with
  | 0 => (old + b) % 2 ^ wd
  | 1 => if signed b wd < signed old wd then b else old
  | 2 => if signed old wd < signed b wd then b else old
  | 3 => old &&& b
  | 4 => old ||| b
  | 5 => old ^^^ b
  | 6 => b
  | 7 => if b ≤ old then 0 else old + 1
  | 8 => min old b
  | _ => max old b

/-- The indivisible access of SATOM and SCAS (R222, R223). -/
def GenIn.atomic (x : GenIn) (w : GM) (dw : Nat) (f : Nat → Option Nat) : GenRes :=
  let n := gmSize w
  let va := x.addr w dw
  x.addrCheck va n (lsizeOf n) true true
    (x.withMem (x.s.vatomic x.acc va n (wideAcq w.ord.toNat w.scope.toNat) fun bs => (f (ofBytes bs)).map (toBytes n)) va (lsizeOf n) true true
      fun bs s => .done (s.modCtx x.q x.c fun cx => cx.setS w.d.toNat (BitVec.ofNat 64 (ofBytes bs))))

/-- SATOM (R223): the operation lies in DISP32[31:28] and the displacement in [27:0]. -/
def execSatom (w : GM) (s : State) : Outcome State Fault Refusal :=
  genRun (.satom w) 0 (fun x =>
    let wd := 8 * gmSize w
    x.atomic w 28 fun old => some (satomNew (fieldN w.disp.toNat 28 4) wd old ((x.rd.S w.d.toNat).toNat % 2 ^ wd))) s

/-- SCAS (R223). -/
def execScas (w : GM) (s : State) : Outcome State Fault Refusal :=
  genRun (.scas w) 0 (fun x =>
    let wd := 8 * gmSize w
    x.atomic w 32 fun old =>
      if old = (x.rd.S w.d.toNat).toNat % 2 ^ wd then some ((x.rd.S (w.d.toNat + 1)).toNat % 2 ^ wd) else none) s

/-- SFENCE (R222, R230, R334): an acquire wider than the cluster leaves no copy in the cluster's L1 older than it; a release at CLUSTER scope or wider
orders the words that the context delivers afterwards.
(DEDUCED, log 55) -/
def execSfence (w : GM) (s : State) : Outcome State Fault Refusal :=
  genRun (.sfence w) 0 (fun x =>
    let s := x.s.modCtx x.q x.c fun cx => { cx with fenced := cx.fenced || (w.ord.getLsbD 1 && decide (2 ≤ w.scope.toNat)) }
    .done (if wideAcq w.ord.toNat w.scope.toNat then s.l1Clear x.sq.cluster else s)) s

/-- SPREF (R143, R222): a line that would fault is dropped; a prefetch into L2 alone changes no state of the model. -/
def execSpref (w : GM) (s : State) : Outcome State Fault Refusal :=
  genRun (.spref w) 0 (fun x =>
    let va := x.addr w 32
    if w.d.getLsbD 0 || decide (2 ^ 56 ≤ va) then .done x.s
    else match (x.s.translate x.acc va { rd := true }).1 with
      | .ok t =>
        if decide (cfgBase ≤ t.pa) || x.s.badLines.contains (t.pa / 128) || x.s.poison.contains (t.pa / 128)
            || (x.s.guardPa t.pa 1 false).isSome then .done x.s
        else .done (x.s.readL1 x.acc (pteZor t.leaf) (t.pa / 128 * 128) 8).2
      | .error _ => .done x.s) s

/-! ## MWAIT (R224) -/

/-- A read of MWAIT, which goes past the L1.
(DEDUCED, log 38) -/
def State.freshRead (s : State) (a : Access) (va n : Nat) (wide : Bool) : MR (List Byte) :=
  (s.translate a va { rd := true }).andThen fun x s =>
    let s := if wide || decide (cfgBase ≤ x.pa) then s else s.l1Forget a.cl a.owner (x.pa / 128)
    s.pread a va x.pa (pteZor x.leaf) n wide

/-- MWAIT (R224): in an uncommitted speculative task it waits for the commit (R385).
(DEDUCED, log 38) -/
def execMwait (w : GM) (s : State) : Outcome State Fault Refusal :=
  genRun (.mwait w) 0 (fun x =>
    let n := gmSize w
    let va := x.addr w 32
    let wide := wideAcq w.ord.toNat w.scope.toNat
    if x.s.speculative x.sq then .wait .spec x.s
    else x.addrCheck va n (lsizeOf n) false false
      (x.withMem (x.s.freshRead x.acc va n wide) va (lsizeOf n) false false fun bs s =>
        let v := ofBytes bs
        if v = (x.rd.S w.d.toNat).toNat % 2 ^ (8 * n) then .wait (.mwait (BitVec.ofNat 64 va) n w.d.toNat wide) s
        else .done (s.modCtx x.q x.c fun cx => cx.setS w.d.toNat (BitVec.ofNat 64 v)))) s

/-- MWAIT_REREAD (R224): the context (a, b), waiting in MWAIT, reads the value again and completes when it differs; a read that would
fault leaves the word to execute again. While the context is switched out the wait is abandoned (R213, R296).
(DEDUCED, log 38) -/
def evMwaitReread (s : State) : Outcome State Fault Refusal :=
  let q := s.operand.a
  let c := s.operand.b
  match s.squad q, s.ctx q c with
  | some sq, some cx =>
    match (if cx.preempted then none else cx.wait) with
    | some (.mwait addr n d wide) =>
      match (s.freshRead (s.genAccess sq) addr.toNat n wide) with
      | (.ok bs, s') =>
        let v := ofBytes bs
        if v = (cx.S d).toNat % 2 ^ (8 * n) then .next s
        else .next ((s'.modCtx q c fun cx => cx.setS d (BitVec.ofNat 64 v)).genDone q c .illegalGenOpc)
      | (.error _, _) => .next (s.modCtx q c fun cx => { cx with wait := none })
    | _ => .next s
  | _, _ => .next s

end Sys2Proof.Machine
end

