-- ==== Sys2Proof/Machine/Chan.lean ====
section
/-! DEFINITION. Channels (09_cluster_generator.md R209, R227; 10_cluster_engines.md R258 to R260, R264): the check a channel word makes, the
destinations of a stretch, and the emission sequencer. -/

namespace Sys2Proof.Machine

open Host (Outcome)

/-- What a channel word finds: its entry is invalid, names another owner's task (R259), or stands. -/
inductive ChanUse where
  | invalid
  | forged
  | ok
deriving DecidableEq, Repr

/-- The teams that c0 of a context names: those of its own squad that R209 assigns to it and no STREAM entry owns (R209, R260). -/
def ownC0 (sq : Squad) (q c : Nat) : List Nat :=
  (upTo sq.teams.length).filter fun t => match sq.teams[t]? with
    | some tm => tm.owner == some (q, c) && tm.stream.isNone
    | none => false

/-- The check of a STREAM channel (R264, R259). -/
def State.streamUse (s : State) (q c : Nat) (sq : Squad) (cx : Ctx) (ch : Nat) : ChanUse :=
  if ch = 0 then (if (ownC0 sq q c).isEmpty then .invalid else .ok)
  else if 64 ≤ ch then .invalid
  else
    let e0 := cx.chan ch 0
    let e1 := cx.chan ch 1
    if cx.chanKind ch ≠ 1 then .invalid
    else match s.task (entryTask e0 e1 sq.task) with
      | none => .invalid
      | some d =>
        if d.owner ≠ s.ownerOf sq then .forged
        else if !s.entryOk e0 e1 sq.task sq.instance_ || decide (48 < (s.foreignBelow sq cx ch).length + (s.foreignOf sq cx ch).length) then .invalid
        else if (entryDests e0 e1 sq.task sq.instance_).all (s.ownsDest sq cx ch) then .ok
        else .invalid

/-- Goes on when a STREAM channel stands; the trap holds the channel in TRAPINFO0 (R264). -/
def GenIn.withStream (x : GenIn) (ch : Nat) (f : GenRes) : GenRes :=
  match x.s.streamUse x.q x.c x.sq x.cx ch with
  | .ok => f
  | .invalid => .trap .channelInvalid [BitVec.ofNat 64 ch, 0, 0, 0] x.s
  | .forged => x.violation x.s 5 0 0 (((x.s.task (field64 (x.cx.chan ch 1) 0 32)).map (·.owner)).getD 0)

/-- The destinations of a channel when a stretch starts, as task, instance and team, in the channel's order: the teams that the entry owns (R10, R259).
(DEDUCED, log 35) -/
def State.chanDests (s : State) (sq : Squad) (q c : Nat) (cx : Ctx) (ch : Nat) : List (Nat × Nat × Nat) :=
  if ch = 0 then (ownC0 sq q c).map fun t => (sq.task, sq.instance_, t)
  else if cx.chanKind ch = 1 then (entryDests (cx.chan ch 0) (cx.chan ch 1) sq.task sq.instance_).filter (s.ownsDest sq cx ch)
  else []

/-! ## The sequencer (R227) -/

/-- Both places of the emission sequencer are taken.
(DEDUCED, log 32) -/
def Ctx.seqFull (cx : Ctx) : Bool := decide (2 ≤ cx.seq.length)

/-- The sequencer starts no stretch: the context is frozen or switched out, or a pre-emption of it that nothing defers awaits the stretch boundary at which
the sequencer stands (R295, R420). -/
def Ctx.seqStopped (cx : Ctx) : Bool := cx.frozen || cx.preempted || (cx.preemptReq.isSome && !cx.tmask)

/-- Queues an emission word's stretches.
(DEDUCED, log 32) -/
def Ctx.queue (cx : Ctx) (i : SeqItem) : Ctx := { cx with seq := cx.seq ++ [i] }

/-- The lane word that loads window `n` (R128, R234).
(DEDUCED, log 32) -/
def wsetWord (n : Nat) : DWord := BitVec.ofNat 64 (0x66 * 2 ^ 56 + n * 2 ^ 40)

/-- The stretch of two words by which a context's word loads a window on its teams (R234).
(DEDUCED, log 32) -/
def windowStretch (ch n : Nat) (w : Window) : SeqItem := .block ch [plainHeader, wsetWord n] (some w)

/-- Free slots of a team's buffer (R87). -/
def Team.slotsFree (tm : Team) : Nat := 512 - tm.buffer.length

/-- Every destination is resident with room for a stretch of `n` words (R87, R227, R259).
(DEDUCED, log 32) -/
def State.roomFor (s : State) (ds : List (Nat × Nat × Nat)) (n : Nat) : Bool :=
  ds.all fun d => match s.squadOfInstance d.1 d.2.1 with
    | some (_, sq) => match sq.teams[d.2.2]? with
      | some tm => !tm.evicted && decide (n ≤ tm.slotsFree)
      | none => true
    | none => false

/-- The words of a stretch as one destination receives them: the last bears the stretch-end mark, a WSET its window, each its origin, the issue mode of
the squad that emits it (R27), and, for a merged VOTE, the serial number of its record.
(DEDUCED, log 73) -/
def stretchWords (sq : Squad) (words : List DWord) (sys : Option Window) (o : Nat → Origin) (q c ch : Nat) (serial : Nat → Option Nat) : List BufWord :=
  words.zipIdx.map fun (w, i) =>
    { word := w, last := i + 1 == words.length, origin := o i, sys := if opcOf w = 0x66 then sys else none
      sq := q, sc := c, ch := ch, merge := serial i, native := sq.native, lLane := sq.lLane }

/-- After a release fence of the context at CLUSTER scope or wider, no other cluster that receives its words keeps a copy older than the fence (R230,
R335).
(DEDUCED, log 55) -/
def State.fenceDests (s : State) (q c : Nat) (dests : List (Nat × Nat)) : State :=
  match s.squad q, s.ctx q c with
  | some sq, some cx =>
    if cx.fenced then
      dests.foldl (fun s d => match s.squad d.1 with
        | some y => if y.cluster = sq.cluster then s else s.l1Clear y.cluster
        | none => s) s
    else s
  | _, _ => s

/-- The places of the VOTE words among the words of a stretch from place `i` on, of which the next `n` belong to a clause (R19): a header that does not
stand, and the words behind it, are none (R22).
(DEDUCED, log 32) -/
def votesIn : Nat → Nat → List DWord → List Nat
  | _, _, [] => []
  | i, 0, h :: ws => if headerBad h || decide (ws.length < field64 h 60 4) then [] else votesIn (i + 1) (field64 h 60 4) ws
  | i, n + 1, w :: ws => if opcOf w = 0x60 then i :: votesIn (i + 1) n ws else votesIn (i + 1) n ws

/-- Delivers a stretch to its destinations (R227): a VOTE on a channel with VMERGE opens one merged record (R236).
(DEDUCED, log 32) -/
def State.deliver (s : State) (sq : Squad) (q c ch : Nat) (merge : Bool) (ds : List (Nat × Nat × Nat)) (words : List DWord) (sys : Option Window)
    (o : Nat → Origin) : State :=
  let base := s.serial
  let votes := if merge then votesIn 0 0 words else []
  let dests := ds.filterMap fun d => (s.squadOfInstance d.1 d.2.1).map fun p => (p.1, d.2.2)
  let ws := stretchWords sq words sys o q c ch fun i => if votes.contains i then some (base + i) else none
  let s := dests.foldl (fun s d => s.modTeam d.1 d.2 fun tm => { tm with buffer := tm.buffer ++ ws }) (s.fenceDests q c dests)
  let parts : List Partial := votes.map fun i => { serial := base + i, dests := dests, parts := [], first := false, entry := false }
  let s := s.modCtx q c fun cx => { cx with partials := cx.partials ++ parts }
  { s with serial := base + words.length }

/-- A word that the context delivered, on channel `ch` or on any, has not retired (R235, R238). -/
def State.unretired (s : State) (q c : Nat) (ch : Option Nat) : Bool :=
  let hit (sq : Squad) : Bool := sq.teams.any fun tm => tm.buffer.any fun b => b.sq == q && b.sc == c && (ch == none || ch == some b.ch)
  s.squads.any fun p => hit p.2

/-- The channel of a queued emission. -/
def SeqItem.chan : SeqItem → Nat
  | .block ch _ _ => ch
  | .replay ch _ _ _ _ _ _ => ch

end Sys2Proof.Machine
end

