-- ==== Sys2Proof/Machine/GenEmit.lean ====
section
/-! DEFINITION. Emission, recording and replay (09_cluster_generator.md R228 to R235): EMIT, REC, REPLAY, PBDROP, TRANS and SDRAIN, and the
device steps of the emission sequencer (R227, R231, R233). -/

namespace Sys2Proof.Machine

open Host (Outcome)

/-! ## Holes (R228, R229) -/

/-- Fits of R228, for the word a hole names. -/
def holeFits (w : DWord) (v : Int) : Bool :=
  if formatLI (opcOf w) then decide (-(2 ^ 31 : Int) ≤ v) && decide (v ≤ 2 ^ 32 - 1)
  else decide (-(2 ^ 24 : Int) ≤ v) && decide (v ≤ 2 ^ 24 - 1)

/-- The word with its IMM or DISP field filled. -/
def holeFill (w : DWord) (v : Int) : DWord :=
  let n := if formatLI (opcOf w) then 32 else 25
  BitVec.ofNat 64 (putField w.toNat 0 n (wrapN v n))

/-- The block with each hole filled: the word of entry i takes value i. -/
def fillBlock (block : List DWord) : List Nat → List Int → List DWord
  | h :: hs, v :: vs => fillBlock (block.set h (holeFill (block.getD h 0) v)) hs vs
  | _, _ => block

/-- The first value that does not fit, with its index.
(DEDUCED, log 34) -/
def firstMisfit (block : List DWord) : Nat → List Nat → List Int → Option (Nat × Int)
  | i, h :: hs, v :: vs => if holeFits (block.getD h 0) v then firstMisfit block (i + 1) hs vs else some (i, v)
  | _, _, _ => none

/-- HOLE_RANGE (R232).
(DEDUCED, log 34) -/
def holeTrap (s : State) (i j : Nat) (v : Int) : GenRes :=
  .trap .holeRange [BitVec.ofNat 64 i, BitVec.ofNat 64 j, BitVec.ofInt 64 v, 0] s

/-- The entries of a hole-map word (R229). -/
def holeEntries (hm : DWord) : List Nat := (upTo 8).map fun i => field64 hm (8 * i) 8

/-- The hole map's own faults (R229), apart from the opcodes of the named words.
(DEDUCED, log 34) -/
def holeMapBad (hm : DWord) (nh len : Nat) : Bool :=
  let es := holeEntries hm
  let used := es.take nh
  (used.any fun e => e == 0xFF || decide (len ≤ e)) || !used.Nodup || (es.drop nh).any (· != 0xFF)

/-- Fetches `n` words in order, or tells how the first failure ends the word. -/
def GenIn.fetchWords (x : GenIn) : Nat → State → Nat → Except GenRes (List DWord × State)
  | 0, s, _ => .ok ([], s)
  | n + 1, s, va =>
    match s.fetch x.acc va with
    | (.error f, s) => .error (x.memFail s f va 3 false false true)
    | (.ok w, s) => match fetchWords x n s (va + 8) with
      | .error e => .error e
      | .ok (ws, s) => .ok (w :: ws, s)

/-- Fetches the words that a hole map names, in its order, and tests their opcodes (R229).
(DEDUCED, log 34) -/
def GenIn.holeWords (x : GenIn) (va : Nat) : List Nat → State → Except GenRes State
  | [], s => .ok s
  | h :: hs, s =>
    match s.fetch x.acc (va + 8 * h) with
    | (.error f, s) => .error (x.memFail s f (va + 8 * h) 3 false false true)
    | (.ok w, s) => if formatLI (opcOf w) || formatLM (opcOf w) then holeWords x va hs s else .error (.trap .reservedField [] s)

/-- The block of an EMIT or REC with its hole map, read and checked (R228, R229). -/
def GenIn.readBlock (x : GenIn) (w : GE) : Except GenRes (List Nat × List DWord × Nat × State) :=
  let p := x.cx.pc.toNat + 8
  let nh := w.nh.toNat
  let len := w.len.toNat
  if nh = 0 then
    match x.fetchWords len x.s p with
    | .error e => .error e
    | .ok (b, s) => .ok ([], b, p + 8 * len, s)
  else
    match x.fetchWords 1 x.s p with
    | .error e => .error e
    | .ok (hs, s) =>
      let hm := hs.headD 0
      let es := (holeEntries hm).take nh
      if holeMapBad hm nh len then .error (.trap .reservedField [] s)
      else match x.holeWords (p + 8) es s with
        | .error e => .error e
        | .ok s => match x.fetchWords len s (p + 8) with
          | .error e => .error e
          | .ok (b, s) => .ok (es, b, p + 8 + 8 * len, s)

/-- The values of a run of scalar registers, as signed integers. -/
def GenIn.svals (x : GenIn) (sb n : Nat) : List Int := (upTo n).map fun i => (x.rd.S (sb + i)).toInt

/-- EMIT or REC must end its clause (R23). -/
def Ctx.lastInClause (cx : Ctx) : Bool :=
  match cx.clause with
  | some c => c.idx + 1 == c.len
  | none => true

/-- The common part of EMIT and REC (R228): `store` keeps the recording.
(DEDUCED, log 34) -/
def GenIn.emit (x : GenIn) (w : GE) (store : List Nat → List DWord → State → Except GenRes State) : GenRes :=
  if !x.cx.lastInClause then .trap .clauseFormat [] x.s
  else if x.cx.seqFull then .wait .emission x.s
  else x.withStream w.ch.toNat (match x.readBlock w with
    | .error e => e
    | .ok (hs, b, next, s) =>
      let vs := x.svals w.sb.toNat w.nh.toNat
      match firstMisfit b 0 hs vs with
      | some (i, v) => holeTrap s i 0 v
      | none => match store hs b s with
        | .error e => e
        | .ok s =>
          .goto (BitVec.ofNat 64 next) (s.modCtx x.q x.c fun cx => cx.queue (.block w.ch.toNat (fillBlock b hs vs) none)))

/-- EMIT (R228). -/
def execEmit (w : GE) (s : State) : Outcome State Fault Refusal := genRun (.emit w) 0 (fun x => x.emit w fun _ _ s => .ok s) s

/-! ## The Playbook (R231 to R233) -/

/-- Words that a recording counts (R232). -/
def Recording.words (r : Recording) : Nat := r.block.length + 1

/-- The recordings that queued replays of a squad still hold (R231, R232).
(DEDUCED, log 33) -/
def Squad.replaying (sq : Squad) : List Recording :=
  sq.ctxs.flatMap fun cx => cx.seq.filterMap fun i => match i with
    | .replay _ _ r _ _ _ _ => some r
    | .block _ _ _ => none

/-- The recordings among `l` that are not in `seen`, each once. -/
def freshRecs (seen : List Nat) : List Recording → List Recording
  | [] => []
  | r :: t => if seen.contains r.serial then freshRecs seen t else r :: freshRecs (r.serial :: seen) t

/-- Words of a squad's recordings, dropped ones included while a replay queued earlier holds them (R232).
(DEDUCED, log 33) -/
def Squad.playWords (sq : Squad) : Nat :=
  let live := sq.playbook.map (·.2)
  ((live ++ freshRecs (live.map (·.serial)) sq.replaying).map (·.words)).sum

/-- PLAYBOOK_ID (R232).
(DEDUCED, log 33) -/
def playTrap (s : State) (id reason : Nat) : GenRes :=
  .trap .playbookId [BitVec.ofNat 64 id, BitVec.ofNat 64 reason, 0, 0] s

/-- Words of the recording of a serial number on a cluster. -/
def State.recWords (s : State) (cl serial : Nat) : Nat :=
  ((s.squads.filter fun p => p.2.cluster == cl).findSome? fun p =>
    ((p.2.playbook.map (·.2) ++ p.2.replaying).find? fun r => r.serial == serial).map (·.words)).getD 0

/-- The newest recordings of a list that 256 KiB hold (R233).
(DEDUCED, log 33) -/
def fitOnChip (size : Nat → Nat) : Nat → List Nat → List Nat
  | _, [] => []
  | room, r :: t => if size r ≤ room then r :: fitOnChip size (room - size r) t else []

/-- A recording comes on chip (R233).
(DEDUCED, log 33) -/
def State.bringOnChip (s : State) (cl serial : Nat) : State :=
  s.modCluster cl fun c => { c with onchip := fitOnChip (s.recWords cl) 32768 (serial :: c.onchip.filter (· != serial)) }

/-- REC (R228, R232).
(DEDUCED, log 33) -/
def execRecw (w : GE) (s : State) : Outcome State Fault Refusal :=
  genRun (.recw w) 0 (fun x =>
    let id := w.id.toNat
    x.emit w fun hs b s =>
      let r : Recording := { serial := s.serial, block := b, holes := hs }
      match s.squad x.q with
      | none => .ok s
      | some sq =>
        if (aget? sq.playbook id).isSome && !w.fl.getLsbD 0 then .error (playTrap s id 1)
        else
          let sq' := { sq with playbook := aset sq.playbook id r }
          if 262144 < sq'.playWords then .error (playTrap s id 2)
          else .ok (State.bringOnChip { (s.setSquad x.q sq') with serial := s.serial + 1 } sq.cluster r.serial)) s

/-- REPLAY (R231).
(DEDUCED, log 34) -/
def execReplay (w : GE) (s : State) : Outcome State Fault Refusal :=
  genRun (.replay w) 0 (fun x =>
    let id := w.id.toNat
    let cnt := w.len.toNat
    let n := max cnt 1
    let sb := w.sb.toNat
    if x.cx.seqFull then .wait .emission x.s
    else match aget? x.sq.playbook id with
      | none => playTrap x.s id 0
      | some r =>
        let h := r.holes.length
        if (h ≠ 0 ∧ 255 < sb + h - 1) ∨ (1 ≤ cnt ∧ 255 < sb + 7 + h) then .trap .reservedField [] x.s
        else
          let base := x.svals sb h
          let step := if 1 ≤ cnt then x.svals (sb + 8) h else List.replicate h 0
          let last := List.zipWith (fun (b d : Int) => b + ((n - 1 : Nat) : Int) * d) base step
          x.withStream w.ch.toNat (
            match firstMisfit r.block 0 r.holes base, firstMisfit r.block 0 r.holes last with
            | some (i, v), some (k, u) => if i ≤ k then holeTrap x.s i 0 v else holeTrap x.s k (n - 1) u
            | some (i, v), none => holeTrap x.s i 0 v
            | none, some (k, u) => holeTrap x.s k (n - 1) u
            | none, none => x.finish (x.cx.queue (.replay w.ch.toNat id r base step n 0)))) s

/-- PBDROP (R232).
(DEDUCED, log 33) -/
def execPbdrop (w : GR) (s : State) : Outcome State Fault Refusal :=
  genRun (.pbdrop w) w.cnd (fun x =>
    let id := fieldN w.imm.toNat 0 12
    match aget? x.sq.playbook id with
    | none => playTrap x.s id 0
    | some _ => .done (x.s.modSquad x.q fun sq => { sq with playbook := adel sq.playbook id })) s

/-! ## SDRAIN (R235) -/

/-- Everything that the context issued on a channel, or on all, has been delivered and has retired.
(DEDUCED, log 32) -/
def State.drained (s : State) (q c : Nat) (ch : Option Nat) : Bool :=
  match s.ctx q c with
  | some cx => !(cx.seq.any fun i => ch == none || ch == some i.chan) && !s.unretired q c ch
  | none => true

/-- The channel of an SDRAIN word, none for ALL. -/
def sdrainChan (w : GR) : Option Nat := if w.imm.getLsbD 6 then none else some (fieldN w.imm.toNat 0 6)

/-- SDRAIN (R235): its completion is a DEVICE-scope acquire of the words drained (R335).
(DEDUCED, log 32) -/
def execSdrain (w : GR) (s : State) : Outcome State Fault Refusal :=
  genRun (.sdrain w) w.cnd (fun x =>
    let body : GenRes :=
      if x.s.drained x.q x.c (sdrainChan w) then .done (x.s.l1Clear x.sq.cluster) else .wait (.sdrain (sdrainChan w)) x.s
    match sdrainChan w with
    | none => body
    | some ch => if ch = 0 then body else x.withStream ch body) s

/-! ## Delivery (R227, R231) -/

/-- STRETCH_DELIVER (R227): the sequencer of context (a, b), unless it is stopped, delivers its oldest stretch, whole, to every destination,
once each has room.
(DEDUCED, log 32) -/
def evStretchDeliver (s : State) : Outcome State Fault Refusal :=
  let q := s.operand.a
  let c := s.operand.b
  match s.squad q, s.ctx q c with
  | some sq, some cx =>
    match cx.seq with
    | .block ch words sys :: rest =>
      let ds := s.chanDests sq q c cx ch
      if !cx.seqStopped && s.roomFor ds words.length then
        .next ((s.deliver sq q c ch ((cx.chan ch 0).getLsbD 2) ds words sys fun _ => .direct).modCtx q c fun cx =>
          { cx with seq := rest, wait := if cx.wait = some .emission then none else cx.wait })
      else .next s
    | _ => .next s
  | _, _ => .next s

/-- REPLAY_ITERATION (R231): the sequencer of context (a, b), unless it is stopped, delivers the next iteration of its replay, whose recording is on chip (R233).
(DEDUCED, log 32) -/
def evReplayIteration (s : State) : Outcome State Fault Refusal :=
  let q := s.operand.a
  let c := s.operand.b
  match s.squad q, s.ctx q c with
  | some sq, some cx =>
    match cx.seq with
    | .replay ch id r next step left iter :: rest =>
      let ds := s.chanDests sq q c cx ch
      if !cx.seqStopped && (s.cluster sq.cluster).onchip.contains r.serial && s.roomFor ds r.block.length then
        let s := s.deliver sq q c ch ((cx.chan ch 0).getLsbD 2) ds (fillBlock r.block r.holes next) none fun i => .replay id i iter
        .next (s.modCtx q c fun cx =>
          if left ≤ 1 then { cx with seq := rest, wait := if cx.wait = some .emission then none else cx.wait }
          else { cx with seq := .replay ch id r (List.zipWith (fun (b d : Int) => b + d) next step) step (left - 1) (iter + 1) :: rest })
      else .next s
    | _ => .next s
  | _, _ => .next s

/-- PLAYBOOK_FILL (R233): the recording that the replay of context (a, b) awaits comes on chip.
(DEDUCED, log 33) -/
def evPlaybookFill (s : State) : Outcome State Fault Refusal :=
  let q := s.operand.a
  let c := s.operand.b
  match s.squad q, s.ctx q c with
  | some sq, some cx =>
    match cx.seq with
    | .replay _ _ r _ _ _ _ :: _ =>
      if (s.cluster sq.cluster).onchip.contains r.serial then .next s else .next (s.bringOnChip sq.cluster r.serial)
    | _ => .next s
  | _, _ => .next s

end Sys2Proof.Machine
end

