-- ==== Sys2Proof/Machine/GenTrans.lean ====
section
/-! DEFINITION. TRANS (09_cluster_generator.md R234; 15_die_memory.md R313; 18_die_tasks.md R366; 25_fabric.md R435): the window descriptor and the translation by another package. -/

namespace Sys2Proof.Machine

open Host (Outcome)

/-! ## Window descriptors (R313) -/

/-- A window descriptor from its fields.
(DEDUCED, log 37) -/
def mkWindow (kind : Nat) (rd wr : Bool) (base key frame devid aux limit : Nat) : Window :=
  { w0 := BitVec.ofNat 64 (kind * 2 ^ 60 + b2n wr * 2 ^ 58 + b2n rd * 2 ^ 57 + base % 2 ^ 56)
    w1 := BitVec.ofNat 64 (key * 2 ^ 52 + frame / 128 % 2 ^ 45 * 128)
    w2 := BitVec.ofNat 64 (devid * 2 ^ 50 + aux * 2 ^ 32 + limit % 2 ^ 32) }

/-- The MEM descriptor for bytes from a translated address on. An address in a declared span of the task resolves to the task's version of the span,
whose end bounds the limit too (R366).
(DEDUCED, log 37) -/
def State.memWindow (s : State) (owner : Nat) (task : Option Task) (va want : Nat) (rd wr : Bool) (x : Xl) : Window :=
  let room := min want (x.base + x.size - va)
  let make (frame limit : Nat) : Window :=
    { mkWindow 1 (rd && x.leaf.getLsbD 4) (wr && x.leaf.getLsbD 5) va owner frame 0 0 limit with pgBase := x.base, pgSize := x.size, zor := pteZor x.leaf }
  match task.bind fun t => (t.spanRoom va).map fun n => (t, n) with
  | some (t, n) => { make ((s.versionPa t va).getD x.pa) (min room n) with span := some t.id, home := x.pa }
  | none => make x.pa room

/-! ## Requests of a context to another package (R434, R435) -/

/-- A context's request to another package: issued once, then its response, or how the word ends without one.
(DEDUCED, log 37) -/
def GenIn.remote (x : GenIn) (op dev addr : Nat) (va : Nat) (f : List Byte → State → GenRes) : GenRes :=
  let s := x.s
  let fail (c : Cause) (s : State) : GenRes := x.memFail s (.cause c 0) va 0 false false false
  match s.fabric.out.find? fun r => r.src == .ctx x.q x.c with
  | none =>
    if !s.reachable dev then fail .fabricUnreachable s
    else if 1024 ≤ s.remoteOut x.sq.cluster then .wait .remote s
    else
      let r : RemoteReq :=
        { id := s.fabric.nextReq, cluster := x.sq.cluster, src := .ctx x.q x.c, lane := 0, op := op, dev := dev, addr := addr, size := 0
          data := [x.s.ownerOf x.sq], issued := s.now }
      .wait .remote { s with fabric := { s.fabric with nextReq := s.fabric.nextReq + 1, out := s.fabric.out ++ [r] } }
  | some r =>
    match s.fabric.results.find? fun z => z.1 == r.id with
    | none => .wait .remote s
    | some (_, status, bs) =>
      let s := { s with fabric := { s.fabric with
        out := s.fabric.out.filter (·.id != r.id), results := s.fabric.results.filter (·.1 != r.id) } }
      match status with
      | 0 => f bs s
      | 2 => fail .poison s
      | 3 => fail .windowInvalid s
      | 4 => fail .uncorrectableData s
      | 5 => fail .protection s
      | _ => fail .fabricUnreachable s

/-- The request code of a remote translation.
(DEDUCED, log 37) -/
def opTranslate : Nat := 13

/-- TRANS (R234, R366, R435). A remote answer holds the target frame's address, the bytes to the end of its page, its permissions, and log2 of
the page size. The spec gives no order among the checks of S(B), of the channel and of the address.
(DEDUCED, log 37; DESIGN CHOICE, log 80) -/
def execTrans (w : GR) (s : State) : Outcome State Fault Refusal :=
  genRun (.trans w) w.cnd (fun x =>
    let va := (x.rd.S w.a.toNat).toNat
    let b := x.rd.S w.b.toNat
    let remote := w.fn.getLsbD 0
    let rd := w.fn.getLsbD 1
    let wr := w.fn.getLsbD 2
    let ch := fieldN w.imm.toNat 0 6
    let want := field64 b 0 48
    let owner := x.s.ownerOf x.sq
    let queue (s : State) (win : Window) : GenRes :=
      .done (s.modCtx x.q x.c fun cx => cx.queue (windowStretch ch (fieldN w.d.toNat 0 3) win))
    if x.cx.seqFull then .wait .emission x.s
    else if field64 b 62 2 ≠ 0 ∨ (!remote ∧ field64 b 48 14 ≠ 0) then .trap .reservedField [] x.s
    else x.withStream ch (x.addrCheck va 128 0 false false (
      if remote then
        let dev := field64 b 48 14
        x.remote opTranslate dev va va fun bs s =>
          let perm := ofBytes ((bs.drop 16).take 1)
          let size := 2 ^ ofBytes ((bs.drop 17).take 1)
          queue s { mkWindow 4 (rd && perm.testBit 0) (wr && perm.testBit 1) va owner (ofBytes (bs.take 8)) dev 0
            (min want (ofBytes ((bs.drop 8).take 8))) with
            pgBase := va - va % size, pgSize := size }
      else x.withMem (x.s.translate x.acc va {}) va 0 false false fun t s =>
        queue s (s.memWindow owner (s.task x.sq.task) va want rd wr t)))) s

end Sys2Proof.Machine
end

