-- ==== Sys2Proof/Machine/RegionTree.lean ====
section
/-! DEFINITION. Coordinate regions as data (17_die_sparse.md R345 to R347, R355 to R357): shapes, keys, region values, and the tree with its
node budget. -/

namespace Sys2Proof.Machine

/-! ## Shapes and keys (R345, R346) -/

/-- Rank of a shape word. -/
def shapeRank (w : Nat) : Nat := fieldN w 3 2 + 1

/-- Width of dimension `d`. -/
def shapeWidth (w d : Nat) : Nat := fieldN w (5 + 6 * d) 6 + 1

/-- The value type of a shape word (R346). -/
def shapeTy (w : Nat) : NumTy :=
  match fieldN w 0 3 with
  | 0 => .i32 | 1 => .i64 | 2 => .f32 | 3 => .bf16 | _ => .f16

/-- A shape word within R346: value types 0 to 4, zero fields above the rank, widths that sum to 64. -/
def shapeOk (w : Nat) : Bool :=
  decide (w < 2 ^ 29) && decide (fieldN w 0 3 ≤ 4)
    && ((upTo 4).all fun d => decide (d < shapeRank w) || fieldN w (5 + 6 * d) 6 == 0)
    && ((upTo (shapeRank w)).map (shapeWidth w)).sum == 64

/-- Registers of a coordinate of dimension `d` (R353). -/
def coordRegs (w d : Nat) : Nat := if shapeWidth w d ≤ 32 then 1 else 2

/-- Registers before the coordinate of dimension `d`. -/
def coordAt (w d : Nat) : Nat := ((upTo d).map (coordRegs w)).sum

/-- The packed key of coordinates, the first most significant (R345). -/
def packKey (w : Nat) : Nat → List Int → Nat
  | _, [] => 0
  | d, c :: cs => c.toNat * 2 ^ (((upTo (shapeRank w)).drop (d + 1)).map (shapeWidth w)).sum + packKey w (d + 1) cs

/-- Coordinate `d` of a packed key. -/
def keyCoord (w key d : Nat) : Nat := fieldN key (((upTo (shapeRank w)).drop (d + 1)).map (shapeWidth w)).sum (shapeWidth w d)

/-- The key that is never present. -/
def noKey : Nat := 2 ^ 64 - 1

/-! ## Region values and windows (R347) -/

/-- A region value. -/
def regionValue (owner gen die index : Nat) : Nat := owner * 2 ^ 18 + gen * 2 ^ 12 + die * 2 ^ 10 + index

/-- The live region of an owner, die, index and generation. -/
def State.regionAt (s : State) (owner gen die index : Nat) : Option Region :=
  match aget? (s.die die).regions index with
  | some r => if r.live && r.gen == gen && r.owner == owner then some r else none
  | none => none

/-- Changes an entry of a die's region table. -/
def State.setRegion (s : State) (die index : Nat) (r : Region) : State := s.modDie die fun d => { d with regions := aset d.regions index r }

/-! ## Trees (R355, R356) -/

/-- Node `i` of a region. -/
def Region.node (r : Region) (i : Nat) : RegNode := (aget? r.nodes i).getD { leaf := true, keys := [] }

/-- Which child of an inner node holds a key: the number of its keys that are at most the key. -/
def RegNode.branch (n : RegNode) (k : Nat) : Nat := (n.keys.filter (· ≤ k)).length

/-- The nodes from the root, or `i`, to the leaf for a key, each with the branch taken; `f` bounds the depth. -/
def Region.pathFrom (r : Region) (k : Nat) : Nat → Nat → List (Nat × Nat)
  | 0, i => [(i, 0)]
  | f + 1, i =>
    let n := r.node i
    if n.leaf then [(i, 0)] else (i, n.branch k) :: pathFrom r k f (n.kids.getD (n.branch k) 0)

/-- The path for a key. -/
def Region.path (r : Region) (k : Nat) : List (Nat × Nat) := r.pathFrom k (r.nodes.length + 1) r.root

/-- The leaf for a key. -/
def Region.leafOf (r : Region) (k : Nat) : Nat := ((r.path k).getLast?.map (·.1)).getD r.root

/-- The value of a key, when present. -/
def Region.find (r : Region) (k : Nat) : Option DWord :=
  let n := r.node (r.leafOf k)
  ((n.keys.zip n.vals).find? fun p => p.1 == k).map (·.2)

/-- The entries below node `i` in key order. -/
def Region.entriesFrom (r : Region) : Nat → Nat → List (Nat × DWord)
  | 0, _ => []
  | f + 1, i =>
    let n := r.node i
    if n.leaf then n.keys.zip n.vals else n.kids.flatMap (entriesFrom r f)

/-- Every entry in key order. -/
def Region.entries (r : Region) : List (Nat × DWord) := r.entriesFrom (r.nodes.length + 1) r.root

/-- The entry with the smallest key above a bound. -/
def Region.next (r : Region) (lo : Int) : Option (Nat × DWord) := r.entries.find? fun p => decide (lo < (p.1 : Int))

/-- A node without room for one more entry, or child. -/
def RegNode.fullUp (n : RegNode) : Bool := if n.leaf then decide (16 ≤ n.keys.length) else decide (15 ≤ n.keys.length)

/-- New nodes that inserting an absent key takes (R356): one for each full node from the leaf up, and a root when all are full. -/
def Region.nodesNeeded (r : Region) (k : Nat) : Nat :=
  let up := (r.path k).reverse.map fun p => (r.node p.1).fullUp
  let n := (up.takeWhile id).length
  if n = up.length then n + 1 else n

/-- Free nodes of the pool. -/
def Region.freeNodes (r : Region) : Nat := r.count - r.nodes.length

/-- A number no node of the region has.
(DEDUCED, log 29) -/
def Region.fresh (r : Region) : Nat := ((upTo (r.nodes.length + 1)).find? fun i => (aget? r.nodes i).isNone).getD r.nodes.length

/-- Writes a node. -/
def Region.put (r : Region) (i : Nat) (n : RegNode) : Region := { r with nodes := aset r.nodes i n }

/-- A list with an element put in at an index.
(DEDUCED, log 29) -/
def insertAt {α : Type} (l : List α) (i : Nat) (x : α) : List α := l.take i ++ x :: l.drop i

/-- A split child passes its middle key and new sibling to the inner nodes above, nearest first (R356).
(DEDUCED, log 29) -/
def Region.passUp (r : Region) : List (Nat × Nat) → Nat → Nat → Region
  | [], k, kid =>
    let i := r.fresh
    { (r.put i { leaf := false, keys := [k], kids := [r.root, kid] }) with root := i }
  | (i, b) :: up, k, kid =>
    let n := r.node i
    let n' : RegNode := { n with keys := insertAt n.keys b k, kids := insertAt n.kids (b + 1) kid }
    if n'.keys.length ≤ 15 then r.put i n'
    else
      let r := r.put i { n' with keys := n'.keys.take 8, kids := n'.kids.take 9 }
      let j := r.fresh
      passUp (r.put j { n' with keys := n'.keys.drop 9, kids := n'.kids.drop 9 }) up (n'.keys.getD 8 0) j

/-- An absent key inserted, or a present one's value replaced; the pool has the nodes it takes.
(DEDUCED, log 29) -/
def Region.insert (r : Region) (k : Nat) (v : DWord) : Region :=
  match (r.path k).reverse with
  | [] => r
  | (i, _) :: up =>
    let n := r.node i
    let b := (n.keys.filter (· < k)).length
    if n.keys.contains k then r.put i { n with vals := n.vals.set b v }
    else
      let n' : RegNode := { n with keys := insertAt n.keys b k, vals := insertAt n.vals b v }
      if n'.keys.length ≤ 16 then r.put i n'
      else
        let r := r.put i { n' with keys := n'.keys.take 9, vals := n'.vals.take 9 }
        let j := r.fresh
        (r.put j { n' with keys := n'.keys.drop 9, vals := n'.vals.drop 9 }).passUp up (n'.keys.getD 9 0) j

/-- An emptied node other than the root returns to the pool, and so on upwards (R356). -/
def Region.dropUp (r : Region) : List (Nat × Nat) → Region
  | [] => r
  | (i, b) :: up =>
    let n := r.node i
    let n' : RegNode := { n with keys := n.keys.eraseIdx (b - 1), kids := n.kids.eraseIdx b }
    if !n'.kids.isEmpty then r.put i n'
    else if i = r.root then r.put i { leaf := true, keys := [] }
    else dropUp { r with nodes := adel r.nodes i } up

/-- A key deleted. -/
def Region.erase (r : Region) (k : Nat) : Region :=
  match (r.path k).reverse with
  | [] => r
  | (i, _) :: up =>
    let n := r.node i
    if !n.keys.contains k then r
    else
      let b := n.keys.idxOf k
      let n' : RegNode := { n with keys := n.keys.eraseIdx b, vals := n.vals.eraseIdx b }
      if n'.keys.isEmpty && i != r.root then ({ r with nodes := adel r.nodes i } : Region).dropUp up else r.put i n'

/-! ## Errors in nodes (R328, R354) -/

/-- The physical address of node `i`, of 256 bytes in the pool. -/
def Region.nodePa (r : Region) (i : Nat) : Nat :=
  let va := r.base + 256 * i
  ((r.frames.find? fun f => decide (f.1 ≤ va) && decide (va < f.1 + f.2.2)).map fun f => f.2.1 + (va - f.1)).getD 0

/-- Reads the lines of a list of nodes for errors, an uncorrectable one before poison (R354). -/
def State.nodesCheck (s : State) (r : Region) (is : List Nat) : MR Unit :=
  s.linesCheck r.owner false (is.flatMap fun i => linesOf (r.nodePa i) 256)

end Sys2Proof.Machine
end

