-- ==== Sys2Proof/Machine/Region.lean ====
section
/-! DEFINITION. The region words (17_die_sparse.md R348 to R357): SPLD, SPST, SPNEXT, SPADD of lanes, SPNEW and SPFREE of contexts. -/

namespace Sys2Proof.Machine

open Host (Outcome)

/-! ## Lane words -/

/-- The region a COORD window names, with its die and index (R347).
(DEDUCED, log 29) -/
def State.windowRegion (s : State) (w : Window) : Option (Nat × Nat × Region) :=
  let die := fieldN w.aux 6 2
  let index := fieldN w.aux 8 10
  if w.kind ≠ 3 then none
  else (s.regionAt w.key (fieldN w.aux 0 6) die index).map fun r => (die, index, r)

/-- The region value of a COORD window, as a parking reports it (R354). -/
def Window.regionValue (w : Window) : Nat :=
  if w.kind = 3 then Sys2Proof.Machine.regionValue w.key (fieldN w.aux 0 6) (fieldN w.aux 6 2) (fieldN w.aux 8 10) else 0

/-- What a region word does for a lane: the result of its step on the region, with a value for the lane. -/
inductive RegStep where
  | fail (c : Cause) (w2 w3 : Nat)
  | ok (r : Region) (v : Nat)

/-- The coordinate that a lane names, the last one with DISP added (R353). -/
def LaneIn.coords (x : LaneIn) (w : LM) (shape l : Nat) : List Int :=
  let rank := shapeRank shape
  (upTo rank).map fun d =>
    let r := w.a.toNat + coordAt shape d
    let c : Int := if coordRegs shape d = 2 then (x.rd.V64 l r).toNat else (x.rd.V l r).toNat
    if d + 1 = rank then c + signed w.disp.toNat 25 else c

/-- The start marker of SPNEXT (R357). -/
def LaneIn.startMark (x : LaneIn) (w : LM) (shape l : Nat) : Bool :=
  signed w.disp.toNat 25 == 0
    && (upTo (coordAt shape (shapeRank shape))).all fun j => x.rd.V l (w.a.toNat + j) == 0xFFFFFFFF#32

/-- The key of coordinates, or the dimension that COORD_RANGE reports (R354). -/
def keyOf (shape : Nat) (cs : List Int) : Except Nat Nat :=
  match (cs.zipIdx.find? fun p => decide (p.1 < 0) || decide (((2 ^ shapeWidth shape p.2 : Nat) : Int) ≤ p.1)) with
  | some p => .error p.2
  | none =>
    let k := packKey shape 0 cs
    if k = noKey then .error (shapeRank shape) else .ok k

/-- Data registers of the region's value type. -/
def valueRegs (t : NumTy) : Nat := if t.width = 64 then 2 else 1

/-- A register run of a region word that does not fit (R354). -/
def LaneIn.badRun (x : LaneIn) (v k : Nat) (pair : Bool) : Bool := (pair && v % 2 == 1) || decide (x.tm.n < v + k)

/-- The register checks of R354: `next` tells SPNEXT. -/
def LaneIn.regionRegs (x : LaneIn) (w : LM) (shape : Nat) (t : NumTy) (next : Bool) : Bool :=
  let coordsBad (v : Nat) : Bool :=
    (upTo (shapeRank shape)).any fun d => x.badRun (v + coordAt shape d) (coordRegs shape d) (coordRegs shape d == 2)
  let k := coordAt shape (shapeRank shape)
  let v := if next then w.d.toNat + k else w.d.toNat
  coordsBad w.a.toNat || (next && coordsBad w.d.toNat) || x.badRun v (valueRegs t) (t.width == 64)

/-- The lanes of a region word in ascending order.
(DESIGN CHOICE, log 2) -/
def regionLanes (win : Window) (f : State → Region → Nat → MR Unit × RegStep) (info : Nat → Cause → Nat → Nat → Stop) :
    List Nat → LaneSt → LaneSt
  | [], z => z
  | l :: ls, z =>
    match z.s.windowRegion win with
    | none => regionLanes win f info ls { z with stops := z.stops ++ [(l, info l .windowInvalid 0 0)] }
    | some (die, index, r) =>
      match f z.s r l with
      | (_, .fail c w2 w3) => regionLanes win f info ls { z with stops := z.stops ++ [(l, info l c w2 w3)] }
      | ((.error (.cause c _), s), _) => regionLanes win f info ls { z with s := s, stops := z.stops ++ [(l, info l c 0 0)] }
      | ((.error _, s), _) => regionLanes win f info ls { z with s := s, stops := z.stops ++ [(l, info l .uncorrectableData 0 0)] }
      | ((.ok _, s), .ok r' v) => regionLanes win f info ls { z with s := s.setRegion die index r', vals := z.vals ++ [(l, v)] }

/-- The lanes of a region word after a lane that could not be performed: the lanes that `kin` names with it, whose addends it would have stored, are not
performed either.
(DEDUCED, log 29) -/
def failKin (info : Nat → Cause → Nat → Nat → Stop) (kin : Nat → List Nat) (z : LaneSt) : LaneSt :=
  z.stops.foldl (fun z p => match p.2 with
    | .fault c i _ =>
      let ls := (kin p.1).filter fun l => z.vals.any fun v => v.1 == l
      { z with
        vals := z.vals.filter fun v => !ls.contains v.1
        stops := z.stops ++ ls.map fun l => (l, info l c (i.getD 2 0).toNat (i.getD 3 0).toNat) }
    | _ => z) z

/-- The lanes that a region word performs before other masters may step (R355): all, or those of its first `n + 1` whose `kin` are among them.
(DESIGN CHOICE, log 1) -/
def lanesNow (limit : Option Nat) (kin : Nat → List Nat) (ls : List Nat) : List Nat :=
  match limit with
  | none => ls
  | some n =>
    let now := ls.take (n + 1)
    now.filter fun l => (kin l).all now.contains

/-- The registers from which the lanes of a region word take coordinates and data (R353): none that no COORD window gives a place.
(DEDUCED, log 29) -/
def LaneIn.regionReads (x : LaneIn) (w : LM) (wr : Bool) : List Nat :=
  let win := x.tm.window w.w.toNat
  if win.kind = 3 then
    runRegs w.a.toNat (coordAt win.limit (shapeRank win.limit)) ++ if wr then runRegs w.d.toNat (valueRegs (shapeTy win.limit)) else []
  else []

/-- The shape all four region words share: the checks of R354, whose trap at issue names the lowest lane of M, the registers' own errors, the lanes, and the
registers that `put` writes for the lanes performed. `kin` names the lanes whose addends a lane stores with its own.
(DESIGN CHOICE, log 1; DEDUCED, log 29) -/
def LaneIn.region (x : LaneIn) (w : LM) (rd wr next : Bool) (f : State → Region → Nat → MR Unit × RegStep)
    (put : Region → LaneSt → Team → Team) (kin : Region → Nat → List Nat := fun _ _ => []) : LaneRes :=
  let win := x.tm.window w.w.toNat
  let mw : MemWord := { win := w.w.toNat, wr := wr, lsize := lsizeOf (((x.ty w.ty).width) / 8) }
  let info (l : Nat) (c : Cause) (w2 w3 : Nat) : Stop :=
    .fault c [BitVec.ofNat 64 win.regionValue, BitVec.ofNat 64 (mw.map l), BitVec.ofNat 64 w2, BitVec.ofNat 64 w3] []
  let s := if wideAcq w.ord.toNat w.scope.toNat then x.s.l1Clear x.sq.cluster else x.s
  let lanes := x.tm.lanesOf x.m
  let whole : List DWord := [BitVec.ofNat 64 win.regionValue, BitVec.ofNat 64 (mw.map (lanes.headD 0)), 0, 0]
  let reads (k : LaneRes) : LaneRes := match x.tm.badIn (x.regionReads w wr) x.m with
    | some (r, l) => x.uncorrectable x.m (badInfo whole r l) x.s
    | none => k
  match x.s.windowRegion win with
  | none => reads (x.ending x.s x.master (lanes.map fun l => (l, info l .windowInvalid 0 0)))
  | some (_, _, r) =>
    let t := shapeTy r.shape
    if x.m ≠ 0 ∧ x.ty w.ty ≠ t then x.trap .illegalType whole
    else if x.m ≠ 0 ∧ x.regionRegs w r.shape t next then x.trap .reservedField whole
    else reads <|
    if wr && x.s.speculative x.sq && x.m != 0 then .wait .spec x.s
    else if (rd && !win.rd) || (wr && !win.wr) then x.ending x.s x.master (lanes.map fun l => (l, info l .protection 0 0))
    else
      let now := lanesNow x.s.limit (kin r) lanes
      let z := failKin info (kin r) (regionLanes win f info now { s := s })
      let s := z.s.modTeam x.q x.t (put r z)
      let stops := z.ordered x.tm.lanes
      match lanes.filter fun l => !now.contains l with
      | [] => x.ending s x.master stops
      | rest => .more (maskOf rest) (s.modTeam x.q x.t fun tm => { tm with faulted := x.tm.faults stops })

/-- The nodes on the path of a key. -/
def Region.pathNodes (r : Region) (k : Nat) : List Nat := (r.path k).map (·.1)

/-- A region step for the key of a lane. -/
def LaneIn.keyed (x : LaneIn) (w : LM) (s : State) (r : Region) (l : Nat) (f : Nat → RegStep) : MR Unit × RegStep :=
  match keyOf r.shape (x.coords w r.shape l) with
  | .error d => ((.ok (), s), .fail .coordRange d 0)
  | .ok k => match f k with
    | .fail c w2 w3 => ((.ok (), s), .fail c w2 w3)
    | .ok r' v => (s.nodesCheck r (r.pathNodes k), .ok r' v)

/-- Stores a value code at a key: a zero deletes (R355); an insertion needs its nodes (R356). -/
def storeAt (r : Region) (t : NumTy) (k c : Nat) : RegStep :=
  if (t.decode c).isZero || c == 0 then .ok (r.erase k) 0
  else if (r.find k).isNone && decide (r.freeNodes < r.nodesNeeded k) then .fail .indexExhausted k (r.nodesNeeded k)
  else .ok (r.insert k (BitVec.ofNat 64 c)) 0

/-- Writes a region value of each performed lane to a register. -/
def putValue (t : NumTy) (d : Nat) (z : LaneSt) (tm : Team) : Team :=
  tm.setTy (loadTy t) d z.done fun l => loadImage t (z.val l % 2 ^ 64)

/-- SPLD (R353, R355). -/
def execSpld (w : LM) (s : State) : Outcome State Fault Refusal :=
  laneRun (.spld w) w.ms (fun x =>
    x.region w true false false (fun s r l => x.keyed w s r l fun k => .ok r (((r.find k).getD 0).toNat))
      fun r z tm => putValue (shapeTy r.shape) w.d.toNat z tm) s

/-- SPST (R353, R355): an overflow under OVF 11 in any lane stores nothing (R67, R138). -/
def execSpst (w : LM) (s : State) : Outcome State Fault Refusal :=
  laneRun (.spst w) w.ms (fun x =>
    let t := x.ty w.ty
    let val (l : Nat) : Rounded := narrowStore x.tm.fmtr t (x.datum t w.d.toNat l)
    let traps := (x.tm.lanesOf x.m).filter fun l => (val l).trap
    if traps.isEmpty then
      x.region w false true false (fun s r l => x.keyed w s r l fun k => storeAt r t k (val l).code)
        fun _ z tm => tm.holdFlags (z.vals.foldl (fun a v => a ||| (val v.1).flags) f0)
    else
      match LaneIn.region { x with s := { x.s with limit := none } } w false true false (fun s r l => x.keyed w s r l fun k =>
          if traps.contains l then .fail .fpOverflow 0 0
          else match storeAt r t k (val l).code with
            | .fail c w2 w3 => .fail c w2 w3
            | .ok _ _ => .ok r 0) fun _ _ tm => tm with
      | .park .fpOverflow _ _ rec_ _ => .park .fpOverflow (ovfInfo traps) x.m rec_ x.s
      | .park c i _ rec_ _ => .park c i x.m rec_ x.s
      | r => r) s

/-- The other lanes of a word that name lane `l`'s coordinate. -/
def LaneIn.sameKey (x : LaneIn) (w : LM) (r : Region) (l : Nat) : List Nat :=
  match keyOf r.shape (x.coords w r.shape l) with
  | .error _ => []
  | .ok k => (x.tm.lanesOf x.m).filter fun j => j != l && (match keyOf r.shape (x.coords w r.shape j) with
    | .ok k' => k' == k
    | .error _ => false)

/-- SPADD (R353, R355): the lanes of one coordinate add in ascending order, and the last of them stores what they come to.
(DEDUCED, log 29) -/
def execSpadd (w : LM) (s : State) : Outcome State Fault Refusal :=
  laneRun (.spadd w) w.ms (fun x =>
    let t := x.ty w.ty
    let add (old b : Nat) : Nat :=
      if t.isInt then (old + b) % 2 ^ t.width
      else (roundX t .ne .inf (xadd .ne (t.decode old) (NumTy.f32.decode (b % 2 ^ 32)))).code
    x.region w true true false (fun s r l => x.keyed w s r l fun k =>
      let kin := x.sameKey w r l
      if kin.any (l < ·) then .ok r 0
      else storeAt r t k ((kin ++ [l]).foldl (fun v j => add v (x.datum t w.d.toNat j)) ((r.find k).getD 0).toNat))
      (fun _ _ tm => tm) (fun r l => x.sameKey w r l)) s

/-- Writes what SPNEXT returns: a lane's value holds the key times 2^64 plus the entry's value, or 2^128 at the end (R357). -/
def putNext (shape d : Nat) (z : LaneSt) (tm : Team) : Team :=
  let t := shapeTy shape
  let k := coordAt shape (shapeRank shape)
  let atEnd (l : Nat) : Bool := z.val l == 2 ^ 128
  let key (l : Nat) : Nat := z.val l / 2 ^ 64
  let tm := (upTo (shapeRank shape)).foldl (fun tm i =>
    let c (l : Nat) : Nat := if atEnd l then 2 ^ 64 - 1 else keyCoord shape (key l) i
    let r := d + coordAt shape i
    if coordRegs shape i = 2 then tm.setV64 r z.done fun l => BitVec.ofNat 64 (c l)
    else tm.setV r z.done fun l => BitVec.ofNat 32 (c l)) tm
  tm.setTy (loadTy t) (d + k) z.done fun l => if atEnd l then 0 else loadImage t (z.val l % 2 ^ 64)

/-- SPNEXT (R353, R357, R358). -/
def execSpnext (w : LM) (s : State) : Outcome State Fault Refusal :=
  laneRun (.spnext w) w.ms (fun x =>
    x.region w true false true (fun s r l =>
      let go (lo : Int) : MR Unit × RegStep :=
        match r.next lo with
        | some (k, v) => (s.nodesCheck r (r.pathNodes lo.toNat ++ r.pathNodes k), .ok r (k * 2 ^ 64 + v.toNat))
        | none => (s.nodesCheck r (r.pathNodes lo.toNat), .ok r (2 ^ 128))
      if x.startMark w r.shape l then go (-1)
      else match keyOf r.shape (x.coords w r.shape l) with
        | .error d => ((.ok (), s), .fail .coordRange d 0)
        | .ok k => go k) fun r z tm => putNext r.shape w.d.toNat z tm) s

/-! ## Context words -/

/-- A field of a descriptor that fails: RESERVED_FIELD with the register's offset. -/
def GenIn.badField (x : GenIn) (off : Nat) : GenRes := .trap .reservedField [BitVec.ofNat 64 off, 0, 0, 0] x.s

/-- The window of a region (R347). -/
def regionWindow (rd wr : Bool) (r : Region) (die index : Nat) : Window :=
  mkWindow 3 rd wr r.base r.owner 0 0 (index * 2 ^ 8 + die * 2 ^ 6 + r.gen) r.shape

/-- The translations of a region's pool (R349): each page's part of the pool. A page must allow reads and writes. -/
def State.poolWalk (a : Access) (lo hi : Nat) : Nat → State → Nat → List (Nat × Nat × Nat) → LR2 (List (Nat × Nat × Nat))
  | 0, s, _, acc => (.ok acc, s)
  | f + 1, s, va, acc =>
    if hi ≤ va then (.ok acc, s)
    else ((s.translate a va { rd := true, wr := true }).at va).andThen fun x s =>
      let n := min hi (x.base + x.size) - va
      poolWalk a lo hi f s (va + n) (acc ++ [(va, x.pa, n)])

/-- Queues a region's window word when BIND is set (R349, R350). -/
def GenIn.bindRegion (x : GenIn) (w : GR) (s : State) (r : Region) (die index : Nat) : State :=
  if w.fn.getLsbD 3 then
    s.modCtx x.q x.c fun cx =>
      cx.queue (windowStretch (fieldN w.imm.toNat 0 6) (fieldN w.fn.toNat 0 3) (regionWindow (w.fn.getLsbD 6) (w.fn.getLsbD 7) r die index))
  else s

/-- SPNEW without ATTACH (R349): the region takes the lowest free index of the pool's table.
(DESIGN CHOICE, log 85) -/
def execSpnew (w : GR) (s : State) : Outcome State Fault Refusal :=
  genRun (.spnew w) w.cnd (fun x =>
    let bind := w.fn.getLsbD 3
    let base := (x.rd.S w.a.toNat).toNat
    let n := x.rd.S (w.a.toNat + 1)
    let shape := (x.rd.S (w.a.toNat + 2)).toNat
    let die := dieOf x.sq.cluster
    if x.s.speculative x.sq then .wait .spec x.s
    else if bind && x.cx.seqFull then .wait .emission x.s
    else if n.toNat = 0 ∨ 2 ^ 24 < n.toNat then x.badField 1
    else if !shapeOk shape then x.badField 2
    else if base % 256 ≠ 0 then .trap .misaligned [BitVec.ofNat 64 base, 0, 0, 0] x.s
    else if 2 ^ 56 < base + 256 * n.toNat then x.memFail x.s (.cause .protection 0) base 0 true false false
    else
      let hi := base + 256 * n.toNat
      match State.poolWalk x.acc base hi (n.toNat / 256 + 2) x.s base [] with
      | (.error (f, va), s) => x.memFail s f va 0 true false false
      | (.ok frames, s) =>
        let make : GenRes :=
          match (upTo 1024).find? fun i => !(((aget? (s.die die).regions i).map (·.live)).getD false) with
          | none => .done (s.modCtx x.q x.c fun cx => { cx.setS w.d.toNat 0 with cc := ccZ true })
          | some index =>
            let gen := (((aget? (s.die die).regions index).map (·.gen)).getD 0 + 1) % 64
            let r : Region :=
              { live := true, gen := gen, owner := s.ownerOf x.sq, shape := shape, base := base, count := n.toNat, frames := frames, root := 0
                nodes := [(0, { leaf := true, keys := [] })] }
            let s := s.setRegion die index r
            let v := regionValue r.owner gen die index
            .done (x.bindRegion w (s.modCtx x.q x.c fun cx => { cx.setS w.d.toNat (BitVec.ofNat 64 v) with cc := ccZ false }) r die index)
        if bind then
          match s.streamUse x.q x.c x.sq x.cx (fieldN w.imm.toNat 0 6) with
          | .ok => make
          | .invalid => .trap .channelInvalid [BitVec.ofNat 64 (fieldN w.imm.toNat 0 6), 0, 0, 0] s
          | .forged => x.violation s 5 0 0 0
        else make) s

/-- The region that a value in a scalar register names (R350): the words with another owner's value are capability forgeries.
(DEDUCED, log 29) -/
def GenIn.withRegion (x : GenIn) (a : Nat) (f : Nat → Nat → Region → GenRes) : GenRes :=
  let v := (x.rd.S a).toNat
  let owner := fieldN v 18 12
  if owner ≠ x.s.ownerOf x.sq then x.violation x.s 5 0 0 owner
  else if 2 ^ 30 ≤ v then x.badField 0
  else match x.s.regionAt owner (fieldN v 12 6) (fieldN v 10 2) (fieldN v 0 10) with
    | some r => f (fieldN v 10 2) (fieldN v 0 10) r
    | none => x.badField 0

/-- SPNEW.ATTACH (R350). -/
def execSpnewAttach (w : GR) (s : State) : Outcome State Fault Refusal :=
  genRun (.spnewAttach w) w.cnd (fun x =>
    if x.s.speculative x.sq then .wait .spec x.s
    else if x.cx.seqFull then .wait .emission x.s
    else x.withRegion w.a.toNat fun die index r =>
      x.withStream (fieldN w.imm.toNat 0 6)
        (.done (x.bindRegion w (x.s.modCtx x.q x.c fun cx =>
          { cx.setS w.d.toNat (x.rd.S w.a.toNat) with cc := ccZ false }) r die index))) s

/-- An outstanding copy has the region as its coordinate source (R352). -/
def State.regionCopied (s : State) (v : Nat) : Bool :=
  s.copies.any fun p => p.2.slices.any fun sl => (sl.rec_.getD 1 0).getLsbD 15 && (sl.rec_.getD 0 0).toNat == v

/-- The bytes of a freed pool are what the region unit left there, which the spec does not give: its lines carry a tag of no key, so each reads
as a free value until it is written.
(DEDUCED, log 29) -/
def State.releasePool (s : State) (r : Region) : State :=
  let lines := r.frames.flatMap fun f => (upTo (f.2.2 / 128)).map fun i => f.2.1 / 128 + i
  { s with
    tags := lines.foldl (fun t l => aset t l (r.owner, 2 ^ 30 + s.serial)) s.tags
    zorWritten := lines.foldl (fun z l => if s.unwritten l then l :: z else z) s.zorWritten
    serial := s.serial + 1 }

/-- SPFREE (R352): region words are performed when they are accepted here, so none is left to wait for. -/
def execSpfree (w : GR) (s : State) : Outcome State Fault Refusal :=
  genRun (.spfree w) w.cnd (fun x =>
    if x.s.speculative x.sq then .wait .spec x.s
    else x.withRegion w.a.toNat fun die index r =>
      if x.s.regionCopied (x.rd.S w.a.toNat).toNat then .trap .rangeConflict [] x.s
      else .done ((x.s.setRegion die index { gen := (r.gen + 1) % 64 }).releasePool r)) s

/-- SPFREE.STAT (R352), a form of SPFREE, which waits for the commit of a speculative task (R385). -/
def execSpfreeStat (w : GR) (s : State) : Outcome State Fault Refusal :=
  genRun (.spfreeStat w) w.cnd (fun x =>
    if x.s.speculative x.sq then .wait .spec x.s
    else x.withRegion w.a.toNat fun _ _ r =>
      x.finish (x.cx.setS w.d.toNat (BitVec.ofNat 64 (r.nodes.length + min r.entries.length (2 ^ 32 - 1) * 2 ^ 32)))) s

end Sys2Proof.Machine
end

