-- ==== Sys2Proof/Machine/Tiles.lean ====
section
/-! DEFINITION. Tiles: where elements lie (06_lane_memory.md R151; 08_core_tiles_sched.md R191, R192), reading and writing elements and lines
with the fresh bit (R152), line states, space, and the matrix unit's order (07_core_matrix.md R162). -/

namespace Sys2Proof.Machine

/-! ## Layout -/

/-- Bytes of one block of 32 elements (R56). -/
def NumTy.blockBytes (t : NumTy) : Nat := t.width * 4

/-- Bytes of the element area of a shape (R192). -/
def elemArea (t : NumTy) (rows cols : Nat) : Nat :=
  if t.isBlock then rows / 32 * cols * t.blockBytes else rows * cols * (t.width / 8)

/-- The first byte of the scale area of a block type's shape (R192). -/
def scaleArea (t : NumTy) (rows cols : Nat) : Nat := (elemArea t rows cols + 127) / 128 * 128

/-- Lines a TS or L2P shape occupies (R192). -/
def shapeLines (t : NumTy) (rows cols : Nat) : Nat :=
  if t.isBlock then (scaleArea t rows cols + rows / 32 * cols + 127) / 128 else (elemArea t rows cols + 127) / 128

/-- Lines of a tile. -/
def Tile.lineCount (x : Tile) : Nat := shapeLines x.ty x.rows x.cols

/-- The bit offset of element (r, c) in the tile's bytes (R56, R192). -/
def Tile.bitOf (x : Tile) (r c : Nat) : Nat :=
  if x.ty.isBlock then (r / 32 * x.cols + c) * x.ty.blockBytes * 8 + r % 32 * x.ty.width else (r * x.cols + c) * x.ty.width

/-- The byte of the scale of the block that holds element (r, c). -/
def Tile.scaleByte (x : Tile) (r c : Nat) : Nat := scaleArea x.ty x.rows x.cols + r / 32 * x.cols + c

/-- The lines that a run of bits touches. -/
def bitLines (bit n : Nat) : List Nat :=
  let lo := bit / 1024
  (upTo ((bit + n - 1) / 1024 - lo + 1)).map (lo + ·)

/-- The lines of element (r, c): those of its bits, and for a block type that of its scale (R151). The bits of an element of a 6-bit type may straddle
two lines, and then both are its lines.
(DEDUCED, log 77) -/
def Tile.elemLines (x : Tile) (r c : Nat) : List Nat :=
  let ls := bitLines (x.bitOf r c) x.ty.width
  let k := x.scaleByte r c / 128
  if x.ty.isBlock && !ls.contains k then ls ++ [k] else ls

/-! ## Lines and bytes -/

/-- A line as TNEW leaves it EMPTY: fresh (R152).
(DEDUCED, log 27) -/
def Tile.line (x : Tile) (l : Nat) : TileLine := aget {} x.lines l

/-- The line is FULL. -/
def Tile.full (x : Tile) (l : Nat) : Bool := (x.line l).full

/-- A byte of the tile. -/
def Tile.byte (x : Tile) (b : Nat) : Byte := (x.line (b / 128)).bytes.getD (b % 128) 0

/-- Consecutive bytes of the tile. -/
def Tile.bytes (x : Tile) (b n : Nat) : List Byte := (upTo n).map fun i => x.byte (b + i)

/-- A line's bytes padded to 128. -/
def padLine (l : List Byte) : List Byte := l ++ List.replicate (128 - l.length) 0

/-- The first of some lines that an uncorrectable error marks (R176). -/
def Tile.badLine (x : Tile) (ls : List Nat) : Option Nat := ls.find? fun l => (x.line l).bad

/-- A line written whole, whose error mark goes. -/
def Tile.clean (x : Tile) (l : Nat) : Tile := { x with lines := aset x.lines l { x.line l with bad := false } }

/-- A tile written whole, which has no error mark left. -/
def Tile.cleanAll (x : Tile) : Tile := { x with lines := x.lines.map fun p => (p.1, { p.2 with bad := false }) }

/-- One byte written: the first write to a fresh line zeroes its other bytes and clears the fresh bit (R152). -/
def Tile.setByte (x : Tile) (b : Nat) (v : Byte) : Tile :=
  let l := x.line (b / 128)
  let old := if l.fresh then List.replicate 128 0 else padLine l.bytes
  { x with lines := aset x.lines (b / 128) { l with fresh := false, bad := l.bad && !l.fresh, bytes := old.set (b % 128) v } }

/-- Consecutive bytes written. -/
def Tile.setBytes (x : Tile) (b : Nat) : List Byte → Tile
  | [] => x
  | v :: vs => setBytes (x.setByte b v) (b + 1) vs

/-- Lines set FULL: a fresh line becomes zero and is fresh no more (R152). -/
def Tile.setFull (x : Tile) (ls : List Nat) : Tile :=
  ls.foldl (fun x k =>
    let l := x.line k
    { x with lines := aset x.lines k { full := true, fresh := false, bad := l.bad && !l.fresh, bytes := if l.fresh then [] else l.bytes } }) x

/-- Lines set EMPTY; the fresh bit stays (R152). -/
def Tile.setEmpty (x : Tile) (ls : List Nat) : Tile :=
  ls.foldl (fun x k => { x with lines := aset x.lines k { x.line k with full := false } }) x

/-! ## Elements -/

/-- The code of element (r, c). -/
def Tile.code (x : Tile) (r c : Nat) : Nat :=
  if x.level = 0 then (aget 0 x.acc (r * 64 + c)).toNat
  else
    let bit := x.bitOf r c
    fieldN (ofBytes (x.bytes (bit / 8) (x.ty.width / 8 + 2))) (bit % 8) x.ty.width

/-- The scale code of the block that holds element (r, c); 0x7F, a scale of 1, for a type without blocks. -/
def Tile.scale (x : Tile) (r c : Nat) : Nat := if x.ty.isBlock then (x.byte (x.scaleByte r c)).toNat else 0x7F

/-- The exact value of element (r, c), an integer as itself. -/
def Tile.value (x : Tile) (zblk : Bool) (r c : Nat) : XVal :=
  if x.ty.isBlock then decodeBlk x.ty zblk (x.scale r c) (x.code r c) else x.ty.decode (x.code r c)

/-- Element (r, c) of a scalar type written. -/
def Tile.setCode (x : Tile) (r c v : Nat) : Tile :=
  if x.level = 0 then
    { x with acc := asetD 0 x.acc (r * 64 + c) (BitVec.ofNat 32 v), bad := x.bad.filter (· != r * 64 + c) }
  else x.setBytes (x.bitOf r c / 8) (toBytes (x.ty.width / 8) v)

/-- Block (b, c) written whole with its scale (R192). -/
def Tile.setBlock (x : Tile) (b c scale : Nat) (codes : List Nat) : Tile :=
  let bits := codes.foldr (fun k n => k % 2 ^ x.ty.width + n * 2 ^ x.ty.width) 0
  (x.setBytes (x.bitOf (32 * b) c / 8) (toBytes x.ty.blockBytes bits)).setByte (x.scaleByte (32 * b) c) (BitVec.ofNat 8 scale)

/-! ## The tile table -/

/-- Handle h of the squad of key q. -/
def State.tile (s : State) (q h : Nat) : Option Tile :=
  match s.squad q with
  | some sq => aget? sq.tiles h
  | none => none

/-- Writes an entry of the tile table. -/
def State.setTile (s : State) (q h : Nat) (x : Tile) : State := s.modSquad q fun sq => { sq with tiles := aset sq.tiles h x }

/-- A team whose word has awaited lines of a handle that is freed, or awaits the effect of a TFREE of it, executes the word again, which finds the handle
unallocated (R196). -/
def Team.loseTile (tm : Team) (h : Nat) : Team :=
  let waits : Bool := match tm.wait with
    | some (.lines ls _) => ls.any fun p => p.1 == h
    | some (.tfree d) => d == h
    | _ => false
  if waits then { tm with wait := none, lostTiles := h :: tm.lostTiles }
  else if tm.awaits.contains h then { tm with lostTiles := h :: tm.lostTiles } else tm

/-- Frees a handle (R196). -/
def State.freeTile (s : State) (q h : Nat) : State :=
  s.modSquad q fun sq => { sq with tiles := adel sq.tiles h, teams := sq.teams.map fun tm => tm.loseTile h }

/-- Handle h as a word finds it: none when it was freed while the word waited on it (R196). -/
def LaneIn.tile (x : LaneIn) (h : Nat) : Option Tile := if x.tm.lostTiles.contains h then none else x.s.tile x.q h

/-- Lines of a tile become FULL: the count of R94 restarts for each word that awaits one of them. -/
def State.fillLines (s : State) (q h : Nat) (ls : List Nat) : State :=
  let cyc := s.cycleOf q
  s.modSquad q fun sq =>
    { sq with
      tiles := match aget? sq.tiles h with
        | some x => aset sq.tiles h (x.setFull ls)
        | none => sq.tiles
      teams := sq.teams.map fun tm => match tm.wait with
        | some (.lines aw _) => if aw.any fun p => p.1 == h && ls.contains p.2 then { tm with wait := some (.lines aw cyc) } else tm
        | _ => tm }

/-- Space that a shape takes at a level (R191): lines, or accumulator bytes. -/
def spaceOf (level : Nat) (t : NumTy) (rows cols : Nat) : Nat := if level = 0 then rows * 256 else shapeLines t rows cols

/-- Space of a level in use by a list of tiles. -/
def usedSpace (level : Nat) (l : List (Nat × Tile)) : Nat :=
  ((l.filter fun p => p.2.level == level).map fun p => spaceOf level p.2.ty p.2.rows p.2.cols).sum

/-- The level has room for `n` more (R191): the store of a lane core, the squad's claim, or the L2 of the squad and of the die. -/
def State.room (s : State) (sq : Squad) (level core n : Nat) : Bool :=
  match level with
  | 0 =>
    let used := (s.squads.map fun p =>
      if p.2.cluster = sq.cluster then usedSpace 0 (p.2.tiles.filter fun t => t.2.core == core) else 0).sum
    decide (used + n ≤ 512 * 1024)
  | 1 => decide (usedSpace 1 sq.tiles + n ≤ sq.claim)
  | _ =>
    let die := (s.squads.map fun p => if dieOf p.2.cluster = dieOf sq.cluster then usedSpace 2 p.2.tiles else 0).sum
    decide (usedSpace 2 sq.tiles + n ≤ 32768) && decide (die + n ≤ 196608)

/-! ## The matrix unit (R162) -/

/-- A team leaves the matrix unit of a lane core, or its line.
(DEDUCED, log 27) -/
def State.leaveUnit (s : State) (cl core : Nat) (me : Nat × Nat) : State :=
  s.modCore cl core fun c =>
    { c with holder := if c.holder = some me then none else c.holder, queue := c.queue.filter (· != me) }

/-- Runs a matrix word on the unit of a lane core: it waits its turn while the unit is held, holds the unit while it waits, and leaves it when it
completes, traps or is frozen.
(DEDUCED, log 26) -/
def LaneIn.onUnit (x : LaneIn) (core : Nat) (body : LaneRes) : LaneRes :=
  let cl := x.sq.cluster
  let me := (x.q, x.t)
  let c := ((x.s.cluster cl).cores[core]?).getD {}
  let leave (s : State) : State := s.leaveUnit cl core me
  if c.holder = some me ∨ (c.holder = none ∧ (c.queue.isEmpty ∨ c.queue.head? = some me)) then
    match body with
    | .done s => .done (leave s)
    | .park cause i m r s => .park cause i m r (leave s)
    | .wait .frozen s => .wait .frozen (leave s)
    | .more u s => .more u s
    | .wait w s => .wait w (s.modCore cl core fun c => { c with holder := some me, queue := c.queue.filter (· != me) })
  else .wait .matrix (x.s.modCore cl core fun c => if c.queue.contains me then c else { c with queue := c.queue ++ [me] })

end Sys2Proof.Machine
end

