-- ==== Sys2Proof/Machine/CopyRec.lean ====
section
/-! DEFINITION. The tensor layout record of a copy slice (10_cluster_engines.md R241 to R249): its fields, its checks, the places it names, and
the units of work into which the model cuts it. -/

namespace Sys2Proof.Machine

/-! ## Fields (R241 to R244) -/

/-- S(N): the base address of the source, or the region value. -/
def recBase (r : List DWord) : Nat := (r.getD 0 0).toNat
/-- The control word (R242). -/
def recCtl (r : List DWord) : Nat := (r.getD 1 0).toNat
/-- S(N+7). -/
def recDst (r : List DWord) : Nat := (r.getD 7 0).toNat
/-- RANK. -/
def recRank (r : List DWord) : Nat := fieldN (recCtl r) 10 3
/-- CSOURCE. -/
def recCsource (r : List DWord) : Bool := (recCtl r).testBit 15
/-- ROWG. -/
def recRowg (r : List DWord) : Bool := (recCtl r).testBit 14
/-- HDR. -/
def recHdr (r : List DWord) : Bool := (recCtl r).testBit 13
/-- HAD. -/
def recHad (r : List DWord) : Bool := (recCtl r).testBit 17
/-- The block of the transform: 16, 32 or 64. -/
def recHadN (r : List DWord) : Nat := 2 ^ (fieldN (recCtl r) 18 2 + 3)
/-- SEEDSLOT. -/
def recSeed (r : List DWord) : Nat := fieldN (recCtl r) 20 4
/-- The destination is memory. -/
def recMem (r : List DWord) : Bool := fieldN (recCtl r) 24 2 == 1
/-- The source type; a reserved code names none. -/
def recSty (r : List DWord) : Option NumTy := NumTy.ofCode (fieldN (recCtl r) 0 5)
/-- The destination type. -/
def recDty (r : List DWord) : Option NumTy := NumTy.ofCode (fieldN (recCtl r) 5 5)
/-- A bound (R243). -/
def recB (r : List DWord) (d : Nat) : Nat := if d < recRank r then field64 (r.getD (2 + d) 0) 0 24 else 1
/-- A stride. -/
def recSt (r : List DWord) (d : Nat) : Int := if d < recRank r then signed (field64 (r.getD (2 + d) 0) 24 40) 40 else 0
/-- An origin coordinate under CSOURCE (R248). -/
def recOrg (r : List DWord) (d : Nat) : Nat := field64 (r.getD (2 + d) 0) 24 40
/-- The destination handle. -/
def recHandle (r : List DWord) : Nat := if recRowg r then fieldN (recCtl r) 32 8 else fieldN (recDst r) 0 8
/-- ROW0. -/
def recRow0 (r : List DWord) : Nat := if recRowg r then 0 else fieldN (recDst r) 8 16
/-- COL0. -/
def recCol0 (r : List DWord) : Nat := if recRowg r then 0 else fieldN (recDst r) 24 16
/-- Rows that Place names from ROW0 on (R244). -/
def recRows (r : List DWord) : Nat := recB r 0 * (recB r 2 * (recB r 3 * recB r 4))
/-- Elements of the slice. -/
def recTotal (r : List DWord) : Nat := recRows r * recB r 1
/-- The iteration vector of element `e`, in iteration order. -/
def recVec (r : List DWord) (e : Nat) : List Nat :=
  let a := e / recB r 0
  let b := a / recB r 1
  let c := b / recB r 2
  [e % recB r 0, a % recB r 1, b % recB r 2, c % recB r 3, c / recB r 3]
/-- The element that Place puts at a tile row and column (R244). -/
def recAt (r : List DWord) (row col : Nat) : Option Nat :=
  let j := row - recRow0 r
  let i1 := col - recCol0 r
  if row < recRow0 r ∨ col < recCol0 r ∨ recRows r ≤ j ∨ recB r 1 ≤ i1 then none
  else some (j % recB r 0 + recB r 0 * (i1 + recB r 1 * (j / recB r 0)))

/-! ## Addresses (R243, R244, R247) -/

/-- What dimension 1 adds to an address: its stride times i1, or times the index value under ROWG. -/
def recTerm1 (r : List DWord) (idx : List Nat) (i1 : Nat) : Int :=
  recSt r 1 * (if recRowg r then ((idx.getD i1 0 : Nat) : Int) else ((i1 : Nat) : Int))

/-- The address of the element at an iteration vector, modulo 2^64; of the first block of its run for a block source. -/
def recAddr (r : List DWord) (idx v : List Nat) : Nat :=
  wrapN ((recBase r : Int) + (v.getD 0 0 : Nat) * recSt r 0 + recTerm1 r idx (v.getD 1 0) + (v.getD 2 0 : Nat) * recSt r 2
    + (v.getD 3 0 : Nat) * recSt r 3 + (v.getD 4 0 : Nat) * recSt r 4) 64

/-- The bytes before the end of the elements at a memory destination. -/
def recElemBytes (r : List DWord) (t : NumTy) : Nat := recTotal r * t.width / 8

/-- The address of the scales of a block type at a memory destination: the next 128-byte boundary after the elements. -/
def recScales (r : List DWord) (t : NumTy) : Nat := (recDst r + recElemBytes r t + 127) / 128 * 128

/-- The source range (R251): from the lowest to the highest byte that the loop nest reads. Addresses count modulo 2^64 (R243), so a range that crosses
2^64 goes on from 0.
(DEDUCED, log 41) -/
def recSource (r : List DWord) (idx : List Nat) (t : NumTy) : List (Nat × Nat) :=
  let ends (d : Nat) : Int × Int :=
    let x : Int := recSt r d * ((recB r d - 1 : Nat) : Int)
    (min 0 x, max 0 x)
  let one : Int × Int :=
    if recRowg r then
      let ts := (upTo (recB r 1)).map fun i => recTerm1 r idx i
      (ts.foldl min (ts.headD 0), ts.foldl max (ts.headD 0))
    else ends 1
  let e := [ends 0, one, ends 2, ends 3, ends 4]
  let size : Nat := if t.isBlock then recB r 0 / 32 * t.blockBytes else t.width / 8
  let lo : Int := (recBase r : Int) + (e.map (·.1)).sum
  let n := ((e.map (·.2)).sum - (e.map (·.1)).sum).toNat + size
  let a := wrapN lo 64
  if 2 ^ 64 ≤ n then [(0, 2 ^ 64)] else if a + n ≤ 2 ^ 64 then [(a, a + n)] else [(a, 2 ^ 64), (0, a + n - 2 ^ 64)]

/-! ## The checks of R249 -/

/-- The pairs of types that a copy converts (R245). -/
def convOk (s d : NumTy) : Bool :=
  let fl (t : NumTy) : Bool := t == .f32 || t == .f16 || t == .bf16 || t == .e4m3 || t == .e5m2
  s == d || (fl s && (fl d || d.isBlock)) || (s.isBlock && (d == .f32 || d == .f16 || d == .bf16))

/-- The control word breaks R242.
(DEDUCED, log 40) -/
def recCtlBad (r : List DWord) : Bool :=
  let w := recCtl r
  let hadb := fieldN w 18 2
  let blockSrc := (recSty r).any (·.isBlock)
  fieldN w 40 24 != 0 || (!recRowg r && fieldN w 32 8 != 0) || fieldN w 30 2 != 0 || fieldN w 28 2 == 3 || decide (2 ≤ fieldN w 24 2)
    || (recHad r == (hadb == 0)) || (recCsource r && recRowg r) || recRank r == 0 || decide (5 < recRank r)
    || (recRowg r && fieldN w 24 2 != 0) || (blockSrc && !recCsource r && !recHdr r) || (recCsource r && recHdr r)

/-- The dimension words break R243, as the first offset that does; under CSOURCE they hold origin coordinates and no block is packed (R248).
(DEDUCED, log 40) -/
def recDimBad (r : List DWord) : Option Nat :=
  (upTo 5).findSome? fun d =>
    let w := r.getD (2 + d) 0
    let bad :=
      if recRank r ≤ d then w != 0
      else d == 0 && (((recSty r).any (·.isBlock) && !recCsource r && (recSt r 0 != 0 || recB r 0 % 32 != 0)) || ((recDty r).any (·.isBlock) && recB r 0 % 32 != 0))
    if bad then some (2 + d) else none

/-- The region that a coordinate source names, with its die and index, or the offset that fails (R248). -/
def State.recRegion (s : State) (r : List DWord) : Option (Nat × Nat × Region) :=
  let v := recBase r
  if 2 ^ 30 ≤ v then none
  else (s.regionAt (fieldN v 18 12) (fieldN v 12 6) (fieldN v 10 2) (fieldN v 0 10)).map fun x => (fieldN v 10 2, fieldN v 0 10, x)

/-- A coordinate source breaks R248, as the offset that does.
(DEDUCED, log 40) -/
def recCoordBad (r : List DWord) (g : Region) : Option Nat :=
  if recRank r ≠ shapeRank g.shape then some 1
  else (upTo (recRank r)).findSome? fun d =>
    if recB r d ≠ 0 ∧ 2 ^ shapeWidth g.shape d < recOrg r d + recB r d then some (2 + d) else none

/-- The types break R245, or R248 for a coordinate source.
(DEDUCED, log 40) -/
def recTypeBad (r : List DWord) (g : Option Region) : Bool :=
  match recSty r, recDty r with
  | some a, some b => !convOk a b || (recHad r && (a.isInt || b.isInt)) || g.any fun x => a != shapeTy x.shape
  | _, _ => true

/-- The destination tile breaks R249.
(DEDUCED, log 40) -/
def recTileBad (r : List DWord) (t : Option Tile) : Bool :=
  match t, recDty r with
  | some x, some d =>
    x.level == 0 || x.ty != d || (d.isBlock && recRow0 r % 32 != 0)
      || (recTotal r != 0 && (decide (x.rows < recRow0 r + recRows r) || decide (x.cols < recCol0 r + recB r 1)))
  | _, _ => true

/-! ## Units of work -/

/-- Blocks of a unit: those of a whole line of scales, whose elements fill whole lines too, so that no line is written in part (R255, R256). -/
def blockGroup : Nat := 128

/-- Blocks of a unit at a memory destination: where the elements do not start at a line, no smaller run of blocks ends at one than the whole slice. -/
def recGroup (r : List DWord) : Nat := if recDst r % 128 = 0 then blockGroup else max 1 (recTotal r / 32)

/-- A list without its repeats, in the order of first places; the list is in rising runs. -/
def dedupe (l : List Nat) : List Nat := (l.foldl (fun a x => if a.contains x then a else x :: a) []).reverse

/-- The blocks of a tile, by number, that Place names. -/
def recBlocks (r : List DWord) (t : Tile) : List Nat :=
  (upTo (recRows r / 32)).flatMap fun i => (upTo (recB r 1)).map fun c => (recRow0 r / 32 + i) * t.cols + recCol0 r + c

/-- The lines of a tile that Place names: those of its elements, and for a block type also those of its scales. -/
def recLines (r : List DWord) (t : Tile) : List Nat :=
  if recTotal r = 0 then []
  else if t.ty.isBlock then
    dedupe ((recBlocks r t).flatMap fun b => bitLines (b * t.ty.blockBytes * 8) (t.ty.blockBytes * 8) ++ [(scaleArea t.ty t.rows t.cols + b) / 128])
  else dedupe ((upTo (recRows r)).flatMap fun i => bitLines (t.bitOf (recRow0 r + i) (recCol0 r)) (recB r 1 * t.ty.width))

/-- The units of a slice: the lines of a memory or tile destination of a scalar type, or runs of blocks that fill whole lines with their scales. -/
def recUnits (r : List DWord) (t : Tile) (d : NumTy) : List Nat :=
  if recTotal r = 0 then []
  else if recMem r then
    if d.isBlock then upTo ((recTotal r / 32 + recGroup r - 1) / recGroup r)
    else (upTo ((recDst r + recElemBytes r d - 1) / 128 - recDst r / 128 + 1)).map fun k => recDst r / 128 + k
  else if d.isBlock then dedupe ((recBlocks r t).map (· / blockGroup))
  else recLines r t

end Sys2Proof.Machine
end

