-- ==== Sys2Proof/Machine/Copy.lean ====
section
/-! DEFINITION. The copy engine (10_cluster_engines.md R239 to R256): COPY, COPYWAIT, COPYQ, COPYQ.RESUME, COPYCAN, and the engine's steps. -/

namespace Sys2Proof.Machine

open Host (Outcome)

/-! ## Reads and writes of the engine, which meet no range lock (R251) -/

/-- A result of the engine: a failure bears its virtual address, the number of the element it was met for, and whether it was met in a write. -/
abbrev CR (α : Type) := Except (MemFail × Nat × Nat × Bool) α × State

/-- Goes on with a result, or passes its failure on. -/
def CR.andThen {α β : Type} (r : CR α) (f : α → State → CR β) : CR β :=
  match r with
  | (.ok a, s) => f a s
  | (.error e, s) => (.error e, s)

/-- A result of memory, for the element `e` and the address `va`. -/
def MR.elem {α : Type} (r : MR α) (va e : Nat) (wr : Bool) : CR α :=
  match r with
  | (.ok a, s) => (.ok a, s)
  | (.error f, s) => (.error (f, va, e, wr), s)

/-- A step over each member of a list, in order. -/
def eachCR {α β : Type} (f : α → State → CR β) : List α → State → CR (List β)
  | [], s => (.ok [], s)
  | a :: as, s => (f a s).andThen fun b s => (eachCR f as s).andThen fun bs s => (.ok (b :: bs), s)

/-- A read of bytes within one page; violating bytes of a line for which the Umpire has released the copy read as zero (R422). -/
def State.copyPart (a : Access) (sup : List Nat) (s : State) (va n : Nat) : MR (List Byte) :=
  let r : MR (List Byte) := (s.translate a va { rd := true }).andThen fun x s =>
    if cfgBase ≤ x.pa then (.ok (s.cfgRead a.priv x.pa n), s)
    else match s.guardPa x.pa n false with
      | some f => (.error f, s)
      | none => s.readPast a (pteZor x.leaf) x.pa n
  match r with
  | (.error (.violation c pa o), s') => if sup.contains (va / 128) then (.ok (List.replicate n 0), s') else (.error (.violation c pa o), s')
  | other => other

/-- A read of consecutive virtual bytes for element `e`. -/
def State.copyRead (a : Access) (sup : List Nat) (e : Nat) : Nat → State → Nat → Nat → CR (List Byte)
  | 0, s, _, _ => (.ok [], s)
  | f + 1, s, va, n =>
    if n = 0 then (.ok [], s)
    else if 2 ^ 56 ≤ va then (.error (.cause .protection 0, va, e, false), s)
    else
      let k := min n (2 ^ 16 - va % 2 ^ 16)
      ((State.copyPart a sup s va k).elem va e false).andThen fun bs s =>
        (copyRead a sup e f s (va + k) (n - k)).andThen fun bs' s => (.ok (bs ++ bs'), s)

/-- Bytes to be written at physical addresses, each within one page. -/
abbrev Plan := List (Nat × Bool × List Byte)

/-- The pieces of a plan, as physical addresses and lengths. -/
def Plan.pieces (p : Plan) : List (Nat × Nat) := p.map fun x => (x.1, x.2.2.length)

/-- The places that a write of consecutive virtual bytes goes to, none of it performed; `e` gives the element at an address, and `seen` is what the same
write has planned before. In an uncommitted speculative task a write to configuration space, which cannot be buffered, waits for the commit, and so does one
beyond the allowance (R384, R385). -/
def State.copyPlan (a : Access) (sup : List Nat) (e : Nat → Nat) (seen : Plan) : Nat → State → Nat → List Byte → CR Plan
  | 0, s, _, _ => (.ok [], s)
  | f + 1, s, va, bs =>
    if bs.isEmpty then (.ok [], s)
    else if 2 ^ 56 ≤ va then (.error (.cause .protection 0, va, e va, true), s)
    else
      let k := min bs.length (2 ^ 16 - va % 2 ^ 16)
      let part := bs.take k
      let r : MR Plan := (s.translate a va { wr := true }).andThen fun x s =>
        match (if cfgBase ≤ x.pa then (if a.spec then some .spec else s.cfgGuard a.priv x.pa part) else s.guardPa x.pa k true) with
        | some f => (.error f, s)
        | none => if s.overTogether a ((x.pa, k) :: Plan.pieces seen) then (.error .spec, s) else (.ok [(x.pa, pteZor x.leaf, part)], s)
      let r : MR Plan := match r with
        | (.error (.violation c pa o), s') => if sup.contains (va / 128) then (.ok [], s') else (.error (.violation c pa o), s')
        | other => other
      (r.elem va (e va) true).andThen fun p s => (copyPlan a sup e (seen ++ p) f s (va + k) (bs.drop k)).andThen fun p' s => (.ok (p ++ p'), s)

/-- Bytes written to configuration space, word by word. -/
def cfgWrites : Nat → State → Nat → List Byte → State
  | 0, s, _, _ => s
  | f + 1, s, pa, bs =>
    if bs.isEmpty then s
    else
      let k := 8 - pa % 8
      cfgWrites f (s.cfgWrite pa (bs.take k)) (pa + k) (bs.drop k)

/-- Performs a plan. -/
def State.doPlan (s : State) (a : Access) (p : Plan) : State :=
  p.foldl (fun s x => if cfgBase ≤ x.1 then cfgWrites (x.2.2.length / 8 + 2) s x.1 x.2.2 else s.store a x.2.1 x.1 x.2.2) s

/-! ## Elements (R243, R245, R248) -/

/-- What the engine works with: the copy's access, the lines in which violations are suppressed, the slice, the squad, its types, rounding
controls and zero-block mode, and what the reading of the first element that is not read yet failed with. -/
structure CopyIn where
  a : Access
  sup : List Nat
  sl : Slice
  sq : Squad
  sty : NumTy
  dty : NumTy
  rnd : Rnd
  ovf : Ovf
  stop : Option (MemFail × Nat × Nat × Bool) := none

/-- The record. -/
def CopyIn.r (x : CopyIn) : List DWord := x.sl.rec_

/-- Reads element `e` of the source: its code with its scale code, which is 0x7F for a type without blocks. -/
def CopyIn.readCode (x : CopyIn) (e : Nat) (s : State) : CR (Nat × Nat) :=
  let v := recVec x.r e
  if recCsource x.r then
    match s.recRegion x.r with
    | none => (.ok (0, 0x7F), s)
    | some (_, _, g) =>
      let key := packKey g.shape 0 ((upTo (recRank x.r)).map fun d => ((recOrg x.r d + v.getD d 0 : Nat) : Int))
      ((s.nodesCheck g ((g.path key).map (·.1))).elem g.base e false).andThen fun _ s =>
        (.ok ((((g.find key).map (·.toNat)).getD 0) % 2 ^ x.sty.width, 0x7F), s)
  else if x.sty.isBlock then
    let a0 := recAddr x.r x.sl.idx (0 :: v.drop 1)
    let bb := x.sty.blockBytes
    let i0 := v.getD 0 0
    (State.copyRead x.a x.sup e 3 s (wrapN ((a0 : Int) + (i0 / 32 * bb : Nat)) 64) bb).andThen fun bs s =>
      (State.copyRead x.a x.sup e 2 s (wrapN ((x.sl.scaleVa + e / 32 : Nat) : Int) 64) 1).andThen fun sc s =>
        (.ok (fieldN (ofBytes bs) (i0 % 32 * x.sty.width) x.sty.width, ofBytes sc), s)
  else
    let n := x.sty.width / 8
    (State.copyRead x.a x.sup e 3 s (recAddr x.r x.sl.idx v) n).andThen fun bs s => (.ok (ofBytes bs, 0x7F), s)

/-- Reads the `n` elements of the source from element `e` on, all at this instant, up to the first that fails: so each line, and each block with its scale,
is read once (R340), and no element is read again after the copy has written over it (R256).
(DEDUCED, log 41) -/
def CopyIn.readRest (x : CopyIn) : Nat → Nat → State → List (Nat × Nat) × Option (MemFail × Nat × Nat × Bool) × State
  | 0, _, s => ([], none, s)
  | n + 1, e, s =>
    match x.readCode e s with
    | (.ok c, s) => let r := x.readRest n (e + 1) s
                    (c :: r.1, r.2)
    | (.error f, s) => ([], some f, s)

/-- The code and scale code of element `e` of the source as the engine has read them; behind the first element whose reading fails the engine stops.
(DEDUCED, log 41) -/
def CopyIn.srcCode (x : CopyIn) (e : Nat) (s : State) : CR (Nat × Nat) :=
  match x.sl.codes[e]?, x.stop with
  | some c, _ => (.ok c, s)
  | none, some f => (.error f, s)
  | none, none => x.readCode e s

/-- The exact value of element `e` of the source. -/
def CopyIn.srcVal (x : CopyIn) (e : Nat) (s : State) : CR XVal :=
  (x.srcCode e s).andThen fun c s => (.ok (if x.sty.isBlock then decodeBlk x.sty x.sl.zblk c.2 c.1 else x.sty.decode c.1), s)

/-- The value that Conv rounds (R245, R74): the element, or its transform along dimension 0, whose missing positions are +0. -/
def CopyIn.value (x : CopyIn) (e : Nat) (s : State) : CR XVal :=
  if recHad x.r then
    let n := recHadN x.r
    let i0 := e % recB x.r 0
    let base := i0 / n * n
    let one (j : Nat) (s : State) : CR XVal := if base + j < recB x.r 0 then x.srcVal (e - i0 + base + j) s else (.ok (.zero false), s)
    (eachCR one (upTo n) s).andThen fun xs s =>
      let seed := aget 0 x.sq.seeds (recSeed x.r)
      (.ok (hadOut x.rnd false 0 (hadSigns seed (i0 / n)) xs (i0 - base)).1, s)
  else x.srcVal e s

/-- Conv copies bit for bit. -/
def CopyIn.same (x : CopyIn) : Bool := x.sty == x.dty && !recHad x.r

/-- The code of element `e` in a destination of a scalar type. -/
def CopyIn.outCode (x : CopyIn) (e : Nat) (s : State) : CR Nat :=
  if x.same then (x.srcCode e s).andThen fun c s => (.ok c.1, s)
  else (x.value e s).andThen fun v s => (.ok (roundTo x.dty v x.rnd x.ovf).code, s)

/-- Block `b`, in iteration order, in a destination of a block type: its scale and its codes. -/
def CopyIn.outBlock (x : CopyIn) (b : Nat) (s : State) : CR (Nat × List Nat) :=
  let es := (upTo 32).map fun j => 32 * b + j
  if x.same then (eachCR x.srcCode es s).andThen fun cs s => (.ok ((cs.headD (0, 0)).2, cs.map (·.1)), s)
  else (eachCR x.value es s).andThen fun vs s =>
    let k := encodeBlock x.dty vs x.rnd x.ovf x.sl.zblk
    (.ok (k.scale, k.elems), s)

/-- The bytes of a block's elements (R56). -/
def packBlock (t : NumTy) (codes : List Nat) : List Byte :=
  toBytes t.blockBytes (codes.foldr (fun k n => k % 2 ^ t.width + n * 2 ^ t.width) 0)

/-! ## Units -/

/-- Bytes of a run of elements in iteration order. -/
def CopyIn.memBytes (x : CopyIn) (es : List Nat) (s : State) : CR (List Byte) :=
  (eachCR x.outCode es s).andThen fun cs s => (.ok (cs.flatMap fun c => toBytes (x.dty.width / 8) c), s)

/-- The bytes that a plan writes. -/
def Plan.size (p : Plan) : Nat := (p.map (·.2.2.length)).sum

/-- One unit of a memory destination: a line of elements, or a run of blocks with their scales; answers the bytes written. -/
def CopyIn.memUnit (x : CopyIn) (u : Nat) (s : State) : CR Nat :=
  let d := recDst x.r
  if x.dty.isBlock then
    let g := recGroup x.r
    let bs := (upTo (min g (recTotal x.r / 32 - u * g))).map fun k => u * g + k
    let e (va : Nat) : Nat := (va - d) / x.dty.blockBytes * 32
    let e' (va : Nat) : Nat := (va - recScales x.r x.dty) * 32
    (eachCR x.outBlock bs s).andThen fun ks s =>
      (State.copyPlan x.a x.sup e [] (bs.length / 2048 + 3) s (d + u * g * x.dty.blockBytes) (ks.flatMap fun k => packBlock x.dty k.2)).andThen fun p s =>
        (State.copyPlan x.a x.sup e' p (bs.length / 65536 + 3) s (recScales x.r x.dty + u * g) (ks.map fun k => BitVec.ofNat 8 k.1)).andThen fun p' s =>
          (.ok (Plan.size (p ++ p')), s.doPlan x.a (p ++ p'))
  else
    let n := x.dty.width / 8
    let lo := max d (u * 128)
    let hi := min (d + recElemBytes x.r x.dty) (u * 128 + 128)
    let e0 := (lo - d) / n
    let e1 := (hi - 1 - d) / n
    (x.memBytes ((upTo (e1 + 1 - e0)).map (e0 + ·)) s).andThen fun bs s =>
      let bs := (bs.drop (lo - d - e0 * n)).take (hi - lo)
      (State.copyPlan x.a x.sup (fun va => (va - d) / n) [] 3 s lo bs).andThen fun p s => (.ok (Plan.size p), s.doPlan x.a p)

/-- The tile lines of a slice that leave the lock when they become FULL (R252).
(DEDUCED, log 41) -/
def State.unlockLines (s : State) (k q h : Nat) (ls : List Nat) : State :=
  { s with dies := s.dies.map fun d => { d with locks := d.locks.map fun l =>
      match l.2.range with
      | .tile q' h' xs =>
        if l.2.copy = k ∧ q' = q ∧ h' = h then (l.1, { l.2 with range := .tile q' h' (xs.filter fun i => !ls.contains i) }) else l
      | _ => l } }

/-- A tile with results in place: its lines become FULL and leave the copy's lock in the same step (R252, R253). -/
def CopyIn.fill (x : CopyIn) (k q : Nat) (t : Tile) (ls : List Nat) (s : State) : State :=
  let h := recHandle x.r
  ((s.setTile q h t).fillLines q h ls).unlockLines k q h ls

/-- Lines written whole lose their error marks. -/
def Tile.cleanIf (t : Tile) (whole : Bool) (ls : List Nat) : Tile := if whole then ls.foldl Tile.clean t else t

/-- One unit of a tile destination; answers the bytes written. -/
def CopyIn.tileUnit (x : CopyIn) (k q : Nat) (t : Tile) (u : Nat) (s : State) : CR Nat :=
  if x.dty.isBlock then
    let g := blockGroup
    let named (b : Nat) : Option (Nat × Nat) := (recAt x.r (32 * (b / t.cols)) (b % t.cols)).map fun e => (b, e / 32)
    let bs := ((upTo g).map (u * g + ·)).filterMap named
    (eachCR (fun (b : Nat × Nat) s => (x.outBlock b.2 s).andThen fun k s => (.ok (b.1, k), s)) bs s).andThen fun ks s =>
      let now := ((s.tile q (recHandle x.r)).getD t)
      let t' := ks.foldl (fun (t : Tile) (k : Nat × Nat × List Nat) => t.setBlock (k.1 / t.cols) (k.1 % t.cols) k.2.1 k.2.2) now
      let ls := dedupe (bs.flatMap fun b =>
        bitLines (b.1 * x.dty.blockBytes * 8) (x.dty.blockBytes * 8) ++ [(scaleArea t.ty t.rows t.cols + b.1) / 128])
      (.ok (ks.length * (x.dty.blockBytes + 1)), x.fill k q (t'.cleanIf (bs.length == g) ls) ls s)
  else
    let n := 1024 / x.dty.width
    let ps := (upTo n).filterMap fun i =>
      let p := u * n + i
      (recAt x.r (p / t.cols) (p % t.cols)).map fun e => (p, e)
    (eachCR (fun (p : Nat × Nat) s => (x.outCode p.2 s).andThen fun c s => (.ok (p.1, c), s)) ps s).andThen fun cs s =>
      let now := ((s.tile q (recHandle x.r)).getD t)
      let t' := cs.foldl (fun (t : Tile) (c : Nat × Nat) => t.setCode (c.1 / t.cols) (c.1 % t.cols) c.2) now
      (.ok (cs.length * (x.dty.width / 8)), x.fill k q (t'.cleanIf (ps.length == n) [u]) [u] s)

/-! ## The header (R246) -/

/-- What the header gives: the seed, SCALEVA and ZBLK; none when a reserved byte is not zero. -/
def headerOf (bs : List Byte) : Option (DWord × Nat × Bool) :=
  let flags := ofBytes ((bs.drop 16).take 1)
  if 2 ≤ flags ∨ (bs.drop 17).any (· != 0) then none
  else some (BitVec.ofNat 64 (ofBytes (bs.take 8)), ofBytes ((bs.drop 8).take 8), flags == 1)

/-! ## Range locks (R251) -/

/-- The lowest indices of a die's table that hold no entry. -/
def Die.freeLocks (d : Die) : List Nat := (upTo 256).filter fun i => !(d.locks.any fun l => l.1 == i)

/-- Registers a slice's ranges. -/
def Die.addLocks (d : Die) (copy slice : Nat) (rs : List LockRange) : Die :=
  { d with locks := (d.freeLocks.zip rs).foldl (fun l x => aset l x.1 ⟨copy, slice, x.2⟩) d.locks }

/-- The scale area that the header in memory names when the slice issues, when the header can be read; otherwise the slice locks it once it has read the
header.
(DEDUCED, log 41) -/
def State.peekScale (s : State) (a : Access) (r : List DWord) : Option Nat :=
  match State.copyRead a [] 0 3 s (wrapN ((recBase r : Int) - 64) 64) 64 with
  | (.ok bs, _) => (headerOf bs).map (·.2.1)
  | (.error _, _) => none

/-- The bytes of a slice's header. -/
def recHead (r : List DWord) : Nat × Nat :=
  let a := wrapN ((recBase r : Int) - 64) 64
  (a, a + 64)

/-- The ranges of a slice.
(DEDUCED, log 41) -/
def State.sliceRanges (s : State) (a : Access) (q : Nat) (r : List DWord) (idx : List Nat) : List LockRange :=
  match recSty r, recDty r with
  | some st, some dt =>
    let zero := recTotal r = 0
    let head : List (Nat × Nat) := if recHdr r then [recHead r] else []
    let scale : List (Nat × Nat) := if recHdr r && st.isBlock then
      (match s.peekScale a r with
        | some v => [(v, v + recTotal r / 32)]
        | none => []) else []
    let src : List LockRange := if recCsource r then []
      else [.mem a.owner (if zero then [] else head ++ scale ++ recSource r idx st) false]
    let ix : List LockRange := if recRowg r then [.mem a.owner [(recDst r, recDst r + 4 * recB r 1)] false] else []
    let dst : LockRange :=
      if recMem r then
        .mem a.owner (if zero then [] else [(recDst r, if dt.isBlock then recScales r dt + recTotal r / 32 else recDst r + recElemBytes r dt)]) true
      else match s.tile q (recHandle r) with
        | some t => .tile q (recHandle r) (recLines r t)
        | none => .tile q (recHandle r) []
    src ++ ix ++ [dst]
  | _, _ => []

/-! ## COPY (R240, R249, R250) -/

/-- The outstanding copy of a squad's tag. -/
def State.copyOfTag (s : State) (q tag : Nat) : Option (Nat × Copy) := s.copies.find? fun p => p.2.q == q && p.2.tag == tag

/-- The index vector of a slice (R247), one entry after another. -/
def State.readIndex (a : Access) (base : Nat) : List Nat → State → LR2 (List Nat)
  | [], s => (.ok [], s)
  | i :: is, s =>
    let va := wrapN ((base + 4 * i : Nat) : Int) 64
    if 2 ^ 56 ≤ va then (.error (.cause .protection 0, va), s)
    else if va % 4 ≠ 0 then (.error (.cause .misaligned 0, va), s)
    else ((s.vread a va 4 false).at va).andThen fun bs s => (readIndex a base is s).andThen fun l s => (.ok (ofBytes bs :: l), s)

/-- A failed record check: a cause with the offset in TRAPINFO0 (R249).
(DEDUCED, log 40) -/
def GenIn.recTrap (x : GenIn) (c : Cause) (off : Nat) : GenRes := .trap c [BitVec.ofNat 64 off, 0, 0, 0] x.s

/-- The checks of a slice's record, its types and its tile, in the order of R249; then the slice itself.
(DEDUCED, log 40) -/
def GenIn.recChecks (x : GenIn) (r : List DWord) (f : GenRes) : GenRes :=
  let go (g : Option Region) : GenRes :=
    if recTypeBad r g then x.recTrap .illegalType 1
    else if !recMem r && recTileBad r (x.s.tile x.q (recHandle r)) then x.recTrap .tileHandle (if recRowg r then 1 else 7)
    else f
  let dst : Option Nat := if !recMem r && !recRowg r && recDst r ≥ 2 ^ 40 then some 7 else none
  if recCtlBad r then x.recTrap .reservedField 1
  else match recDimBad r with
    | some o => x.recTrap .reservedField o
    | none =>
      if recCsource r then
        let owner := fieldN (recBase r) 18 12
        if owner ≠ x.s.ownerOf x.sq then x.violation x.s 5 0 0 owner
        else match x.s.recRegion r with
          | none => x.recTrap .reservedField 0
          | some (_, _, g) =>
            match (recCoordBad r g).orElse fun _ => dst with
            | some o => x.recTrap .reservedField o
            | none => go (some g)
      else match dst with
        | some o => x.recTrap .reservedField o
        | none => go none

/-- A slice joins its copy, or opens it, frozen while the squad's copies are (R420); the last slice queues it (R250). One with a zero bound is done at once: its header is not read and no seed is
written.
(DESIGN CHOICE, log 81) -/
def State.addSlice (s : State) (q c tag count : Nat) (h : Option Nat) (r : List DWord) (idx : List Nat) (a : Access) (die : Nat) : State :=
  let zblk := (recCtl r).testBit 16
  let sl : Slice := { ctx := c, rec_ := r, idx := idx, done := recTotal r == 0, zblk := zblk, started := !recHdr r }
  let (k, cp, s) : Nat × Copy × State := match s.copyOfTag q tag with
    | some (k, cp) => (k, cp, s)
    | none => (s.nextCopy, { q := q, tag := tag, count := count, huddle := h, frozen := (s.squad q).any (·.queueFrozen) }, { s with nextCopy := s.nextCopy + 1 })
  let rs := s.sliceRanges a q r idx
  let n := cp.slices.length
  let cp := { cp with slices := cp.slices ++ [sl] }
  let cp := if n + 1 = count then { cp with state := .queued, order := s.serial } else cp
  let s := { s with copies := aset s.copies k cp, serial := s.serial + 1 }
  s.modDie die fun d => d.addLocks k n rs

/-- COPY (R240).
(DESIGN CHOICE, log 2) -/
def execCopy (w : GR) (s : State) : Outcome State Fault Refusal :=
  genRun (.copy w) w.cnd (fun x =>
    let r := (upTo 8).map fun k => x.rd.S (w.a.toNat + k)
    let tag := fieldN w.imm.toNat 0 8
    let count := fieldN w.fn.toNat 0 4 + 1
    let h := if w.b.getLsbD 4 then some (fieldN w.b.toNat 0 4) else none
    let die := dieOf x.sq.cluster
    x.recChecks r (
      let held := (x.s.copies.filter fun p => ((x.s.squad p.2.q).map (·.cluster)) == some x.sq.cluster).length
      let need := 1 + b2n (!recCsource r) + b2n (recRowg r)
      let room := decide (need ≤ (x.s.die die).freeLocks.length)
      let go : GenRes :=
        let ix := if recRowg r then upTo (recB r 1) else []
        match State.readIndex x.acc (recDst r) ix x.s with
        | (.error (f, va), s) => x.memFail s f va 2 false false false
        | (.ok idx, s) => .done (s.addSlice x.q x.c tag count h r idx x.acc die)
      match x.s.copyOfTag x.q tag with
      | some (_, cp) =>
        if cp.slices.length = cp.count then .wait (.copyRoom tag need) x.s
        else if cp.count ≠ count ∨ cp.huddle ≠ h then .trap .reservedField [8, 1, 0, 0] x.s
        else if room then go else .wait (.copyRoom tag need) x.s
      | none => if held < 32 ∧ room then go else .wait (.copyRoom tag need) x.s)) s

/-! ## Status (R254, R255) -/

/-- The status word of an outstanding copy. -/
def Copy.status (c : Copy) : Nat :=
  min c.bytes (2 ^ 32 - 1) * 2 ^ 32 + c.fslice * 2 ^ 20 + (c.slices.length - 1) * 2 ^ 16 + ((c.cause.map (·.code)).getD 0) * 2 ^ 8 + c.state.code

/-- The status word of a tag. -/
def State.copyStatus (s : State) (q : Nat) (sq : Squad) (tag : Nat) : DWord :=
  BitVec.ofNat 64 (match s.copyOfTag q tag with
    | some (_, cp) => cp.status
    | none => aget 0 sq.copyStatus tag)

/-- The tag of COPYWAIT, COPYQ and COPYCAN. -/
def grTag (w : GR) : Nat := fieldN w.imm.toNat 0 8

/-- COPYWAIT (R254). -/
def execCopywait (w : GR) (s : State) : Outcome State Fault Refusal :=
  genRun (.copywait w) w.cnd (fun x =>
    let busy : Bool := match x.s.copyOfTag x.q (grTag w) with
      | some (_, cp) => cp.state != CopyState.failed
      | none => false
    if busy then .wait (.copyEnd (grTag w)) x.s
    else x.finish (x.cx.setS w.d.toNat (x.s.copyStatus x.q x.sq (grTag w)))) s

/-- COPYQ (R254). -/
def execCopyq (w : GR) (s : State) : Outcome State Fault Refusal :=
  genRun (.copyq w) w.cnd (fun x => x.finish (x.cx.setS w.d.toNat (x.s.copyStatus x.q x.sq (grTag w)))) s

/-- COPYQ.RESUME (R254): a FAILED copy goes on from its saved iteration vector. -/
def execCopyqResume (w : GR) (s : State) : Outcome State Fault Refusal :=
  genRun (.copyqResume w) w.cnd (fun x =>
    let s := match x.s.copyOfTag x.q (grTag w) with
      | some (k, cp) =>
        if cp.state == CopyState.failed then x.s.modCopy k fun c => { c with state := .running, cause := none, fslice := 0, faultInfo := [] } else x.s
      | none => x.s
    .done (s.modCtx x.q x.c fun cx => cx.setS w.d.toNat (s.copyStatus x.q x.sq (grTag w)))) s

/-- COPYCAN (R255): the engine stands between two units, so the copy stops at once.
(DEDUCED, log 41) -/
def execCopycan (w : GR) (s : State) : Outcome State Fault Refusal :=
  genRun (.copycan w) w.cnd (fun x =>
    .done (match x.s.copyOfTag x.q (grTag w) with
      | some (k, _) => x.s.dropCopy k
      | none => x.s)) s

/-! ## The engine -/

/-- The queued copy of a cluster whose last slice arrived first. -/
def State.nextQueued (s : State) (cl : Nat) : Option Nat :=
  let qs := s.copies.filter fun p => p.2.state == CopyState.queued && !p.2.frozen && ((s.squad p.2.q).map (·.cluster)) == some cl
  (leastBy (fun p => p.2.order) qs).map (·.1)

/-- COPY_START (R239, R250): the engine of cluster a starts its next copy.
(DEDUCED, log 41) -/
def evCopyStart (s : State) : Outcome State Fault Refusal :=
  .next (match s.nextQueued s.operand.a with
    | some k => s.modCopy k fun c => { c with state := .running }
    | none => s)

/-- A copy goes on after a unit, or after its header. -/
def State.modSlice (s : State) (k i : Nat) (f : Slice → Slice) : State := s.modCopy k fun c => { c with slices := c.slices.modify i f }

/-- The engine stops at a failure (R253, R318, R320, R385, R420).
(DEDUCED, log 41) -/
def State.copyStop (s : State) (k : Nat) (cp : Copy) (i : Nat) (sl : Slice) (sq : Squad) (f : MemFail) (va e : Nat) (wr : Bool) : State :=
  let info := copyInfo va cp.tag i (recVec sl.rec_ e)
  let d := dieOf sq.cluster
  match f with
  | .cause c _ => s.copyFail k i c info
  | .page level entry | .indexPage level entry =>
    if 1024 ≤ (s.die d).faults then s
    else
      let rec_ := faultRecord va (s.ownerOf sq) 2 (if wr then 2 else 1) level d (sq.cluster % 44) entry (cp.tag + i * 2 ^ 8)
      (s.modCopy k fun c => { c with fault := true, faultInfo := info }).modDie d fun x => { x with faultQ := x.faultQ ++ [⟨.copy k, rec_⟩] }
  | .touch t => s.addTouch d t
  | .violation code pa target =>
    let v : Violation :=
      { code := code, master := .copies cp.q, die := d, cluster := sq.cluster % 44, owner := s.ownerOf sq, target := target, va := va, pa := pa
        ident := sq.id % 256, lanes := 0 }
    (s.violate (s.holdTask sq) v).modCopy k fun c => { c with violVa := some va }
  | .spec => s.modCopy k fun c => { c with stalled := true }
  | .remote => s

/-- The scale area that a slice's header names joins the source range of the slice, when that does not hold it yet (R251).
(DEDUCED, log 41) -/
def State.lockScale (s : State) (k i : Nat) (r : List DWord) (scaleVa : Nat) : State :=
  let area := (scaleVa, scaleVa + recTotal r / 32)
  if (recSty r).any (·.isBlock) then
    { s with dies := s.dies.map fun d => { d with locks := d.locks.map fun l =>
        match l.2.range with
        | .mem o rs false =>
          if l.2.copy = k ∧ l.2.slice = i ∧ rs.contains (recHead r) ∧ !rs.contains area then (l.1, { l.2 with range := .mem o (area :: rs) false }) else l
        | _ => l } }
  else s

/-- The copy's slice `i` reads its header before it starts (R246). -/
def State.copyHeader (s : State) (k : Nat) (cp : Copy) (i : Nat) (sl : Slice) (sq : Squad) : State :=
  let va := wrapN ((recBase sl.rec_ : Int) - 64) 64
  match State.copyRead (s.genAccess sq) cp.suppress 0 3 s va 64 with
  | (.error (f, va, e, wr), s) => s.copyStop k cp i sl sq f va e wr
  | (.ok bs, s) =>
    match headerOf bs with
    | none => s.copyFail k i .reservedField (copyInfo va cp.tag i [])
    | some (seed, scaleVa, z) =>
      let s := s.modSquad cp.q fun x => { x with seeds := asetD 0 x.seeds (recSeed sl.rec_) seed }
      (s.lockScale k i sl.rec_ scaleVa).modSlice k i fun x => { x with started := true, scaleVa := scaleVa, zblk := x.zblk || z }

/-- The copy's slice `i` writes its next unit, before the first of which it reads its source.
(DEDUCED, log 41) -/
def State.copyUnit (s : State) (k : Nat) (cp : Copy) (i : Nat) (sl : Slice) (sq : Squad) : State :=
  let x : CopyIn :=
    { a := s.genAccess sq, sup := cp.suppress, sl := sl, sq := sq, sty := (recSty sl.rec_).getD .n8, dty := (recDty sl.rec_).getD .n8
      rnd := Rnd.ofCode (fieldN (recCtl sl.rec_) 26 2), ovf := Ovf.ofCode (fieldN (recCtl sl.rec_) 28 2) }
  let got := x.readRest (recTotal sl.rec_ - sl.codes.length) sl.codes.length s
  let codes := sl.codes ++ got.1
  let x := { x with sl := { sl with codes := codes }, stop := got.2.1 }
  let s := got.2.2.modSlice k i fun y => { y with codes := codes }
  let t := (s.tile cp.q (recHandle sl.rec_)).getD { level := 1, ty := x.dty, rows := 1, cols := 1, core := 0 }
  let us := recUnits sl.rec_ t x.dty
  match us[sl.next]? with
  | none => s.modSlice k i fun y => { y with done := true }
  | some u =>
    match (if recMem sl.rec_ then x.memUnit u s else x.tileUnit k cp.q t u s) with
    | (.error (f, va, e, wr), s) => s.copyStop k cp i sl sq f va e wr
    | (.ok n, s) =>
      (s.modSlice k i fun y => { y with next := sl.next + 1, done := decide (us.length ≤ sl.next + 1) }).modCopy k fun c =>
        { c with bytes := c.bytes + n, stalled := false }

/-- COPY_LINE_WRITE (R239, R253): running copy a goes on with the first of its slices that is not done.
(DESIGN CHOICE, log 2; DEDUCED, log 41) -/
def evCopyLineWrite (s : State) : Outcome State Fault Refusal :=
  let k := s.operand.a
  .next (match s.copy k with
    | none => s
    | some cp =>
      match s.squad cp.q with
      | none => s
      | some sq =>
        if cp.state != CopyState.running || cp.fault || cp.frozen then s
        else match cp.slices.zipIdx.find? fun x => !x.1.done with
          | none => s
          | some (sl, i) => if sl.started then s.copyUnit k cp i sl sq else s.copyHeader k cp i sl sq)

/-- COPY_COMPLETE (R253): a running copy whose slices are done leaves the outstanding states and pays its huddle; OWED at its lowest value
stays, and the context of the last slice receives HUDDLE_MISMATCH.
(DEDUCED, log 41) -/
def evCopyComplete (s : State) : Outcome State Fault Refusal :=
  let k := s.operand.a
  .next (match s.copy k with
    | none => s
    | some cp =>
      if cp.state != CopyState.running || cp.fault || cp.frozen || !(cp.slices.all (·.done)) then s
      else
        let s := s.dropCopy k
        match cp.huddle, s.squad cp.q with
        | some h, some sq =>
          match (sq.huddle h).paid with
          | some hd => s.setHuddle cp.q h hd
          | none =>
            s.pendCopy cp.q ((cp.slices.getLast?.map (·.ctx)).getD 0) cp.tag .huddleMismatch [BitVec.ofNat 64 h, BitVec.ofNat 64 cp.tag, 0, 0]
        | _, _ => s)

end Sys2Proof.Machine
end

