-- ==== Sys2Proof/Machine/Hash.lean ====
section
/-! DEFINITION. The hash functions that the spec names: SHAKE128 (11_cluster_descent.md R278), SHA3-256 (23_package_security.md R423) and
SHA-384 (R429), as FIPS 202 and FIPS 180-4 define them. -/

namespace Sys2Proof.Machine

/-! ## Keccak-f[1600] -/

/-- Rotation of a word to the left. -/
def rotl64 (x : DWord) (n : Nat) : DWord := if n % 64 = 0 then x else (x <<< (n % 64)) ||| (x >>> (64 - n % 64))

/-- Rotation of a word to the right. -/
def rotr64 (x : DWord) (n : Nat) : DWord := rotl64 x (64 - n % 64)

/-- The rotation of each lane x + 5y. -/
def rhoOffsets : List Nat :=
  [0, 1, 62, 28, 27, 36, 44, 6, 55, 20, 3, 10, 43, 25, 39, 41, 45, 15, 21, 8, 18, 2, 61, 56, 14]

/-- The round constants. -/
def roundConsts : List DWord :=
  [0x0000000000000001#64, 0x0000000000008082#64, 0x800000000000808A#64, 0x8000000080008000#64, 0x000000000000808B#64, 0x0000000080000001#64,
   0x8000000080008081#64, 0x8000000000008009#64, 0x000000000000008A#64, 0x0000000000000088#64, 0x0000000080008009#64, 0x000000008000000A#64]
  ++ [0x000000008000808B#64, 0x800000000000008B#64, 0x8000000000008089#64, 0x8000000000008003#64, 0x8000000000008002#64, 0x8000000000000080#64,
   0x000000000000800A#64, 0x800000008000000A#64, 0x8000000080008081#64, 0x8000000000008080#64, 0x0000000080000001#64, 0x8000000080008008#64]

/-- One round: theta, rho and pi, chi, iota. -/
def keccakRound (a : List DWord) (rc : DWord) : List DWord :=
  let g (l : List DWord) (i : Nat) : DWord := l.getD i 0
  let c := (upTo 5).map fun x => g a x ^^^ g a (x + 5) ^^^ g a (x + 10) ^^^ g a (x + 15) ^^^ g a (x + 20)
  let d := (upTo 5).map fun x => g c ((x + 4) % 5) ^^^ rotl64 (g c ((x + 1) % 5)) 1
  let a := (upTo 25).map fun i => g a i ^^^ g d (i % 5)
  let b := (upTo 25).map fun i =>
    let src := (i % 5 + 3 * (i / 5)) % 5 + 5 * (i % 5)
    rotl64 (g a src) (rhoOffsets.getD src 0)
  let e := (upTo 25).map fun i =>
    let row := i / 5 * 5
    g b i ^^^ (~~~(g b (row + (i + 1) % 5)) &&& g b (row + (i + 2) % 5))
  match e with
  | x :: t => (x ^^^ rc) :: t
  | [] => []

/-- The permutation.
(PRESUMED, log 58) -/
def keccakF (a : List DWord) : List DWord := roundConsts.foldl keccakRound a

/-- A block of `rate` bytes is absorbed. -/
def absorb (rate : Nat) (a : List DWord) (block : List Byte) : List DWord :=
  keccakF (a.zipIdx.map fun (x, i) => if i < rate / 8 then x ^^^ BitVec.ofNat 64 (ofBytes ((block.drop (8 * i)).take 8)) else x)

/-- Every whole block of a padded message, at most `n`. -/
def absorbAll (rate : Nat) : Nat → List DWord → List Byte → List DWord
  | 0, a, _ => a
  | n + 1, a, m => if m.isEmpty then a else absorbAll rate n (absorb rate a (m.take rate)) (m.drop rate)

/-- The first `out` bytes of the sponge, at most one block, over a message with a domain suffix.
(PRESUMED, log 58) -/
def sponge (rate suffix out : Nat) (m : List Byte) : List Byte :=
  let k := rate - m.length % rate
  let pad : List Byte := if k = 1 then [BitVec.ofNat 8 (suffix + 128)]
    else BitVec.ofNat 8 suffix :: (List.replicate (k - 2) 0 ++ [0x80])
  let a := absorbAll rate ((m.length + k) / rate) (List.replicate 25 0) (m ++ pad)
  (a.flatMap fun x => toBytes 8 x.toNat).take out

/-- The first 16 bytes of SHAKE128.
(PRESUMED, log 58) -/
def shake128 (m : List Byte) : List Byte := sponge 168 0x1F 16 m

/-- SHA3-256.
(PRESUMED, log 58) -/
def sha3 (m : List Byte) : List Byte := sponge 136 0x06 32 m

/-! ## SHA-384 -/

/-- The fractional bits of cube roots: the 64-bit prefix after the binary point of the cube root of `p`, found bit by bit. -/
def cubeRootBits (p : Nat) : Nat → Nat → Nat
  | 0, r => r
  | n + 1, r =>
    let t := r + 2 ^ n
    cubeRootBits p n (if t * t * t ≤ p * 2 ^ 192 then t else r)

/-- As `cubeRootBits`, for square roots. -/
def squareRootBits (p : Nat) : Nat → Nat → Nat
  | 0, r => r
  | n + 1, r =>
    let t := r + 2 ^ n
    squareRootBits p n (if t * t ≤ p * 2 ^ 128 then t else r)

/-- The first primes below 410. -/
def primes : List Nat := (upTo 410).filter fun n => decide (2 ≤ n) && ((upTo n).drop 2).all fun d => n % d != 0

/-- The 80 constants of SHA-512. -/
def sha512K : List DWord := (primes.take 80).map fun p => BitVec.ofNat 64 (cubeRootBits p 68 0)

/-- The initial value of SHA-384: from the square roots of the ninth to the sixteenth primes. -/
def sha384Init : List DWord := ((primes.drop 8).take 8).map fun p => BitVec.ofNat 64 (squareRootBits p 70 0)

/-- The number that bytes hold, most significant first. -/
def ofBytesBE (bs : List Byte) : Nat := ofBytes bs.reverse

/-- Bytes of a number, most significant first. -/
def toBytesBE (n x : Nat) : List Byte := (toBytes n x).reverse

/-- The message schedule, grown by one word at a time; the newest word stands first. -/
def schedule512 : Nat → List DWord → List DWord
  | 0, w => w
  | n + 1, w =>
    let x := w.getD 14 0
    let y := w.getD 1 0
    let s0 := rotr64 x 1 ^^^ rotr64 x 8 ^^^ (x >>> 7)
    let s1 := rotr64 y 19 ^^^ rotr64 y 61 ^^^ (y >>> 6)
    schedule512 n ((w.getD 15 0 + s0 + w.getD 6 0 + s1) :: w)

/-- One round of SHA-512. -/
def round512 (h : List DWord) (kw : DWord × DWord) : List DWord :=
  let g (i : Nat) : DWord := h.getD i 0
  let e := g 4
  let a := g 0
  let s1 := rotr64 e 14 ^^^ rotr64 e 18 ^^^ rotr64 e 41
  let ch := (e &&& g 5) ^^^ (~~~e &&& g 6)
  let t1 := g 7 + s1 + ch + kw.1 + kw.2
  let s0 := rotr64 a 28 ^^^ rotr64 a 34 ^^^ rotr64 a 39
  let maj := (a &&& g 1) ^^^ (a &&& g 2) ^^^ (g 1 &&& g 2)
  [t1 + s0 + maj, a, g 1, g 2, g 3 + t1, e, g 5, g 6]

/-- One block of 128 bytes. -/
def block512 (h : List DWord) (b : List Byte) : List DWord :=
  let w0 := (upTo 16).map fun i => BitVec.ofNat 64 (ofBytesBE ((b.drop (8 * i)).take 8))
  let w := (schedule512 64 w0.reverse).reverse
  let z := (sha512K.zip w).foldl round512 h
  (h.zip z).map fun p => p.1 + p.2

/-- Every block of a padded message. -/
def blocks512 : Nat → List DWord → List Byte → List DWord
  | 0, h, _ => h
  | n + 1, h, m => if m.isEmpty then h else blocks512 n (block512 h (m.take 128)) (m.drop 128)

/-- SHA-384.
(PRESUMED, log 58) -/
def sha384 (m : List Byte) : List Byte :=
  let k := (239 - m.length % 128) % 128
  let p := m ++ (0x80 :: (List.replicate k 0 ++ toBytesBE 16 (8 * m.length)))
  ((blocks512 (p.length / 128) sha384Init p).flatMap fun x => toBytesBE 8 x.toNat).take 48

end Sys2Proof.Machine
end

