-- ==== Sys2Proof/Machine/LaneTile.lean ====
section
/-! DEFINITION. The lane words on tiles (06_lane_memory.md R150 to R155), the tile table words (08_core_tiles_sched.md R193 to R197), and the
device steps that end their waits (R94, R153, R162, R196). -/

namespace Sys2Proof.Machine

open Host (Outcome)

/-! ## Lanes -/

/-- The row and column a lane names. -/
def LaneIn.rowCol (x : LaneIn) (w : LR) (l : Nat) : Nat × Nat := (x.op 1 l w.a.toNat, x.op 1 l w.c.toNat)

/-- The stop of a tile lane (R146). -/
def LaneIn.tileStop (w : MemWord) (l : Nat) (rc : Nat × Nat) (c : Cause) (w2 : Option Nat) : Stop :=
  match w2 with
  | some i => .fault c [0, BitVec.ofNat 64 (w.map l), BitVec.ofNat 64 i, BitVec.ofNat 64 (rc.1 + rc.2 * 2 ^ 32)] []
  | none => .fault c [0, BitVec.ofNat 64 (w.map l), BitVec.ofNat 64 rc.1, BitVec.ofNat 64 rc.2] []

/-- The checks of R151 for a lane: `ty` is the type of LDT and STT. -/
def tileCheck (x : Option Tile) (ty : Option NumTy) (rc : Nat × Nat) : Option Tile :=
  match x with
  | some t =>
    if t.level != 0 && (match ty with
        | some k => t.ty == k
        | none => true) && decide (rc.1 < t.rows) && decide (rc.2 < t.cols) then some t else none
  | none => none

/-- LDT (R150, R151, R153): a lane whose line is EMPTY waits, and one whose line an uncorrectable error marks faults, or below the safe set point makes the
word await the power event (R414). -/
def execLdt (w : LR) (s : State) : Outcome State Fault Refusal :=
  laneRun (.ldt w) w.ms (fun x =>
    let t := x.ty w.ty
    let h := w.b.toNat
    let mw : MemWord := { tile := true, lsize := lsizeOf (t.width / 8) }
    let tile := x.tile h
    let lines (l : Nat) : List Nat := match tileCheck tile (some t) (x.rowCol w l) with
      | some k => (k.elemLines (x.rowCol w l).1 (x.rowCol w l).2)
      | none => []
    let one (l : Nat) : Except Stop Nat :=
      let rc := x.rowCol w l
      match tileCheck tile (some t) rc with
      | none => .error (LaneIn.tileStop mw l rc .tileHandle none)
      | some k =>
        match (k.elemLines rc.1 rc.2).find? fun j => !k.full j with
        | some j => .error (.line h j [0, BitVec.ofNat 64 (mw.map l), BitVec.ofNat 64 rc.1, BitVec.ofNat 64 rc.2])
        | none =>
          if (k.badLine (lines l)).isSome then .error (LaneIn.tileStop mw l rc .uncorrectableData none)
          else .ok (k.code rc.1 rc.2)
    let ls := x.tm.lanesOf x.m
    let vals := ls.filterMap fun l => match one l with
      | .ok v => some (l, v)
      | .error _ => none
    let stops := ls.filterMap fun l => match one l with
      | .ok _ => none
      | .error e => some (l, e)
    let s := x.s.modTeam x.q x.t fun tm =>
      tm.setTy (loadTy t) w.d.toNat (maskOf (vals.map (·.1))) fun l => loadImage t (aget 0 vals l)
    if (x.s.cluster x.sq.cluster).undervolted && tile.any (·.clustered) && stops.any fun z => z.2.isUncorrectable then x.uncorrectable x.m [] x.s
    else x.ending s x.master stops) s

/-- STT (R151, R152, R154, R155). A lane in a locked range stops and the other lanes store (R144, R155).
(DESIGN CHOICE, log 89) -/
def execStt (w : LR) (s : State) : Outcome State Fault Refusal :=
  laneRun (.stt w) w.ms (fun x =>
    let t := x.ty w.ty
    let h := w.b.toNat
    let mw : MemWord := { tile := true, wr := true, lsize := lsizeOf (t.width / 8) }
    let tile := x.s.tile x.q h
    let val (l : Nat) : Rounded := narrowStore x.tm.fmtr t (x.datum t w.d.toNat l)
    let ls := x.tm.lanesOf x.m
    let traps := ls.filter fun l => (val l).trap
    let one (l : Nat) : Option Stop :=
      let rc := x.rowCol w l
      match tileCheck tile (some t) rc with
      | none => some (LaneIn.tileStop mw l rc .tileHandle none)
      | some k =>
        match (k.elemLines rc.1 rc.2).findSome? fun j => x.s.tileLockHit x.q h j with
        | some i => some (LaneIn.tileStop mw l rc .rangeConflict (some i))
        | none => if traps.contains l then some (.fault .fpOverflow (ovfInfo traps) []) else none
    let stops := ls.filterMap fun l => (one l).map fun e => (l, e)
    if traps.isEmpty then
      let ok := ls.filter fun l => (one l).isNone
      let fl := ok.foldl (fun a l => a ||| (val l).flags) f0
      let s := match tile with
        | some k => x.s.setTile x.q h (ok.foldl (fun k l => let rc := x.rowCol w l; k.setCode rc.1 rc.2 (val l).code) k)
        | none => x.s
      x.ending (s.modTeam x.q x.t fun tm => tm.holdFlags fl) x.master stops
    else match firstFault stops with
      | some (c, i, r) => .park c i x.m r x.s
      | none => .done x.s) s

/-- TEMPTY and TFULL: the lines of each performed lane, changed once (R151, R154, R155). -/
def LaneIn.lineState (x : LaneIn) (w : LR) (full : Bool) : LaneRes :=
  let h := w.b.toNat
  let mw : MemWord := { tile := true }
  let tile := x.s.tile x.q h
  let one (l : Nat) : Except Stop (List Nat) :=
    let rc := x.rowCol w l
    match tileCheck tile none rc with
    | none => .error (LaneIn.tileStop mw l rc .tileHandle none)
    | some k =>
      let js := k.elemLines rc.1 rc.2
      match js.findSome? fun j => x.s.tileLockHit x.q h j with
      | some i => .error (LaneIn.tileStop mw l rc .rangeConflict (some i))
      | none => .ok js
  let ls := x.tm.lanesOf x.m
  let lines := ls.flatMap fun l => match one l with
    | .ok js => js
    | .error _ => []
  let stops := ls.filterMap fun l => match one l with
    | .ok _ => none
    | .error e => some (l, e)
  let s := match tile with
    | some k => if full then x.s.fillLines x.q h lines else x.s.setTile x.q h (k.setEmpty lines)
    | none => x.s
  x.ending s x.master stops

/-- TEMPTY (R154). -/
def execTempty (w : LR) (s : State) : Outcome State Fault Refusal := laneRun (.tempty w) w.ms (fun x => x.lineState w false) s

/-- TFULL (R154). -/
def execTfull (w : LR) (s : State) : Outcome State Fault Refusal := laneRun (.tfull w) w.ms (fun x => x.lineState w true) s

/-! ## The tile table -/

/-- The information words of a tile table word (R195, R196): the handle, and what word 2 holds.
(DEDUCED, log 21) -/
def handleInfo (d w2 : Nat) : List DWord := [BitVec.ofNat 64 d, 0, BitVec.ofNat 64 w2, 0]

/-- TNEW (R195). Word 2 of TILE_HANDLE counts the lines of a block type with rows/32 rounded down.
(DESIGN CHOICE, log 90) -/
def execTnew (w : LR) (s : State) : Outcome State Fault Refusal :=
  laneRun (.tnew w) w.ms (fun x =>
    match lowLane x.m with
    | none => .done x.s
    | some l0 =>
      let t := x.ty w.ty
      let d := w.d.toNat
      let level := fieldN w.fn.toNat 0 2
      match x.tm.badAt [w.a.toNat] (maskOf [l0]) with
      | some (r, l) => x.uncorrectable x.m (badInfo [] r l) x.s
      | none =>
      let v := (x.rd.V l0 w.a.toNat).toNat
      let rows := fieldN v 0 16
      let cols := fieldN v 16 16
      let n := spaceOf level t rows cols
      let core := x.tm.coreOf l0
      if (x.s.tile x.q d).isSome || rows == 0 || cols == 0 || (level == 0 && (decide (64 < rows) || decide (64 < cols)))
          || (t.isBlock && rows % 32 != 0) then x.trap .tileHandle (handleInfo d n)
      else if !x.s.room x.sq level core n then x.trap .tileStoreFull (handleInfo d n)
      else
        let tile : Tile := { level := level, ty := t, rows := rows, cols := cols, core := core }
        .done (x.s.setTile x.q d (if level ≠ 0 ∧ w.fn.getLsbD 2 then tile.setFull (upTo tile.lineCount) else tile))) s

/-- The lowest-numbered range-lock entry that locks a line of a tile (R196). -/
def State.tileLocked (s : State) (q h : Nat) : Option Nat :=
  (s.dies.flatMap fun d => (d.locks.filter fun l => match l.2.range with
    | .tile q' h' ls => q' == q && h' == h && !ls.isEmpty
    | _ => false).map (·.1)).head?

/-- The word of a team is under way and has begun an access to tile `h` of its squad, which it names in D or B: a team that waits on an EMPTY line has
not.
(DEDUCED, log 27) -/
def Team.reading (tm : Team) (opcs : List Nat) (at_ h : Nat) : Bool :=
  let lines := match tm.wait with
    | some (.lines _ _) => true
    | _ => false
  opcs.contains (opcOf tm.word) && field64 tm.word at_ 8 == h && !lines && tm.park.isNone

/-- An access to a tile is under way (R196, R276): a descent word of the squad that reads its row tile, or a TEPI that stores its accumulator to memory.
(DEDUCED, log 27) -/
def State.tileInUse (s : State) (q h : Nat) : Bool :=
  match s.squad q with
  | some sq =>
    let by_ (u : Option (Nat × Nat)) (opcs : List Nat) (at_ : Nat) : Bool := match u with
      | some (q', t) => q' == q && (sq.teams[t]?).any fun tm => tm.reading opcs at_ h
      | none => false
    by_ (s.cluster sq.cluster).descent.head? [0x90, 0x93] 24
      || (s.cluster sq.cluster).cores.any fun c => by_ c.holder [0x84] 40
  | none => false

/-- TFREE (R196): it waits while an access to the tile that began before it is under way.
(DEDUCED, log 27) -/
def execTfree (w : LR) (s : State) : Outcome State Fault Refusal :=
  laneRun (.tfree w) w.ms (fun x =>
    let d := w.d.toNat
    if x.m = 0 then .done x.s
    else if (x.tile d).isNone then x.trap .tileHandle (handleInfo d 0)
    else match x.s.tileLocked x.q d with
      | some i => x.trap .rangeConflict (handleInfo d i)
      | none => if x.s.tileInUse x.q d then .wait (.tfree d) x.s else .done (x.s.freeTile x.q d)) s

/-- TZERO (R197). -/
def execTzero (w : LR) (s : State) : Outcome State Fault Refusal :=
  laneRun (.tzero w) w.ms (fun x =>
    let d := w.d.toNat
    if x.m = 0 then .done x.s
    else match x.s.tile x.q d with
      | none => x.trap .tileHandle (handleInfo d 0)
      | some k =>
        match x.s.tileLocked x.q d with
        | some i => x.trap .rangeConflict (handleInfo d i)
        | none =>
          let all := upTo k.lineCount
          if k.level = 0 then
            if w.fn.getLsbD 0 then x.trap .reservedField []
            else x.onUnit k.core (.done (x.s.setTile x.q d { k with acc := [], bad := [] }))
          else if w.fn.getLsbD 0 then .done (x.s.setTile x.q d { k with lines := [] })
          else .done ((x.s.setTile x.q d { k with lines := [] }).fillLines x.q d all)) s

/-! ## The ends of waits -/

/-- A team leaves Waiting, and its word executes again for its unfinished lanes.
(DEDUCED, log 27; DESIGN CHOICE, log 39) -/
def State.wake (s : State) (q t : Nat) : State := s.modTeam q t fun tm => { tm with wait := none }

/-- LINE_WAIT_RESUME (R153): a word of team (a, b) that awaits EMPTY lines goes on once one of them is FULL, or its handle is no longer that
tile's.
(DESIGN CHOICE, log 39) -/
def evLineWaitResume (s : State) : Outcome State Fault Refusal :=
  let q := s.operand.a
  let t := s.operand.b
  match s.team q t with
  | some tm =>
    match tm.wait with
    | some (.lines ls _) =>
      if ls.any fun p => match s.tile q p.1 with
          | some k => k.full p.2 || decide (k.lineCount ≤ p.2)
          | none => true
      then .next (s.wake q t) else .next s
    | _ => .next s
  | none => .next s

/-- TILE_STARVED_TIMEOUT (R94): a word of team (a, b) that has waited 2^24 cycles with no awaited line becoming FULL goes on, and reports
TILE_STARVED for what it still awaits.
(DEDUCED, log 27) -/
def evTileStarvedTimeout (s : State) : Outcome State Fault Refusal :=
  let q := s.operand.a
  let t := s.operand.b
  match s.team q t with
  | some tm =>
    match tm.wait with
    | some (.lines _ since) =>
      if since + 2 ^ 24 ≤ s.cycleOf q ∧ !tm.evicted then .next (s.modTeam q t fun tm => { tm with wait := none, starved := true }) else .next s
    | _ => .next s
  | none => .next s

/-- TFREE_EFFECT (R196): a waiting TFREE of team (a, b) takes effect once the accesses begun before it have been performed; where a copy has locked a line
of the tile meanwhile, the word executes again and reports it.
(DEDUCED, log 27) -/
def evTfreeEffect (s : State) : Outcome State Fault Refusal :=
  let q := s.operand.a
  let t := s.operand.b
  match s.team q t with
  | some tm =>
    match tm.wait with
    | some (.tfree h) =>
      if (s.tileLocked q h).isSome then .next (s.wake q t)
      else if s.tileInUse q h then .next s
      else .next (((s.modTeam q t fun tm => { tm with wait := none }).freeTile q h).retireHead q t)
    | _ => .next s
  | none => .next s

/-- MATRIX_UNIT_START (R162, R273): the word of team (a, b), first in the line of a free matrix unit or of the descent unit, starts there.
(DEDUCED, log 26) -/
def evMatrixUnitStart (s : State) : Outcome State Fault Refusal :=
  let q := s.operand.a
  let t := s.operand.b
  match s.squad q, s.team q t with
  | some sq, some tm =>
    if tm.wait = some .matrix then
      match (s.cluster sq.cluster).cores.findIdx? fun c => c.queue.head? == some (q, t) && c.holder.isNone with
      | some k =>
        .next ((s.modCore sq.cluster k fun c => { c with queue := c.queue.drop 1, holder := some (q, t) }).wake q t)
      | none => .next s
    else if tm.wait = some .descent ∧ (s.cluster sq.cluster).descent.head? = some (q, t) then .next (s.wake q t)
    else .next s
  | _, _ => .next s

end Sys2Proof.Machine
end

