-- ==== Sys2Proof/Machine/Descent.lean ====
section
/-! DEFINITION. The descent unit (11_cluster_descent.md R266 to R282): tree descriptors and nodes, DTSET, DESCEND, DREGROUP, DTRACE, DLEAF,
DGRAD. -/

namespace Sys2Proof.Machine

open Host (Outcome)

/-! ## Descriptors (R268) -/

/-- SEAL. -/
def treeSeal (d : List DWord) : Nat := field64 (d.getD 1 0) 56 8
/-- STRIDE. -/
def treeStride (d : List DWord) : Nat := field64 (d.getD 1 0) 32 24
/-- FEAT, the feature count. -/
def treeFeat (d : List DWord) : Nat := field64 (d.getD 1 0) 16 14
/-- WFMT. -/
def treeWfmt (d : List DWord) : Nat := field64 (d.getD 1 0) 12 4
/-- DIGEST. -/
def treeDigest (d : List DWord) : Bool := (d.getD 1 0).getLsbD 9
/-- AUDIT. -/
def treeAudit (d : List DWord) : Bool := (d.getD 1 0).getLsbD 8
/-- DEPTH. -/
def treeDepth (d : List DWord) : Nat := field64 (d.getD 1 0) 2 6
/-- LAYOUT is LINKED. -/
def treeLinked (d : List DWord) : Bool := field64 (d.getD 1 0) 0 2 == 1
/-- TREES. -/
def treeTrees (d : List DWord) : Nat := field64 (d.getD 2 0) 32 32
/-- NODES. -/
def treeNodes (d : List DWord) : Nat := field64 (d.getD 2 0) 0 32
/-- The root table address. -/
def treeRoots (d : List DWord) : Nat := (d.getD 3 0).toNat

/-- The register offset at which a descriptor breaks R268.
(DEDUCED, log 30) -/
def treeBad (d : List DWord) : Option Nat :=
  let w := d.getD 1 0
  if (d.getD 0 0).toNat % 128 ≠ 0 then some 0
  else if treeStride d % 64 ≠ 0 ∨ treeStride d < 64 ∨ field64 w 30 2 ≠ 0 ∨ treeFeat d = 0 ∨ 8192 < treeFeat d ∨ 3 < treeWfmt d
      ∨ field64 w 10 2 ≠ 0 ∨ treeDepth d = 0 ∨ 32 < treeDepth d ∨ 1 < field64 w 0 2 ∨ (2 ≤ treeWfmt d ∧ treeFeat d % 32 ≠ 0) then some 1
  else if treeNodes d = 0 ∨ treeTrees d = 0 ∨ (!treeLinked d ∧ treeTrees d ≠ 1) then some 2
  else if (!treeLinked d ∧ treeRoots d ≠ 0) ∨ treeRoots d % 128 ≠ 0 then some 3
  else none

/-- The bytes from an address lie in the region that an owner's seal table entry seals (R268); while a SEAL.FREE of it waits the entry is not FREE yet
(R426).
(DEDUCED, log 53) -/
def State.sealCovers (s : State) (owner id va n : Nat) : Bool :=
  match aget? s.seals id with
  | some e => e.owner == owner && decide (e.base ≤ va) && decide (va + n ≤ e.base + e.len)
  | none => false

/-- DTSET (R266, R267, R268). -/
def execDtset (w : GR) (s : State) : Outcome State Fault Refusal :=
  genRun (.dtset w) w.cnd (fun x =>
    let d := (upTo 4).map fun k => x.rd.S (w.a.toNat + k)
    let va := (d.getD 0 0).toNat
    let ch := fieldN w.imm.toNat 0 6
    let owner := x.s.ownerOf x.sq
    let area := treeNodes d * treeStride d
    if x.cx.seqFull then .wait .emission x.s
    else match treeBad d with
      | some o => .trap .reservedField [BitVec.ofNat 64 o, 0, 0, 0] x.s
      | none =>
        if treeAudit d && !(x.s.sealCovers owner (treeSeal d) va area
            && (!treeLinked d || x.s.sealCovers owner (treeSeal d) (treeRoots d) (4 * treeTrees d))) then
          .trap .protection [0, 0x100, 0, 0] x.s
        else x.withStream ch (x.addrCheck va 128 0 false false (
          x.withMem (x.s.translate x.acc va {}) va 0 false false fun t s =>
            let m := s.memWindow owner (s.task x.sq.task) va area true false t
            let win : Window := { mkWindow 5 m.rd false va owner m.frame 0 0 m.limit with
              tree := d, pgBase := m.pgBase, pgSize := m.pgSize, zor := m.zor, span := m.span, home := m.home }
            let s := s.modSquad x.q fun sq => { sq with slots := aset sq.slots (fieldN w.fn.toNat 0 4) d }
            .done (s.modCtx x.q x.c fun cx => cx.queue (windowStretch ch (fieldN w.d.toNat 0 3) win))))) s

/-! ## The descent unit (R273) -/

/-- Runs a descent word on the unit of its cluster, one word at a time in order of issue; the word learns whether the unit has started it before. It
holds the unit while it waits for a line or for first-touch service, and leaves it when it completes, traps or is frozen. A word with an empty mask
does nothing (R277).
(DEDUCED, log 30) -/
def LaneIn.onDescent (x : LaneIn) (body : Bool → LaneRes) : LaneRes :=
  let cl := x.sq.cluster
  let me := (x.q, x.t)
  let l := (x.s.cluster cl).descent
  let leave (s : State) : State := s.modCluster cl fun c => { c with descent := c.descent.filter (· != me) }
  if x.m = 0 then .done x.s
  else if l.isEmpty ∨ l.head? = some me then
    let begun (s : State) : State := s.modTeam x.q x.t fun tm => { tm with inUnit := true }
    match body x.tm.inUnit with
    | .done s => .done (leave s)
    | .park c i m r s => .park c i m r (leave s)
    | .wait .frozen s => .wait .frozen (leave (begun s))
    | .more u s => .more u s
    | .wait w s => .wait w ((begun s).modCluster cl fun c => if c.descent.contains me then c else { c with descent := me :: c.descent })
  else .wait .descent (x.s.modCluster cl fun c => if c.descent.contains me then c else { c with descent := c.descent ++ [me] })

/-! ## Reading nodes (R269, R274) -/

/-- A lane's result, or why it stopped, with the state after it. -/
abbrev DR (α : Type) := Except Stop α × State

/-- Goes on with a lane's result, or passes its stop on. -/
def DR.andThen {α β : Type} (r : DR α) (f : α → State → DR β) : DR β :=
  match r with
  | (.ok a, s) => f a s
  | (.error e, s) => (.error e, s)

/-- A DESCENT_NODE fault of lane `l` (R276): reason, offending index, and the address, index and depth of the node at which it stood.
(DEDUCED, log 21; DEDUCED, log 30) -/
def descentFault (l reason idx va n j : Nat) : Stop :=
  .fault .descentNode [BitVec.ofNat 64 va, BitVec.ofNat 64 (l + reason * 2 ^ 16 + idx * 2 ^ 32), BitVec.ofNat 64 n, BitVec.ofNat 64 j] []

/-- A memory access of a descent word that failed: its page fault bears source 3 (R318). -/
def LaneIn.descentStop (x : LaneIn) (s : State) (w : MemWord) (l va : Nat) (f : MemFail) : Stop :=
  match x.stopOf s w l va f with
  | .fault .pageFault info r => .fault .pageFault info (r.set 10 3)
  | other => other

/-- The node number reported when no node had been fetched.
(DEDUCED, log 21; DEDUCED, log 30) -/
def noNode : Nat := 0xFFFFFFFF

/-- Bytes of the node area from an offset, line by line through the TREE window; a failure reports the address of its line, SIZE 7.
(DEDUCED, log 30) -/
def LaneIn.treeRead (x : LaneIn) (win : Window) (k l : Nat) : Nat → State → Nat → Nat → DR (List Byte)
  | 0, s, _, _ => (.ok [], s)
  | f + 1, s, off, n =>
    if n = 0 then (.ok [], s)
    else
      let va := wrapN ((win.base + off : Nat) : Int) 64
      let c := min n (128 - va % 128)
      let a := x.acc s l
      let r : MR (List Byte) :=
        if !win.rd then (.error (.cause .protection 0), s)
        else if off + c ≤ win.limit then s.pread a va (s.winPa win off) win.zor c false
        else if 2 ^ 56 ≤ va then (.error (.cause .protection 0), s)
        else (s.translate a va { rd := true }).andThen fun t s => s.pread a va t.pa (pteZor t.leaf) c false
      match r with
      | (.error e, s) => (.error (x.descentStop s { win := k, lsize := 7 } l (va / 128 * 128) e), s)
      | (.ok bs, s) => (treeRead x win k l f s (off + c) (n - c)).andThen fun bs' s => (.ok (bs ++ bs'), s)

/-- The 32-bit number at an offset of bytes. -/
def u32At (b : List Byte) (i : Nat) : Nat := ofBytes ((b.drop i).take 4)

/-- A byte of a range is not zero. -/
def nonzeroIn (b : List Byte) (lo hi : Nat) : Bool := ((b.drop lo).take (hi - lo)).any (· != 0)

/-- A node's type: 1 NEURON, 2 THRESHOLD, 3 CATEGORY, 4 LEAF. -/
def nodeTy (b : List Byte) : Nat := u32At b 0 % 16

/-- The weight type of WFMT. -/
def weightTy (d : List DWord) : NumTy :=
  match treeWfmt d with
  | 0 => .bf16 | 1 => .e4m3 | 2 => .mxe4m3 | _ => .ds8

/-- The first byte of a neuron's scales. -/
def scalesAt (d : List DWord) : Nat := 64 + (treeFeat d + 63) / 64 * 64

/-- The first byte after a neuron's weights and scales. -/
def neuronEnd (d : List DWord) : Nat :=
  if treeWfmt d < 2 then 64 + treeFeat d * ((weightTy d).width / 8) else scalesAt d + treeFeat d / 32

/-- A byte that R269 marks zero is not zero. -/
def nodeDirty (d : List DWord) (b : List Byte) : Bool :=
  let h := u32At b 0
  let ty := nodeTy b
  decide (2 ^ 8 ≤ h) || (h.testBit 4 && (ty == 1 || ty == 4)) || (fieldN h 5 3 != 0 && ty != 4)
    || (if ty = 4 then nonzeroIn b 4 16 else !treeLinked d && nonzeroIn b 8 16)
    || nonzeroIn b (if ty = 1 then 16 else if ty = 2 then 20 else 48) 64

/-- Why a fetched node is malformed, as reason and index (R275, reasons 1, 2, 5 and 7).
(DEDUCED, log 30) -/
def nodeBad (d : List DWord) (b : List Byte) : Option (Nat × Nat) :=
  let ty := nodeTy b
  if ty = 0 ∨ 4 < ty then some (1, 0)
  else if nodeDirty d b then some (2, 0)
  else if (ty = 2 ∨ ty = 3) ∧ treeFeat d ≤ u32At b 4 then some (5, u32At b 4)
  else if ty = 1 ∧ treeStride d < neuronEnd d then some (7, 0)
  else none

/-- Fetches node `n` at depth `j`: its first 64 bytes, and a neuron's weights and scales where they lie within STRIDE; what the node holds is judged once
it has been read (R276).
(DEDUCED, log 30) -/
def LaneIn.fetchNode (x : LaneIn) (win : Window) (d : List DWord) (k l n j : Nat) (s : State) : DR (List Byte) :=
  let off := n * treeStride d
  let va := wrapN ((win.base + off : Nat) : Int) 64
  (x.treeRead win k l 2 s off 64).andThen fun b s =>
    let m := if nodeTy b = 1 ∧ neuronEnd d ≤ treeStride d then neuronEnd d - 64 else 0
    (x.treeRead win k l (m / 128 + 3) s (off + 64) m).andThen fun w s =>
      match nodeBad d b with
      | some (r, i) => (.error (descentFault l r i va n j), s)
      | none => (.ok (b ++ w), s)

/-! ## Branches (R270) -/

/-- Weight `f` of a neuron. Zero-block mode is never in force. -/
def weightAt (d : List DWord) (b : List Byte) (f : Nat) : XVal :=
  let t := weightTy d
  let n := t.width / 8
  let c := ofBytes ((b.drop (64 + f * n)).take n)
  if t.isBlock then decodeBlk t false ((b.getD (scalesAt d + f / 32) 0).toNat) c else t.decode c

/-- A neuron's exact sum of bias and weighted features. -/
def neuronSum (d : List DWord) (b : List Byte) (xs : List XVal) : XVal :=
  let bias := ({} : Acc).product (NumTy.f32.decode (u32At b 4)) (.fin false 1 0)
  ((xs.zipIdx.foldl (fun (a : Acc) (p : XVal × Nat) => a.product (weightAt d b p.2) p.1) bias).total .ne).1

/-- x < y, false with a NaN. -/
def xlt (x y : XVal) : Bool := !x.isNan && !y.isNan && x.cmp y == .lt

/-- The integer from 0 to 255 that a value is (R270, CATEGORY). -/
def category (x : XVal) : Option Nat :=
  match x with
  | .zero _ => some 0
  | .fin false m e =>
    let whole : Option Nat := if 0 ≤ e then (if e < 9 then some (m * 2 ^ e.toNat) else none)
      else if m % 2 ^ (-e).toNat = 0 then some (m / 2 ^ (-e).toNat) else none
    whole.bind fun c => if c ≤ 255 then some c else none
  | _ => none

/-- The branch that a threshold or category node takes for a feature. -/
def branchOf (b : List Byte) (x : XVal) : Bool :=
  let missr := (u32At b 0).testBit 4
  if nodeTy b = 2 then (if x.isNan then missr else !xlt x (NumTy.f32.decode (u32At b 16)))
  else match category x with
    | some c => (b.getD (16 + c / 8) 0).getLsbD (c % 8)
    | none => missr

/-- Feature `f` of row `r` of the row tile, read as LDT reads it: its bits, the EMPTY line that the lane awaits, or the error that marks its line. -/
def featureAt (h : Nat) (t : Tile) (l r f : Nat) : Except Stop Nat :=
  let mw : MemWord := { tile := true, lsize := 2 }
  match (t.elemLines r f).find? fun j => !t.full j with
  | some j => .error (.line h j [0, BitVec.ofNat 64 (mw.map l), BitVec.ofNat 64 r, BitVec.ofNat 64 f])
  | none =>
    if (t.badLine (t.elemLines r f)).isSome then .error (LaneIn.tileStop mw l (r, f) .uncorrectableData none) else .ok (t.code r f)

/-- A lane met an uncorrectable error in a line of its row tile. -/
def Stop.isTileError : Stop → Bool
  | .fault .uncorrectableData info _ => (info.getD 1 0).getLsbD 13
  | _ => false

/-- How a descent word ends from its lanes' stops: as every memory word, but an error in its row tile `h` below the safe set point is a power event, which
the word awaits (R414). -/
def LaneIn.descentEnd (x : LaneIn) (h : Nat) (s : State) (stops : List (Nat × Stop)) : LaneRes :=
  if (x.s.cluster x.sq.cluster).undervolted && (x.tile h).any (·.clustered) && stops.any fun z => z.2.isTileError then x.uncorrectable x.m [] x.s
  else x.ending s (.descent x.q x.t) stops

/-- All features of a row in order. -/
def rowFeatures (h : Nat) (t : Tile) (l r : Nat) : List Nat → Except Stop (List XVal)
  | [] => .ok []
  | f :: fs =>
    match featureAt h t l r f with
    | .error e => .error e
    | .ok c => match rowFeatures h t l r fs with
      | .error e => .error e
      | .ok xs => .ok (NumTy.f32.decode c :: xs)

/-- The branch at a node that is no leaf: its bit, TESTED, and whether it sets IV. -/
def takeBranch (d : List DWord) (h : Nat) (t : Tile) (l r : Nat) (b : List Byte) : Except Stop (Bool × Nat × Bool) :=
  if nodeTy b = 1 then
    match rowFeatures h t l r (upTo (treeFeat d)) with
    | .error e => .error e
    | .ok xs =>
      let y := neuronSum d b xs
      .ok (!xlt y (.zero false), 0, y.isNan)
  else
    match featureAt h t l r (u32At b 4) with
    | .error e => .error e
    | .ok c => .ok (branchOf b (NumTy.f32.decode c), c, false)

/-! ## DESCEND (R271, R272) -/

/-- What a lane's descent has come to: the leaf, the path bits, the depth, the tree, the digest's message, and IV. -/
structure Path where
  node : Nat
  bits : Nat
  depth : Nat
  tree : Nat
  msg : List Byte
  iv : Bool

/-- The loop of R272 from a node on. -/
def LaneIn.descendFrom (x : LaneIn) (win : Window) (d : List DWord) (k h : Nat) (t : Tile) (l r : Nat) : Nat → State → Path → DR Path
  | 0, s, p => (.error (descentFault l 4 0 (win.base + p.node * treeStride d) p.node p.depth), s)
  | f + 1, s, p =>
    let va := wrapN ((win.base + p.node * treeStride d : Nat) : Int) 64
    (x.fetchNode win d k l p.node p.depth s).andThen fun b s =>
      if nodeTy b = 4 then (.ok { p with msg := p.msg ++ toBytes 4 p.node }, s)
      else if p.depth = treeDepth d then (.error (descentFault l 4 0 va p.node p.depth), s)
      else match takeBranch d h t l r b with
        | .error e => (.error e, s)
        | .ok (bit, tested, iv) =>
          let c := if treeLinked d then u32At b (8 + 4 * b2n bit) else 2 * p.node + 1 + b2n bit
          if treeNodes d ≤ c then (.error (descentFault l 3 c va p.node p.depth), s)
          else descendFrom x win d k h t l r f s
            { p with node := c, bits := p.bits + b2n bit * 2 ^ p.depth, depth := p.depth + 1
                     msg := p.msg ++ toBytes 4 p.node ++ toBytes 4 tested, iv := p.iv || iv }

/-- The row tile of a lane, or its TILE_HANDLE (R151, R271): the spec names no column for it. -/
def LaneIn.rowTile (x : LaneIn) (d : List DWord) (h l r : Nat) : Except Stop Tile :=
  let mw : MemWord := { tile := true, lsize := 2 }
  match x.tile h with
  | some t =>
    if t.level != 0 && t.ty == .f32 && decide (r < t.rows) && decide (treeFeat d ≤ t.cols) then .ok t
    else .error (.fault .tileHandle [0, BitVec.ofNat 64 (mw.map l), BitVec.ofNat 64 r, BitVec.ofNat 64 (Config.freeNat x.s.free l)] [])
  | none => .error (.fault .tileHandle [0, BitVec.ofNat 64 (mw.map l), BitVec.ofNat 64 r, BitVec.ofNat 64 (Config.freeNat x.s.free l)] [])

/-- The root of a lane's tree (R272): node 0 under HEAP, an entry of the root table under LINKED. -/
def LaneIn.rootOf (x : LaneIn) (d : List DWord) (k l tree : Nat) (s : State) : DR Nat :=
  if !treeLinked d then (.ok 0, s)
  else if treeTrees d ≤ tree then (.error (descentFault l 11 tree 0 noNode 0), s)
  else
    let va := wrapN ((treeRoots d + 4 * tree : Nat) : Int) 64
    let r : MR (List Byte) := if 2 ^ 56 ≤ va then (.error (.cause .protection 0), s) else s.vread (x.acc s l) va 4 false
    match r with
    | (.error e, s) => (.error (x.descentStop s { win := k, lsize := 2 } l va e), s)
    | (.ok bs, s) =>
      let n := ofBytes bs
      if treeNodes d ≤ n then (.error (descentFault l 3 n va noNode 0), s) else (.ok n, s)

/-- The lane's window is a TREE window, or WINDOW_INVALID. -/
def LaneIn.treeWindow (x : LaneIn) (k l : Nat) : Except Stop Window :=
  let win := x.tm.window k
  if win.kind = 5 then .ok win else .error (x.stopOf x.s { win := k } l 0 (.cause .windowInvalid 0))

/-- The seal that an AUDIT descriptor names is absent when the word starts (R275, reason 8).
(DEDUCED, log 30) -/
def State.sealGone (s : State) (d : List DWord) : Bool :=
  treeAudit d && (match aget? s.seals (treeSeal d) with
    | some e => e.freeing
    | none => true)

/-- One lane of DESCEND.
(DEDUCED, log 30) -/
def LaneIn.descendLane (x : LaneIn) (w : LR) (started : Bool) (s : State) (l : Nat) : DR Path :=
  let k := fieldN w.c.toNat 0 3
  match x.treeWindow k l with
  | .error e => (.error e, s)
  | .ok win =>
    let d := win.tree
    let r := (x.rd.V l w.a.toNat).toNat
    match x.rowTile d w.b.toNat l r with
    | .error e => (.error e, s)
    | .ok t =>
      if !started && s.sealGone d then (.error (descentFault l 8 0 0 noNode 0), s)
      else
        let tree := if treeLinked d then (x.rd.V l (w.a.toNat + 1)).toNat else 0
        (x.rootOf d k l tree s).andThen fun n s =>
          x.descendFrom win d k w.b.toNat t l r 33 s
            { node := n, bits := 0, depth := 0, tree := tree, msg := toBytes 1 (treeSeal d) ++ toBytes 4 tree, iv := false }

/-- Lanes in order: the results of those performed and the stops of the others. -/
def eachLane {α : Type} (f : State → Nat → DR α) : List Nat → State → List (Nat × α) × List (Nat × Stop) × State
  | [], s => ([], [], s)
  | l :: ls, s =>
    match f s l with
    | (.ok a, s) =>
      let (rs, es, s) := eachLane f ls s
      ((l, a) :: rs, es, s)
    | (.error e, s) =>
      let (rs, es, s) := eachLane f ls s
      (rs, (l, e) :: es, s)

/-- A team's path-trace register of a lane: path bits and depth. -/
def Team.ptOf (tm : Team) (k l : Nat) : Word × Nat := (aget [] tm.pt k).getD l (0, 0)

/-- The path-trace register of the lanes of a mask written. -/
def Team.setPt (tm : Team) (k : Nat) (m : Mask) (f : Nat → Word × Nat) : Team :=
  { tm with pt := aset tm.pt k ((upTo tm.lanes).map fun l => if m.getLsbD l then f l else tm.ptOf k l) }

/-- The path-trace register that a descent word names. -/
def ptReg (w : LR) : Nat := fieldN w.c.toNat 4 3

/-- DESCEND (R271 to R278). For a word that is not guarded off, a LINKED tree's index register is checked as the descent unit starts the word, which is
when the window is known: one at or beyond the claimed count traps as R271 gives, and one marked bad as R208 gives.
(DEDUCED, log 82) -/
def execDescend (w : LR) (s : State) : Outcome State Fault Refusal :=
  laneRun (.descend w) w.ms (fun x => x.onDescent fun started =>
    let win := x.tm.window (fieldN w.c.toNat 0 3)
    let linked := win.kind = 5 ∧ treeLinked win.tree
    if linked ∧ x.tm.n ≤ w.a.toNat + 1 then x.trap .reservedField []
    else match (if linked then x.tm.badIn [w.a.toNat + 1] x.m else none) with
    | some (r, l) => x.uncorrectable x.m (badInfo [] r l) x.s
    | none =>
      let (ps, stops, s) := eachLane (x.descendLane w started) (x.tm.lanesOf x.m) x.s
      let done := maskOf (ps.map (·.1))
      let at_ (l : Nat) : Path := aget ⟨0, 0, 0, 0, [], false⟩ ps l
      let s := s.modTeam x.q x.t fun tm =>
        let tm := (tm.setV w.d.toNat done fun l => BitVec.ofNat 32 (at_ l).node).setPt (ptReg w) done fun l =>
          (BitVec.ofNat 32 (at_ l).bits, (at_ l).depth)
        let tm := if ps.any fun p => p.2.iv then tm.holdFlags fIV else tm
        if treeDigest win.tree then
          { tm with digests := ps.foldl (fun g p => aset g p.1 ⟨treeSeal win.tree, p.2.tree, p.2.node, p.2.depth, shake128 p.2.msg⟩) tm.digests }
        else tm
      x.descentEnd w.b.toNat s stops) s

/-! ## DREGROUP, DTRACE and DLEAF (R279 to R281) -/

/-- DREGROUP (R279).
(DESIGN CHOICE, log 31) -/
def execDregroup (w : LR) (s : State) : Outcome State Fault Refusal :=
  laneRun (.dregroup w) w.ms (fun x => x.onDescent fun _ =>
    let ls := x.tm.lanesOf x.m
    let key (l : Nat) : Nat := (x.rd.V l w.a.toNat).toNat
    let row (l : Nat) : Nat := (x.rd.V l (w.a.toNat + 1)).toNat
    let sorted := ls.foldr (insertBy fun l => (key l * 2 ^ 32 + row l) * 1024 + l) []
    x.finish ((x.tm.setV w.d.toNat x.m fun l => BitVec.ofNat 32 (row (sorted.getD (ls.idxOf l) 0))).setV (w.d.toNat + 1) x.m fun l =>
      BitVec.ofNat 32 (sorted.idxOf l))) s

/-- DTRACE (R280).
(DESIGN CHOICE, log 31) -/
def execDtrace (w : LR) (s : State) : Outcome State Fault Refusal :=
  laneRun (.dtrace w) w.ms (fun x => x.onDescent fun _ =>
    x.finish ((x.tm.setV w.d.toNat x.m fun l => (x.tm.ptOf (ptReg w) l).1).setV (w.d.toNat + 1) x.m fun l =>
      BitVec.ofNat 32 (x.tm.ptOf (ptReg w) l).2)) s

/-- One lane of DLEAF: the leaf's bytes.
(DEDUCED, log 30) -/
def LaneIn.leafLane (x : LaneIn) (w : LR) (started : Bool) (s : State) (l : Nat) : DR (List Byte) :=
  let k := fieldN w.c.toNat 0 3
  match x.treeWindow k l with
  | .error e => (.error e, s)
  | .ok win =>
    let d := win.tree
    let n := x.op 1 l w.a.toNat
    if !started && s.sealGone d then (.error (descentFault l 8 0 0 noNode 0), s)
    else if treeNodes d ≤ n then (.error (descentFault l 3 n 0 noNode 0), s)
    else (x.fetchNode win d k l n 0 s).andThen fun b s =>
      if nodeTy b = 4 then (.ok b, s)
      else (.error (descentFault l 10 0 (wrapN ((win.base + n * treeStride d : Nat) : Int) 64) n 0), s)

/-- Value `q` of a leaf, +0 beyond its count. -/
def leafValue (b : List Byte) (q : Nat) : Nat := if fieldN (u32At b 0) 5 3 < q then 0 else u32At b (16 + 4 * q)

/-- DLEAF (R281). -/
def execDleaf (w : LR) (s : State) : Outcome State Fault Refusal :=
  laneRun (.dleaf w) w.ms (fun x => x.onDescent fun started =>
    let first := fieldN w.fn.toNat 0 3
    let count := fieldN w.fn.toNat 3 3 + 1
    let rnd := Rnd.ofCode (fieldN w.ex.toNat 3 2)
    let (bs, stops, s) := eachLane (x.leafLane w started) (x.tm.lanesOf x.m) x.s
    let done := maskOf (bs.map (·.1))
    let value (l i : Nat) : Rounded :=
      let q := leafValue (aget [] bs l) (first + i)
      if w.fn.getLsbD 6 then roundX .f32 rnd .inf (xadd rnd (NumTy.f32.decode (x.rd.V l (w.d.toNat + i)).toNat) (NumTy.f32.decode q)) else ⟨q, 0, false⟩
    let fl := bs.foldl (fun f p => (upTo count).foldl (fun f i => f ||| (value p.1 i).flags) f) f0
    let s := s.modTeam x.q x.t fun tm =>
      ((upTo count).foldl (fun (tm : Team) i => tm.setV (w.d.toNat + i) done fun l => BitVec.ofNat 32 (value l i).code) tm).holdFlags fl
    x.ending s (.descent x.q x.t) stops) s

/-! ## DGRAD (R282) -/

/-- The node at a level of a heap path. -/
def heapNode (bits : Nat) : Nat → Nat
  | 0 => 0
  | j + 1 => 2 * heapNode bits j + 1 + bits / 2 ^ j % 2

/-- The places of a lane's span, element by element, none of them changed: the first failure ends the lane.
(DESIGN CHOICE, log 31) -/
def LaneIn.gradSpan (x : LaneIn) (gw : Window) (mw : MemWord) (l base : Nat) : List Nat → State → DR (List (Nat × Nat × Bool))
  | [], s => (.ok [], s)
  | f :: fs, s =>
    let a := x.acc s l
    match s.windowAddr a gw ((base + 4 * f : Nat) : Int) 4 { rd := true, wr := true } false with
    | (.error (e, va), s) => (.error (x.descentStop s mw l va e), s)
    | (.ok (.rem va _ _), s) => (.error (x.descentStop s mw l va (.cause .windowInvalid 0)), s)
    | (.ok (.loc va pa zor), s) =>
      match (if s.buffers a pa then some MemFail.spec else s.writeGuard a va pa [0, 0, 0, 0]) with
      | some e => (.error (x.descentStop s mw l va e), s)
      | none => (gradSpan x gw mw l base fs s).andThen fun ps s => (.ok ((va, pa, zor) :: ps), s)

/-- The adds of a lane, in order; a memory error leaves the earlier ones applied.
(DESIGN CHOICE, log 31) -/
def LaneIn.gradAdds (x : LaneIn) (mw : MemWord) (l : Nat) (g : XVal) : List ((Nat × Nat × Bool) × XVal) → State → DR Unit
  | [], s => (.ok (), s)
  | ((va, pa, zor), y) :: ps, s =>
    let add (old : List Byte) : Option (List Byte) :=
      some (toBytes 4 (roundX .f32 .ne .inf (xfma .ne g y (NumTy.f32.decode (ofBytes old)))).code)
    match s.patomic (x.acc s l) va pa zor 4 false add with
    | (.error e, s) => (.error (x.descentStop s mw l va e), s)
    | (.ok _, s) => gradAdds x mw l g ps s

/-- One lane of DGRAD. The windows and the row tile are checked before the lane's depth tells whether it does anything.
(DESIGN CHOICE, log 31; DEDUCED, log 82) -/
def LaneIn.gradLane (x : LaneIn) (w : LR) (s : State) (l : Nat) : DR Unit :=
  let k := fieldN w.c.toNat 0 3
  let mw : MemWord := { win := k, atomic := true, wr := true, lsize := 2 }
  let gw := x.tm.window (fieldN w.d.toNat 0 3)
  match x.treeWindow k l with
  | .error e => (.error e, s)
  | .ok win =>
    let d := win.tree
    let r := (x.rd.V l (w.a.toNat + 1)).toNat
    let (bits, depth) := x.tm.ptOf (ptReg w) l
    let lev := fieldN w.fn.toNat 0 5
    if gw.kind ≠ 1 then (.error (x.descentStop s mw l 0 (.cause .windowInvalid 0)), s)
    else match x.rowTile d w.b.toNat l r with
      | .error e => (.error e, s)
      | .ok t =>
        if treeLinked d then (.error (descentFault l 9 0 0 noNode 0), s)
        else if depth ≤ lev then (.ok (), s)
        else match rowFeatures w.b.toNat t l r (upTo (treeFeat d)) with
          | .error e => (.error e, s)
          | .ok xs =>
            let base := heapNode bits.toNat lev * (4 * (treeFeat d + 1))
            let g := NumTy.f32.decode (x.rd.V l w.a.toNat).toNat
            (x.gradSpan gw mw l base (upTo (treeFeat d + 1)) s).andThen fun ps s =>
              x.gradAdds mw l g (ps.zip (xs ++ [.fin false 1 0])) s

/-- DGRAD (R282): lanes and elements are added in ascending order, which is one of the orders that the spec leaves open unless two lanes meet at
one element; then the order of the lanes is a free value.
(DESIGN CHOICE, log 31) -/
def execDgrad (w : LR) (s : State) : Outcome State Fault Refusal :=
  laneRun (.dgrad w) w.ms (fun x => x.onDescent fun _ =>
    let ls := (x.tm.lanesOf x.m).foldr (insertBy fun l => Config.freeNat x.s.free l) []
    let (_, stops, s) := eachLane (x.gradLane w) ls x.s
    x.descentEnd w.b.toNat s ((x.tm.lanesOf x.m).filterMap fun l => (aget? stops l).map fun e => (l, e))) s

end Sys2Proof.Machine
end

