-- ==== Sys2Proof/Machine/Fault.lean ====
section
/-! DEFINITION. The steps of a die's memory system: fault records (15_die_memory.md R318, R319), first touches and the Bullpen (R320 to R322),
shootdowns (R316), configuration writes and mailboxes (R317, R263), the patrol scrubber (R328), L1 fills (R257), and GWIN and GUNWIN (R323,
R324). -/

namespace Sys2Proof.Machine

open Host (Outcome)

/-! ## Fault records (R318, R319) -/

/-- The slot of the fault ring that the next record takes: the next in turn that is free. -/
def Die.ringSlot (d : Die) : Option Nat :=
  ((upTo 1024).map fun i => (d.ringNext + i) % 1024).find? fun i => (aget? d.ring i).isNone

/-- The fault mailbox that FRING names, when it is live and has room.
(DEDUCED, log 22) -/
def State.faultBox (s : State) (d : Nat) : Option (Nat × Nat × Mailbox) :=
  let n := field64 (s.die d).fring 0 12
  match aget? (s.die (n / 256)).mailboxes (n % 256) with
  | some m => if m.msgs.length < 16 then some (n / 256, n % 256, m) else none
  | none => none

/-- FAULT_RECORD (R318): the oldest fault of die a that has no record yet gets one: it is written into a free slot of the ring, whose index goes
to the fault mailbox.
(DEDUCED, log 22) -/
def evFaultRecord (s : State) : Outcome State Fault Refusal :=
  let d := s.operand.a
  let x := s.die d
  .next (match x.faultQ, x.ringSlot, s.faultBox d with
    | r :: rest, some i, some (md, mi, m) =>
      let s := s.modDie d fun x => { x with faultQ := rest, ring := aset x.ring i r, ringNext := (i + 1) % 1024 }
      let s := s.devWrite 0 (field64 x.fring 16 36 * 2 ^ 16 + 64 * i) r.record
      s.modDie md fun y => { y with mailboxes := aset y.mailboxes mi { m with msgs := m.msgs ++ [BitVec.ofNat 64 i] } }
    | _, _, _ => s)

/-- FDONE_WRITE (R319): the dispatch core writes w to FDONE of die a; during an update the record waits for the image that reaches ACTIVE (R430).
A handler squad's own store to FDONE acts in its word.
(DEDUCED, log 22; DESIGN CHOICE, log 70) -/
def evFdoneWrite (s : State) : Outcome State Fault Refusal := .next (if s.firmware.state = .active then s.fdone s.operand.a s.operand.w else s)

/-! ## First touches and the Bullpen (R320 to R322) -/

/-- The leaf that the first-touch unit installs for an anonymous entry.
(DEDUCED, log 43) -/
def touchLeaf (owner pa : Nat) (e : DWord) : Nat := owner * 2 ^ 52 + pa + field64 e 4 3 * 2 ^ 4 + 0x503

/-- The lines of a frame, none of them written since it was taken (R321).
(DEDUCED, log 43) -/
def State.unwriteFrame (s : State) (f : Frame) : State :=
  { s with
    zorFrames := (f.pa, f.size) :: s.zorFrames.filter fun z => z.1 != f.pa
    zorWritten := s.zorWritten.filter fun l => !(decide (f.pa ≤ l * 128) && decide (l * 128 < f.pa + f.size)) }

/-- Die d serves a touch (R320): with a frame of the Bullpen, the entry as it was walked and no seal over it since (R423), the leaf is installed; otherwise
the frame stays. The accesses then walk again, which with an empty Bullpen is a page fault.
(DEDUCED, log 43) -/
def State.serveTouch (s : State) (d : Nat) (t : Touch) : State :=
  let s1 := s.modDie d fun y => { y with touches := y.touches.filter (· != t) }
  let s1 := match (s.die d).bullpen.find? fun f => f.owner == t.owner && f.size == t.size with
    | some f =>
      if s.devRead t.owner t.entry = t.value ∧ (s.guardPa t.entry 8 true).isNone then
        let s1 := s1.modDie d fun y => { y with bullpen := y.bullpen.erase f }
        s1.devWrite t.owner t.entry (toBytes 8 (touchLeaf t.owner f.pa t.value))
      else s1
    | none => s1
  s1.wakeDie d .touch .touch

/-- A walk for the host or the fabric: a first touch that it meets is served, and it is made again, in as many turns as the fuel says (R320, R404).
(DEDUCED, log 43) -/
def State.walkServed : Nat → State → Nat → Nat → Nat → Need → MR Xl
  | fuel, s, d, owner, va, n =>
    match (s.walkRoot d owner va).andThen fun w s => s.judge d owner va n w with
    | (.error (.touch t), s) =>
      match fuel with
      | 0 => (.error (.touch t), s)
      | f + 1 => State.walkServed f ((s.addTouch d t).serveTouch d t) d owner va n
    | r => r

/-- FIRST_TOUCH_SERVICE (R320): die a serves the touch of owner b at page c.
(DEDUCED, log 43) -/
def evFirstTouchService (s : State) : Outcome State Fault Refusal :=
  let d := s.operand.a
  .next (match (s.die d).touches.find? fun t => t.owner == s.operand.b && t.va == s.operand.c with
    | none => s
    | some t => s.serveTouch d t)

/-- The address of a frame list's head (R317, R322): of 64 KiB frames, or of 2 MiB frames.
(DEDUCED, log 43) -/
def Die.listHead (d : Die) (owner : Nat) (big : Bool) : Nat := (aget 0 (if big then d.flist1 else d.flist0) owner).toNat

/-- BULLPEN_REFILL (R322): die a pops a frame of owner b from its list of 64 KiB frames (c = 0) or 2 MiB frames, when fewer than 32 remain.
(DEDUCED, log 43) -/
def evBullpenRefill (s : State) : Outcome State Fault Refusal :=
  let d := s.operand.a
  let owner := s.operand.b
  let big := s.operand.c != 0
  let size := if big then 2 ^ 21 else 2 ^ 16
  let x := s.die d
  let at_ := x.listHead owner big
  let h := s.devRead owner at_
  let pa := field64 h 16 36 * 2 ^ 16
  .next (if at_ = 0 ∨ pa = 0 ∨ 4096 ≤ x.bullpen.length ∨ 32 ≤ (x.bullpen.filter fun f => f.owner == owner && f.size == size).length then s
    else
      let n := s.devRead owner pa
      let head := field64 n 16 36 * 2 ^ 16 + (field64 h 0 16 + 1) % 2 ^ 16
      let f : Frame := ⟨owner, size, pa⟩
      ((s.devWrite owner at_ (toBytes 8 head)).modDie d fun y => { y with bullpen := y.bullpen ++ [f] }).unwriteFrame f)

/-! ## Shootdowns (R316, R436) -/

/-- A window whose BASE page, on device `dev`, overlaps a range of an owner there; `own` tells that the device is the package itself.
(DEDUCED, log 44) -/
def Window.inRange (w : Window) (dev : Nat) (own : Bool) (owner va n : Nat) : Bool :=
  w.key == owner && overlaps w.pgBase w.pgSize va n && (if w.kind = 4 then w.devid == dev else own)

/-- A team without the windows whose BASE page overlaps a range.
(DEDUCED, log 44) -/
def Team.dropWindows (tm : Team) (dev : Nat) (own : Bool) (owner va n : Nat) : Team :=
  { tm with win := tm.win.filter fun p => !p.2.inRange dev own owner va n }

/-- TLB entries that do not map part of a range of an owner.
(DEDUCED, log 11; DEDUCED, log 44) -/
def keepTlb (owner va n : Nat) (l : List TlbEnt) : List TlbEnt := l.filter fun e => !(e.owner == owner && overlaps e.base e.size va n)

/-- Every TLB entry and every window of a range goes (R316); evicted teams lose theirs at once, which they could use only after their return.
(DEDUCED, log 44) -/
def State.shootNow (s : State) (owner va n : Nat) : State :=
  { s with
    clusters := s.clusters.map fun c =>
      { c with tlb := keepTlb owner va n c.tlb, cores := c.cores.map fun k => { k with tlb := keepTlb owner va n k.tlb } }
    squads := s.squads.map fun p => (p.1, { p.2 with teams := p.2.teams.map fun tm => tm.dropWindows s.fabric.devid true owner va n }) }

/-- SHOOTDOWN_START (R316, R317): the dispatch core writes w to SHOOTLEN of die a. A shootdown that overlaps a sealed range is none that it may
make (R423), and an image in PROBATION makes none (R430).
(DEDUCED, log 44; DESIGN CHOICE, log 70) -/
def evShootdownStart (s : State) : Outcome State Fault Refusal :=
  let d := s.operand.a
  let x := s.die d
  .next (if s.sealedRange (field64 x.shootOwn 0 12) (field64 x.shootVa 0 56) (field64 s.operand.w 0 41) ∨ !s.firmware.writes then s
    else s.shootWrite d s.operand.w)

/-- The requests that teams have made through REMOTE windows on pages of an owner's range at a device and that have not been performed (R316): every other
access is performed in the step that translates it.
(DEDUCED, log 44) -/
def State.remoteUse (s : State) (dev owner va n : Nat) : List Nat :=
  (s.fabric.out.filter fun r => r.dev == dev && r.lane != prefetchLane && !s.reqSettled r.id && (match r.src with
    | .team q t => (s.team q t).any fun tm => tm.win.any fun w => w.2.kind == 4 && w.2.inRange dev false owner va n
    | .ctx _ _ => false)).map (·.id)

/-- SHOOTDOWN_COMPLETE (R316, R436): the shootdown of die a completes, once the packages of the domain have answered its notice, which c = 1 says, and
the package's own requests through windows of the range have been performed; then the next one that waits starts.
(DEDUCED, log 44) -/
def evShootdownComplete (s : State) : Outcome State Fault Refusal :=
  let d := s.operand.a
  .next (match (s.die d).shooting with
    | none => s
    | some (owner, va, n) =>
      if (!s.fabric.routes.isEmpty && s.operand.c != 1) || !(s.remoteUse s.fabric.devid owner va n).isEmpty then s
      else
        let next := (s.die d).shootQueue.head?
        let s := (s.shootNow owner va n).modDie d fun x => { x with shooting := x.shootQueue.head?, shootQueue := x.shootQueue.drop 1 }
        match next with
        | some r => s.shootTold r
        | none => s)

/-! ## Configuration registers and mailboxes (R317, R263) -/

/-- MBCMD of die a is written by the dispatch core (R263), whose image in PROBATION writes no table (R430).
(DESIGN CHOICE, log 70) -/
def State.mbWrite (s : State) (v : Nat) : State := if s.firmware.writes then s.mbCommand s.operand.a v else s

/-- MAILBOX_CREATE (R263): the dispatch core writes 1 to MBCMD of die a. -/
def evMailboxCreate (s : State) : Outcome State Fault Refusal := .next (s.mbWrite 1)

/-- MAILBOX_DESTROY (R263): the dispatch core writes 2 to MBCMD of die a. -/
def evMailboxDestroy (s : State) : Outcome State Fault Refusal := .next (s.mbWrite 2)

/-- CONFIG_REG_WRITE (R317, R263): the dispatch core writes w to the register at offset b of die a's control blocks. The registers whose writes
act have steps of their own, and an image in PROBATION writes none (R430).
(DESIGN CHOICE, log 70) -/
def evConfigRegWrite (s : State) : Outcome State Fault Refusal :=
  let off := s.operand.b
  .next (if off = 0x30010 ∨ off = 0x30040 ∨ off = 0x40010 ∨ !s.firmware.writes then s else s.tcbWrite s.operand.a off s.operand.w)

/-! ## Scrubbing and fills -/

/-- PATROL_SCRUB (R328): the scrubber meets line a: an uncorrectable line is marked poisoned without a trap and is reported to the host.
(DEDUCED, log 42; DESIGN CHOICE, log 69) -/
def evPatrolScrub (s : State) : Outcome State Fault Refusal :=
  let l := s.operand.a
  .next (if s.badLines.contains l then
    ({ s with badLines := s.badLines.filter (· != l), poison := if s.poison.contains l then s.poison else l :: s.poison } : State).tellHost
      (1 :: toBytes 8 (l * 128))
  else s)

/-- L1_FILL (R257): the fill of the miss entry of line b arrives in cluster a's L1 and serves every read that joined it; the entry stays open to reads for
at least 16 cycles.
(DESIGN CHOICE, log 12; DEDUCED, log 38) -/
def evL1Fill (s : State) : Outcome State Fault Refusal :=
  .next (s.modCluster s.operand.a fun c =>
    match c.miss.find? fun e => e.line == s.operand.b && decide (e.since + 16 ≤ c.cycle) with
    | some e => { c with l1 := l1Put c.l1 e.line e.bytes, miss := c.miss.filter fun x => x.line != e.line }
    | none => c)

/-! ## Gather windows (R323, R324) -/

/-- The fields of a gather record that R324 does not allow, as the cause and the offset.
(DEDUCED, log 36) -/
def gatherBad (r : List DWord) : Option (Cause × Nat) :=
  let w := r.getD 2 0
  let size := 2 ^ field64 w 0 2
  let n := field64 w 32 32
  let b := (r.getD 3 0).toNat
  if field64 w 2 30 ≠ 0 ∨ n = 0 ∨ 2 ^ 32 ≤ n * size then some (.reservedField, 2)
  else if b = 0 ∨ 2 ^ 32 ≤ b then some (.reservedField, 3)
  else if (r.getD 0 0).toNat % 4 ≠ 0 then some (.misaligned, 0)
  else if (r.getD 1 0).toNat % size ≠ 0 then some (.misaligned, 1)
  else none

/-- The gather entry of an owner (R324).
(DEDUCED, log 36) -/
def State.gatherOf (s : State) (d owner g : Nat) : Gather := aget {} (s.die d).gathers (owner * 64 + g)

/-- GWIN (R323, R324). In an uncommitted speculative task it waits (R385).
(DEDUCED, log 36) -/
def execGwin (w : GR) (s : State) : Outcome State Fault Refusal :=
  genRun (.gwin w) w.cnd (fun x =>
    let r := (upTo 4).map fun k => x.rd.S (w.a.toNat + k)
    let g := fieldN w.fn.toNat 0 6
    let ch := fieldN w.imm.toNat 0 6
    let d := dieOf x.sq.cluster
    let owner := x.s.ownerOf x.sq
    if x.s.speculative x.sq then .wait .spec x.s
    else if x.cx.seqFull then .wait .emission x.s
    else match gatherBad r with
      | some (c, o) => .trap c [BitVec.ofNat 64 o, 0, 0, 0] x.s
      | none => x.withStream ch (
          let size := 2 ^ field64 (r.getD 2 0) 0 2
          let n := field64 (r.getD 2 0) 32 32
          let gen := ((x.s.gatherOf d owner g).gen + 1) % 4096
          let e : Gather :=
            { bound := true, gen := gen, idxVa := (r.getD 0 0).toNat, srcVa := (r.getD 1 0).toNat, size := size, limit := (r.getD 3 0).toNat }
          let s := x.s.modDie d fun y => { y with gathers := aset y.gathers (owner * 64 + g) e }
          .done (s.modCtx x.q x.c fun cx => cx.queue (windowStretch ch (fieldN w.d.toNat 0 3)
            (mkWindow 2 (w.fn.getLsbD 6) (w.fn.getLsbD 7) 0 owner 0 0 (g * 2 ^ 12 + gen) (n * size)))))) s

/-- GUNWIN (R324).
(DEDUCED, log 36) -/
def execGunwin (w : GR) (s : State) : Outcome State Fault Refusal :=
  genRun (.gunwin w) w.cnd (fun x =>
    let g := fieldN w.fn.toNat 0 6
    let d := dieOf x.sq.cluster
    let owner := x.s.ownerOf x.sq
    if x.s.speculative x.sq then .wait .spec x.s
    else
      let e := x.s.gatherOf d owner g
      if e.bound then .done (x.s.modDie d fun y => { y with gathers := aset y.gathers (owner * 64 + g) { gen := (e.gen + 1) % 4096 } })
      else .done x.s) s

end Sys2Proof.Machine
end

