-- ==== Sys2Proof/Machine/GenChan.lean ====
section
/-! DEFINITION. Mailboxes and channel entries (10_cluster_engines.md R261 to R264; 15_die_memory.md R318): CHSEND, CHRECV, CHSET. -/

namespace Sys2Proof.Machine

open Host (Outcome)

/-- A MAILBOX entry's mailbox: its die and index, none where the number names no mailbox of the package (R262, R263): die 3, or a bit of [31:10].
(DESIGN CHOICE, log 91) -/
def mailboxOf (e1 : DWord) : Option (Nat × Nat) :=
  let n := field64 e1 0 32
  if n < 768 then some (n / 256, n % 256) else none

/-- What a mailbox word finds at its channel (R262 to R264). -/
inductive MailUse where
  | invalid
  | forged
  | perm
  | ok (d i : Nat) (m : Mailbox)
deriving DecidableEq, Repr

/-- The check of a MAILBOX channel: `bit` is SENDOK or RECVOK. The entry's kind comes first, then the permission, the mailbox and its key.
(DESIGN CHOICE, log 91) -/
def State.mailUse (s : State) (cx : Ctx) (ch bit : Nat) : MailUse :=
  let e0 := cx.chan ch 0
  if ch = 0 ∨ cx.chanKind ch ≠ 2 then .invalid
  else if !e0.getLsbD bit then .perm
  else match mailboxOf (cx.chan ch 1) with
    | none => .invalid
    | some (d, i) => match aget? (s.die d).mailboxes i with
      | none => .invalid
      | some m => if m.key = cx.chan ch 2 then .ok d i m else .forged

/-- Goes on with a mailbox, or traps (R264); a key that does not match is a capability forgery (R262). -/
def GenIn.withMailbox (x : GenIn) (ch bit : Nat) (f : Nat → Nat → Mailbox → GenRes) : GenRes :=
  match x.s.mailUse x.cx ch bit with
  | .invalid => .trap .channelInvalid [BitVec.ofNat 64 ch, 0, 0, 0] x.s
  | .perm => .trap .channelPerm [BitVec.ofNat 64 ch, 0, 0, 0] x.s
  | .forged => x.violation x.s 5 0 0 0
  | .ok d i m => f d i m

/-- Sets mailbox `i` of die `d`. -/
def State.setMailbox (s : State) (d i : Nat) (m : Mailbox) : State := s.modDie d fun x => { x with mailboxes := aset x.mailboxes i m }

/-- CHSEND (R262). In an uncommitted speculative task it waits for the commit (R385). -/
def execChsend (w : GR) (s : State) : Outcome State Fault Refusal :=
  genRun (.chsend w) w.cnd (fun x =>
    if x.s.speculative x.sq then .wait .spec x.s
    else x.withMailbox (fieldN w.imm.toNat 0 6) 3 fun d i m =>
      if 16 ≤ m.msgs.length then .wait (.mailbox d i (fieldN w.imm.toNat 0 6) true) x.s
      else .done (x.s.setMailbox d i { m with msgs := m.msgs ++ [x.rd.S w.a.toNat] })) s

/-- CHRECV (R262): taking a message is a DEVICE-scope acquire of the sender's accesses. -/
def execChrecv (w : GR) (s : State) : Outcome State Fault Refusal :=
  genRun (.chrecv w) w.cnd (fun x =>
    x.withMailbox (fieldN w.imm.toNat 0 6) 4 fun d i m =>
      match m.msgs with
      | v :: rest =>
        let s := x.s.setMailbox d i { m with msgs := rest }
        .done ((s.modCtx x.q x.c fun cx => { cx.setS w.d.toNat v with cc := ccZ false }).l1Clear x.sq.cluster)
      | [] =>
        if w.fn.getLsbD 0 then x.finish { x.cx.setS w.d.toNat 0 with cc := ccZ true } else .wait (.mailbox d i (fieldN w.imm.toNat 0 6) false) x.s) s

/-- A context with a channel entry written. -/
def Ctx.setChan (cx : Ctx) (ch : Nat) (ws : List DWord) : Ctx := { cx with chans := aset cx.chans ch ws }

/-- Every team takes the owner that the entries settled so far give it (R259, R260); one whose entry was replaced by another that does not name it is again
its own squad's, as R209 gives.
(DEDUCED, log 35) -/
def State.resettle (s : State) : State :=
  { s with squads := s.squads.map fun p => (p.1, { p.2 with
      teams := p.2.teams.zipIdx.map fun (tm, t) =>
        let o := s.settleOwner p.2.task p.2.instance_ t
        if tm.ended || (o.2.isNone && tm.stream.isNone) then tm else { tm with owner := o.1, stream := o.2 } }) }

/-- The four words a CHSET writes: word 3 reads as zero (R258). -/
def GenIn.chanWords (x : GenIn) (a : Nat) : List DWord :=
  [x.rd.S a &&& 0xFFFFFFFFFFF01F3F#64, x.rd.S (a + 1), x.rd.S (a + 2), 0]

/-- CHSET (R261): the entry of every context of the task named by S(B), resident or saved, and of its copy of the image; a privilege breach from
any squad without privilege. A task id that names no task writes nothing.
(DEDUCED, log 35) -/
def execChset (w : GR) (s : State) : Outcome State Fault Refusal :=
  genRun (.chset w) w.cnd (fun x =>
    if !x.sq.priv then x.violation x.s 4 0 0 0
    else
      let ch := fieldN w.imm.toNat 0 6
      let ws := x.chanWords w.a.toNat
      let k := (x.rd.S w.b.toNat).toNat
      let put (p : Nat × Squad) : Nat × Squad :=
        if p.2.task = k then (p.1, { p.2 with ctxs := p.2.ctxs.map (·.setChan ch ws) }) else p
      let s := if (x.s.task k).any (·.keyBase != 0) then x.s.addStream k ch ws else x.s
      let s := s.modTask k fun t => { t with image := aset t.image ch ws }
      .done ({ s with squads := s.squads.map put, saves := s.saves.map put } : State).resettle) s

end Sys2Proof.Machine
end

