-- ==== Sys2Proof/Machine/Matrix.lean ====
section
/-! DEFINITION. The matrix multiply words MMA and MMAZ (07_core_matrix.md R163 to R178). -/

namespace Sys2Proof.Machine

open Host (Outcome)

/-! ## Shared by the matrix words -/

/-- The existing lanes of row block rb (R76, R169). -/
def LaneIn.rbMask (x : LaneIn) (rb : Nat) : Mask := rowBlock rb &&& maskBelow x.tm.lanes

/-- A line of a tile that a word reads, with the element it is read for. -/
structure NeedLine where
  h : Nat
  line : Nat
  row : Nat
  col : Nat
deriving DecidableEq, Repr

/-- The lines of element (r, c) of handle h.
(DEDUCED, log 26) -/
def needOf (h : Nat) (t : Tile) (r c : Nat) : List NeedLine :=
  if t.level = 0 then [] else (t.elemLines r c).map fun l => ⟨h, l, r, c⟩

/-- The first line of a list that is not FULL.
(DEDUCED, log 26) -/
def LaneIn.missing (x : LaneIn) (ls : List NeedLine) : Option NeedLine :=
  ls.find? fun n => match x.s.tile x.q n.h with
    | some t => !t.full n.line
    | none => false

/-- One of the lines is marked by an error that is a power event below the safe set point (R414). -/
def LaneIn.powerNeed (x : LaneIn) (ls : List NeedLine) : Bool :=
  (x.s.cluster x.sq.cluster).undervolted && ls.any fun n => (x.s.tile x.q n.h).any fun t => t.clustered && (t.badLine [n.line]).isSome

/-- The first line of a list that an uncorrectable error marks (R176). -/
def LaneIn.badNeed (x : LaneIn) (ls : List NeedLine) : Option NeedLine :=
  ls.find? fun n => match x.s.tile x.q n.h with
    | some t => (t.badLine [n.line]).isSome
    | none => false

/-- A word waits for those of the lines that are EMPTY (R166). -/
def LaneIn.waitLines (x : LaneIn) (ls : List NeedLine) : LaneRes :=
  .wait (.lines ((ls.filter fun n => (x.missing [n]).isSome).map fun n => (n.h, n.line)) (x.s.cluster x.sq.cluster).cycle) x.s

/-- A word that reads whole lines and makes no partial progress: it waits while one is EMPTY, parks with TILE_STARVED once starved and with
UNCORRECTABLE_DATA for a line that an error marks, and otherwise goes on (R177). -/
def LaneIn.needLines (x : LaneIn) (d b : Nat) (m : Mask) (ls : List NeedLine) (k : LaneRes) : LaneRes :=
  match x.missing ls with
  | some n => if x.tm.starved then .park .tileStarved (matInfo d b x.tm.sstepInfo n.row n.col) m [] x.s else x.waitLines ls
  | none => match x.badNeed ls with
    | some n =>
      if x.powerNeed ls then x.uncorrectable m [] x.s else .park .uncorrectableData (matInfo d b x.tm.sstepInfo n.row n.col) m [] x.s
    | none => k

/-- An accumulator element that a read finds marked bad (R208). -/
def LaneIn.badElem (x : LaneIn) (d b : Nat) (m : Mask) (e : Nat) : LaneRes :=
  x.uncorrectable m (matInfo d b x.tm.sstepInfo (e / 64) (e % 64)) x.s

/-- The information words of FP_OVERFLOW of a matrix-unit word (R67): the lanes that overflowed and the first overflowing element. -/
def matOvfInfo (lanes : List Nat) (row col : Nat) : List DWord :=
  (ovfInfo lanes).take 2 ++ [BitVec.ofNat 64 row, BitVec.ofNat 64 col]

/-- A handle that a word of lane core `core` may name: an ACC tile must lie on that core (R163).
(DEDUCED, log 26) -/
def LaneIn.handle (x : LaneIn) (core h : Nat) : Option Tile :=
  match x.tile h with
  | some t => if t.level = 0 ∧ t.core ≠ core then none else some t
  | none => none

/-! ## Operands of a multiply -/

/-- One operand position: its value, the flags its transform set, whether its block's scale is 0xFF or marks a zero block, and its bitmap
bit. -/
structure MatElem where
  v : XVal
  fl : Flags5 := 0
  nan : Bool := false
  zero : Bool := false
  bit : Bool := true

/-- The registers of a span joined, the first lowest (R165). -/
def joinRegs : List Word → Nat
  | [] => 0
  | w :: t => w.toNat + 2 ^ 32 * joinRegs t

/-- The A row of a lane for the K positions below `kn` (R165), the others reading as zero. -/
def aElems (t : NumTy) (zblk spa : Bool) (kn : Nat) (regs : List Word) : List MatElem :=
  let er := mmaElemRegs t.code
  let sr := mmaScaleRegs t.code
  let es := joinRegs (regs.take er)
  let sc := joinRegs ((regs.drop er).take sr)
  let bm := joinRegs (regs.drop (er + sr))
  (upTo (mmaK t.code)).map fun k =>
    let c := fieldN es (t.width * k) t.width
    let s := if t.isBlock then fieldN sc (8 * (k / 32)) 8 else 0x7F
    let v := if kn ≤ k then .zero false else if t.isBlock then decodeBlk t zblk s c else t.decode c
    { v := v, nan := t.isBlock && s == 0xFF, zero := t.isBlock && zblk && s == 0, bit := !spa || bm.testBit k }

/-- An A row under MMA.HAD (R172): the forward transform along K with shift log2 n, block 0 at row 0 of B. -/
def hadRow (rnd : Rnd) (seed : DWord) (n k0 : Nat) (row : List MatElem) : List MatElem :=
  row.zipIdx.map fun (e, k) =>
    let b := (k0 + k) / n
    let base := k / n * n
    let xs := ((row.drop base).take n).map (·.v)
    let (y, f) := hadOut rnd false (Nat.log2 n) (hadSigns seed b) xs (k - base)
    { e with v := y, fl := f }

/-- A column of B over the K positions `k0` to `k0 + kn − 1` (R166, R171). -/
def bElems (t : Tile) (map : Option Tile) (zblk : Bool) (k0 kn c : Nat) : List MatElem :=
  (upTo kn).map fun k =>
    let s := t.scale (k0 + k) c
    { v := t.value zblk (k0 + k) c, nan := t.ty.isBlock && s == 0xFF, zero := t.ty.isBlock && zblk && s == 0
      bit := match map with
        | some m => (m.code (k0 + k) (c / 8)).testBit (c % 8)
        | none => true }

/-- A position is formed (R170). -/
def formed (a b : MatElem) : Bool := a.nan || b.nan || (!a.zero && !b.zero && a.bit && b.bit)

/-- The exact sum of one accumulator element over the pairs of a row and a column (R168 to R170). -/
def matSum (row col : List MatElem) : Acc :=
  (row.zip col).foldl (fun acc p =>
    if formed p.1 p.2 then
      let acc := acc.product p.1.v p.2.v
      { acc with flags := acc.flags ||| p.1.fl ||| fIf (p.1.nan || p.2.nan) fIV }
    else acc) {}

/-- The exact sum of class I, with whether a position was formed. -/
def matSumInt (row col : List MatElem) : Bool × Dy :=
  (row.zip col).foldl (fun acc p =>
    if formed p.1 p.2 then (true, acc.2.add (xmul p.1.v p.2.v).1.toDy) else acc) (false, ⟨0, 0⟩)

/-- The I32 code of base plus an exact sum (R168). Under HAD the sum may be no integer, and the spec then states no result: `open_`.
(DESIGN CHOICE, log 83) -/
def intSum (base open_ : Nat) (d : Dy) : Nat :=
  if 0 ≤ d.e then wrapN (signed base 32 + d.m * (2 ^ d.e.toNat : Nat)) 32
  else if d.m % ((2 ^ (-d.e).toNat : Nat) : Int) = 0 then wrapN (signed base 32 + d.m / ((2 ^ (-d.e).toNat : Nat) : Int)) 32
  else open_ % 2 ^ 32

/-! ## MMA and MMAZ -/

/-- The values of A's span by lane of the row block: from the latch when it matches under REUSE, fresh otherwise (R173). -/
def LaneIn.aVals (x : LaneIn) (w : LR) (rb ty : Nat) : List (List Word) :=
  match x.tm.latchHit w with
  | some k => k.vals
  | none => (upTo 64).map fun i => (runRegs w.a.toNat (mmaSpan ty (w.ex.getLsbD 2))).map fun r => x.rd.V (64 * rb + i) r

/-- The tile handles of a multiply checked in order (R164, R166, R168, R171, R177): the accumulator, B, B's type, and the bitmap. -/
def LaneIn.mmaTiles (x : LaneIn) (w : LR) (core : Nat) (aT : NumTy) : Except Cause (Tile × Tile × Option Tile) :=
  let h := w.b.toNat
  match x.handle core w.d.toNat, x.tile h with
  | some d, some b =>
    if d.level ≠ 0 ∨ d.ty ≠ (if aT.isInt then .i32 else .f32) ∨ b.level = 0 then .error .tileHandle
    else if !mmaPair aT.code b.ty.code || (w.ty == 0x1F && field32 x.tm.fmtr 5 5 != b.ty.code) then .error .illegalType
    else if w.ex.getLsbD 1 then
      match (if h = 255 then none else x.tile (h + 1)) with
      | some m =>
        if m.level ≠ 0 ∧ m.ty = .n8 ∧ b.rows ≤ m.rows ∧ (b.cols + 7) / 8 ≤ m.cols then .ok (d, b, some m) else .error .tileHandle
      | none => .error .tileHandle
    else .ok (d, b, none)
  | _, _ => .error .tileHandle

/-- The rows of A that enter a multiply of `kn` steps, after their transform under HAD (R168, R169). -/
def LaneIn.mmaRows (x : LaneIn) (w : LR) (rb ks kn : Nat) (aT : NumTy) : List (List MatElem) :=
  (x.aVals w rb aT.code).map fun regs =>
    let row := aElems aT x.tm.zblk (w.ex.getLsbD 2) kn regs
    if w.ex.getLsbD 0 then
      hadRow (x.rnd w.ty w.ex) (aget 0 x.sq.seeds (field32 x.tm.fmtr 28 4)) (hadN x.tm.fmtr) (ks * mmaK aT.code) row
    else row

/-- A multiply past its checks: its tiles, its fields, the types, its first step and its number of steps, whether it starts from a zero accumulator,
and whether it may stop after some of its steps (R176). -/
structure Mma where
  d : Tile
  b : Tile
  map : Option Tile
  dh : Nat
  bh : Nat
  rb : Nat
  ks : Nat
  cb : Nat
  aT : NumTy
  zblk : Bool
  rnd : Rnd
  ovf : Ovf
  lanes : Nat
  k1 : Nat
  kn : Nat
  zero : Bool
  resumed : Bool
  sparse : Bool
  rows : List (List MatElem)
  free : Nat

/-- The multiply of word `w` on its tiles; `z` tells MMAZ. One that a trap or a suspension interrupted starts at NEXTK (R176, R207).
(DEDUCED, log 26) -/
def LaneIn.mmaOf (x : LaneIn) (w : LR) (z : Bool) (aT : NumTy) (d b : Tile) (map : Option Tile) : Mma :=
  let ks := fieldN w.c.toNat 0 4
  let rb := fieldN w.c.toNat 4 4
  let kn := min (mmaK aT.code) (b.rows - ks * mmaK aT.code)
  let ovf := x.ovf w.ty w.ex
  let sparse := (w.ex.getLsbD 2 || w.ex.getLsbD 1) && ovf != .trap
  let resumed := sparse && x.tm.todo.isSome && x.tm.sstep.getLsbD 31 && field32 x.tm.sstep 8 8 == w.d.toNat
  { d := d, b := b, map := map, dh := w.d.toNat, bh := w.b.toNat, rb := rb, ks := ks, cb := fieldN w.fn.toNat 0 4, aT := aT, zblk := x.tm.zblk
    rnd := x.rnd w.ty w.ex, ovf := ovf, lanes := min 64 (x.tm.lanes - 64 * rb), k1 := if resumed then field32 x.tm.sstep 0 8 else 0
    kn := kn, zero := z && !resumed, resumed := resumed, sparse := sparse, rows := x.mmaRows w rb ks kn aT, free := x.s.free }

/-- What the steps below `k2` that are still to do leave: the new accumulator codes by element, in row-major order (R168). -/
def Mma.run (p : Mma) (k2 : Nat) : List ((Nat × Nat) × Rounded) :=
  let cols := (upTo (min p.d.cols 64)).map fun j =>
    if 64 * p.cb + j < p.b.cols then (bElems p.b p.map p.zblk (p.ks * mmaK p.aT.code) k2 (64 * p.cb + j)).drop p.k1 else []
  (upTo (min p.d.rows 64)).flatMap fun i =>
    let row := if i < p.lanes then ((p.rows.getD i []).take k2).drop p.k1 else []
    cols.zipIdx.map fun (col, j) =>
      let base := if p.zero then 0 else p.d.code i j
      if p.aT.isInt then
        let (f, sum) := matSumInt row col
        ((i, j), ⟨if f then intSum base (Config.freeNat p.free (262144 + 64 * i + j)) sum else base, 0, false⟩)
      else ((i, j), (matSum row col).into base p.rnd p.ovf)

/-- The tile lines that step k of a multiply reads (R171). -/
def Mma.need (p : Mma) (k : Nat) : List NeedLine :=
  (upTo (min p.d.cols 64)).flatMap fun j =>
    let c := 64 * p.cb + j
    if c < p.b.cols then
      needOf p.bh p.b (p.ks * mmaK p.aT.code + k) c ++ (match p.map with
        | some m => needOf (p.bh + 1) m (p.ks * mmaK p.aT.code + k) (c / 8)
        | none => [])
    else []

/-- The steps still to do. -/
def Mma.steps (p : Mma) : List Nat := (upTo p.kn).filter (p.k1 ≤ ·)

/-- The results written to the accumulator, with their flags, which reach FFLAGS when the word completes or parks (R73). -/
def LaneIn.mmaPut (x : LaneIn) (p : Mma) (rs : List ((Nat × Nat) × Rounded)) (s : State) : State :=
  (s.setTile x.q p.dh (rs.foldl (fun t r => t.setCode r.1.1 r.1.2 r.2.code) p.d)).modTeam x.q x.t fun tm =>
    tm.holdFlags (rs.foldl (fun a r => a ||| r.2.flags) f0)

/-- SSTEP after the steps below `k` (R175, R176). -/
def Mma.sstep (p : Mma) (k : Nat) : Nat := 2 ^ 31 + p.dh * 2 ^ 8 + k

/-- The rounding of the steps below `k` of a word that stops there, with SSTEP (R176). -/
def LaneIn.mmaPart (x : LaneIn) (p : Mma) (k : Nat) : State :=
  (x.mmaPut p (p.run k) x.s).modTeam x.q x.t fun tm => { tm with sstep := BitVec.ofNat 32 (p.sstep k) }

/-- The first register of A's span marked bad in a lane whose row enters the multiply (R169, R208); none where the latch supplies A (R173). -/
def LaneIn.badA (x : LaneIn) (i : Instr) (w : LR) (p : Mma) : Option (Nat × Nat) :=
  if (x.tm.latchHit w).isSome then none
  else x.tm.badAt (matrixRegs x.tm.ckEnv i) (x.rbMask p.rb &&& maskBelow (64 * p.rb + min p.d.rows 64))

/-- The first accumulator element marked bad that the multiply reads (R208). -/
def Mma.badAcc (p : Mma) : Option Nat := if p.zero then none else p.d.bad.head?

/-- A sparse multiply's first step whose lines are not all FULL and without error (R176). -/
def LaneIn.mmaStop (x : LaneIn) (p : Mma) : Option Nat :=
  p.steps.find? fun k => (x.missing (p.need k)).isSome || (x.badNeed (p.need k)).isSome

/-- A sparse multiply that stops at step `k`: it waits, or parks after the steps before it (R176). -/
def LaneIn.mmaHalt (x : LaneIn) (p : Mma) (rm : Mask) (k : Nat) : LaneRes :=
  let info (n : NeedLine) : List DWord := matInfo p.dh p.bh (if p.k1 < k then p.sstep k else x.tm.sstepInfo) n.row n.col
  let s := if p.k1 < k then x.mmaPart p k else x.s
  match x.missing (p.need k), x.badNeed (p.need k) with
  | some n, _ => if x.tm.starved then .park .tileStarved (info n) rm [] s else x.waitLines (p.need k)
  | none, some n =>
    if x.powerNeed (p.need k) then x.uncorrectable rm [] x.s else .park .uncorrectableData (info n) rm [] s
  | none, none => .done x.s

/-- The end of a multiply whose lines can all be read: it rounds, or reports the overflow (R67, R168, R173). -/
def LaneIn.mmaEnd (x : LaneIn) (w : LR) (p : Mma) (rm : Mask) : LaneRes :=
  let rs := p.run p.kn
  match rs.find? fun r => r.2.trap with
  | some r =>
    let ls := ((upTo p.lanes).filter fun i => rs.any fun r => r.1.1 == i && r.2.trap).map (64 * p.rb + ·)
    .park .fpOverflow (matOvfInfo ls r.1.1 r.1.2) rm [] x.s
  | none =>
    let latch : Option Latch :=
      if w.ex.getLsbD 7 then some ⟨w.a.toNat, p.rb, p.aT.code, w.ex.getLsbD 2, x.aVals w p.rb p.aT.code⟩ else none
    .done ((x.mmaPut p rs x.s).modTeam x.q x.t fun tm => { tm with latch := latch, sstep := if p.resumed then 0 else tm.sstep })

/-- A multiply past its checks (R176 to R178): a sparse word goes step by step; any other, and a sparse one that cannot read A or the accumulator,
completes no step unless every line can be read.
(DEDUCED, log 26; DESIGN CHOICE, log 83) -/
def LaneIn.mmaGo (x : LaneIn) (i : Instr) (w : LR) (p : Mma) (rm : Mask) : LaneRes :=
  let whole (k : LaneRes) : LaneRes := x.needLines p.dh p.bh rm (p.steps.flatMap p.need) k
  match x.badA i w p, p.badAcc with
  | some (r, l), _ => whole (x.uncorrectable rm (badInfo (x.tm.decodeInfo i) r l) x.s)
  | none, some e => whole (x.badElem p.dh p.bh rm e)
  | none, none =>
    if p.sparse then match x.mmaStop p with
      | some k => x.mmaHalt p rm k
      | none => x.mmaEnd w p rm
    else whole (x.mmaEnd w p rm)

/-- MMA and MMAZ: `z` tells MMAZ.
(DEDUCED, log 26) -/
def LaneIn.mma (x : LaneIn) (i : Instr) (w : LR) (z : Bool) : LaneRes :=
  let rb := fieldN w.c.toNat 4 4
  let rm := x.rbMask rb
  let stop (c : Cause) : LaneRes := .park c (x.tm.decodeInfo i) rm [] x.s
  let core := x.tm.coreOf (64 * rb)
  if x.m &&& rm = 0 then .done x.s
  else if x.m &&& rm ≠ rm then stop .illegalConvergence
  else
    let aT := x.ty w.ty
    x.onUnit core <|
    match x.mmaTiles w core aT with
    | .error c => stop c
    | .ok (d, b, map) => x.mmaGo i w (x.mmaOf w z aT d b map) rm

/-- The multiply that the oldest word of a team is, past its checks, when it makes partial progress. -/
def LaneIn.mmaNow (x : LaneIn) : Option Mma :=
  let i := laneInstr x.tm.word
  let go (w : LR) (z : Bool) : Option Mma := match x.mmaTiles w (x.tm.coreOf (64 * fieldN w.c.toNat 4 4)) (x.ty w.ty) with
    | .ok (d, b, map) =>
      let p := x.mmaOf w z (x.ty w.ty) d b map
      if p.sparse && (x.badA i w p).isNone && p.badAcc.isNone then some p else none
    | .error _ => none
  match i with
  | .mma w => go w false
  | .mmaz w => go w true
  | _ => none

/-- A team that awaits tile lines is suspended (R207): a sparse multiply keeps SSTEP and the rounding of the steps it has completed, with the row
block unfinished; any other word keeps nothing more. -/
def State.suspendSparse (s : State) (q t : Nat) : State :=
  match s.squad q, s.team q t with
  | some sq, some tm =>
    match tm.wait with
    | some (.lines _ _) =>
      let x : LaneIn := ⟨s, q, t, sq, tm, tm.reads s.free (s.cluster sq.cluster).cycle, tm.acting (tm.word.extractLsb' 53 3)⟩
      match x.mmaNow with
      | some p => match x.mmaStop p with
        | some k => if p.k1 < k then (x.mmaPart p k).modTeam q t fun tm => { tm with todo := some (x.rbMask p.rb) } else s
        | none => s
      | none => s
    | _ => s
  | _, _ => s

/-- MMA (R167, R168). -/
def execMma (w : LR) (s : State) : Outcome State Fault Refusal := laneRun (.mma w) w.ms (fun x => x.mma (.mma w) w false) s

/-- MMAZ (R167, R168): from a zero accumulator. -/
def execMmaz (w : LR) (s : State) : Outcome State Fault Refusal := laneRun (.mmaz w) w.ms (fun x => x.mma (.mmaz w) w true) s

end Sys2Proof.Machine
end

