-- ==== Sys2Proof/Machine/GenControl.lean ====
section
/-! DEFINITION. The control words of a generator context (09_cluster_generator.md R219 to R221), GNOP (02_encoding.md R43), and the end of
teams and squads (R221). -/

namespace Sys2Proof.Machine

open Host (Outcome)

/-- The target of a GB word: PC_branch + 8 × SignExtend(OFF32, 64) (R219). -/
def gbTarget (cx : Ctx) (off : BitVec 32) : DWord := cx.pc + 8 * off.signExtend 64

/-- The address of the word after the clause of the context's word (R219). -/
def Ctx.afterClause (cx : Ctx) : DWord :=
  match cx.clause with
  | some c => cx.pc + BitVec.ofNat 64 (8 * (c.len - c.idx))
  | none => cx.pc + 8

/-- BR (R219). -/
def execBr (w : GB) (s : State) : Outcome State Fault Refusal := genRun (.br w) w.cnd (fun x => .goto (gbTarget x.cx w.off) x.s) s

/-- BRZ (R219). -/
def execBrz (w : GB) (s : State) : Outcome State Fault Refusal :=
  genRun (.brz w) w.cnd (fun x =>
    if (x.rd.S w.a.toNat == 0) != w.b.getLsbD 0 then .goto (gbTarget x.cx w.off) x.s else .done x.s) s

/-- LOOP (R219): S(A) is decremented whether the branch is taken or not, and the decremented value decides even where s0 discards it.
(DEDUCED, log 20) -/
def execLoop (w : GB) (s : State) : Outcome State Fault Refusal :=
  genRun (.loop w) w.cnd (fun x =>
    let v := x.rd.S w.a.toNat - 1
    let s := x.s.modCtx x.q x.c fun cx => cx.setS w.a.toNat v
    if v = 0 then .done s else .goto (gbTarget x.cx w.off) s) s

/-- CALL (R219). -/
def execCall (w : GB) (s : State) : Outcome State Fault Refusal :=
  genRun (.call w) w.cnd (fun x =>
    .goto (gbTarget x.cx w.off) (x.s.modCtx x.q x.c fun cx => cx.setS w.a.toNat x.cx.afterClause)) s

/-- A jump to S(A): an address that is no multiple of 8 raises MISALIGNED at the word (R219).
(DEDUCED, log 20) -/
def GenIn.jumpTo (x : GenIn) (a : Nat) : GenRes :=
  let v := x.rd.S a
  if v.toNat % 8 ≠ 0 then .trap .misaligned [] x.s else .goto v x.s

/-- RET (R219).
(DEDUCED, log 20) -/
def execRet (w : GR) (s : State) : Outcome State Fault Refusal := genRun (.ret w) w.cnd (fun x => x.jumpTo w.a.toNat) s

/-- JMPR (R219).
(DEDUCED, log 20) -/
def execJmpr (w : GR) (s : State) : Outcome State Fault Refusal := genRun (.jmpr w) w.cnd (fun x => x.jumpTo w.a.toNat) s

/-- EXIT (R221): the context ends, and the teams that wait for an entry of its vote queue go on. A trap that pends at it then kills its task (R286); one
that is held stays (R386).
(DEDUCED, log 23) -/
def execExitw (w : GR) (s : State) : Outcome State Fault Refusal :=
  genRun (.exitw w) w.cnd (fun x =>
    match x.cx.pending.find? (!x.s.held ·) with
    | some p => .done (x.s.trapKill x.sq.task p.cause p.causeBits p.info)
    | none =>
      .done ((x.s.modCtx x.q x.c fun cx => { cx with exited := true, votes := [], partials := [] }).wakeVoters x.q x.c)) s

/-- YIELD (R220): the turn passes to another context and the word goes on at its label. -/
def execYield (w : GB) (s : State) : Outcome State Fault Refusal := genRun (.yield w) w.cnd (fun x => .goto (gbTarget x.cx w.off) x.s) s

/-- The key of a squad's outstanding copy of a tag (R250). -/
def State.copyOf (s : State) (q tag : Nat) : Option Nat := (s.copies.find? fun p => p.2.q == q && p.2.tag == tag).map (·.1)

/-- YIELD.TAG (R220): it waits while a copy of the squad with the tag is outstanding. -/
def execYieldTag (w : GB) (s : State) : Outcome State Fault Refusal :=
  genRun (.yieldTag w) w.cnd (fun x =>
    let tag := (x.rd.S w.a.toNat).toNat
    if (x.s.copyOf x.q tag).isSome then .wait (.yieldTag tag) x.s else .goto (gbTarget x.cx w.off) x.s) s

/-- GNOP (R43). -/
def execGnop (w : GR) (s : State) : Outcome State Fault Refusal := genRun (.gnop w) w.cnd (fun x => .done x.s) s

end Sys2Proof.Machine
end

