-- ==== Sys2Proof/Machine/GenSpecial.lean ====
section
/-! DEFINITION. The special registers of SREAD and SWRITE (09_cluster_generator.md R225, R226; 12_cluster_failures.md R285; 19_die_speculation.md
R392; 22_package_power.md R409, R411). -/

namespace Sys2Proof.Machine

open Host (Outcome)

/-! ## Values -/

/-- TEAMX (R226). -/
def teamx (sq : Squad) (q c : Nat) : Nat :=
  let gw := if sq.gw = 64 then 2 else if sq.gw = 32 then 1 else 0
  let owned := (sq.teams.zipIdx.map fun p => if p.1.owner = some (q, c) then 2 ^ p.2 else 0).sum
  gw * 2 ^ 30 + (sq.lanes - 1) * 2 ^ 20 + (sq.teams.length - 1) * 2 ^ 16 + owned

/-- OWNX (R225). -/
def State.ownx (s : State) (sq : Squad) (cx : Ctx) : Nat := 2 ^ min (s.foreign sq cx).length 48 - 1

/-- STATE of SPECSTATE (R392). -/
def SpecPhase.code : SpecPhase → Nat
  | .none => 0 | .pending => 1 | .passed => 2 | .committed => 3

/-- The traps of a task's agents that are held while it is speculative (R386).
(DEDUCED, log 49) -/
def State.heldTraps (s : State) (k : Nat) : Nat :=
  ((s.task k).map (·.heldT.length)).getD 0 + (s.squads.map fun p => (p.2.ctxs.map fun cx => (cx.pending.filter fun z => z.task == k).length).sum).sum

/-- SPECSTATE (R392): KIND, MODE and RSPAN are reported of a task with a predicted dependence (R383). -/
def State.specState (s : State) (t : Task) : Nat :=
  let a := t.word 6
  let pred := t.producer.isSome
  let f (lo n : Nat) : Nat := if pred then field64 a lo n else 0
  let held := if t.uncommitted then s.heldTraps t.id + t.heldV.length else 0
  t.producer.getD 0 * 2 ^ 32 + min t.rerun 255 * 2 ^ 24 + min held 255 * 2 ^ 16 + f 6 2 * 2 ^ 14 + f 4 2 * 2 ^ 12 + f 0 3 * 2 ^ 8
    + t.depth * 2 ^ 6 + t.specPhase.code

/-- The task of a squad, or an empty one. -/
def State.taskOf (s : State) (sq : Squad) : Task := (s.task sq.task).getD { id := sq.task, die := 0, record := [] }

/-- The value of a special register of a context, other than FFLAGS and SSTEP (R225). -/
def GenIn.special (x : GenIn) (n : Nat) : Nat :=
  let t := x.s.taskOf x.sq
  let cl := x.s.cluster x.sq.cluster
  match n with
  | 0x00 => x.cx.role
  | 0x01 => teamx x.sq x.q x.c
  | 0x02 => x.sq.id
  | 0x03 => x.sq.instance_
  | 0x04 => x.sq.cluster % 44
  | 0x05 => dieOf x.sq.cluster
  | 0x06 => x.s.fabric.devid
  | 0x07 => t.owner
  | 0x08 => t.energyRead / 1000 % 2 ^ 48
  | 0x09 => cl.cycle
  | 0x0A => capBase
  | 0x0B => 24
  | 0x0C => 48
  | 0x0D => x.s.ownx x.sq x.cx
  | 0x20 => x.cx.trapcause.toNat
  | 0x21 => x.cx.trappc.toNat
  | 0x22 => (x.cx.trapinfo.getD 0 0).toNat
  | 0x23 => (x.cx.trapinfo.getD 1 0).toNat
  | 0x24 => (x.cx.trapinfo.getD 2 0).toNat
  | 0x25 => (x.cx.trapinfo.getD 3 0).toNat
  | 0x26 => x.cx.trapvec.toNat
  | 0x30 => x.s.specState t
  | 0x31 => cl.power.point * 2 ^ 4 + x.sq.opoint
  | _ => 0

/-! ## Words -/

/-- SREAD (R225): a team number that the context does not own raises RESERVED_FIELD. -/
def execSread (w : GR) (s : State) : Outcome State Fault Refusal :=
  genRun (.sread w) w.cnd (fun x =>
    let n := w.imm.toNat
    let put (v : Nat) : GenRes := x.finish (x.cx.setS w.d.toNat (BitVec.ofNat 64 v))
    if n = 0x10 ∨ n = 0x11 then
      match x.s.ownedTeam x.q x.c (fieldN w.fn.toNat 0 6) with
      | .team q t =>
        match x.s.team q t with
        | some tm => put (if n = 0x10 then tm.fflags.toNat else tm.sstep.toNat)
        | none => .trap .reservedField [] x.s
      | .away => .wait (.resident (fieldN w.fn.toNat 0 6)) x.s
      | .no => .trap .reservedField [] x.s
    else put (x.special n)) s

/-- SWRITE (R73, R175, R225, R286, R409): fields that read as zero are written as zero. A HINT
awaits the next recomputation. -/
def execSwrite (w : GR) (s : State) : Outcome State Fault Refusal :=
  genRun (.swrite w) w.cnd (fun x =>
    let n := w.imm.toNat
    let v := x.rd.S w.a.toNat
    if n = 0x10 ∨ n = 0x11 then
      match x.s.ownedTeam x.q x.c (fieldN w.fn.toNat 0 6) with
      | .team q t =>
        .done (x.s.modTeam q t fun tm =>
          if n = 0x10 then { tm with fflags := v.extractLsb' 0 5 }
          else { tm with sstep := v.extractLsb' 0 32 &&& 0x8000FFFF#32 })
      | .away => .wait (.resident (fieldN w.fn.toNat 0 6)) x.s
      | .no => .trap .reservedField [] x.s
    else if n = 0x26 then x.finish { x.cx with trapvec := v &&& 0xFFFFFFFFFFFFFFF8#64 }
    else .done (x.s.modSquad x.q fun sq => { sq with opoint := field64 v 0 3, hintAt := some (sq.hintAt.getD x.s.now) })) s

end Sys2Proof.Machine
end

