-- ==== Sys2Proof/Machine/Trap.lean ====
section
/-! DEFINITION. Trap entry and the handler words (12_cluster_failures.md R284 to R294): TRAP_ENTRY, GTRAP, TMASK, ERET, TRESUME, CTXSAVE, CTXLOAD. -/

namespace Sys2Proof.Machine

open Host (Outcome)

/-! ## Entry (R284 to R286) -/

/-- The context enters its handler for a pending trap (R284): it records its return point with the clause state and a GHSYNC that is
abandoned there, sets TMASK, loads the trap registers, and continues at TRAPVEC. TRAPPC of a copy trap is the boundary (R285). -/
def Ctx.enter (cx : Ctx) (p : Pending) : Ctx :=
  { cx with
    ret := some (cx.pc, cx.clause, cx.arrived), arrived := none, tmask := true, pending := cx.pending.erase p, wait := none, spawning := none, clause := none
    trapcause := BitVec.ofNat 64 p.causeBits
    trappc := match p.kind with
      | .copy _ => cx.pc
      | _ => p.pc
    trapClause := p.clause, trapGap := p.gap
    trapinfo := info4 p.info
    pc := cx.trapvec }

/-- TRAP_ENTRY (R284, R286): context (a, b) takes its oldest pending trap that is not held, when it is due; without a handler its task is killed. Entry is an
acquire of the accesses of the team or copy that trapped (R335). -/
def evTrapEntry (s : State) : Outcome State Fault Refusal :=
  let q := s.operand.a
  let c := s.operand.b
  .next (if s.trapDue q c then
    match s.squad q, s.ctx q c with
    | some sq, some cx =>
      match cx.pending.find? (!s.held ·) with
      | none => s
      | some p =>
        if cx.trapvec = 0 then s.trapKill sq.task p.cause p.causeBits p.info
        else (s.modCtx q c fun cx => { cx.enter p with retWaited := cx.flagsIdle sq.native }).l1Clear sq.cluster
    | _, _ => s
  else s)

/-! ## Handler words (R287 to R291) -/

/-- GTRAP (R288). -/
def execGtrap (w : GR) (s : State) : Outcome State Fault Refusal :=
  genRun (.gtrap w) w.cnd (fun x => .trap .genTrap [w.imm.setWidth 64, 0, 0, 0] x.s) s

/-- TMASK (R289). -/
def execTmask (w : GR) (s : State) : Outcome State Fault Refusal :=
  genRun (.tmask w) w.cnd (fun x => x.finish { x.cx with tmask := w.imm.getLsbD 0 }) s

/-- KIND of the trap in TRAPCAUSE (R285). -/
def Ctx.trapKind (cx : Ctx) : Nat := field64 cx.trapcause 12 2

/-- The context after an ERET: TMASK clear, and the return point consumed. -/
def Ctx.leave (cx : Ctx) : Ctx := { cx with tmask := false, ret := none, trapClause := none }

/-- ERET without TARGET (R289, R290): a generator word's trap executes the word again, or under SKIP the one after it; a team's or a copy's
returns to the return point with what was abandoned there. A word that ran had its clause's WAIT satisfied.
(DEDUCED, log 20) -/
def GenIn.eret (x : GenIn) (skip : Bool) : GenRes :=
  if !x.cx.tmask then .trap .reservedField [] x.s
  else match x.cx.ret with
    | none => .trap .reservedField [] x.s
    | some (pc, k, arrived) =>
      if x.cx.trapKind ≠ 0 then
        if skip then .trap .reservedField [] x.s
        else .back pc k x.cx.retWaited (x.s.modCtx x.q x.c fun cx => { cx.leave with arrived := arrived })
      else
        let s := x.s.modCtx x.q x.c Ctx.leave
        if skip then .back (x.cx.trappc + BitVec.ofNat 64 (8 * (1 + x.cx.trapGap))) (x.cx.trapClause.bind Clause.advance) true s
        else .back x.cx.trappc x.cx.trapClause true s

/-- ERET (R289). -/
def execEret (w : GR) (s : State) : Outcome State Fault Refusal := genRun (.eret w) w.cnd (fun x => x.eret false) s

/-- ERET.SKIP (R289). -/
def execEretSkip (w : GR) (s : State) : Outcome State Fault Refusal := genRun (.eretSkip w) w.cnd (fun x => x.eret true) s

/-- ERET sA (R289): SKIP with TARGET raises RESERVED_FIELD. -/
def execEretTarget (w : GR) (s : State) : Outcome State Fault Refusal :=
  genRun (.eretTarget w) w.cnd (fun x =>
    let pc := x.rd.S w.a.toNat
    if !x.cx.tmask || w.fn.getLsbD 0 then .trap .reservedField [] x.s
    else if pc.toNat % 8 ≠ 0 then .trap .misaligned [0, 0, 0, 0] x.s
    else .goto pc (x.s.modCtx x.q x.c Ctx.leave)) s

/-- The team that a handler word's owned-team number names (R260, R291). -/
def GenIn.withTeam (x : GenIn) (n : Nat) (f : Nat → Nat → Team → GenRes) : GenRes :=
  match x.s.ownedTeam x.q x.c n with
  | .no => .trap .reservedField [] x.s
  | .away => .wait (.resident n) x.s
  | .team q t => match x.s.team q t with
    | some tm => f q t tm
    | none => .trap .reservedField [] x.s

/-- TRESUME (R291, R90, R147, R176). It is a release to the team, whose cluster keeps no older copy (R335). -/
def execTresume (w : GR) (s : State) : Outcome State Fault Refusal :=
  genRun (.tresume w) w.cnd (fun x =>
    x.withTeam (fieldN w.imm.toNat 0 6) fun q t tm =>
      if tm.park.isNone then x.finish { x.cx with cc := ccZ true }
      else
        let s := (x.s.resumeTeam q t (w.fn.getLsbD 0)).modCtx x.q x.c fun cx => { cx with cc := ccZ false }
        .done (match s.squad q with
          | some sq => s.l1Clear sq.cluster
          | none => s)) s

/-! ## Parking records (R293) -/

/-- The bytes of a mask. -/
def maskBytes (m : Mask) : List Byte := toBytes 128 m.toNat

/-- The 192-byte parking record of a team, zero when it is not parked. -/
def parkRecord (tm : Team) (n : Nat) : List Byte :=
  match tm.park with
  | none => List.replicate 192 0
  | some p =>
    toBytes 8 (teamCauseBits p.cause n p.origin) ++ toBytes 8 p.pos.toNat
      ++ ((upTo 4).flatMap fun k => toBytes 8 (p.info.getD k 0).toNat) ++ maskBytes p.mask ++ List.replicate 16 0

/-- CTXSAVE.REC (R293). -/
def execCtxsaveRec (w : GR) (s : State) : Outcome State Fault Refusal :=
  genRun (.ctxsaveRec w) w.cnd (fun x =>
    let n := fieldN w.imm.toNat 0 6
    let va := (x.rd.S w.a.toNat).toNat
    x.withTeam n fun _ _ tm => x.addrCheck va 128 7 true false (x.writeSpan x.s va (parkRecord tm n) .done)) s

/-- The lanes that a CTXLOAD.REC leaves in a parking record. -/
def Park.keep (p : Park) (m : Mask) : Park := { p with mask := p.mask &&& m, emptied := p.emptied || (p.mask &&& m == 0) }

/-- CTXLOAD.REC (R293). -/
def execCtxloadRec (w : GR) (s : State) : Outcome State Fault Refusal :=
  genRun (.ctxloadRec w) w.cnd (fun x =>
    let va := (x.rd.S w.a.toNat).toNat
    x.withTeam (fieldN w.imm.toNat 0 6) fun q t tm =>
      x.addrCheck va 128 7 false false (if tm.park.isNone then .done x.s else x.readSpan x.s (va + 48) 128 fun bs s =>
        .done (s.modTeam q t fun tm => { tm with park := tm.park.map (·.keep (BitVec.ofNat 1024 (ofBytes bs))) }))) s

/-! ## Save areas (R294, R296) -/

/-- The squad that the dispatch core names to a handler squad (R294). A privileged squad to which none is named, or one no longer resident, may save and
load no squad, as an unprivileged one may not: a breach of privilege.
(DESIGN CHOICE, log 92) -/
def State.namedSquad (s : State) (sq : Squad) : Option (Nat × Squad) :=
  if sq.priv && sq.named != 0 then (s.squad (sq.named - 1)).map fun x => (sq.named - 1, x) else none

/-- The bytes of a save area, whose layout is not architectural: free values for each save.
(DESIGN CHOICE, log 13) -/
def saveArea (serial : Nat) : List Byte := (upTo Config.saveAreaBytes.val).map fun i => Config.freeByte (2 ^ 48 + serial) i

/-- The flags of a squad's contexts are idle (R24). -/
def Squad.idle (sq : Squad) : Bool := sq.ctxs.all fun cx => cx.exited || cx.busy == 0

/-- CTXSAVE.SQUAD (R294), which waits for idle flags of the contexts it saves (R24): the area is written, and what it stands for, the state of R296, is
kept under the number of the save.
(DESIGN CHOICE, log 13) -/
def execCtxsaveSquad (w : GR) (s : State) : Outcome State Fault Refusal :=
  genRun (.ctxsaveSquad w) w.cnd (fun x =>
    let va := (x.rd.S w.a.toNat).toNat
    match x.s.namedSquad x.sq with
    | none => x.violation x.s 4 va 0 0
    | some (k, y) =>
      let n := x.s.serial
      if !y.idle then .wait (.idle k) x.s
      else x.writeSpan x.s va (saveArea n) fun s =>
        .done { s with saves := aset s.saves n { y with teams := [], tiles := [] }, serial := n + 1 }) s

/-- A context as a save area restores it (R296): what arrived while it was off stays, in its order.
(DESIGN CHOICE, log 13) -/
def Ctx.restored (old now : Ctx) : Ctx :=
  { old with votes := now.votes, partials := now.partials, pending := now.pending, preempted := now.preempted, preemptReq := now.preemptReq
             frozen := now.frozen, exited := now.exited }

/-- CTXLOAD.SQUAD (R294): the area must be one that CTXSAVE.SQUAD wrote for the squad; any other is a capability forgery.
(DESIGN CHOICE, log 13) -/
def execCtxloadSquad (w : GR) (s : State) : Outcome State Fault Refusal :=
  genRun (.ctxloadSquad w) w.cnd (fun x =>
    let va := (x.rd.S w.a.toNat).toNat
    match x.s.namedSquad x.sq with
    | none => x.violation x.s 4 va 0 0
    | some (k, y) =>
      x.readSpan x.s va Config.saveAreaBytes.val fun bs s =>
        match s.saves.find? fun p => p.2.task == y.task && p.2.instance_ == y.instance_ && saveArea p.1 == bs with
        | none => x.violation s 5 va 0 0
        | some (_, z) =>
          .done (s.modSquad k fun q => { q with
            ctxs := q.ctxs.zipIdx.map fun (now, i) => match z.ctxs[i]? with
              | some old => if now.preempted then old.restored now else now
              | none => now })) s

end Sys2Proof.Machine
end

