-- ==== Sys2Proof/Machine/Preempt.lean ====
section
/-! DEFINITION. Flags that become idle (02_encoding.md R24), the pre-emption of contexts (12_cluster_failures.md R295 to R298), the eviction and
return of teams (08_core_tiles_sched.md R205 to R207), and the end of teams (09_cluster_generator.md R221). -/

namespace Sys2Proof.Machine

open Host (Outcome)

/-! ## Flags (R24, R25) -/

/-- FLAG_IDLE (R24): every word bound to flag c of the unit `operand.unit` has completed, since a word of this model completes as it retires, so
the flag becomes idle. -/
def evFlagIdle (s : State) : Outcome State Fault Refusal :=
  let f := s.operand.c
  let clear (b : BitVec 12) : BitVec 12 := b &&& ~~~(1#12 <<< f)
  let left (q : Nat) (b : BitVec 12) (hs : List Hazard) : List Hazard := settle (·.live (clear b) (s.cycleOf q)) hs
  .next (match s.operand.unit with
    | some (.team q t) =>
      s.modTeam q t fun tm => if tm.busy.getLsbD f then { tm with busy := clear tm.busy, hazards := left q tm.busy tm.hazards } else tm
    | some (.ctx q c) =>
      s.modCtx q c fun cx => if cx.busy.getLsbD f then { cx with busy := clear cx.busy, hazards := left q cx.busy cx.hazards } else cx
    | none => s)

/-! ## Pre-emption of contexts (R295 to R298) -/

/-- The context may be saved: its flags are idle and it stands at a boundary, or is frozen (R295, R420). Stretches are delivered whole, so its
sequencer always stands at a stretch boundary.
(DEDUCED, log 25) -/
def Ctx.saveable (cx : Ctx) : Bool :=
  cx.busy == 0 && !cx.exited && !cx.preempted
    && (match cx.wait with
        | some w => w.boundary || w == .frozen
        | none => true)

/-- A save that met UNCORRECTABLE_DATA in both of its tries ends the task with CTX_SAVE_LOST (R298); below the safe set point it is a power event
instead (R414).
(DEDUCED, log 25) -/
def State.saveLost (s : State) (q : Nat) : State :=
  match s.squad q with
  | some sq =>
    if (s.cluster sq.cluster).undervolted then s.modCluster sq.cluster fun c => { c with power := { c.power with event := true } }
    else s.trapKill sq.task .ctxSaveLost Cause.ctxSaveLost.code []
  | none => s

/-- The cluster of a squad runs below its safe set point. -/
def State.lowVolt (s : State) (q : Nat) : Bool :=
  match s.squad q with
  | some sq => (s.cluster sq.cluster).undervolted
  | none => false

/-- A context or team of a squad is saved (R298): `tries` counts the tries of the save that met UNCORRECTABLE_DATA. -/
def State.saved (s : State) (q tries : Nat) (f : State) : State :=
  if 2 ≤ tries ∨ (tries = 1 ∧ s.lowVolt q) then s.saveLost q else f

/-- PREEMPT_CONTEXT (R295, R297, R298): with w = 1 a request to pre-empt context (a, b) arrives; otherwise the context is saved, once nothing
defers the request and no trap of it is due. `c` counts the tries of the save that met UNCORRECTABLE_DATA.
(DESIGN CHOICE, log 24) -/
def evPreemptContext (s : State) : Outcome State Fault Refusal :=
  let q := s.operand.a
  let c := s.operand.b
  .next (match s.ctx q c with
    | none => s
    | some cx =>
      if s.operand.w = 1 then
        if cx.preemptReq.isSome || cx.preempted || cx.exited then s
        else s.modCtx q c fun cx => { cx with preemptReq := some (s.cycleOf q) }
      else if cx.preemptReq.isNone || cx.tmask || s.trapNext q c || !cx.saveable then s
      else s.saved q s.operand.c (s.modCtx q c fun cx => { cx with preempted := true, preemptReq := none }))

/-- PREEMPT_DEFER_TIMEOUT (R297, R298): a request deferred for 65,536 cycles is served with TMASK still set. `c` counts the tries of the save that
met UNCORRECTABLE_DATA.
(DEDUCED, log 25) -/
def evPreemptDeferTimeout (s : State) : Outcome State Fault Refusal :=
  let q := s.operand.a
  let c := s.operand.b
  .next (match s.ctx q c with
    | none => s
    | some cx =>
      match cx.preemptReq with
      | some since =>
        if cx.tmask && cx.saveable && decide (since + 65536 ≤ s.cycleOf q) then
          s.saved q s.operand.c (s.modCtx q c fun cx => { cx with preempted := true, preemptReq := none })
        else s
      | none => s)

/-- Another squad has the cluster to itself (R376).
(DEDUCED, log 51) -/
def State.exclOther (s : State) (q cl : Nat) : Bool := (s.cluster cl).excl.any (· != q)

/-- The dispatch core reserves generator context 15 of two clusters of each die for handler squads (R319); the model takes the last two.
(DESIGN CHOICE, log 84) -/
def handlerCluster (cl : Nat) : Bool := decide (42 ≤ cl % 44)

/-- Generator contexts that handler squads (`priv`), or the others, hold on a cluster (R374): those that are not pre-empted. -/
def State.ctxsUsed (s : State) (cl : Nat) (priv : Bool) : Nat :=
  ((s.ctxsOn cl).filter fun x => x.2.2.1.priv == priv && !x.2.2.1.off && !x.2.2.2.preempted).length

/-- A cluster has `n` generator contexts free for a squad (R319, R374).
(DESIGN CHOICE, log 84) -/
def State.ctxRoom (s : State) (cl : Nat) (priv : Bool) (n : Nat) : Bool :=
  if priv then handlerCluster cl && decide (s.ctxsUsed cl true + n ≤ 1)
  else decide (s.ctxsUsed cl false + n ≤ if handlerCluster cl then 15 else 16)

/-- CONTEXT_RESTORE (R296): context (a, b) goes on on its cluster, and a wait that was abandoned executes again.
(DESIGN CHOICE, log 24) -/
def evContextRestore (s : State) : Outcome State Fault Refusal :=
  let q := s.operand.a
  let c := s.operand.b
  .next (match s.squad q, s.ctx q c with
    | some sq, some cx =>
      if !cx.preempted || sq.off || s.exclOther q sq.cluster || !s.ctxRoom sq.cluster sq.priv 1 then s
      else s.modCtx q c fun cx =>
        { cx with preempted := false, spawning := none, wait := if cx.wait.any (·.boundary) then none else cx.wait }
    | _, _ => s)

/-! ## Eviction of teams (R205 to R207) -/

/-- The team's oldest word lets it be saved: it has not started, or waits without time limit (R205, R207). -/
def TeamWait.suspends : TeamWait → Bool
  | .touch | .faultSlot | .remote | .tfree _ => false
  | _ => true

/-- What of a suspended word's wait survives the save (R207): the huddle's and the claim's; every other word executes again.
(DESIGN CHOICE, log 24) -/
def TeamWait.kept : TeamWait → Bool
  | .lines _ _ | .matrix | .descent | .vote | .give => false
  | _ => true

/-- A team gives up its places in the lines of its cores. -/
def State.leaveLines (s : State) (q t cl : Nat) : State :=
  s.modCluster cl fun c => { c with
    descent := c.descent.filter (· != (q, t))
    cores := c.cores.map fun k =>
    { k with claims := k.claims.filter (· != (q, t)), queue := k.queue.filter (· != (q, t))
             holder := if k.holder = some (q, t) then none else k.holder } }

/-- The team's oldest word has started and does not wait: it goes on to its end before the team is saved (R205). -/
def Team.midWord (tm : Team) : Bool := tm.wait.isNone && !tm.frozen && (tm.started.isSome || tm.half.isSome)

/-- TEAM_EVICT (R205): with w = 1 the distributor asks for team (a, b), which starts no more words; otherwise the team is saved, once its started word has
ended and its flags are idle, a word that waits being suspended first (R207). `c` counts the tries of the save that met UNCORRECTABLE_DATA (R298).
(DESIGN CHOICE, log 24) -/
def evTeamEvict (s : State) : Outcome State Fault Refusal :=
  let q := s.operand.a
  let t := s.operand.b
  .next (match s.squad q, s.team q t with
    | some sq, some tm =>
      if s.operand.w = 1 then (if tm.evicted then s else s.modTeam q t fun tm => { tm with evictReq := true })
      else if !tm.evictReq || tm.busy != 0 || tm.midWord || !(tm.wait.all (·.suspends)) then s
      else s.saved q s.operand.c (((s.suspendSparse q t).leaveLines q t sq.cluster).modTeam q t fun tm =>
        { tm with evicted := true, evictReq := false, latch := none, inUnit := false, half := none, started := if tm.wait.any (·.kept) then tm.started else none })
    | _, _ => s)

/-- The teams that hold granules and a place of a lane core: those that are not evicted. -/
def State.residentOn (s : State) (cl k : Nat) : List (Nat × Nat × Squad × Team) :=
  (s.teamsOn cl k).filter fun x => !x.2.2.2.evicted

/-- The scheduler places of a lane core that are taken (R201): a ganged pair takes one, whichever of its teams is resident. -/
def State.placesUsed (s : State) (cl k : Nat) : Nat := ((s.residentOn cl k).map gang).eraseDups.length

/-- A lane core has granules and a scheduler place for a team, which needs no place beside a resident mate (R201). -/
def State.coreHas (s : State) (cl k granules : Nat) (g : Nat × Nat) : Bool :=
  decide (s.granules cl k + granules ≤ 512) && (decide (s.placesUsed cl k < 32) || (s.residentOn cl k).any fun x => gang x == g)

/-- TEAM_RETURN (R206): evicted team (a, b) returns to its cores once granules and a place are free, with a new age (R202); a suspended word goes on as
R207 gives, and a pending CLAIM takes its place in its lines again.
(DESIGN CHOICE, log 24) -/
def evTeamReturn (s : State) : Outcome State Fault Refusal :=
  let q := s.operand.a
  let t := s.operand.b
  .next (match s.squad q, s.team q t with
    | some sq, some tm =>
      let cl := sq.cluster
      if !tm.evicted || tm.ended || sq.off || s.exclOther q cl
        || !(tm.cores.all fun k => s.coreHas cl k (tm.passesOn k * tm.n / 8) (gang (q, t, sq, tm))) then s
      else
        let age := (s.cluster cl).nextAge
        let s := (s.modCluster cl fun c => { c with nextAge := age + 1 }).modTeam q t fun tm =>
          { tm with evicted := false, starved := false, age := age, ready := 0, readyOdd := 0
                    wait := if tm.wait.any (·.kept) then tm.wait else none }
        if tm.wait = some .claim then tm.cores.foldl (fun s k => s.joinClaims cl k q t tm.claimAt) s else s
    | _, _ => s)

/-! ## The end of teams (R221) -/

/-- A context that owns teams has ended: it has exited and its emissions are delivered, or its squad has exited. -/
def State.ownerGone (s : State) (q c : Nat) : Bool :=
  match s.ctx q c with
  | some cx => cx.exited && cx.seq.isEmpty
  | none => s.tasks.any fun p =>
      p.2.placed != 0 && decide (p.2.keyBase ≤ q) && decide (q < p.2.keyBase + p.2.insts)
        && (p.2.exited.contains (q - p.2.keyBase) || p.2.phase == .completed || p.2.phase == .retired)

/-- The task of a context that owns teams was killed. -/
def State.ownerKilled (s : State) (q : Nat) : Bool :=
  s.tasks.any fun p => p.2.placed != 0 && p.2.killed && decide (p.2.keyBase ≤ q) && decide (q < p.2.keyBase + p.2.insts)

/-- TEAM_END (R221, R260): team (a, b) ends once its owner has exited, its buffer is empty and its flags are idle, or once its owner's task was killed.
(DEDUCED, log 23) -/
def evTeamEnd (s : State) : Outcome State Fault Refusal :=
  let q := s.operand.a
  let t := s.operand.b
  .next (match s.team q t with
    | some tm =>
      match tm.owner with
      | some (oq, oc) =>
        if !tm.ended && s.ownerKilled oq then s.modTeam q t fun tm =>
          { tm with ended := true, latch := none, clause := none, park := none, wait := none, todo := none, buffer := [], faulted := [] }
        else if tm.ended || !s.ownerGone oq oc || !tm.buffer.isEmpty || tm.busy != 0 || tm.park.isSome || tm.wait.isSome || tm.frozen then s
        else s.modTeam q t fun tm => { tm with ended := true, latch := none, clause := none }
      | none => s
    | none => s)

end Sys2Proof.Machine
end

