-- ==== Sys2Proof/Machine/Versions.lean ====
section
/-! DEFINITION. Dependences and renaming (18_die_tasks.md R365 to R367): the spans of tasks, what a task is bound to at admission, how a version
begins, folds and is discarded, and the squash of speculative tasks (19_die_speculation.md R390). -/

namespace Sys2Proof.Machine

open Host (Outcome)

/-! ## Spans in lines (R361) -/

/-- The 128-byte lines that a span covers. -/
def Task.spanLines (t : Task) (i : Nat) : Nat × Nat := (t.spanBase i / 128, (t.spanBase i + t.spanLen i - 1) / 128 + 1)

/-- The lines of the spans in use among the given record words. -/
def Task.lineSpans (t : Task) (is : List Nat) : List (Nat × Nat) := (is.filter fun i => t.spanLen i != 0).map t.spanLines

/-- Two runs of lines share a line. -/
def meets (a b : Nat × Nat) : Bool := decide (a.1 < b.2) && decide (b.1 < a.2)

/-- Runs of lines that share no line, with one more: it joins those that it shares a line with. -/
def joinRun (r : Nat × Nat) : List (Nat × Nat) → List (Nat × Nat)
  | [] => [r]
  | x :: t => if meets r x then joinRun (min r.1 x.1, max r.2 x.2) t else x :: joinRun r t

/-- The runs of lines of which a task's write spans make one version each: spans that share a line make one together (R365).
(DEDUCED, log 45) -/
def Task.writeRuns (t : Task) : List (Nat × Nat) := (t.lineSpans writeSpans).foldl (fun l r => joinRun r l) []

/-- A run of lines cut at the given lines.
(DEDUCED, log 45) -/
def segments (cuts : List Nat) : Nat → Nat → Nat → List (Nat × Nat)
  | 0, lo, hi => if lo < hi then [(lo, hi)] else []
  | f + 1, lo, hi =>
    if lo < hi then
      match leastBy (fun x => x) (cuts.filter fun x => decide (lo < x) && decide (x < hi)) with
      | some x => (lo, x) :: segments cuts f x hi
      | none => [(lo, hi)]
    else []

/-! ## The dependence table (R365) -/

/-- The tasks of an owner in a die's dependence table: a span is a run of lines of its owner's address space, so those of different owners share none
(R309, R361).
(DEDUCED, log 45) -/
def State.table (s : State) (d owner : Nat) : List Task :=
  (s.tasks.map (·.2)).filter fun t => t.die == d && t.owner == owner && t.phase != .retired

/-- The entries in use in a die's dependence table. -/
def State.tableUsed (s : State) (d : Nat) : Nat := (s.tasks.filter fun p => p.2.die == d && p.2.phase != .retired).length

/-- The task of a list that was admitted last.
(DEDUCED, log 45) -/
def latest (l : List Task) : Option Task := l.foldl (fun a t => match a with
  | some b => if b.admittedAt < t.admittedAt then some t else some b
  | none => some t) none

/-- The last-admitted task of a list with a write span over a line.
(DEDUCED, log 45) -/
def writerAt (l : List Task) (line : Nat) : Option Task :=
  latest (l.filter fun t => (t.lineSpans writeSpans).any fun r => decide (r.1 ≤ line) && decide (line < r.2))

/-- The unfolded versions of an owner's lines on a die, predictions apart.
(DEDUCED, log 46) -/
def State.versionsOf (s : State) (d owner : Nat) : List Version :=
  (s.versions.map (·.2)).filter fun v => v.die == d && v.owner == owner && !v.predicted

/-- The latest version of a list over a line. -/
def versionAt (l : List Version) (line : Nat) : Option Version :=
  (l.filter fun v => decide (v.lo ≤ line) && decide (line < v.hi)).foldl (fun a v => match a with
    | some b => if b.key < v.key then some v else some b
    | none => some v) none

/-- The runs of a run of lines over which the latest writer and the latest version do not change. -/
def State.runsOf (s : State) (d owner : Nat) (r : Nat × Nat) : List (Nat × Nat) :=
  let cuts := (s.versionsOf d owner).flatMap (fun v => [v.lo, v.hi])
    ++ (s.table d owner).flatMap fun t => (t.lineSpans writeSpans).flatMap fun x => [x.1, x.2]
  segments cuts (cuts.length + 1) r.1 r.2

/-- What a read span is bound to: over each run the latest earlier writer in the table, on which the task depends, and the version to read.
(DEDUCED, log 45) -/
def State.readPlan (s : State) (d owner : Nat) (r : Nat × Nat) : List (Option Nat × Option Binding) :=
  (s.runsOf d owner r).map fun x =>
    let v := versionAt (s.versionsOf d owner) x.1
    ((writerAt (s.table d owner) x.1).map (·.id), v.map fun v => ⟨x.1, x.2, v.key⟩)

/-- The versions over a run of lines that a task writes in place. -/
def State.inPlace (s : State) (d owner : Nat) (r : Nat × Nat) : List Binding :=
  (s.runsOf d owner r).filterMap fun x => (versionAt (s.versionsOf d owner) x.1).map fun v => ⟨x.1, x.2, v.key⟩

/-- Bytes of a die's rename pool in use.
(DESIGN CHOICE, log 14) -/
def State.poolUsed (s : State) (d : Nat) : Nat := ((s.versions.filter fun p => p.2.die == d).map fun p => (p.2.hi - p.2.lo) * 128).sum

/-- A new version of a run of lines, in the pool of a die.
(DESIGN CHOICE, log 14; DEDUCED, log 46) -/
def State.newVersion (s : State) (d owner writer : Nat) (r : Nat × Nat) (after : List Nat) (predicted : Bool) : State × Nat :=
  let k := s.nextVersion
  let v : Version :=
    { key := k, owner := owner, die := d, lo := r.1, hi := r.2, pa := poolBase + s.poolNext, writers := [writer], readers := [], after := after
      predicted := predicted }
  ({ s with versions := aset s.versions k v, nextVersion := k + 1, poolNext := s.poolNext + (r.2 - r.1) * 128 }, k)

/-- Changes a version. -/
def State.modVersion (s : State) (k : Nat) (f : Version → Version) : State :=
  match aget? s.versions k with
  | some v => { s with versions := aset s.versions k (f v) }
  | none => s

/-- What a write span of task `k` is bound to, against the table `s0` before the task (R365): a version of its own where it meets a span of the
table, or lies over no unfolded version, and the pool has room; otherwise the versions in place, on whose tasks it then depends. -/
def writePlan (s0 : State) (d owner k : Nat) (s : State) (r : Nat × Nat) : State × List Nat × List Binding :=
  let met := (s0.table d owner).filter fun e => (e.lineSpans (readSpans ++ writeSpans)).any (meets r)
  let readers := (met.filter fun e => (e.lineSpans readSpans).any (meets r)).map (·.id)
  let fits (s : State) (x : Nat × Nat) : Bool := decide (s.poolUsed d + (x.2 - x.1) * 128 ≤ Config.renamePool)
  if met.isEmpty then
    let (s, ws) := (s0.runsOf d owner r).foldl (fun (a : State × List Binding) x =>
      match versionAt (s0.versionsOf d owner) x.1 with
      | some v => (a.1, a.2 ++ [⟨x.1, x.2, v.key⟩])
      | none =>
        if fits a.1 x then
          let (s, v) := a.1.newVersion d owner k x [] false
          (s, a.2 ++ [⟨x.1, x.2, v⟩])
        else a) (s, [])
    (s, [], ws)
  else if fits s r then
    let (s, v) := s.newVersion d owner k r readers false
    (s, [], [⟨r.1, r.2, v⟩])
  else (s, met.map (·.id), s0.inPlace d owner r)

/-- A list with an element it lacks. -/
def addNew (l : List Nat) (x : Nat) : List Nat := if l.contains x then l else l ++ [x]

/-- A task as its die's dependence table takes it in (R365): its dependences and bindings are fixed, and the versions know their readers and
writers. -/
def State.bind (s : State) (t : Task) : State × Task :=
  let d := t.die
  let o := t.owner
  let rp := (t.lineSpans readSpans).flatMap fun r => s.readPlan d o r
  let (s', deps, ws) := t.writeRuns.foldl (fun (a : State × List Nat × List Binding) r =>
    let (s', ds, bs) := writePlan s d o t.id a.1 r
    (s', a.2.1 ++ ds, a.2.2 ++ bs)) (s, [], [])
  let rs := rp.filterMap (·.2)
  let s' := rs.foldl (fun s b => s.modVersion b.version fun v => { v with readers := addNew v.readers t.id }) s'
  let s' := ws.foldl (fun s b => s.modVersion b.version fun v => { v with writers := addNew v.writers t.id }) s'
  (s', { t with deps := (rp.filterMap (·.1) ++ deps).foldl addNew [], reads := rs, writes := ws })

/-! ## Home memory under a version -/

/-- The physical place of a line of an owner's virtual memory, and whether its page reads zero where unwritten. -/
def State.homeLine (s : State) (d owner line : Nat) : Option (Nat × Bool) × State :=
  match s.walkRoot d owner (line * 128) with
  | (.ok w, s') =>
    if pteValid w.entry && pteLeaf w.entry && !pteBad w.entry w.level && field64 w.entry 52 12 == owner then
      (some ((xlOf (line * 128) (leafSize w.level) w.entry).pa, pteZor w.entry), s')
    else (none, s')
  | (.error _, s') => (none, s')

/-- The physical place of a line in the latest version of a list, or in home memory, and whether its page reads zero where unwritten; none where no page
maps it. -/
def State.linePlace (s : State) (d owner : Nat) (vs : List Version) (line : Nat) : Option (Nat × Bool) × State :=
  match versionAt vs line with
  | some v => (some (v.pa + (line - v.lo) * 128, false), s)
  | none => s.homeLine d owner line

/-- The bytes of a line as the latest version of a list, or home memory, holds them; none where no page maps it. -/
def State.lineBytes (s : State) (d owner : Nat) (vs : List Version) (line : Nat) : Option (List Byte) × State :=
  match s.linePlace d owner vs line with
  | (some (pa, zor), s') => (some (s'.bytesAt owner zor pa 128), s')
  | (none, s') => (none, s')

/-- One line of an owner copied to another place. An error or poison that its reading meets goes with it (R328): the copy is poisoned.
(DEDUCED, log 46) -/
def State.copyLine (s : State) (owner : Nat) (zor : Bool) (pa : Nat) (zor' : Bool) (pa' : Nat) : State :=
  let r := s.linesCheck owner zor [pa / 128]
  let s := r.2.writeMem owner zor' pa' (r.2.bytesAt owner zor pa 128)
  match r.1 with
  | .ok _ => s
  | .error _ => { s with poison := pa' / 128 :: s.poison.filter (· != pa' / 128) }

/-- The lines of a run. -/
def linesIn (lo hi : Nat) : List Nat := (upTo (hi - lo)).map (lo + ·)

/-- What a task reads of its bindings: in the predicted span of a predicted dependence it reads the prediction and not the producer's version
(R383).
(DEDUCED, log 49) -/
def Task.sources (t : Task) : List Binding :=
  let i := 8 + 2 * field64 (t.word 6) 0 3
  let r := t.spanLines i
  t.reads.filter fun b => !(t.producer.isSome && decide (r.1 ≤ b.lo) && decide (b.hi ≤ r.2))

/-- The tasks whose versions a task reads, through its read spans or through write spans that it writes in place (R388, R390): those admitted before it
that write them, its own versions and its prediction apart.
(DEDUCED, log 49) -/
def State.sourceTasks (s : State) (t : Task) : List Nat :=
  ((t.sources ++ t.writes).flatMap fun b => match aget? s.versions b.version with
    | some v => if v.predicted || v.writers.head? == some t.id then [] else v.writers
    | none => []).filter fun k => (s.task k).any fun u => decide (u.admittedAt < t.admittedAt)

/-- The uncommitted speculative tasks whose versions a task reads, its predicted span apart. -/
def State.specSources (s : State) (t : Task) : List Task := ((s.sourceTasks t).filterMap s.task).filter (·.uncommitted)

/-- A version that task `k` may observe: its writer is not an uncommitted speculative task, which no other observes before it commits, unless `k` is in
that task's chain (R383, R394).
(DEDUCED, log 49) -/
def State.observes (s : State) (k : Nat) (v : Version) : Bool :=
  match v.writers.head?.bind s.task with
  | some w => !w.uncommitted || (s.task k).any fun t => (s.specSources t).any fun u => u.id == w.id
  | none => true

/-- A version begins as a copy of the version it replaces, as that stands now (R366): a line under an earlier version that has not itself begun, or that
its task may not observe (R394), is what that version replaces.
(DEDUCED, log 46) -/
def State.startVersion (s : State) (k : Nat) : State :=
  match aget? s.versions k with
  | none => s
  | some v =>
    if v.started then s
    else
      let vs := (s.versionsOf v.die v.owner).filter fun u => u.started && decide (u.key < k) && s.observes (v.writers.headD 0) u
      let s := (linesIn v.lo v.hi).foldl (fun s l =>
        match s.linePlace v.die v.owner vs l with
        | (some (pa, zor), s) => s.copyLine v.owner zor pa false (v.pa + (l - v.lo) * 128)
        | (none, s) => s) s
      s.modVersion k fun v => { v with started := true }

/-- The versions that task `k` received. -/
def State.ownVersions (s : State) (k : Nat) : List Version := (s.versions.map (·.2)).filter fun v => !v.predicted && v.writers.head? == some k

/-- Every version that task `k` received begins.
(DEDUCED, log 46) -/
def State.startVersions (s : State) (k : Nat) : State := (s.ownVersions k).foldl (fun s v => s.startVersion v.key) s

/-- A task has retired, or is no longer known. -/
def State.gone (s : State) (k : Nat) : Bool :=
  match s.task k with
  | some t => t.phase == .retired
  | none => true

/-- A version may go into home memory (R366): its writers, its readers and the readers of what it replaced have retired, and no earlier version of its lines
is left.
(DEDUCED, log 46) -/
def State.folds (s : State) (v : Version) : Bool :=
  !v.predicted && (v.writers ++ v.readers ++ v.after).all s.gone
    && !(s.versionsOf v.die v.owner).any fun u => decide (u.key < v.key) && meets (u.lo, u.hi) (v.lo, v.hi)

/-- A write that reaches memory after its task made it, at a place that has been sealed since or given to a region, is not performed and goes to the
Umpire (R351, R423, R425), as one of the first context of the task's first instance.
(DEDUCED, log 52) -/
def State.lateWrite (s : State) (owner keyBase va pa n : Nat) (f : State → State) : State :=
  match s.guardPa pa n true with
  | some (.violation code pa target) =>
    s.violate none { code := code, master := .ctx keyBase 0, die := homeDie pa, cluster := 0, owner := owner, target := target, va := va, pa := pa, ident := 0, lanes := 0 }
  | _ => f s

/-- A version goes into home memory (R366). A line that no page maps has no home and is dropped.
(DEDUCED, log 46) -/
def State.foldVersion (s : State) (v : Version) : State :=
  let base := ((v.writers.head?.bind s.task).map (·.keyBase)).getD 0
  let s := if v.started then
      (linesIn v.lo v.hi).foldl (fun s l =>
        match s.homeLine v.die v.owner l with
        | (some (pa, zor), s) => s.lateWrite v.owner base (l * 128) pa 128 fun s => s.copyLine v.owner false (v.pa + (l - v.lo) * 128) zor pa
        | (none, s) => s) s
    else s
  { s with versions := adel s.versions v.key }

/-- Every version that may folds (R366). -/
def foldAll : Nat → State → State
  | 0, s => s
  | f + 1, s => match s.versions.find? fun p => s.folds p.2 with
    | some p => foldAll f (s.foldVersion p.2)
    | none => s

/-- VERSION_FOLD (R366): version a folds, if it may.
(DEDUCED, log 46) -/
def evVersionFold (s : State) : Outcome State Fault Refusal :=
  .next (match aget? s.versions s.operand.a with
    | none => s
    | some v => if s.folds v then s.foldVersion v else s)

/-! ## Discarded versions (R367, R390) -/

/-- A binding to a version that is gone, over the earlier versions that a list holds.
(DEDUCED, log 46) -/
def rebind (vs : List Version) (k : Nat) (b : Binding) : List Binding :=
  if b.version ≠ k then [b]
  else
    let vs := vs.filter fun v => decide (v.key < k)
    let cuts := vs.flatMap fun v => [v.lo, v.hi]
    (segments cuts (cuts.length + 1) b.lo b.hi).filterMap fun x => (versionAt vs x.1).map fun v => ⟨x.1, x.2, v.key⟩

/-- The tasks of the tables that the given bindings tie to a version. -/
def State.boundTo (s : State) (f : Task → List Binding) (k : Nat) : List Nat :=
  (s.tasks.filter fun t => t.2.phase != TaskPhase.retired && (f t.2).any fun b => b.version == k).map (·.1)

/-- A version is discarded: the tasks bound to it take the version before it (R367).
(DEDUCED, log 46) -/
def State.discard (s : State) (k : Nat) : State :=
  match aget? s.versions k with
  | none => s
  | some v =>
    let s := { s with versions := adel s.versions k }
    if v.predicted then { s with tasks := s.tasks.map fun (p : Nat × Task) => (p.1, { p.2 with reads := p.2.reads.filter fun b => b.version != k }) }
    else
      let vs := s.versionsOf v.die v.owner
      let s := { s with tasks := s.tasks.map fun (p : Nat × Task) =>
        (p.1, { p.2 with reads := p.2.reads.flatMap (rebind vs k), writes := p.2.writes.flatMap (rebind vs k) }) }
      { s with versions := s.versions.map fun (p : Nat × Version) =>
          if p.2.predicted then p
          else (p.1, { p.2 with readers := (s.boundTo (·.reads) p.1).foldl addNew p.2.readers
                                writers := (s.boundTo (·.writes) p.1).foldl addNew p.2.writers }) }

/-- A killed task's versions are discarded (R367); a version that it only wrote in place stays.
(DEDUCED, log 46) -/
def State.dropVersions (s : State) (k : Nat) : State :=
  let s := (s.ownVersions k).foldl (fun s v => s.discard v.key) s
  { s with versions := s.versions.map fun p => (p.1, { p.2 with writers := p.2.writers.filter (· != k) }) }

/-! ## Squash and re-run (R367, R390, R391) -/

/-- The predicted version of a task is freed.
(DEDUCED, log 46) -/
def State.freePredicted (s : State) (k : Nat) : State :=
  match (s.task k).bind (·.predicted) with
  | some v => (s.discard v).modTask k fun t => { t with predicted := none }
  | none => s

/-- The traps of a task's agents that are held go (R390). -/
def State.dropHeld (s : State) (k : Nat) : State :=
  { s with squads := s.squads.map fun p => (p.1, { p.2 with ctxs := p.2.ctxs.map fun cx =>
      { cx with pending := cx.pending.filter fun z => z.task != k } }) }

/-- The vote records of the teams of some squads go, a merged record with any part of theirs among them (R390).
(DEDUCED, log 49) -/
def State.dropVotes (s : State) (qs : List Nat) : State :=
  { s with squads := s.squads.map fun p => (p.1, { p.2 with ctxs := p.2.ctxs.map fun cx =>
      { cx with votes := cx.votes.filter fun v => !v.squads.any qs.contains
                partials := cx.partials.filter fun x => !x.dests.any fun d => qs.contains d.1 } }) }

/-- The teams of other squads that the contexts of some squads own are frozen no longer by them. -/
def State.thawOwned (s : State) (qs : List Nat) : State :=
  { s with squads := s.squads.map fun p => (p.1, { p.2 with teams := p.2.teams.zipIdx.map fun x =>
      if (x.1.owner.any fun o => qs.contains o.1) && !s.stillNamed (.descent p.1 x.2) then { x.1 with frozen := false } else x.1 }) }

/-- The instances of a task end, and it waits to run again from its start with its versions reset and its channel entries no longer owning (R367,
R390). -/
def State.restart (s : State) (k : Nat) : State :=
  let qs := (s.squadsOf k).map (·.1)
  let s := qs.foldl State.reclaim { s with streams := s.streams.filter fun b => b.1 != k }
  let s := (s.ownVersions k).foldl (fun s v => s.modVersion v.key fun v => { v with started := false }) ((s.dropVotes qs).thawOwned qs)
  s.modTask k fun t =>
    { t with phase := .waiting, placed := 0, exited := [], requeue := [], killed := false, endCode := 0, endCause := 0, endInfo := []
             overlay := [], heldV := [], heldT := [] }

/-- The speculative tasks, not yet committed, that read a version which one of the listed tasks writes (R390, R391). -/
def State.specReaders (s : State) (ks : List Nat) : List Nat :=
  (s.tasks.filter fun p => p.2.uncommitted && (s.sourceTasks p.2).any ks.contains).map (·.1)

/-- The speculative tasks, not yet committed, whose producer is one of the listed tasks: with a squashed producer they fail (R387, R388). -/
def State.specHeirs (s : State) (ks : List Nat) : List Nat :=
  (s.tasks.filter fun p => p.2.uncommitted && p.2.producer.any ks.contains).map (·.1)

/-- The listed tasks and every task that reads from one of them or from whose prediction one is judged, transitively (R388, R390).
(DEDUCED, log 49) -/
def State.squashSet (s : State) : Nat → List Nat → List Nat
  | 0, ks => ks
  | f + 1, ks => squashSet s f ((s.specReaders ks ++ s.specHeirs ks).foldl addNew ks)

/-- One task is squashed (R390): what it buffered and held is discarded, and it is re-queued as a task that is not speculative.
(DEDUCED, log 49) -/
def State.squashOne (s : State) (k : Nat) : State :=
  (((s.freePredicted k).restart k).dropHeld k).modTask k fun t =>
    { t with spec := false, specPhase := .none, depth := 0, producer := none, pspan := none, rerun := min 255 (t.rerun + 1), front := 1 }

/-- The listed tasks are squashed, with every speculative task that read a version of one (R390). Of the listed, only those that are uncommitted and not
killed, for a killed one retires (R391). -/
def State.squash (s : State) (ks : List Nat) : State :=
  ((s.squashSet s.tasks.length ks).filter fun k => (s.task k).any fun t => t.uncommitted && !t.killed).foldl State.squashOne s

end Sys2Proof.Machine
end

