-- ==== Sys2Proof/Machine/TaskRec.lean ====
section
/-! DEFINITION. Task records (18_die_tasks.md R361 to R364; 19_die_speculation.md R377 to R383): their fields and checks, the scoreboards (R369 to
R371), the predictor entries, and admission. -/

namespace Sys2Proof.Machine

/-! ## Fields (R361, R380) -/

/-- PRIO. -/
def Task.prio (t : Task) : Nat := field64 (t.word 3) 0 3
/-- SPEC of the record. -/
def Task.specBit (t : Task) : Bool := (t.word 3).getLsbD 4
/-- EXCL.
(DEDUCED, log 51) -/
def Task.excl (t : Task) : Bool := (t.word 3).getLsbD 5
/-- LEGACY.
(DEDUCED, log 51) -/
def Task.legacy (t : Task) : Bool := (t.word 3).getLsbD 6
/-- SCORE. -/
def Task.score (t : Task) : Bool := (t.word 3).getLsbD 7
/-- STEP. -/
def Task.step (t : Task) : Nat := field64 (t.word 3) 20 16
/-- SB. -/
def Task.sb (t : Task) : Nat := field64 (t.word 3) 40 4
/-- X. -/
def Task.px (t : Task) : Nat := field64 (t.word 3) 44 10
/-- Y. -/
def Task.py (t : Task) : Nat := field64 (t.word 3) 54 10
/-- Lanes of a team. -/
def Task.lanes (t : Task) : Nat := field64 (t.word 2) 32 10 + 1
/-- Group width. -/
def Task.gw (t : Task) : Nat := 16 * 2 ^ field64 (t.word 2) 42 2
/-- Registers of a lane. -/
def Task.regs (t : Task) : Nat := (field64 (t.word 2) 44 4 + 1) * 8
/-- KiB of tile store that a squad claims. -/
def Task.tilesKib (t : Task) : Nat := field64 (t.word 2) 48 12
/-- PRED of a span. -/
def Task.predBit (t : Task) (i : Nat) : Bool := (t.word i).getLsbD 63
/-- The element type of the prediction (R380). -/
def Task.etype (t : Task) : NumTy := (NumTy.ofCode (field64 (t.word 6) 8 5)).getD .f32
/-- MODE. -/
def Task.specMode (t : Task) : Nat := field64 (t.word 6) 6 2
/-- KIND. -/
def Task.specKind (t : Task) : Nat := field64 (t.word 6) 4 2
/-- NELEM. -/
def Task.nelem (t : Task) : Nat := field64 (t.word 6) 24 24
/-- The record word at which the predicted read span begins (RSPAN). -/
def Task.rspan (t : Task) : Nat := 8 + 2 * field64 (t.word 6) 0 3
/-- The record carries a prediction (R381). -/
def Task.predicts (t : Task) : Bool := t.word 6 != 0 || t.word 7 != 0

/-- A record of 256 bytes as its 32 words. -/
def recordWords (bs : List Byte) : List DWord := (upTo 32).map fun k => BitVec.ofNat 64 (ofBytes ((bs.drop (8 * k)).take 8))

/-! ## The checks (R361, R363 step 2) -/

/-- Bytes of a block type's layout from an address (R244, R381). -/
def blockLayout (base n : Nat) (t : NumTy) : Nat := (base + n * t.width / 8 + 127) / 128 * 128 - base + n / 32

/-- SPECA breaks R380 or R381. -/
def specABad (t : Task) : Bool :=
  let a := t.word 6
  let code := field64 a 8 5
  let codes : List Nat := [0x0A, 0x08, 0x09, 0x0C, 0x0D, 0x0E, 0x0F, 0x10, 0x11, 0x12, 0x13, 0x14]
  let ty := t.etype
  let len := t.spanLen t.rspan
  field64 a 48 16 != 0 || field64 a 14 10 != 0 || a.getLsbD 3 || !codes.contains code || t.specMode == 3 || t.specKind == 3
    || decide (5 < field64 a 0 3)
    || (if ty.isBlock then t.nelem == 0 || t.nelem % 32 != 0 || len != blockLayout (t.spanBase t.rspan) t.nelem ty || (t.specMode == 2 && ty == .ds8)
        else t.nelem != 0 || len % (ty.width / 8) != 0)

/-- SPECT breaks R381: its high half is zero, and a tolerance is finite and not negative. -/
def specTBad (t : Task) : Bool :=
  let v := field64 (t.word 7) 0 32
  field64 (t.word 7) 32 32 != 0
    || (t.specMode != 2 && (fieldN v 23 8 == 255 || (v.testBit 31 && v != 2 ^ 31)))

/-- The fields of a span that break R361 or R377, as byte offsets from its first byte. -/
def spanBad (t : Task) (i : Nat) : Option Nat :=
  if 20 ≤ i ∧ t.predBit i ∧ 2 ^ 20 < t.spanLen i then some 0
  else if field64 (t.word i) 56 7 ≠ 0 ∨ (i < 20 ∧ t.predBit i) then some 7
  else if field64 (t.word (i + 1)) 40 24 ≠ 0 then some 13
  else none

/-- The byte offset of the first field of a record that breaks R361, R377, R380 or R381.
(DEDUCED, log 51) -/
def recordBad (t : Task) : Option Nat :=
  let sh := t.word 2
  let ct := t.word 3
  let checks : List (Bool × Nat) :=
    [(field64 (t.word 0) 0 3 != 0, 0),
     (field64 sh 42 2 != 3 && t.lanes % t.gw != 0, 20),
     (field64 sh 42 2 == 3, 21),
     (decide (2048 < t.tilesKib), 22),
     (field64 sh 60 4 != 0, 23),
     (ct.getLsbD 3, 24),
     (ct.getLsbD 39, 28),
     (!t.score && field64 ct 40 14 != 0, 29),
     (!t.score && t.py != 0, 30),
     (field64 (t.word 4) 48 16 != 0, 38),
     (field64 (t.word 5) 0 8 != 0, 40),
     (if t.specBit then t.predicts && specABad t else t.word 6 != 0, 48),
     (if t.specBit then t.predicts && specTBad t else t.word 7 != 0, 56)]
  ((checks.find? (·.1)).map (·.2)).orElse fun _ =>
    (readSpans ++ writeSpans).findSome? fun i => (spanBad t i).map fun o => 8 * i + o

/-! ## Scoreboards (R369 to R371) -/

/-- The stencil offsets by mask bit. -/
def stencil : List (Int × Int) := [(-1, 0), (0, -1), (-1, -1), (1, -1), (-2, 0), (0, -2), (-2, -1), (-1, -2)]

/-- The stencil offsets that a scoreboard uses. -/
def Scoreboard.offsets (b : Scoreboard) : List (Int × Int) := (stencil.zipIdx.filter fun x => b.mask.testBit x.2).map (·.1)

/-- A position lies inside the bounds. -/
def Scoreboard.inside (b : Scoreboard) (x y : Int) : Bool :=
  decide (0 ≤ x) && decide (x < b.width) && decide (0 ≤ y) && decide (y < b.height)

/-- The place of a position in the list of counters. -/
def Scoreboard.place (b : Scoreboard) (x y : Nat) : Nat := y * b.width + x

/-- The counter of a position.
(DEDUCED, log 48) -/
def Scoreboard.counter (b : Scoreboard) (x y : Nat) : Nat :=
  (b.offsets.filter fun o => b.inside (x + o.1) (y + o.2)).length - aget 0 b.dec (b.place x y)

/-- The scoreboard with the counter of a place decremented.
(DEDUCED, log 48) -/
def Scoreboard.lower (b : Scoreboard) (i : Nat) : Scoreboard := { b with dec := asetD 0 b.dec i (aget 0 b.dec i + 1) }

/-- The successors of a position (R370). -/
def Scoreboard.successors (b : Scoreboard) (x y : Nat) : List (Nat × Nat) :=
  (b.offsets.map fun o => ((x : Int) - o.1, (y : Int) - o.2)).filterMap fun p =>
    if b.inside p.1 p.2 then some (p.1.toNat, p.2.toNat) else none

/-- The report of SCORE_UNDERFLOW to an owner (R371): the scoreboard, the successor and the retiring position.
(DEDUCED, log 48) -/
def underflowReport (owner sb x y qx qy : Nat) : List Byte :=
  toBytes 1 Cause.scoreUnderflow.code ++ toBytes 2 owner ++ toBytes 1 sb ++ toBytes 2 x ++ toBytes 2 y ++ toBytes 2 qx ++ toBytes 2 qy

/-- Retires a position: every successor's counter goes down, and a counter at zero stays there and is reported (R370, R371).
(DEDUCED, log 48) -/
def State.scoreRetire (s : State) (d sb x y : Nat) : State :=
  match aget? (s.die d).boards sb with
  | none => s
  | some b =>
    (b.successors x y).foldl (fun s p =>
      match aget? (s.die d).boards sb with
      | none => s
      | some b =>
        if b.counter p.1 p.2 = 0 then s.event (underflowReport b.owner sb p.1 p.2 x y)
        else s.modDie d fun k => { k with boards := aset k.boards sb (b.lower (b.place p.1 p.2)) }) s

/-- An admitted task of a die names a scoreboard. -/
def State.boardNamed (s : State) (d sb : Nat) (f : Task → Bool) : Bool :=
  s.tasks.any fun p => p.2.die == d && p.2.phase != TaskPhase.retired && p.2.score && p.2.sb == sb && f p.2

/-- The record fails step 3 of R363. -/
def State.scoreBad (s : State) (t : Task) : Bool :=
  t.score && (match aget? (s.die t.die).boards t.sb with
    | none => true
    | some b => b.owner != t.owner || !b.inside t.px t.py || s.boardNamed t.die t.sb fun u => u.px == t.px && u.py == t.py)

/-- The task's position lets it become ready (R371, R372). -/
def State.scoreReady (s : State) (t : Task) : Bool :=
  !t.score || (match aget? (s.die t.die).boards t.sb with
    | some b => b.counter t.px t.py == 0
    | none => false)

/-! ## Predictor entries (R378) -/

/-- The predictable spans of a task, as record words. -/
def Task.predSpans (t : Task) : List Nat := writeSpans.filter fun i => t.spanLen i != 0 && t.predBit i

/-- An entry's key. -/
def Predictor.hasKey (p : Predictor) (owner base len : Nat) : Bool := p.owner == owner && p.base == base && p.len == len

/-- The entry for a key, made when there is none in place of the one updated least recently.
(DEDUCED, log 49) -/
def Die.predictorAdd (d : Die) (owner base len now : Nat) : Die :=
  if d.predictor.any (·.hasKey owner base len) then d
  else
    let l := if d.predictor.length < 1024 then d.predictor
      else match leastBy (·.used) d.predictor with
        | some p => d.predictor.filter (· != p)
        | none => d.predictor
    { d with predictor := l ++ [{ owner := owner, base := base, len := len, used := now }] }

/-! ## Admission (R363, R382, R383) -/

/-- The speculative tasks, not yet committed, among a list of ids. -/
def State.specOf (s : State) (ks : List Nat) : List Task :=
  (ks.filterMap s.task).filter fun t => t.spec && t.specPhase != .committed && t.phase != .retired

/-- The potential depth of a SPEC task with the given dependences (R382). -/
def State.potential (s : State) (deps : List Nat) : Nat := 1 + ((s.specOf deps).map (·.potDepth)).foldl max 0

/-- The predicted dependence of a task (R383): the producer and its predictable span. -/
def State.producerOf (s : State) (t : Task) : Option (Nat × (Nat × Nat)) :=
  let i := t.rspan
  if !t.spec || !t.predicts || t.spanLen i == 0 then none
  else
    let rl := t.spanLines i
    match latest ((s.table t.die t.owner).filter fun e => (e.lineSpans writeSpans).any (meets rl)) with
    | none => none
    | some e =>
      (e.predSpans.find? fun j =>
        decide (e.spanBase j ≤ t.spanBase i) && decide (t.spanBase i + t.spanLen i ≤ e.spanBase j + e.spanLen j)
          && !(t.lineSpans writeSpans).any (meets (e.spanLines j))).map fun j => (e.id, (e.spanBase j, e.spanLen j))

/-- The task that a record would become on a die.
(DEDUCED, log 45) -/
def State.draft (s : State) (d : Nat) (record : List DWord) : Task :=
  let n := (s.die d).admitted
  let t : Task := { id := d * 2 ^ 30 + n % 2 ^ 30, die := d, record := record, admittedAt := n }
  { t with spec := t.specBit, level := t.prio }

/-- The dependences that a draft would have.
(DEDUCED, log 45) -/
def State.draftDeps (s : State) (t : Task) : List Nat := (s.bind t).2.deps

/-- A draft joins its die's dependence table (R363, R365): the count of admissions rises, its dependences and versions are fixed, and its
predictable spans take their predictor entries (R378).
(DEDUCED, log 72) -/
def State.admitTask (s : State) (t : Task) : State :=
  let pr := s.producerOf t
  let (s', t) := s.bind t
  let t := { t with potDepth := if t.spec then s.potential t.deps else 0, producer := pr.map (·.1), pspan := pr.map (·.2) }
  let s' := s'.modDie t.die fun d =>
    (t.predSpans.foldl (fun d i => d.predictorAdd t.owner (t.spanBase i) (t.spanLen i) s.serial) { d with admitted := d.admitted + 1 })
  { s' with tasks := aset s'.tasks t.id t, streams := s'.streams.filter (·.1 != t.id), serial := s'.serial + 1 }

end Sys2Proof.Machine
end

