-- ==== Sys2Proof/Machine/Predict.lean ====
section
/-! DEFINITION. When tasks become ready (18_die_tasks.md R372; 19_die_speculation.md R379, R382, R383): predictions, TASK_READY and SPEC_READY. -/

namespace Sys2Proof.Machine

open Host (Outcome)

/-! ## The Lineup's entries (R372) -/

/-- The task stands in its die's Lineup: ready and not wholly placed, or with a pre-empted instance (R375). -/
def Task.inLine (t : Task) : Bool := t.phase == .ready || (t.phase == .running && !t.requeue.isEmpty)

/-- A task enters the Lineup at the level of its PRIO (R372).
(DEDUCED, log 47) -/
def Task.enterLine (t : Task) (now : Nat) : Task := { t with phase := .ready, level := t.prio, entered := now, readyTime := now }

/-- A waiting task's dependences have retired and its position allows it (R372).
(DEDUCED, log 47) -/
def State.isReady (s : State) (t : Task) : Bool := t.phase == .waiting && t.deps.all s.gone && s.scoreReady t

/-- TASK_READY (R372): task a, whose dependences have retired and whose position allows it, enters the Lineup.
(DEDUCED, log 47) -/
def evTaskReady (s : State) : Outcome State Fault Refusal :=
  .next (match s.task s.operand.a with
    | some t =>
      if s.isReady t then s.modTask t.id fun t => t.enterLine s.now else s
    | none => s)

/-! ## Predictions (R379) -/

/-- The exact predicted value from the newer and the older element. -/
def predictVal (kind : Nat) (a b : XVal) : XVal :=
  let sub (x y : XVal) : XVal := (xadd (Rnd.ofCode 0) x y.negate).1
  match kind with
  | 0 => if a.isNan then .nan false else a
  | 1 => if a.isNan || b.isNan then .nan false else sub (a.scale2 1) b
  | _ => if a.isNan || b.isNan then .nan false else (xadd (Rnd.ofCode 0) a ((sub a b).scale2 (-1))).1

/-- Element `i` of a span of a task's element type held as bytes from virtual address `base`: its value with its scale code. -/
def Task.elemOf (t : Task) (base : Nat) (bs : List Byte) (i : Nat) : XVal × Nat :=
  let ty := t.etype
  if ty.isBlock then
    let n := ofBytes ((bs.drop (i / 32 * ty.blockBytes)).take ty.blockBytes)
    let scales := (base + t.nelem * ty.width / 8 + 127) / 128 * 128 - base
    let sc := ofBytes ((bs.drop (scales + i / 32)).take 1)
    (decodeBlk ty ((t.word 6).getLsbD 13) sc (fieldN n (i % 32 * ty.width) ty.width), sc)
  else (ty.decode (ofBytes ((bs.drop (i * (ty.width / 8))).take (ty.width / 8))), 127)

/-- The number of elements of the predicted span (R381). -/
def Task.elemCount (t : Task) : Nat := if t.etype.isBlock then t.nelem else t.spanLen t.rspan / (t.etype.width / 8)

/-- The bytes of a predicted span from the bytes of the last two versions of it (R379). -/
def Task.predictBytes (t : Task) (a b : List Byte) : List Byte :=
  let base := t.spanBase t.rspan
  let ty := t.etype
  let x (i : Nat) : XVal := predictVal t.specKind (t.elemOf base a i).1 (t.elemOf base b i).1
  if ty.isBlock then
    let ks := (upTo (t.nelem / 32)).map fun k =>
      encodeBlock ty ((upTo 32).map fun j => x (32 * k + j)) (Rnd.ofCode 0) (Ovf.ofCode 0) ((t.word 6).getLsbD 13)
    let es := ks.flatMap fun k => packBlock ty k.elems
    let scales := (base + t.nelem * ty.width / 8 + 127) / 128 * 128 - base
    es ++ List.replicate (scales - es.length) 0 ++ ks.map fun k => BitVec.ofNat 8 k.scale
  else (upTo t.elemCount).flatMap fun i => toBytes (ty.width / 8) (roundTo ty (x i) (Rnd.ofCode 0) (Ovf.ofCode 0)).code

/-- The predictor entry of a task's predicted dependence, with the versions that its KIND needs: the bytes of RSPAN within a and b. -/
def State.historyOf (s : State) (t : Task) : Option (List Byte × List Byte) :=
  match t.pspan with
  | none => none
  | some (base, len) =>
    match (s.die t.die).predictor.find? fun p => p.hasKey t.owner base len with
    | none => none
    | some p =>
      let cut (l : List Byte) : List Byte := (l.drop (t.spanBase t.rspan - base)).take (t.spanLen t.rspan)
      match p.a, p.b with
      | some a, some b => some (cut a, cut b)
      | some a, none => if t.specKind = 0 then some (cut a, []) else none
      | none, _ => none

/-! ## Starting (R382, R383) -/

/-- The depth that a task would have (R382). -/
def State.depthOf (s : State) (t : Task) : Nat := 1 + ((s.specSources t).map (·.depth)).foldl max 0

/-- A dependence that does not hold back a speculative start. -/
def State.soft (s : State) (k : Nat) : Bool :=
  match s.task k with
  | some t => t.phase == .retired || (t.phase == .completed && t.uncommitted && !t.killed)
  | none => true

/-- The conditions of R383 on a task that is not ready.
(DEDUCED, log 49) -/
def State.canSpeculate (s : State) (t : Task) : Bool :=
  let lines := (t.spanLines t.rspan).2 - (t.spanLines t.rspan).1
  t.spec && t.specPhase == .none && t.phase == .waiting && !(t.deps.all s.gone)
    && t.deps.all (fun k => t.producer == some k || s.soft k) && s.scoreReady t && decide (s.depthOf t ≤ 3)
    && (match t.producer with
        | some e => !s.gone e && (s.historyOf t).isSome && decide (s.allowanceUsed t.die + lines * 128 ≤ 8 * 2 ^ 20)
        | none => true)

/-- The predicted version of a task is materialised in the rename pool, and its predicted span reads it (R383): bytes of its lines outside the span
are those the task would read there. -/
def State.predict (s : State) (t : Task) (a b : List Byte) : State :=
  let r := t.spanLines t.rspan
  let (s, v) := s.newVersion t.die t.owner t.id r [] true
  let vs := (s.versionsOf t.die t.owner).filter (·.started)
  let pa' := ((aget? s.versions v).map (·.pa)).getD poolBase
  let s := (linesIn r.1 r.2).foldl (fun s l =>
    match s.linePlace t.die t.owner vs l with
    | (some (pa, zor), s) => s.copyLine t.owner zor pa false (pa' + (l - r.1) * 128)
    | (none, s) => s) s
  let s := s.writeMem t.owner false (pa' + (t.spanBase t.rspan - r.1 * 128)) (t.predictBytes a b)
  (s.modVersion v fun v => { v with started := true }).modTask t.id fun t =>
    { t with predicted := some v, reads := ⟨r.1, r.2, v⟩ :: t.reads }

/-- Task `t`, not yet ready, becomes speculatively ready and enters the Lineup (R383).
(DEDUCED, log 49) -/
def State.specStart (s : State) (t : Task) : State :=
  let d := s.depthOf t
  let s := s.modTask t.id fun t => { t.enterLine s.now with specPhase := .pending, depth := d }
  match t.producer, s.historyOf t with
  | some _, some (a, b) => s.predict t a b
  | _, _ => s

/-- SPEC_READY (R383): task a, not yet ready, becomes speculatively ready when its conditions hold.
(DEDUCED, log 49) -/
def evSpecReady (s : State) : Outcome State Fault Refusal :=
  .next (match s.task s.operand.a with
    | some t => if s.canSpeculate t then s.specStart t else s
    | none => s)

/-- The tasks, in the order of their admission. -/
def State.byAdmission (s : State) : List Nat := ((s.tasks.map (·.2)).mergeSort fun a b => decide (a.admittedAt ≤ b.admittedAt)).map (·.id)

/-- Every task that is ready by now enters the Lineup, and every one that is speculatively ready by now starts (R372, R383: each at the first instant
of its conditions).
(DEDUCED, log 47) -/
def State.wakeTasks (s : State) : State :=
  s.byAdmission.foldl (fun s k => match s.task k with
    | some t => if s.isReady t then s.modTask k fun t => t.enterLine s.now else if s.canSpeculate t then s.specStart t else s
    | none => s) s

/-- A draft is admitted, and the tasks that its admission lets be ready are (R363, R372). -/
def State.admitReady (s : State) (t : Task) : State := (s.admitTask t).wakeTasks

end Sys2Proof.Machine
end

