-- ==== Sys2Proof/Machine/TaskWord.lean ====
section
/-! DEFINITION. The generator words of tasks and scoreboards (18_die_tasks.md R362, R363, R368 to R370; 19_die_speculation.md R393): TSPAWN, TWAIT,
TSCORE, TRETIRE, SPECQ, SPECHOLD. -/

namespace Sys2Proof.Machine

open Host (Outcome)

/-- The words of R385 that wait for the commit of a speculative task. -/
def GenIn.afterCommit (x : GenIn) (f : GenRes) : GenRes := if x.s.speculative x.sq then .wait .spec x.s else f

/-- RESERVED_FIELD at a byte offset of a record (R363).
(DEDUCED, log 21) -/
def recordTrap (s : State) (off : Nat) : GenRes := .trap .reservedField [BitVec.ofNat 64 off, 0, 0, 0] s

/-- The checks of R363 on a draft, in order, and its admission, for which the context waits with the record that the word has read. -/
def GenIn.spawn (x : GenIn) (s : State) (dReg : Nat) (t : Task) : GenRes :=
  if t.owner ≠ s.ownerOf x.sq then x.violation s 5 0 0 t.owner
  else match recordBad t with
    | some off => recordTrap s off
    | none =>
      if s.scoreBad t then recordTrap s 24
      else
        let pot := s.potential (s.draftDeps t)
        if t.spec ∧ 4 ≤ pot then .trap .specLimit [BitVec.ofNat 64 pot, 0, 0, 0] s
        else if 64 ≤ x.cx.tasks.length then .trap .taskSetOverflow [] s
        else if 8192 ≤ s.tableUsed t.die then .wait (.admission t.die t.record) s
        else .done ((s.admitReady t).modCtx x.q x.c fun cx => { cx.setS dReg (BitVec.ofNat 64 t.id) with tasks := cx.tasks ++ [t.id] })

/-- TSPAWN (R362, R363). After a wait for an entry of the dependence table the word goes on with the record that it read at issue. -/
def execTspawn (w : GR) (s : State) : Outcome State Fault Refusal :=
  genRun (.tspawn w) w.cnd (fun x =>
    let va := (x.rd.S w.a.toNat).toNat
    let d := if w.fn.getLsbD 2 then fieldN w.fn.toNat 0 2 else dieOf x.sq.cluster
    x.afterCommit (match x.cx.spawning with
      | some r => let s := x.s.modCtx x.q x.c fun cx => { cx with spawning := none }
                  GenIn.spawn { x with s := s, cx := { x.cx with spawning := none } } s w.d.toNat (s.draft d r)
      | none => x.addrCheck va 64 7 false false (x.readSpan x.s va 256 fun bs s =>
          x.spawn s w.d.toNat (s.draft d (recordWords bs))))) s

/-! ## TWAIT (R368) -/

/-- The status word of a task. -/
def Task.status (t : Task) : DWord :=
  BitVec.ofNat 64 (t.recix * 2 ^ 56 + t.rdie * 2 ^ 54 + t.endCode * 2 ^ 40 + (if t.endCode = 1 then t.endCause else 0) * 2 ^ 32 + t.id)

/-- A task has retired and stands by to be collected. -/
def State.retired (s : State) (k : Nat) : Option Task :=
  match s.task k with
  | some t => if t.phase = .retired then some t else none
  | none => none

/-- Collecting a task: its status goes to D and it leaves the set. It is a DEVICE-scope acquire of the retirement. -/
def GenIn.collect (x : GenIn) (d : Nat) (t : Task) : GenRes :=
  .done ((x.s.modCtx x.q x.c fun cx =>
    { cx.setS d t.status with tasks := cx.tasks.filter (· != t.id), cc := ccZ false }).l1Clear x.sq.cluster)

/-- Nothing to collect: 0 goes to D. -/
def GenIn.none0 (x : GenIn) (d : Nat) : GenRes := x.finish { x.cx.setS d 0 with cc := ccZ true }

/-- TWAIT and TWAIT.NB (R368). -/
def execTwait (w : GR) (s : State) : Outcome State Fault Refusal :=
  genRun (.twait w) w.cnd (fun x =>
    let k := (x.rd.S w.a.toNat).toNat
    if !x.cx.tasks.contains k then .trap .reservedField [] x.s
    else match x.s.retired k with
      | some t => x.collect w.d.toNat t
      | none => if w.fn.getLsbD 1 then x.none0 w.d.toNat else .wait (.twait (some k)) x.s) s

/-- TWAIT.ANY (R368): of the set, the task that retired first. -/
def execTwaitAny (w : GR) (s : State) : Outcome State Fault Refusal :=
  genRun (.twaitAny w) w.cnd (fun x =>
    if x.cx.tasks.isEmpty then x.none0 w.d.toNat
    else match leastBy (·.retiredAt) (x.cx.tasks.filterMap x.s.retired) with
      | some t => x.collect w.d.toNat t
      | none => if w.fn.getLsbD 1 then x.none0 w.d.toNat else .wait (.twait none) x.s) s

/-! ## TSCORE and TRETIRE (R369, R370) -/

/-- The die of a generator word. -/
def GenIn.die (x : GenIn) : Nat := dieOf x.sq.cluster

/-- Goes on unless the scoreboard is bound to another owner. -/
def GenIn.withBoard (x : GenIn) (sb : Nat) (f : GenRes) : GenRes :=
  match aget? (x.s.die x.die).boards sb with
  | some b => if b.owner ≠ x.s.ownerOf x.sq then x.violation x.s 4 0 0 b.owner else f
  | none => f

/-- TSCORE (R369).
(DEDUCED, log 48) -/
def execTscore (w : GR) (s : State) : Outcome State Fault Refusal :=
  genRun (.tscore w) w.cnd (fun x =>
    let sb := fieldN w.imm.toNat 0 4
    let v := x.rd.S w.a.toNat
    let b : Scoreboard :=
      { owner := x.s.ownerOf x.sq, width := field64 v 0 10 + 1, height := field64 v 16 10 + 1, mask := field64 v 32 8 }
    x.afterCommit (
      if field64 v 10 6 ≠ 0 ∨ field64 v 26 6 ≠ 0 ∨ field64 v 40 24 ≠ 0 then .trap .reservedField [] x.s
      else x.withBoard sb (
        if x.s.boardNamed x.die sb fun _ => true then .trap .reservedField [] x.s
        else .done (x.s.modDie x.die fun d => { d with boards := aset d.boards sb b })))) s

/-- TSCORE.FREE (R369).
(DEDUCED, log 48) -/
def execTscoreFree (w : GR) (s : State) : Outcome State Fault Refusal :=
  genRun (.tscoreFree w) w.cnd (fun x =>
    let sb := fieldN w.imm.toNat 0 4
    x.afterCommit (x.withBoard sb (
      if x.s.boardNamed x.die sb fun _ => true then .trap .reservedField [] x.s
      else .done (x.s.modDie x.die fun d => { d with boards := adel d.boards sb })))) s

/-- TRETIRE (R370): the task's own position. The tasks that this makes ready become so at once (R371, R372).
(DEDUCED, log 48) -/
def execTretire (w : GR) (s : State) : Outcome State Fault Refusal :=
  genRun (.tretire w) w.cnd (fun x =>
    x.afterCommit (match x.s.task x.sq.task with
      | some t =>
        if !t.score then .trap .reservedField [] x.s
        else .done ((x.s.scoreRetire t.die t.sb t.px t.py).modTask t.id fun t => { t with retiredPos := true }).wakeTasks
      | none => .trap .reservedField [] x.s)) s

/-- TRETIRE.AT (R370).
(DEDUCED, log 48) -/
def execTretireAt (w : GR) (s : State) : Outcome State Fault Refusal :=
  genRun (.tretireAt w) w.cnd (fun x =>
    let sb := fieldN w.imm.toNat 0 4
    let v := x.rd.S w.a.toNat
    let px := field64 v 0 10
    let py := field64 v 16 10
    x.afterCommit (match aget? (x.s.die x.die).boards sb with
      | none => .trap .reservedField [] x.s
      | some b =>
        if field64 v 10 6 ≠ 0 ∨ field64 v 26 38 ≠ 0 ∨ b.owner ≠ x.s.ownerOf x.sq ∨ !b.inside px py then .trap .reservedField [] x.s
        else .done (x.s.scoreRetire x.die sb px py).wakeTasks)) s

/-! ## SPECQ and SPECHOLD (R393) -/

/-- SPECQ (R393). -/
def execSpecq (w : GR) (s : State) : Outcome State Fault Refusal :=
  genRun (.specq w) w.cnd (fun x =>
    let v := x.s.specState (x.s.taskOf x.sq)
    x.finish { x.cx.setS w.d.toNat (BitVec.ofNat 64 v) with cc := ccZ (v % 8 == 0 || v % 8 == 3) }) s

/-- SPECHOLD (R393): an effect of R385. -/
def execSpechold (w : GR) (s : State) : Outcome State Fault Refusal :=
  genRun (.spechold w) w.cnd (fun x => x.afterCommit (x.finish x.cx)) s

end Sys2Proof.Machine
end

