-- ==== Sys2Proof/Machine/Lineup.lean ====
section
/-! DEFINITION. The Lineup and the distributor (18_die_tasks.md R372 to R376, R448): LINEUP_RISE, TASK_PLACE, QUANTUM_EXPIRY, EXCL_LOAD,
the retirement of tasks (R367, R370, R378): TASK_RETIRE, and the end of squads (09_cluster_generator.md R221; 12_cluster_failures.md R299): SQUAD_EXIT. -/

namespace Sys2Proof.Machine

open Host (Outcome)

/-! ## The Lineup (R372, R373) -/

/-- LINEUP_RISE (R372): task a rises one level, 2 ms after it entered or last rose.
(DEDUCED, log 47) -/
def evLineupRise (s : State) : Outcome State Fault Refusal :=
  .next (match s.task s.operand.a with
    | some t =>
      if t.inLine ∧ t.level < 7 ∧ t.entered + 2000000 ≤ s.now then
        s.modTask t.id fun t => { t with level := t.level + 1, entered := t.entered + 2000000 }
      else s
    | none => s)

/-- The tasks of a die's Lineup.
(DEDUCED, log 47) -/
def State.line (s : State) (d : Nat) : List Task := (s.tasks.map (·.2)).filter fun t => t.die == d && t.inLine

/-- The place of a task within its level (R373): squashed tasks in the order of their admission (R390), then pre-empted instances, the last to return
first (R375), ahead of the rest, which follow the key.
(DEDUCED, log 47) -/
def lineRank (level : List Task) (t : Task) : Nat :=
  if t.front = 1 then t.admittedAt
  else if 2 ≤ t.front then 2 ^ 201 - t.front
  else
    let tm := if t.score then
        ((level.filter fun u => u.score && u.sb == t.sb).map (·.readyTime)).foldl min t.readyTime
      else t.readyTime
    let c := if t.score then 2 ^ 32 + t.sb else t.id
    let u := if t.score then (t.px + t.py) * 2 ^ 20 + t.py * 2 ^ 10 + t.px else 0
    2 ^ 202 + tm * 2 ^ 100 + c * 2 ^ 50 + u

/-- The head of a die's Lineup (R374): a task of which some instances have been placed, until all have; else the head of the highest level that is not
empty.
(DEDUCED, log 47) -/
def State.lineHead (s : State) (d : Nat) : Option Task :=
  let l := s.line d
  (l.find? fun t => t.phase == .ready && t.placed != 0).orElse fun _ =>
    let top := (l.map (·.level)).foldl max 0
    let level := l.filter fun t => t.level == top
    leastBy (lineRank level) level

/-! ## Fitting (R374, R448) -/

/-- What a cluster's cores have in use: granules and scheduler places. -/
abbrev Use := List (Nat × Nat)

/-- The use of a cluster's cores. -/
def State.coreUse (s : State) (cl : Nat) : Use := (upTo 4).map fun k => (s.granules cl k, s.placesUsed cl k)

/-- The use after granules and places are taken on a core, if both are free. -/
def takeCore (u : Use) (k g p : Nat) : Option Use :=
  match u[k]? with
  | some (a, b) => if a + g ≤ 512 ∧ b + p ≤ 32 then some (u.set k (a + g, b + p)) else none
  | none => none

/-- The core, or pair, that R448 gives team `k` of a task, and the use after it. -/
def placeTeam (t : Task) (u : Use) (k : Nat) : Option ((Nat × Bool) × Use) :=
  let p := (t.lanes + 31) / 32
  let g (n : Nat) : Nat := n * t.regs / 8
  if t.legacy then (takeCore u (k / 2 % 4) (g p) (1 - k % 2)).map fun u => ((k / 2 % 4, false), u)
  else
    match takeCore u (k % 4) (g p) 1 with
    | some u => some ((k % 4, false), u)
    | none =>
      if t.lanes ≤ 512 then none
      else
        let e := k % 4 / 2 * 2
        ((takeCore u e (g 16) 1).bind fun u => takeCore u (e + 1) (g (p - 16)) 1).map fun u => ((e, true), u)

/-- The cores of every team of an instance, in order, when all fit. -/
def placeTeams (t : Task) : Nat → Nat → Use → Option (List (Nat × Bool))
  | 0, _, _ => some []
  | n + 1, k, u => match placeTeam t u k with
    | some (c, u) => (placeTeams t n (k + 1) u).map (c :: ·)
    | none => none

/-- KiB of tile store that the squads of a cluster claim, a pre-empted one too (R295). -/
def State.tilesUsed (s : State) (cl : Nat) : Nat :=
  ((s.squads.filter fun p => p.2.cluster == cl).map fun p => ((s.task p.2.task).map (·.tilesKib)).getD 0).sum

/-- An instance of a task, a handler squad or not, fits a cluster: the cores of its teams. -/
def State.fits (s : State) (t : Task) (cl : Nat) (priv : Bool) : Option (List (Nat × Bool)) :=
  if s.ctxRoom cl priv t.ctxCount ∧ s.tilesUsed cl + t.tilesKib ≤ 2048 then placeTeams t t.teamCount 0 (s.coreUse cl) else none

/-- The clusters of a die. -/
def clustersOf (d : Nat) : List Nat := (upTo 44).map (44 * d + ·)

/-- The clusters that an instance fits, none of them held for an EXCL squad.
(DEDUCED, log 50) -/
def State.fitting (s : State) (t : Task) (priv : Bool) : List (Nat × List (Nat × Bool)) :=
  (clustersOf t.die).filterMap fun cl => if (s.cluster cl).excl.isSome then none else (s.fits t cl priv).map fun c => (cl, c)

/-- The cluster that the distributor prefers for a task (R374): the one whose L2 slice holds most lines of its read spans, then the lowest. What an L2
slice holds of a read span is free.
(DEDUCED, log 50) -/
def State.preferred (s : State) (t : Task) (l : List (Nat × List (Nat × Bool))) : Option (Nat × List (Nat × Bool)) :=
  let held (cl : Nat) : Nat := if (t.lineSpans readSpans).isEmpty then 0 else Config.freeNat s.free cl % 2 ^ 40
  leastBy (fun x => (2 ^ 40 - held x.1) * 256 + x.1) l

/-! ## The channel image (R258) -/

/-- What reading the image came to. -/
inductive ImageRes where
  | ok (bs : List Byte)
  | touch (t : Touch)
  | fail (c : Cause)

/-- Reads 256-byte pieces of the image through the owner's page tables. -/
def readImage (d owner : Nat) : Nat → State → Nat → ImageRes × State
  | 0, s, _ => (.ok [], s)
  | n + 1, s, va =>
    if 2 ^ 56 < va + 256 then (.fail .protection, s)
    else match (s.walkRoot d owner va).andThen fun w s => s.judge d owner va { rd := true } w with
      | (.ok x, s) =>
        if !s.backed x.pa || (s.guardPa x.pa 256 false).isSome then (.fail .protection, s)
        else match s.linesCheck owner (pteZor x.leaf) (linesOf x.pa 256) with
          | (.error (.cause c _), s) => (.fail c, s)
          | (.error _, s) => (.fail .protection, s)
          | (.ok _, s) => match readImage d owner n s (va + 256) with
            | (.ok bs, s) => (.ok (s.bytesAt owner (pteZor x.leaf) x.pa 256 ++ bs), s)
            | (r, s) => (r, s)
      | (.error (.touch t), s) => (.touch t, s)
      | (.error (.page _ _), s) => (.fail .pageFault, s)
      | (.error (.cause c _), s) => (.fail c, s)
      | (.error _, s) => (.fail .protection, s)

/-- The entries c1 to c63 of an image, unset ones left out. -/
def imageEntries (bs : List Byte) : List (Nat × List DWord) :=
  ((upTo 64).drop 1).filterMap fun ch =>
    let w (k : Nat) : DWord := BitVec.ofNat 64 (ofBytes ((bs.drop (32 * ch + 8 * k)).take 8))
    let e := [w 0 &&& 0xFFFFFFFFFFF01F3F#64, w 1, w 2, 0]
    if field64 (w 0) 0 2 = 0 then none else some (ch, e)

/-- A task about to be placed has its image; otherwise what its reading leads to (R258). -/
def State.withImage (s : State) (t : Task) (f : State → Task → State) : State :=
  if t.image0.isSome then f s t
  else if t.word 5 = 0 then
    let t := { t with image0 := some [], image := [] }
    f (s.modTask t.id fun _ => t) t
  else match readImage t.die t.owner 8 s (t.word 5).toNat with
    | (.ok bs, s) =>
      let t := { t with image0 := some (imageEntries bs), image := imageEntries bs }
      f (s.modTask t.id fun _ => t) t
    | (.touch x, s) => s.addTouch t.die x
    | (.fail c, s) => s.killTask t.id 1 c.code [BitVec.ofNat 64 c.code]

/-! ## Placing a squad (R14, R27, R77, R209, R210) -/

/-- The lowest squad id that no squad of a cluster has.
(DEDUCED, log 72) -/
def State.freeId (s : State) (cl : Nat) : Nat :=
  ((upTo (s.squads.length + 1)).find? fun i => !s.squads.any fun p => p.2.cluster == cl && p.2.id == i).getD 0

/-- The squad of an instance as it is launched: `priv` and `named` are what the dispatch core gives a handler squad (R294), and 2 MiB of the owner's
memory are pinned for its Playbook (R233).
(DEDUCED, log 72) -/
def State.launch (s : State) (t : Task) (inst cl : Nat) (cores : List (Nat × Bool)) (priv : Bool) (named : Nat) : Squad :=
  let age := (s.cluster cl).nextAge
  let lat := s.tagsNative.find? fun x => x.1 == t.step
  { task := t.id, instance_ := inst, cluster := cl, id := s.freeId cl
    native := lat.isSome, lLane := (lat.map (·.2.1)).getD 0, lGen := (lat.map (·.2.2)).getD 0
    legacy := t.legacy, pinned := 2 ^ 21, claim := t.tilesKib * 8, priv := priv, named := named, gw := t.gw, lanes := t.lanes
    teams := cores.zipIdx.map fun (c, k) => freshTeam t.lanes t.gw t.regs c.1 c.2 (some (t.keyBase + inst, k % t.ctxCount)) (age + k) t.legacy
    ctxs := (upTo t.ctxCount).map fun r => freshCtx r inst (t.word 0) (t.word 1) t.image
    opoint := field64 (t.word 3) 36 3, joinBy := s.operand.w.toNat
    required := (s.cluster cl).requiredPoint (field64 (t.word 4) 0 48) s.now s.operand.w.toNat (field64 (t.word 3) 36 3)
    placed := s.now, quantum := ((aget? s.owners t.owner).map (·.quantum)).getD 1000000 }

/-- The task's first instance takes a range of squad keys, its channel entries take their place in the order of ownership (R259), and its versions begin
(R366). -/
def State.begin (s : State) (k : Nat) : State :=
  match s.task k with
  | some t =>
    ({ s with nextSquad := s.nextSquad + t.insts
              streams := (s.streams.filter fun (b : Nat × List (Nat × List DWord)) => b.1 != k) ++ [(k, t.image)] }.modTask k fun x => { x with keyBase := s.nextSquad }).startVersions k
  | none => s

/-- The next instance of task `k` is placed on a cluster; team owners settle (R259, R260), the cluster keeps no copy older than the start and takes its
point again (R408). -/
def State.placeNext (s : State) (k cl : Nat) (cores : List (Nat × Bool)) (since : Nat) : State :=
  match s.task k with
  | some t =>
    let i := t.placed
    let sq := { s.launch t i cl cores (s.operand.b == 1) s.operand.c with placed := since }
    let s := s.setSquad (t.keyBase + i) sq
    let s := s.modCluster cl fun c => { c with nextAge := c.nextAge + cores.length }
    let s := s.modTask k fun t =>
      { t with placed := i + 1, phase := if t.insts ≤ i + 1 then .running else t.phase, front := if t.insts ≤ i + 1 then 0 else t.front }
    (s.resettle.l1Clear cl).repoint cl
  | none => s

/-! ## Eviction (R375) -/

/-- The PRIO of a squad's task. -/
def State.prioOf (s : State) (sq : Squad) : Nat := ((s.task sq.task).map (·.prio)).getD 0

/-- The distributor asks for a team of a squad, and with it for the squad's contexts.
(DEDUCED, log 25) -/
def State.askTeam (s : State) (q t : Nat) : State :=
  let cyc := s.cycleOf q
  (s.modTeam q t fun tm => { tm with evictReq := true }).modSquad q fun sq =>
    { sq with ctxs := sq.ctxs.map fun cx =>
        if cx.preempted || cx.exited || cx.preemptReq.isSome then cx else { cx with preemptReq := some cyc } }

/-- The state as it will be once every request that stands has been served.
(DEDUCED, log 25) -/
def State.served (s : State) : State :=
  { s with squads := s.squads.map fun p => (p.1, { p.2 with
      teams := p.2.teams.map fun tm => if tm.evictReq then { tm with evicted := true } else tm
      ctxs := p.2.ctxs.map fun cx => if cx.preemptReq.isSome then { cx with preempted := true } else cx }) }

/-- The teams on some clusters that may make room for a level: of squads of lower PRIO, lowest PRIO first, then youngest first. -/
def State.victims (s : State) (cls : List Nat) (level : Nat) : List (Nat × Nat) :=
  let l := s.squads.flatMap fun p =>
    if cls.contains p.2.cluster ∧ !p.2.off ∧ s.prioOf p.2 < level then
      (p.2.teams.zipIdx.filter fun x => !x.1.evicted && !x.1.evictReq).map fun x => ((p.1, x.2), s.prioOf p.2 * 2 ^ 64 + (2 ^ 63 - x.1.age))
    else []
  (l.mergeSort fun a b => decide (a.2 ≤ b.2)).map (·.1)

/-- The shortest beginning of a line of victims, the last one first, that makes room. -/
def enough (ok : List (Nat × Nat) → Bool) : List (Nat × Nat) → List (Nat × Nat) → Option (List (Nat × Nat))
  | got, [] => if ok got then some got else none
  | got, v :: rest => if ok got then some got else enough ok (v :: got) rest

/-- Of the victims that make room only those that are needed, the last ones being spared first (R206, R375). -/
def needed (ok : List (Nat × Nat) → Bool) : List (Nat × Nat) → List (Nat × Nat) → List (Nat × Nat)
  | [], keep => keep
  | v :: rest, keep => if ok (rest ++ keep) then needed ok rest keep else needed ok rest (v :: keep)

/-- Asks for the teams of some clusters that must go for a level's task to fit there, if that makes room (R375).
(DESIGN CHOICE, log 24) -/
def State.makeRoom (s : State) (cls : List Nat) (level : Nat) (ok : State → Bool) : Option State :=
  let ask (vs : List (Nat × Nat)) : State := vs.foldl (fun s v => s.askTeam v.1 v.2) s
  let does (vs : List (Nat × Nat)) : Bool := ok (ask vs).served
  (enough does [] (s.victims cls level)).map fun vs => ask (needed does vs [])

/-- Partial eviction for the head task (R375): lowest PRIO first over the die's clusters, until the task fits one of them.
(DESIGN CHOICE, log 24) -/
def State.evictFor (s : State) (t : Task) (priv : Bool) : State :=
  (s.makeRoom ((clustersOf t.die).filter fun cl => (s.cluster cl).excl.isNone) t.level fun s => !(s.fitting t priv).isEmpty).getD s

/-- A whole squad is asked for (R375).
(DEDUCED, log 25) -/
def State.askSquad (s : State) (q : Nat) : State :=
  match s.squad q with
  | some sq => ((upTo sq.teams.length).foldl (fun s t =>
      if (s.team q t).any (·.evicted) then s else s.askTeam q t) s).modSquad q fun sq =>
        { sq with expired := true, ctxs := sq.ctxs.map fun cx =>
            if cx.preempted || cx.exited || cx.preemptReq.isSome then cx else { cx with preemptReq := some (s.cycleOf q) } }
  | none => s

/-- A squad's quantum has run out (R375). -/
def Squad.spent (sq : Squad) (now : Nat) : Bool := decide (sq.placed + sq.quantum ≤ now)

/-! ## TASK_PLACE (R374 to R376) -/

/-- The scheduler firmware places squads: not during an update of it (R430), nor in the fatal state (R400).
(DESIGN CHOICE, log 70) -/
def State.placing (s : State) : Bool := s.firmware.state == .active && !s.fatal

/-- Pre-empted instance `q` fits its own cluster again, which no other squad has to itself (R375, R376). -/
def State.fitsAgain (s : State) (q : Nat) (sq : Squad) : Bool :=
  let need (k : Nat) : Nat × Nat :=
    let ts := (sq.teams.zipIdx.filter fun x => !x.1.ended && x.1.cores.contains k)
    ((ts.map fun x => x.1.passesOn k * x.1.n / 8).sum, (ts.map fun x => gang (q, x.2, sq, x.1)).eraseDups.length)
  s.ctxRoom sq.cluster sq.priv (sq.ctxs.filter fun cx => !cx.exited).length && !s.exclOther q sq.cluster
    && (upTo 4).all fun k => decide (s.granules sq.cluster k + (need k).1 ≤ 512) && decide (s.placesUsed sq.cluster k + (need k).2 ≤ 32)

/-- The oldest pre-empted instance of a task that stands in the Lineup again. -/
def State.requeued (s : State) (t : Task) : Option (Nat × Squad) :=
  t.requeue.head?.bind fun i => (s.squad (t.keyBase + i)).map fun sq => (t.keyBase + i, sq)

/-- A pre-empted instance goes on with a new quantum.
(DESIGN CHOICE, log 24) -/
def State.resumeSquad (s : State) (k q : Nat) (sq : Squad) : State :=
  ((s.modSquad q fun x => { x with off := false, expired := false, placed := s.now }).modTask k fun t =>
    { t with requeue := t.requeue.filter (· != sq.instance_), front := if t.requeue.length ≤ 1 then 0 else t.front }).repoint sq.cluster

/-- Every squad on a cluster may be pre-empted for a level, and the claims that stay leave room for an instance (R295, R376).
(DEDUCED, log 51) -/
def State.clearable (s : State) (cl level kib : Nat) : Bool :=
  (s.cluster cl).excl.isNone && decide (s.tilesUsed cl + kib ≤ 2048) && s.squads.all fun p =>
    p.2.cluster != cl || p.2.off || decide (s.prioOf p.2 < level) || (s.prioOf p.2 == level && p.2.spent s.now)

/-- The contexts of a squad are asked for, its teams going on with what their buffers hold (R376).
(DEDUCED, log 51) -/
def State.askContexts (s : State) (q : Nat) : State :=
  let cyc := s.cycleOf q
  s.modSquad q fun sq => { sq with expired := true, ctxs := sq.ctxs.map fun cx =>
    if cx.preempted || cx.exited || cx.preemptReq.isSome then cx else { cx with preemptReq := some cyc } }

/-- A team's stream buffer has drained, or cannot drain further: the team is parked or frozen, or waits without time limit (R207, R376). -/
def Team.drained (tm : Team) : Bool := tm.buffer.isEmpty || tm.park.isSome || tm.frozen || tm.wait.any (·.suspends)

/-- The copies of a squad that a unit works on. -/
def State.copying (s : State) (q : Nat) : Bool :=
  s.copies.any fun x => x.2.q == q && (x.2.state == CopyState.queued || x.2.state == CopyState.running)

/-- On a cluster that is being cleared the teams that have drained, of squads whose contexts are saved and whose copies are done, are asked for (R376).
(DEDUCED, log 51) -/
def State.askDrained (s : State) (cl : Nat) : State :=
  { s with squads := s.squads.map fun p =>
      if p.2.cluster == cl && p.2.expired && !p.2.off && !s.copying p.1 && p.2.ctxs.all (fun cx => cx.preempted || cx.exited) then
        (p.1, { p.2 with teams := p.2.teams.map fun tm =>
          if tm.drained && !tm.evicted then { tm with evictReq := true } else tm })
      else p }

/-- A cluster is held for the next instance of an EXCL task and its contexts are asked for (R376).
(DEDUCED, log 51) -/
def State.holdCluster (s : State) (t : Task) : State :=
  if t.keyBase != 0 && s.clusters.any fun c => c.excl == some (t.keyBase + t.placed) then s
  else match (clustersOf t.die).find? fun cl => s.clearable cl t.level t.tilesKib with
    | none => s
    | some cl => s.withImage t fun s t =>
      let s := if t.placed = 0 then s.begin t.id else s
      let key := ((s.task t.id).map fun t => t.keyBase + t.placed).getD 0
      let s := (s.squads.filter fun p => p.2.cluster == cl && !p.2.off).foldl (fun s p => s.askContexts p.1) s
      s.modCluster cl fun c => { c with excl := some key, exclAt := s.now }

/-- TASK_PLACE (R374 to R376): the distributor of die a places one instance of the head task, or makes room for it. Operand b = 1 makes a squad
privileged and c names it a squad, as the dispatch core does for a handler squad (R294, R319); w is the latest finish that meets the task's join
(R408). -/
def evTaskPlace (s : State) : Outcome State Fault Refusal :=
  let priv := s.operand.b == 1
  .next (match s.lineHead s.operand.a with
    | none => s
    | some t =>
      if !s.placing then s
      else match s.requeued t with
      | some (q, sq) =>
        if s.fitsAgain q sq then s.resumeSquad t.id q sq
        else if s.exclOther q sq.cluster then s
        else (s.makeRoom [sq.cluster] t.level (·.fitsAgain q sq)).getD s
      | none =>
        if t.excl then s.holdCluster t
        else match s.preferred t (s.fitting t priv) with
          | some (cl, cores) => s.withImage t fun s t => (if t.placed = 0 then s.begin t.id else s).placeNext t.id cl cores s.now
          | none => s.evictFor t priv)

/-- A head task fits nowhere, as far as cluster `cl` could help it (R375). -/
def State.stuckAt (s : State) (h : Task) (cl : Nat) : Bool :=
  match s.requeued h with
  | some (q, sq) => sq.cluster == cl && !s.fitsAgain q sq
  | none => !h.excl && (s.fitting h false).isEmpty

/-- QUANTUM_EXPIRY (R375): squad a, whose quantum has run out, is asked for in favour of a head task of equal level that fits nowhere; once its
contexts and teams are saved it waits in the Lineup at the head of its level. -/
def evQuantumExpiry (s : State) : Outcome State Fault Refusal :=
  let q := s.operand.a
  .next (match s.squad q with
    | none => s
    | some sq =>
      if sq.off then s
      else if sq.expired then
        if sq.teams.all (·.evicted) && sq.ctxs.all fun cx => cx.preempted || cx.exited then
          let s := (s.modSquad q fun x => { x with off := true }).repoint sq.cluster
          let n := s.serial + 2
          { s with serial := s.serial + 1 }.modTask sq.task fun t =>
            { t with requeue := (t.requeue ++ [sq.instance_]).mergeSort fun a b => decide (a ≤ b)
                     front := n, level := t.prio, entered := s.now }
        else s
      else match s.lineHead (dieOf sq.cluster) with
        | some h => if sq.spent s.now ∧ h.level = s.prioOf sq ∧ s.stuckAt h sq.cluster then s.askSquad q else s
        | none => s)

/-- EXCL_LOAD (R376): on cluster a, once it has stopped and drained and its squads are saved, the dispatch core loads the EXCL instance; its quantum
counts from the stop.
(DEDUCED, log 51) -/
def evExclLoad (s : State) : Outcome State Fault Refusal :=
  let cl := s.operand.a
  let c := s.cluster cl
  .next (match c.excl with
    | none => s
    | some key =>
      if s.squads.any fun p => p.2.cluster == cl && (!p.2.off || s.copying p.1) then s.askDrained cl
      else if !s.placing || (s.squad key).isSome then s
      else match s.tasks.find? fun p => p.2.keyBase + p.2.placed == key && p.2.excl && p.2.phase == TaskPhase.ready with
        | none => s.modCluster cl fun c => { c with excl := none }
        | some (k, t) => match s.fits t cl false with
          | some cores => s.placeNext k cl cores c.exclAt
          | none => s)

/-! ## Retirement (R367, R370, R378) -/

/-- The bytes of a written span of a task as its versions, or home memory, hold them. -/
def State.spanBytes (s : State) (t : Task) (base len : Nat) : List Byte :=
  let lo := base / 128
  let bs := (linesIn lo ((base + len - 1) / 128 + 1)).flatMap fun l =>
    let vs := ((t.writes.filter fun b => decide (b.lo ≤ l) && decide (l < b.hi)).head?.bind fun b => aget? s.versions b.version).toList
    ((s.lineBytes t.die t.owner vs l).1).getD (List.replicate 128 0)
  (bs.drop (base - lo * 128)).take len

/-- The version of a predictable span enters its history (R378). -/
def State.learn (s : State) (t : Task) (i : Nat) : State :=
  let b := t.spanBase i
  let n := t.spanLen i
  let bytes := s.spanBytes t b n
  let put (p : Predictor) : Predictor := if p.hasKey t.owner b n then { p with b := p.a, a := some bytes, used := s.serial } else p
  s.modDie t.die fun d => { d with predictor := d.predictor.map put }

/-- What the owner is told of a trap that ended a task (R286): TRAPCAUSE and the information words after the task's id.
(DESIGN CHOICE, log 69) -/
def endReport (t : Task) : List Byte := toBytes 8 t.id ++ t.endInfo.flatMap fun w => toBytes 8 w.toNat

/-- A task retires (R367, R370): its position retires if it has not, a killed task's versions and held traps go and what read them speculatively is
squashed, any other's predictable spans enter the history; then the versions that may fold do (R366), a launch frame's host hears of it (R405), and the
owner of a trap that ended the task (R286), and the tasks that waited for it become ready (R372, R383).
(DEDUCED, log 23) -/
def State.retireTask (s : State) (t : Task) : State :=
  let s := if t.score && !t.retiredPos then s.scoreRetire t.die t.sb t.px t.py else s
  let s :=
    if t.killed then
      let s := if t.uncommitted then (s.specReaders [t.id]).foldl (fun s k => s.squash [k]) (s.dropHeld t.id) else s
      (s.freePredicted t.id).dropVersions t.id
    else t.predSpans.foldl (fun s i => s.learn t i) s
  let s := { s with serial := s.serial + 1 }.modTask t.id fun t =>
    { t with phase := .retired, retiredAt := s.serial, overlay := [], heldV := [], heldT := [], specPhase := if t.specPhase = SpecPhase.committed then SpecPhase.committed else SpecPhase.none }
  let s := foldAll s.versions.length s
  let s := if t.killed ∧ t.endInfo ≠ [] then s.event (endReport t) else s
  let s := match t.conn with
    | some c => s.send c 8 (toBytes 8 t.status.toNat)
    | none => s
  s.wakeTasks

/-- TASK_RETIRE (R367): task a has completed, and is not a speculative task that has yet to commit, or was killed.
(DEDUCED, log 23) -/
def evTaskRetire (s : State) : Outcome State Fault Refusal :=
  .next (match s.task s.operand.a with
    | some t => if t.phase = .completed ∧ (t.killed ∨ !t.uncommitted) then s.retireTask t else s
    | none => s)

/-! ## The end of squads (R221, R299) -/

/-- An instance of a task has exited; the task completes with its last one (R367).
(DEDUCED, log 23) -/
def Task.exit (t : Task) (i : Nat) : Task :=
  let ex := t.exited ++ [i]
  { t with exited := ex, phase := if t.insts ≤ ex.length ∧ t.phase = .running then .completed else t.phase }

/-- SQUAD_EXIT (R221, R299): squad a exits when its contexts have exited, have delivered what they issued and hold no trap that waits for a commit (R386), its teams have ended and its
copies in QUEUED or RUNNING have completed; the others are cancelled, and everything it holds is reclaimed. A task that reads from one which has completed may then start speculatively (R383).
(DEDUCED, log 23) -/
def evSquadExit (s : State) : Outcome State Fault Refusal :=
  let q := s.operand.a
  .next (match s.squad q with
    | some sq =>
      if sq.ctxs.all (fun cx => cx.exited && cx.pending.isEmpty && cx.seq.isEmpty) && sq.teams.all (·.ended) && !s.copying q then
        ((s.reclaim q).modTask sq.task fun t => t.exit sq.instance_).wakeTasks
      else s
    | none => s)

end Sys2Proof.Machine
end

