-- ==== Sys2Proof/Machine/Spec.lean ====
section
/-! DEFINITION. Speculation (19_die_speculation.md R379 to R391): the validation of predictions, SPEC_VALIDATE and SPEC_COMMIT. -/

namespace Sys2Proof.Machine

open Host (Outcome)

/-! ## Validation (R387, R388) -/

/-- The magnitude of a value. -/
def XVal.mag : XVal → XVal
  | .nan b => .nan b
  | .inf _ => .inf false
  | .zero _ => .zero false
  | .fin _ m e => .fin false m e

/-- The element spacing at a value of a type, as a power of two (R387); `r` is the element without its scale. -/
def spacing (t : NumTy) (r : XVal) : Int :=
  match t.fmt with
  | none => -6
  | some f => match r with
    | .fin _ m e => max (flog2 m e) f.emin - f.mb
    | _ => f.emin - f.mb

/-- An element passes (R387). -/
def Task.passes (t : Task) (p r : XVal) (scale : Nat) : Bool :=
  let le (x y : XVal) : Bool := x.cmp y != .gt
  match p, r with
  | .nan _, _ => false
  | _, .nan _ => false
  | .inf s, .inf u => s == u
  | .inf _, _ => false
  | _, .inf _ => false
  | _, _ =>
    let diff := (xadd (Rnd.ofCode 0) p r.negate).1.mag
    let tol := NumTy.decode .f32 (field64 (t.word 7) 0 32)
    match t.specMode with
    | 0 => le diff tol
    | 1 => le diff (xmul tol r.mag).1
    | _ =>
      let sh : Int := if t.etype.isBlock then (scale : Int) - 127 else 0
      le diff ((XVal.ofInt (field64 (t.word 7) 0 32 : Nat)).scale2 (spacing t.etype (r.scale2 (-sh)) + sh))

/-- The bytes of a task's predicted span as a list of versions, or home memory, holds them. -/
def State.spanView (s : State) (t : Task) (pick : Nat → List Version) : List Byte :=
  let base := t.spanBase t.rspan
  let r := t.spanLines t.rspan
  let bs := (linesIn r.1 r.2).flatMap fun l => ((s.lineBytes t.die t.owner (pick l) l).1).getD (List.replicate 128 0)
  (bs.drop (base - r.1 * 128)).take (t.spanLen t.rspan)

/-- The prediction of a task agrees with what the producer left (R387).
(DEDUCED, log 49) -/
def State.predictionOk (s : State) (t : Task) : Bool :=
  let base := t.spanBase t.rspan
  let p := s.spanView t fun _ => (t.predicted.bind (aget? s.versions)).toList
  let r := s.spanView t fun l =>
    ((t.reads.filter fun b => some b.version != t.predicted && decide (b.lo ≤ l) && decide (l < b.hi)).filterMap fun b => aget? s.versions b.version).take 1
  (upTo t.elemCount).all fun i =>
    let y := t.elemOf base r i
    t.passes (t.elemOf base p i).1 y.1 y.2

/-- A task whose version another read has committed, or was never speculative. -/
def State.settled (s : State) (k : Nat) : Bool :=
  match s.task k with
  | some t => t.phase == .retired || !t.uncommitted
  | none => true

/-- SPEC_VALIDATE (R387, R388): speculative task a fails, when its producer has retired and its prediction does not agree, and is squashed with its
readers; or it is validated.
(DEDUCED, log 49) -/
def evSpecValidate (s : State) : Outcome State Fault Refusal :=
  .next (match s.task s.operand.a with
    | some t =>
      if !t.uncommitted || t.specPhase != .pending || t.killed then s
      else
        let judged := match t.producer with
          | some e => s.gone e
          | none => true
        if !judged then s
        else if t.producer.isSome && !s.predictionOk t then (s.squash [t.id]).wakeTasks
        else if t.deps.all s.settled && (s.specSources t).isEmpty then s.modTask t.id fun t => { t with specPhase := .passed }
        else s
    | none => s)

/-! ## Commit (R389) -/

/-- An agent of a task waits at an effect of R385, or holds a trap (R386).
(DEDUCED, log 49) -/
def State.atEffect (s : State) (t : Task) : Bool :=
  s.heldTraps t.id != 0 || !t.heldV.isEmpty
    || (s.squadsOf t.id).any (fun p => p.2.ctxs.any (fun cx => cx.wait == some .spec) || p.2.teams.any fun tm => tm.wait == some .spec)
    || s.copies.any fun c => c.2.stalled && (s.squadsOf t.id).any fun p => p.1 == c.2.q

/-- The runs of a task's buffered bytes, as addresses and bytes, each within a line. -/
def overlayRuns (l : List (Nat × Byte)) : List (Nat × List Byte) :=
  l.foldr (fun x acc => match acc with
    | (a, bs) :: rest => if a = x.1 + 1 ∧ a % 128 ≠ 0 then (x.1, x.2 :: bs) :: rest else (x.1, [x.2]) :: acc
    | [] => [(x.1, [x.2])]) []

/-- A task's buffered writes drain to memory, and to the copies that the clusters of its squads hold (R257). -/
def State.drain (s : State) (t : Task) : State :=
  let cls := ((s.squadsOf t.id).map fun p => p.2.cluster).foldl addNew []
  (overlayRuns (t.overlay.mergeSort fun a b => decide (a.1 ≤ b.1))).foldl (fun s r =>
    s.lateWrite t.owner t.keyBase 0 r.1 r.2.length fun s => cls.foldl (fun s cl => s.l1Store cl t.owner r.1 r.2) (s.writeMem t.owner true r.1 r.2)) s

/-- The words of a task that waited for its commit go on.
(DESIGN CHOICE, log 39) -/
def State.wakeSpec (s : State) (k : Nat) : State :=
  let qs := (s.squadsOf k).map (·.1)
  let s := { s with copies := s.copies.map fun c => if qs.contains c.2.q then (c.1, { c.2 with stalled := false }) else c }
  qs.foldl (fun s q => s.modSquad q fun sq => { sq with
    ctxs := sq.ctxs.map fun cx => if cx.wait = some .spec then { cx with wait := none } else cx
    teams := sq.teams.map fun tm => if tm.wait = some .spec then { tm with wait := none } else tm }) s

/-- The held traps of a task that end a task at commit, with that task: those of contexts that have exited or gone (R221), and of generator words under
TMASK (R286). -/
def State.fatalHeld (s : State) (k : Nat) : List (Nat × Pending) :=
  (((s.task k).bind fun t => t.heldT.head?).map fun x => (s.lostTask x.1 x.2, x.2)).toList ++ s.squads.filterMap fun p => (p.2.ctxs.findSome? fun cx =>
    cx.pending.find? fun x => x.task == k && (cx.exited || x.masked)).map fun x => (p.2.task, x)

/-- The depths of the uncommitted speculative tasks, each over those before it (R382).
(DEDUCED, log 49) -/
def State.redepth (s : State) : State :=
  s.byAdmission.foldl (fun s k => match s.task k with
    | some t => if t.uncommitted && t.specPhase != .none then s.modTask k fun x => { x with depth := s.depthOf t } else s
    | none => s) s

/-- SPEC_COMMIT (R389): validated task a, unless it was killed, commits once it has completed or an agent of it waits at an effect.
(DEDUCED, log 49) -/
def evSpecCommit (s : State) : Outcome State Fault Refusal :=
  .next (match s.task s.operand.a with
    | some t =>
      if t.specPhase != .passed || !t.uncommitted || t.killed || !(t.phase == .completed || s.atEffect t) then s
      else
        let fatal := s.fatalHeld t.id
        let s := (s.drain t).freePredicted t.id
        let s := s.modTask t.id fun t => { t with specPhase := .committed, depth := 0, overlay := [], heldV := [], heldT := [] }
        let s := t.heldV.foldl (fun s v => s.violate none v) s.redepth
        (fatal.foldl (fun s x => s.trapKill x.1 x.2.cause x.2.causeBits x.2.info) (s.wakeSpec t.id)).wakeTasks
    | none => s)

end Sys2Proof.Machine
end

