-- ==== Sys2Proof/Machine/Security.lean ====
section
/-! DEFINITION. Sealing, the digest log and the Umpire's records (23_package_security.md R419 to R428): SEAL, DIGEST, UMPREL, VIOLATION_RECORD,
SEAL_HASH_DONE, LOG_CONSUME_ADVANCE. -/

namespace Sys2Proof.Machine

open Host (Outcome)

/-! ## Violation records (R421) -/

/-- The 64-byte record of a violation.
(DEDUCED, log 52) -/
def Violation.record (v : Violation) : List Byte :=
  toBytes 1 v.code ++ toBytes 1 v.master.code ++ toBytes 1 v.die ++ toBytes 1 v.cluster ++ toBytes 2 v.owner ++ toBytes 2 v.target
    ++ toBytes 8 v.va ++ toBytes 8 v.pa ++ toBytes 8 v.ident ++ toBytes 8 v.lanes ++ toBytes 8 v.time ++ List.replicate 16 0

/-- The slot of a violation ring that the next record takes. -/
def Die.violSlot (d : Die) : Option Nat := ((upTo 256).map fun i => (d.violNext + i) % 256).find? fun i => (aget? d.viol i).isNone

/-- What the dispatch core is told of a record: die and index.
(DESIGN CHOICE, log 69) -/
def violNotice (d i : Nat) : List Byte := toBytes 1 0xF0 ++ toBytes 1 d ++ toBytes 1 i

/-! ## Release and kill of a master (R422, R438) -/

/-- A suppressed load, atomic or CAS writes zero to its destination for the violating lanes.
(DEDUCED, log 52) -/
def Team.zeroDest (tm : Team) (i : Instr) (m : Mask) : Team :=
  let ty (c : BitVec 5) : NumTy := (NumTy.ofCode (effTy tm.ckEnv c)).getD .i32
  match i with
  | .ldw w | .ldg w => tm.setTy (loadTy (ty w.ty)) w.d.toNat m fun _ => 0
  | .atom w | .cas w => tm.setTy (ty w.ty) w.d.toNat m fun _ => 0
  | .descend w => tm.setV w.d.toNat m fun _ => 0
  | .dleaf w => (upTo (fieldN w.fn.toNat 3 3 + 1)).foldl (fun tm i => tm.setV (w.d.toNat + i) m fun _ => 0) tm
  | _ => tm

/-- The violating word of a released team completes for its violating lanes: it retires, or parks for its faulting lanes, or goes on with lanes that
waited.
(DEDUCED, log 52) -/
def State.releaseTeam (s : State) (q t : Nat) : State :=
  match s.team q t with
  | none => s
  | some tm =>
    if tm.wait != some .frozen then s
    else
      let i := laneInstr ((tm.buffer.head?.map (·.word)).getD 0)
      let rest := tm.todo.getD 0
      let s := s.modTeam q t fun tm => { tm.zeroDest i tm.violating with violating := 0, wait := none }
      if rest ≠ 0 then s
      else match tm.faulted with
        | f :: _ => s.park q t f.cause f.info (faultMask tm.faulted) false f.record
        | [] =>
          let s := match i with
            | .tepiMem w => if w.fn.getLsbD 6 then s.freeTile q w.d.toNat else s
            | _ => s
          s.retireHead q t

/-- How a context goes on behind a suppressed word: behind the block of an EMIT or REC, which is neither delivered nor recorded (R228).
(DEDUCED, log 52) -/
def Ctx.behind (i : Instr) (cx : Ctx) : Ctx :=
  match i with
  | .emit w | .recw w => cx.jump (cx.pc + BitVec.ofNat 64 (8 * (1 + w.len.toNat + b2n (w.nh != 0))))
  | _ => cx.advance

/-- The status word of a seal entry (R426).
(DEDUCED, log 53) -/
def sealStatus (i : Nat) (e : Option SealEnt) : DWord :=
  match e with
  | none => BitVec.ofNat 64 i
  | some e => BitVec.ofNat 64 (e.len / 2 ^ 16 * 2 ^ 16 + (if e.hashed then 2 else 1) * 2 ^ 8 + i)

/-- The entry that SEAL.Q finds: one of another owner reads as FREE (R426). -/
def State.sealSeen (s : State) (sq : Squad) (i : Nat) : Option SealEnt := (aget? s.seals i).filter fun e => e.owner == s.ownerOf sq

/-- The violating word of a released context completes: a load or an atomic writes zero, and a SEAL.Q its status word.
(DEDUCED, log 52) -/
def State.releaseCtx (s : State) (q c : Nat) : State :=
  match s.squad q, s.ctx q c with
  | some sq, some cx =>
    if cx.wait != some .frozen then s
    else match s.fetchPc q c sq cx with
      | .error s' => s'
      | .ok (w, s) =>
        let i := genInstr w
        let s := match i with
          | .sld w | .satom w | .scas w | .mwait w => s.modCtx q c fun cx => cx.setS w.d.toNat 0
          | .sealQ w => s.modCtx q c fun cx => cx.setS w.d.toNat (sealStatus (fieldN w.imm.toNat 0 8) (s.sealSeen sq (fieldN w.imm.toNat 0 8)))
          | _ => s
        s.genRetire q c sq cx i (Ctx.behind i)
  | _, _ => s

/-- The teams that a context owns. -/
def State.teamsOwned (s : State) (q c : Nat) : List (Nat × Nat) :=
  s.squads.flatMap fun p => (p.2.teams.zipIdx.filter fun x => x.1.owner == some (q, c)).map fun x => (p.1, x.2)

/-- The walk of an owner's address on a die ends in a leaf of a frame of that die. -/
def State.walkHome (s : State) (owner va d : Nat) : Bool :=
  match (s.walkRoot d owner va).1 with
  | .ok w => pteValid w.entry && !pteBad w.entry w.level && homeDie (field64 w.entry 16 36 * 2 ^ 16 + va % leafSize w.level) == d
  | .error _ => false

/-- The die whose walkers translate an address for a host or another package: the die that holds the target line, which is found by its own walk. -/
def State.walkDie (s : State) (owner va : Nat) : Nat := ((upTo 3).find? (s.walkHome owner va)).getD 0

/-- The die that a request from the fabric addresses; a translation (13) addresses the die that holds the target. -/
def State.reqDie (s : State) (owner op addr : Nat) : Nat := if op = 13 then s.walkDie owner addr else homeDie addr

/-- The owner for which the package itself made a request. -/
def State.reqOwner (s : State) (r : RemoteReq) : Nat :=
  match r.src with
  | .team q _ | .ctx q _ => ((s.squad q).map s.ownerOf).getD 0

/-- The result that a suppressed request from the fabric gives: for a request of the package itself an answer, otherwise a message. -/
def State.fabricAnswer (s : State) (dev req status : Nat) (bs : List Byte) : State :=
  if dev = s.fabric.devid then { s with fabric := { s.fabric with answers := s.fabric.answers ++ [(req, status, bs)] } }
  else
    let m : Message := { kind := 1, status := status, conn := dev, seq := BitVec.ofNat 64 req, payload := bs }
    { s with fabric := { s.fabric with sent := s.fabric.sent ++ [m] } }

/-- A source device is released on a die, and its requests that wait there at the Umpire complete with a status (R438); the limit of 1 ms has ended for
the requests of the package itself that the freeze held back. -/
def State.releaseFabric (s : State) (dev d status : Nat) : State :=
  let ws := s.fabric.waitingIn.filter fun w => w.1 == dev && w.2.1 == d
  let s := { s with fabric := { s.fabric with
    out := s.fabric.out.map fun r =>
      if dev = s.fabric.devid ∧ r.dev = dev ∧ s.reqDie (s.reqOwner r) r.op r.addr = d then { r with held := true } else r
    frozenIn := s.fabric.frozenIn.filter fun f => !(f.1 == dev && f.2 == d)
    waitingIn := s.fabric.waitingIn.filter fun w => !(w.1 == dev && w.2.1 == d) } }
  ws.foldl (fun s w => s.fabricAnswer dev w.2.2 status (List.replicate 8 0)) s

/-- A master resumes with its violating accesses suppressed (R422).
(DEDUCED, log 52) -/
def State.release (s : State) (m : Master) : State :=
  match m with
  | .ctx q c =>
    let s := (s.freezeOwned q c false).modCtx q c fun cx => { cx with frozen := false }
    let ts := (s.teamsOwned q c).filter fun x => !s.stillNamed (.descent x.1 x.2)
    (ts.foldl (fun s x => s.releaseTeam x.1 x.2) s).releaseCtx q c
  | .copies q =>
    let lift (c : Copy) : Copy := { c with frozen := false, violVa := none, suppress := ((c.violVa.map (· / 128)).toList ++ c.suppress) }
    { s with copies := s.copies.map fun (p : Nat × Copy) => if p.2.q = q then (p.1, lift p.2) else p }.modSquad q fun sq => { sq with queueFrozen := false }
  | .descent q t =>
    let still := (s.team q t).any fun tm => tm.owner.any fun o => (s.ctx o.1 o.2).any (·.frozen)
    (s.modTeam q t fun tm => { tm with frozen := still }).releaseTeam q t
  | .conn n =>
    match aget? s.conns n with
    | some c =>
      let s := { s with conns := aset s.conns n { c with frozen := false, denied := none } }
      match c.denied with
      | some r => (s.ack n r.seq).reply r
      | none => s
    | none => s
  | .fabric dev d => s.releaseFabric dev d 0

/-- The squad of a master of a cluster. -/
def Master.squad : Master → Option Nat
  | .ctx q _ | .copies q | .descent q _ => some q
  | _ => none

/-- A master's task is killed with END 2 and the record's index and die, or its connection closes, or its waiting requests fail (R422, R438). -/
def State.killMaster (s : State) (m : Master) (d i : Nat) : State :=
  match m with
  | .conn n => { s with conns := adel s.conns n }
  | .fabric dev d =>
    let s := s.releaseFabric dev d 1
    if dev = s.fabric.devid then
      let rs := s.fabric.out.filter fun r => r.dev == dev && s.reqDie (s.reqOwner r) r.op r.addr == d
        && !(s.fabric.answers ++ s.fabric.results).any fun z => z.1 == r.id
      rs.foldl (fun s r => s.fabricAnswer dev r.id 1 []) s
    else
      let fs := s.fabric.held.filter fun f => f.1 == d && f.2.conn == dev
      fs.foldl (fun s f => s.fabricAnswer dev f.2.seq.toNat 1 [])
        { s with fabric := { s.fabric with held := s.fabric.held.filter fun f => !(f.1 == d && f.2.conn == dev) } }
  | m =>
    match m.squad.bind s.squad with
    | some sq => (s.killTask sq.task 2 0 []).modTask sq.task fun t => { t with recix := i, rdie := d }
    | none => s

/-- Goes on with the open record that an UMPREL names. -/
def GenIn.withRecord (x : GenIn) (a : Nat) (f : Nat → Nat → Violation → GenRes) : GenRes :=
  let v := x.rd.S a
  let i := field64 v 0 8
  let d := field64 v 8 2
  if !x.sq.priv then x.violation x.s 4 0 0 0
  else if field64 v 10 54 ≠ 0 then .trap .reservedField [] x.s
  else match aget? (x.s.die d).viol i with
    | some r => f d i r
    | none => .trap .reservedField [] x.s

/-- A die without the records of a master. -/
def Die.closeMaster (d : Die) (m : Master) : Die :=
  { d with viol := d.viol.filter fun v => v.2.master != m, violQ := d.violQ.filter fun v => v.master != m }

/-- UMPREL without KILL closes record i of die d, of master `m`, which resumes when no other record names it (R422).
(DEDUCED, log 52) -/
def State.umprel (s : State) (d i : Nat) (m : Master) : State :=
  let s := s.modDie d fun y => { y with viol := adel y.viol i }
  if s.stillNamed m then s else s.release m

/-- UMPREL.KILL closes every record of the master `m` of record i of die d, and kills its task or closes its connection (R422).
(DEDUCED, log 52) -/
def State.umpkill (s : State) (d i : Nat) (m : Master) : State := State.killMaster { s with dies := s.dies.map (·.closeMaster m) } m d i

/-- UMPREL (R422).
(DEDUCED, log 52) -/
def execUmprel (w : GR) (s : State) : Outcome State Fault Refusal :=
  genRun (.umprel w) w.cnd (fun x => x.withRecord w.a.toNat fun d i r => .done (x.s.umprel d i r.master)) s

/-- UMPREL.KILL (R422).
(DEDUCED, log 52) -/
def execUmprelKill (w : GR) (s : State) : Outcome State Fault Refusal :=
  genRun (.umprelKill w) w.cnd (fun x => x.withRecord w.a.toNat fun d i r => .done (x.s.umpkill d i r.master)) s

/-- VIOLATION_RECORD (R421, R422): with w = 0 the oldest violation of die a that waits takes a free slot of the ring, and its index goes to the dispatch
core; with w = 1 the dispatch core executes UMPREL on open record b of die a, and with w = 2 UMPREL.KILL, which an update of its firmware delays (R430).
(DEDUCED, log 52; DESIGN CHOICE, log 59; DESIGN CHOICE, log 70) -/
def evViolationRecord (s : State) : Outcome State Fault Refusal :=
  let d := s.operand.a
  .next (if s.operand.w = 0 then
    match (s.die d).violQ, (s.die d).violSlot with
    | v :: rest, some i =>
      (s.modDie d fun x => { x with violQ := rest, viol := aset x.viol i v, violNext := (i + 1) % 256 }).event (violNotice d i)
    | _, _ => s
  else if s.firmware.state ≠ .active then s
  else match aget? (s.die d).viol s.operand.b with
    | some r => if s.operand.w = 1 then s.umprel d s.operand.b r.master else if s.operand.w = 2 then s.umpkill d s.operand.b r.master else s
    | none => s)

/-! ## SEAL (R423 to R426) -/

/-- The frames of a virtual range with the ZOR bit of their leaves, page by page, each page allowing reads and writes; fails at the page where the walk
fails. -/
def State.pinFrames (a : Access) : Nat → State → Nat → Nat → LR2 (List ((Nat × Nat) × Bool))
  | 0, s, _, _ => (.ok [], s)
  | f + 1, s, va, n =>
    if n = 0 then (.ok [], s)
    else ((s.translate a va { rd := true, wr := true }).at va).andThen fun x s =>
      let k := min n (x.base + x.size - va)
      (pinFrames a f s (va + k) (n - k)).andThen fun l s => (.ok (((x.pa, k), pteZor x.leaf) :: l), s)

/-- The checks of R425 on base and length: RESERVED_FIELD by the register's offset, or MISALIGNED.
(DEDUCED, log 53) -/
def sealFieldBad (base len : Nat) : Option (Option Nat) :=
  if 2 ^ 56 ≤ base then some (some 0)
  else if len % 2 ^ 16 ≠ 0 ∨ len = 0 ∨ 2 ^ 40 < len then some (some 1)
  else if base % 2 ^ 16 ≠ 0 then some none
  else none

/-- The lowest free entry of the seal table. -/
def State.freeSeal (s : State) : Option Nat := (upTo 256).find? fun i => (aget? s.seals i).isNone

/-- SEAL (R425), which first acts as SFENCE.AR.DEVICE.
(DEDUCED, log 53) -/
def execSeal (w : GR) (s : State) : Outcome State Fault Refusal :=
  genRun (.seal w) w.cnd (fun x =>
    let base := (x.rd.S w.a.toNat).toNat
    let len := (x.rd.S (w.a.toNat + 1)).toNat
    let owner := x.s.ownerOf x.sq
    x.afterCommit (match sealFieldBad base len with
      | some (some o) => .trap .reservedField [BitVec.ofNat 64 o, 0, 0, 0] x.s
      | some none => x.memFail x.s (.cause .misaligned 0) base 7 true false false
      | none =>
        if 2 ^ 56 < base + len then x.memFail x.s (.cause .protection 0) (max base (2 ^ 56)) 7 true false false
        else match State.pinFrames x.acc (len / 2 ^ 16 + 1) x.s base len with
          | (.error (e, va), s) => x.memFail s e va 7 true false false
          | (.ok fs, s) =>
            if s.seals.any fun e => e.2.owner == owner && overlaps base len e.2.base e.2.len then .trap .reservedField [0, 1, 0, 0] s
            else match s.lockHit owner base len true with
              | some i => x.memFail s (.cause .rangeConflict i) base 7 true false false
              | none =>
                match s.freeSeal with
                | none => .done (s.modCtx x.q x.c fun cx => { cx.setS w.d.toNat 0 with cc := ccZ true })
                | some i =>
                  let e : SealEnt := { owner := owner, base := base, len := len, frames := fs.map (·.1), zors := fs.map (·.2) }
                  .done (({ s with seals := aset s.seals i e }.modCtx x.q x.c fun cx =>
                    { cx.setS w.d.toNat (BitVec.ofNat 64 i) with cc := ccZ false, fenced := true }).l1Clear x.sq.cluster))) s

/-- A descent word under way has AUDIT and names a seal entry: one that the descent unit has started, whatever it waits for.
(DEDUCED, log 53) -/
def State.sealBusy (s : State) (id : Nat) : Bool :=
  s.squads.any fun p => p.2.teams.any fun tm => tm.inUnit &&
    (match laneInstr tm.word with
      | .descend w | .dleaf w =>
        let d := (tm.window (fieldN w.c.toNat 0 3)).tree
        treeAudit d && treeSeal d == id
      | _ => false)

/-- SEAL.FREE (R426): from its issue the entry counts as absent and is hashed no more; it ends once the audited descents that started before it have
completed.
(DEDUCED, log 53) -/
def execSealFree (w : GR) (s : State) : Outcome State Fault Refusal :=
  genRun (.sealFree w) w.cnd (fun x =>
    let i := fieldN w.imm.toNat 0 8
    x.afterCommit (match aget? x.s.seals i with
      | none => .trap .reservedField [] x.s
      | some e =>
        if e.owner ≠ x.s.ownerOf x.sq then .trap .reservedField [] x.s
        else if x.s.sealBusy i then .wait (.sealFree i) { x.s with seals := aset x.s.seals i { e with freeing := true } }
        else .done { x.s with seals := adel x.s.seals i })) s

/-- SEAL.Q (R426).
(DEDUCED, log 53) -/
def execSealQ (w : GR) (s : State) : Outcome State Fault Refusal :=
  genRun (.sealQ w) w.cnd (fun x =>
    let i := fieldN w.imm.toNat 0 8
    let va := (x.rd.S w.a.toNat).toNat
    let e := x.s.sealSeen x.sq i
    let put (s : State) : GenRes := .done (s.modCtx x.q x.c fun cx => cx.setS w.d.toNat (sealStatus i e))
    x.afterCommit (match e with
      | some z => if z.hashed then x.addrCheck va 32 7 true false (x.writeSpan x.s va z.hash put) else put x.s
      | none => put x.s)) s

/-- The plaintext of a sealed range in ascending address order.
(DEDUCED, log 53) -/
def State.sealedBytes (s : State) (e : SealEnt) : List Byte := (e.frames.zip e.zors).flatMap fun f => s.bytesAt e.owner f.2 f.1.1 f.1.2

/-- SEAL_HASH_DONE (R425, R429): the hash engine finishes entry a, which is measured.
(DEDUCED, log 53) -/
def evSealHashDone (s : State) : Outcome State Fault Refusal :=
  let i := s.operand.a
  .next (match aget? s.seals i with
    | none => s
    | some e =>
      if e.hashed || e.freeing then s
      else
        let bs := s.sealedBytes e
        { s with
          seals := aset s.seals i { e with hashed := true, hash := sha3 bs }
          firmware := { s.firmware with measurements := s.firmware.measurements ++ [sha384 bs] } })

/-! ## DIGEST and the log (R427, R428) -/

/-- The log record of a digest slot (R428). -/
def logRecord (tag : Word) (inst n lane : Nat) (g : DigestSlot) (time seq : Nat) (hash : List Byte) : List Byte :=
  toBytes 4 tag.toNat ++ toBytes 4 inst ++ toBytes 1 g.sealId ++ toBytes 1 n ++ toBytes 2 lane ++ toBytes 4 g.tree ++ toBytes 4 g.leaf
    ++ toBytes 1 g.depth ++ List.replicate 3 0 ++ g.digest ++ toBytes 8 time ++ toBytes 8 seq ++ hash.take 8

/-- Writes one record of an owner's log and advances its write index. -/
def State.logWrite (s : State) (owner : Nat) (mk : Nat → List Byte) : State :=
  match aget? s.owners owner with
  | none => s
  | some o =>
    let s := s.writeMem owner true (o.logBase + o.logWrite % o.logCap * 64) (mk o.logWrite)
    { s with owners := aset s.owners owner { o with logWrite := o.logWrite + 1 } }

/-- Lane words of a context are on their way to a team: delivered and unretired (R428), or issued to a channel of which the team is a destination and
not yet delivered (R431).
(DEDUCED, log 93) -/
def State.bound (s : State) (q c q' t : Nat) : Bool :=
  ((s.team q' t).any fun tm => tm.buffer.any fun z => z.sq == q && z.sc == c)
    || (match s.squad q, s.ctx q c with
      | some sq, some cx => cx.seq.any fun i => (s.chanDests sq q c cx i.chan).any fun d =>
          d.2.2 == t && (s.squadOfInstance d.1 d.2.1).any fun p => p.1 == q'
      | _, _ => false)

/-- DIGEST (R428).
(DEDUCED, log 93) -/
def execDigest (w : GR) (s : State) : Outcome State Fault Refusal :=
  genRun (.digest w) w.cnd (fun x =>
    let n := fieldN w.fn.toNat 0 6
    let b := w.b.toNat
    let owner := x.s.ownerOf x.sq
    x.afterCommit (x.withTeam n fun q t tm =>
      if tm.n ≤ b then .trap .reservedField [] x.s
      else
        let gs := (upTo tm.lanes).filterMap fun l => (aget? tm.digests l).map fun g => (l, g)
        let undone := x.s.bound x.q x.c q t
        let unhashed := gs.any fun g => !((aget? x.s.seals g.2.sealId).any (·.hashed))
        let room := (aget? x.s.owners owner).any fun o => decide (o.logWrite + gs.length ≤ o.logRead + o.logCap)
        if undone || unhashed || !room then .wait (.digest n) x.s
        else
          let s := gs.foldl (fun s g =>
            let hash := ((aget? s.seals g.2.sealId).map (·.hash)).getD []
            s.logWrite owner fun k => logRecord (tm.V g.1 b) (x.sq.instance_ % 2 ^ 32) n g.1 g.2 s.now k hash) x.s
          .done (s.modTeam q t fun tm => { tm with digests := [] }))) s

/-- LOG_CONSUME_ADVANCE (R427): the host advances the consume index of owner a to w, up to the write index. -/
def evLogConsumeAdvance (s : State) : Outcome State Fault Refusal :=
  let v := s.operand.w.toNat
  .next (match aget? s.owners s.operand.a with
    | some o => if o.logRead ≤ v ∧ v ≤ o.logWrite then { s with owners := aset s.owners o.num { o with logRead := v } } else s
    | none => s)

end Sys2Proof.Machine
end

