-- ==== Sys2Proof/Machine/Host.lean ====
section
/-! DEFINITION. The Eceth host transport (22_package_power.md R402 to R405, 18_die_tasks.md R364), owners (23_package_security.md R418), reset,
bring-up and the fatal state (R400, R417), and the scheduler firmware (R429, R430). -/

namespace Sys2Proof.Machine

open Host (Outcome)

/-! ## Messages of the host (R402, R403) -/

/-- The header and payload of a message of at least 32 bytes.
(DESIGN CHOICE, log 60) -/
def Message.parse (bs : List Byte) : Message :=
  let f (i n : Nat) : Nat := ofBytes ((bs.drop i).take n)
  { kind := f 0 1, status := f 1 1, conn := f 2 2, seq := BitVec.ofNat 64 (f 8 8), addr := BitVec.ofNat 64 (f 16 8), len := f 24 4
    payload := bs.drop 32 }

/-- A message's header and payload length are consistent (R403).
(DESIGN CHOICE, log 60) -/
def Message.consistent (m : Message) (bs : List Byte) : Bool :=
  let n := m.payload.length
  m.status == 0 && ofBytes ((bs.drop 4).take 4) == n && ofBytes ((bs.drop 28).take 4) == 0
    && (match m.kind with
      | 1 => decide (1 ≤ m.len) && decide (m.len ≤ 4096) && n == 0
      | 3 => decide (1 ≤ m.len) && decide (m.len ≤ 4096) && n == m.len
      | 5 => field64 m.addr 2 62 == 0 && m.len == 0 && n == 256
      | 9 => m.addr == 0 && m.len == 0
      | 10 => m.addr == 0 && m.len == 0 && n == 0
      | _ => false)

/-- The reply to a request. -/
def Message.answer (m : Message) (status : Nat) (payload : List Byte) : Message :=
  { kind := if m.kind = 3 then 4 else if m.kind = 5 then 6 else 2
    status := status, conn := m.conn, seq := m.seq
    addr := if m.kind = 1 ∨ m.kind = 3 then m.addr else if m.kind = 5 then m.addr &&& 3#64 else 0
    len := if m.kind = 1 then m.len else 0
    payload := payload }

/-- A message of the host is taken in its turn and acknowledged. -/
def State.took (s : State) (c : Conn) (m : Message) : State :=
  ({ s with conns := aset s.conns c.num { c with nextRx := c.nextRx + 1 } } : State).ack c.num m.seq

/-- A request is performed and answered.
(DESIGN CHOICE, log 60) -/
def State.answered (s : State) (c : Conn) (m : Message) (status : Nat) (payload : List Byte) : State :=
  (s.took c m).reply (m.answer status payload)

/-- What every message of the host on a connection undergoes (R402, R403, R420): of a frozen connection nothing is performed; a message that was
performed is acknowledged and answered again; one out of turn waits; before bring-up ends all but management is refused, a message of a
connection that is not bound with it; an inconsistent one is malformed; any other goes to `act`.
(DESIGN CHOICE, log 60) -/
def State.request (s : State) (kinds : Nat → Bool) (act : Conn → Message → State) : State :=
  match s.operand.frame with
  | none => s
  | some f =>
    let m := Message.parse f.data
    if f.data.length < 32 ∨ !kinds m.kind then s
    else match aget? s.conns m.conn with
      | none => if !s.up && m.kind != 9 then { s with outbox := s.outbox ++ [(m.answer 4 []).encode] } else s
      | some c =>
        if c.frozen then s
        else if m.seq < c.nextRx then
          let s := s.ack c.num m.seq
          match c.replies.find? fun r => r.seq == m.seq with
          | some r => { s with outbox := s.outbox ++ [r.encode] }
          | none => s
        else if m.seq ≠ c.nextRx then s
        else if !s.up && m.kind != 9 then s.answered c m 4 []
        else if !m.consistent f.data then s.answered c m 5 []
        else act c m

/-- A message that violates (R419, R420): the connection freezes, and the message's reply waits for the release.
(DEDUCED, log 54) -/
def State.connViolation (s : State) (c : Conn) (m : Message) (code die va pa target : Nat) : State :=
  let s := { s with conns := aset s.conns c.num { c with nextRx := c.nextRx + 1, denied := some (m.answer 3 []) } }
  s.violate none
    { code := code, master := .conn c.num, die := die, cluster := 0xFF, owner := c.owner, target := target, va := va, pa := pa
      ident := c.num, lanes := 0 }

/-! ## Host reads and writes (R404) -/

/-- What ends a host access: a status; data that is poisoned or uncorrectable; first-touch service; or a violation. -/
inductive HostStop where
  | status (n : Nat)
  | data
  | touch (d : Nat) (t : Touch)
  | violation (code pa target : Nat)

/-- The stop of a failed access that the walkers of die `d` made. -/
def hostStop (d : Nat) (f : MemFail) : HostStop :=
  match f with
  | .touch t => .touch d t
  | .violation c pa o => .violation c pa o
  | .cause .uncorrectableData _ => .data
  | .cause .poison _ => .data
  | _ => .status 1

/-- The translation of one address of the host; a first touch is served, and the walk made again (R320).
(DESIGN CHOICE, log 60) -/
def State.hostWalk (s : State) (owner va : Nat) (n : Need) : Except HostStop Xl × State :=
  let d := s.walkDie owner va
  if 2 ^ 56 ≤ va then (.error (.status 1), s)
  else match State.walkServed 2 s d owner va n with
    | (.ok x, s) => if s.backed x.pa then (.ok x, s) else (.error (.status 1), s)
    | (.error f, s) => (.error (hostStop d f), s)

/-- A part of a host access that lies in one page. -/
structure HostPart where
  va : Nat
  pa : Nat
  n : Nat
  zor : Bool
deriving DecidableEq, Repr

/-- The parts of a host access by pages.
(DESIGN CHOICE, log 60) -/
def hostParts (owner : Nat) (nd : Need) : Nat → State → Nat → Nat → Except HostStop (List HostPart) × State
  | 0, s, _, _ => (.ok [], s)
  | f + 1, s, va, n =>
    if n = 0 then (.ok [], s)
    else match s.hostWalk owner va nd with
      | (.error e, s) => (.error e, s)
      | (.ok x, s) =>
        let k := min n (x.base + x.size - va)
        match hostParts owner nd f s (va + k) (n - k) with
        | (.error e, s) => (.error e, s)
        | (.ok l, s) => (.ok (⟨va, x.pa, k, pteZor x.leaf⟩ :: l), s)

/-- What stops a translated host access: a violation, or a range lock. -/
def State.hostGuard (s : State) (owner : Nat) (wr : Bool) (ps : List HostPart) : Option HostStop :=
  (ps.findSome? fun p =>
    if cfgBase ≤ p.pa then (if wr then some (.violation 4 p.pa 0) else none)
    else (s.guardPa p.pa p.n wr).map (hostStop 0)).orElse fun _ =>
      if ps.any fun p => (s.lockHit owner p.va p.n wr).isSome then some (.status 2) else none

/-- The bytes of the parts of a host read. -/
def hostBytes (owner : Nat) : State → List HostPart → Except HostStop (List Byte) × State
  | s, [] => (.ok [], s)
  | s, p :: ps =>
    if cfgBase ≤ p.pa then
      match hostBytes owner s ps with
      | (.ok bs, s) => (.ok (s.cfgRead false p.pa p.n ++ bs), s)
      | r => r
    else match s.linesCheck owner p.zor (linesOf p.pa p.n) with
      | (.error f, s) => (.error (hostStop 0 f), s)
      | (.ok _, s) => match hostBytes owner s ps with
        | (.ok bs, s) => (.ok (s.bytesAt owner p.zor p.pa p.n ++ bs), s)
        | r => r

/-- The parts of a host write are written. -/
def hostStore (owner : Nat) : State → List HostPart → List Byte → State
  | s, [], _ => s
  | s, p :: ps, bs => hostStore owner (s.writeMem owner p.zor p.pa (bs.take p.n)) ps (bs.drop p.n)

/-- How a host message ends when its access is not performed. The status of a read that meets poisoned or uncorrectable data is left open: it is
a free one, not OK.
(DESIGN CHOICE, log 60) -/
def State.hostEnd (s : State) (c : Conn) (m : Message) (e : HostStop) : State :=
  match e with
  | .status n => s.answered c m n []
  | .data => s.answered c m (1 + Config.freeNat s.free 0 % 5) []
  | .touch d t => s.addTouch d t
  | .violation code pa target => s.connViolation c m code (homeDie pa) m.addr.toNat pa target

/-- HOST_READ (R404): a read request; so come messages of a kind that the host does not send, which are malformed.
(DESIGN CHOICE, log 60) -/
def evHostRead (s : State) : Outcome State Fault Refusal :=
  .next (s.request (fun k => k != 3 && k != 5 && k != 9 && k != 10) fun c m =>
    match hostParts c.owner { rd := true } 3 s m.addr.toNat m.len with
    | (.error e, s) => s.hostEnd c m e
    | (.ok ps, s) => match s.hostGuard c.owner false ps with
      | some e => s.hostEnd c m e
      | none => match hostBytes c.owner s ps with
        | (.error e, s) => s.hostEnd c m e
        | (.ok bs, s) => s.answered c m 0 bs)

/-- HOST_WRITE (R404, R405).
(DESIGN CHOICE, log 60) -/
def evHostWrite (s : State) : Outcome State Fault Refusal :=
  .next (s.request (· == 3) fun c m =>
    match hostParts c.owner { wr := true } 3 s m.addr.toNat m.len with
    | (.error e, s) => s.hostEnd c m e
    | (.ok ps, s) => match s.hostGuard c.owner true ps with
      | some e => s.hostEnd c m e
      | none => (hostStore c.owner s ps m.payload).answered c m 0 [])

/-! ## Launch frames (R364) -/

/-- A launch frame arrives: one for another owner is a violation; otherwise it lands in its die's table, and is held back while that is full or the
firmware is being updated (R430).
(DEDUCED, log 54) -/
def State.frameArrives (s : State) (c : Conn) (m : Message) : State :=
  let d := field64 m.addr 0 2
  let r := recordWords m.payload
  if d = 3 then s.answered c m 4 []
  else if field64 (r.getD 3 0) 8 12 ≠ c.owner then s.connViolation c m 3 d 0 0 (field64 (r.getD 3 0) 8 12)
  else if 64 ≤ (s.die d).inbound.length ∨ s.firmware.state ≠ .active then s
  else (s.took c m).modDie d fun x => { x with inbound := x.inbound ++ [{ conn := c.num, seq := m.seq, record := m.payload }] }

/-- The launch reply of a frame. -/
def Inbound.answer (f : Inbound) (d status : Nat) (payload : List Byte) : Message :=
  { kind := 6, status := status, conn := f.conn, seq := f.seq, addr := BitVec.ofNat 64 d, payload := payload }

/-- The oldest launch frame of a die is admitted, or refused; it waits while the dependence table is full.
(DEDUCED, log 54) -/
def State.admitFrame (s : State) (d : Nat) : State :=
  match (s.die d).inbound with
  | [] => s
  | f :: rest =>
    let out := s.modDie d fun x => { x with inbound := rest }
    if s.firmware.state ≠ .active ∨ s.fatal then s
    else if (aget? s.conns f.conn).isNone then out
    else
      let t := { s.draft d (recordWords f.record) with conn := some f.conn }
      match recordBad t with
      | some off => out.reply (f.answer d 4 (toBytes 4 off))
      | none =>
        if s.scoreBad t then out.reply (f.answer d 4 (toBytes 4 24))
        else if 8192 ≤ s.tableUsed d then s
        else
          let t := if 4 ≤ s.potential (s.draftDeps t) then { t with spec := false } else t
          (out.admitReady t).reply (f.answer d 0 (toBytes 4 t.id))

/-- LAUNCH_FRAME (R364): a launch frame arrives, or without one the oldest frame of die a is admitted.
(DEDUCED, log 54) -/
def evLaunchFrame (s : State) : Outcome State Fault Refusal :=
  .next (match s.operand.frame with
    | some _ => s.request (· == 5) fun c m => s.frameArrives c m
    | none => s.admitFrame s.operand.a)

/-! ## Acknowledgements (R403, R405) -/

/-- The teams of an owner's squads that wait as given execute their words again.
(DESIGN CHOICE, log 39; DEDUCED, log 68) -/
def State.wakeOwner (s : State) (owner : Nat) (w : TeamWait) : State :=
  { s with squads := s.squads.map fun p =>
      if s.ownerOf p.2 = owner then
        (p.1, { p.2 with teams := p.2.teams.map fun tm => if tm.wait = some w then { tm with wait := none } else tm })
      else p }

/-- A system-call record has left its owner's ring.
(DEDUCED, log 68) -/
def State.freeRing (s : State) (owner : Nat) : State :=
  match aget? s.owners owner with
  | some o => ({ s with owners := aset s.owners owner { o with ringUsed := o.ringUsed - 1 } } : State).wakeOwner owner .ring
  | none => s

/-- HOST_ACK (R403): the host acknowledges a message of the device, which is then not sent again.
(DESIGN CHOICE, log 60) -/
def evHostAck (s : State) : Outcome State Fault Refusal :=
  .next (match s.operand.frame with
    | none => s
    | some f =>
      let m := Message.parse f.data
      if f.data.length < 32 ∨ m.kind ≠ 10 ∨ !m.consistent f.data then s
      else match aget? s.conns m.conn with
        | none => s
        | some c => match c.unacked.find? fun u => u.seq == m.seq with
          | some u =>
            if c.frozen then s
            else
              let s := { s with conns := aset s.conns c.num { c with unacked := c.unacked.filter (· != u) } }
              if u.kind = 7 then s.freeRing c.owner else s
          | none => s)

/-- MESSAGE_RESEND (R403): connection a sends its unacknowledged message of number w again.
(DESIGN CHOICE, log 60) -/
def evMessageResend (s : State) : Outcome State Fault Refusal :=
  .next (match aget? s.conns s.operand.a with
    | none => s
    | some c => match c.unacked.find? fun u => u.seq == s.operand.w with
      | some u => if c.frozen then s else { s with outbox := s.outbox ++ [u.encode] }
      | none => s)

/-! ## Management (R402) -/

/-- Changes an owner when it exists.
(DESIGN CHOICE, log 62) -/
def State.modOwner (s : State) (o : Nat) (f : Owner → Owner) : State :=
  match aget? s.owners o with
  | some x => { s with owners := aset s.owners o (f x) }
  | none => s

/-- The management functions of the dispatch firmware by the model's number a: 0 binds connection b to owner c on port w; 1 designates the
system-call ring of owner b, of w records, at connection c; 2 admits owner b to remote access, or not, by c; 3 sets the quantum of owner
b to w; 4 reports the health event w on connection b; 5 gives package b a route, or takes it, by c; 6, before bring-up, gives the package the device id b.
A package whose firmware failed verification answers only SPDM (R429), and an image in PROBATION writes no table (R430).
(DESIGN CHOICE, log 62; DESIGN CHOICE, log 70) -/
def State.manage (s : State) : State :=
  let x := s.operand
  if s.firmware.closed ∨ (!s.firmware.writes ∧ x.a ≠ 4) then s else
  match x.a with
  | 0 =>
    if (aget? s.owners x.c).isSome && (aget? s.conns x.b).isNone && decide (x.b < 2 ^ 16) then
      { s with conns := aset s.conns x.b { num := x.b, owner := x.c, port := x.w.toNat } }
    else s
  | 1 =>
    if (aget? s.conns x.c).any fun c => c.owner == x.b then
      s.modOwner x.b fun o => { o with ringConn := some x.c, ringCap := x.w.toNat, ringUsed := 0 }
    else s
  | 2 => s.modOwner x.b fun o => { o with remote := x.c == 1 }
  | 3 => s.modOwner x.b fun o => { o with quantum := x.w.toNat }
  | 4 => s.send x.b 9 (toBytes 8 x.w.toNat)
  | 5 =>
    let f := s.fabric
    if x.b = f.devid then s
    else if x.c = 1 then
      { s with fabric := { f with routes := if f.routes.contains x.b then f.routes else f.routes ++ [x.b], lost := f.lost.filter (· != x.b) } }
    else if f.routes.contains x.b then
      { s with fabric := { f with routes := f.routes.filter (· != x.b), lost := f.lost ++ [x.b] } }
    else s
  | 6 => if !s.up && decide (x.b < 2 ^ 14) then { s with fabric := { s.fabric with devid := x.b } } else s
  | _ => s

/-- MANAGEMENT_MESSAGE (R402): a management function, asked for by a message on a connection or on the management channel itself.
(DESIGN CHOICE, log 62) -/
def evManagementMessage (s : State) : Outcome State Fault Refusal :=
  .next (match s.operand.frame with
    | some _ => s.request (· == 9) fun c m => (s.took c m).manage
    | none => s.manage)

/-- The signed measurements (R429).
(DESIGN CHOICE, log 16) -/
def Firmware.report (f : Firmware) : List Byte :=
  let ms := f.measurements.flatten
  ms ++ Config.signature ms

/-- SPDM_GET_MEASUREMENTS (R429): the measurements, on the connection of a management message or on the management channel.
(DESIGN CHOICE, log 16) -/
def evSpdmGetMeasurements (s : State) : Outcome State Fault Refusal :=
  .next (match s.operand.frame with
    | some _ => s.request (· == 9) fun c m => (s.took c m).send c.num 9 s.firmware.report
    | none =>
      { s with outbox := s.outbox ++ [({ kind := 9, status := 0, conn := 0, seq := 0, payload := s.firmware.report } : Message).encode] })

/-! ## Owners (R418) -/

/-- OWNER_CREATE (R418): the dispatch core creates owner a with a fresh key: w goes to ROOT on every die, b to the two words of FLIST, the first in its low 64
bits, and c designates the log, its address in [63:6] and log2 of its records in [5:0]. An image in PROBATION creates none (R430).
(DESIGN CHOICE, log 61; DESIGN CHOICE, log 70) -/
def evOwnerCreate (s : State) : Outcome State Fault Refusal :=
  let x := s.operand
  let n := x.c % 64
  .next (if x.a = 0 ∨ 4095 < x.a ∨ (aget? s.owners x.a).isSome ∨ !s.up ∨ !s.firmware.writes ∨ n < 10 then s
    else
      { s with
        owners := aset s.owners x.a { num := x.a, keyGen := s.keyGen + 1, logged := true, logBase := x.c / 64 * 64, logCap := 2 ^ n }
        keyGen := s.keyGen + 1
        dies := s.dies.map fun d => { d with
          roots := asetD 0 d.roots x.a (x.w &&& 0x000F_FFFF_FFFF_F801#64)
          flist0 := asetD 0 d.flist0 x.a (BitVec.ofNat 64 x.b)
          flist1 := asetD 0 d.flist1 x.a (BitVec.ofNat 64 (x.b / 2 ^ 64)) } })

/-- A task is killed and retires at once.
(DEDUCED, log 23) -/
def State.killNow (s : State) (k endCode : Nat) : State :=
  let s := s.killTask k endCode 0 []
  match s.task k with
  | some t => if t.phase = .completed then s.retireTask t else s
  | none => s

/-- The live tasks of which `f` holds are killed and retire at once.
(DEDUCED, log 63) -/
def State.killAll (s : State) (f : Task → Bool) (endCode : Nat) : State :=
  (s.tasks.filter fun p => p.2.phase != TaskPhase.retired && f p.2).foldl (fun s p => s.killNow p.1 endCode) s

/-- A frame goes back to its owner's frame list (R322). -/
def State.pushFrame (s : State) (d : Nat) (f : Frame) : State :=
  let at_ := (s.die d).listHead f.owner (f.size != 2 ^ 16)
  if at_ = 0 then s
  else
    let h := s.devRead f.owner at_
    (s.devWrite f.owner f.pa (toBytes 8 h.toNat)).devWrite f.owner at_ (toBytes 8 (f.pa + (field64 h 0 16 + 1) % 2 ^ 16))

/-- The live regions of an owner are freed (R350, R352).
(DEDUCED, log 63) -/
def State.freeRegions (s : State) (owner : Nat) : State :=
  (upTo 3).foldl (fun s d =>
    ((s.die d).regions.filter fun r => r.2.live && r.2.owner == owner).foldl (fun s r =>
      (s.setRegion d r.1 { gen := (r.2.gen + 1) % 64 }).releasePool r.2) s) s

/-- The Bullpen frames of an owner go back to its lists, and its slots on every die are cleared.
(DEDUCED, log 63) -/
def State.freeFrames (s : State) (owner : Nat) : State :=
  (upTo 3).foldl (fun s d =>
    (((s.die d).bullpen.filter fun f => f.owner == owner).foldl (fun s f => s.pushFrame d f) s).modDie d fun x => { x with
      bullpen := x.bullpen.filter fun f => f.owner != owner
      touches := x.touches.filter fun t => t.owner != owner
      roots := adel x.roots owner, flist0 := adel x.flist0 owner, flist1 := adel x.flist1 owner }) s

/-- A cluster without copies and translations of an owner.
(DEDUCED, log 63) -/
def Cluster.forget (c : Cluster) (owner : Nat) : Cluster :=
  let tlb (l : List TlbEnt) : List TlbEnt := l.filter fun e => e.owner != owner
  { c with
    l1 := c.l1.filter fun p => p.1 % 4096 != owner, miss := c.miss.filter fun e => e.line % 4096 != owner
    tlb := tlb c.tlb, cores := c.cores.map fun k => { k with tlb := tlb k.tlb } }

/-- OWNER_RETIRE (R418): owner a, in the order of the rule, but not by an image in PROBATION (R430).
(DEDUCED, log 63; DESIGN CHOICE, log 70) -/
def evOwnerRetire (s : State) : Outcome State Fault Refusal :=
  let o := s.operand.a
  .next (if (aget? s.owners o).isNone ∨ !s.firmware.writes then s
    else
      let s := s.killAll (fun t => t.owner == o) 5
      let s := ({ s with conns := s.conns.filter fun c => c.2.owner != o } : State).freeRegions o
      let s := { s with seals := s.seals.filter fun e => e.2.owner != o, clusters := s.clusters.map fun (c : Cluster) => c.forget o }
      let s := s.freeFrames o
      { s with owners := adel s.owners o })

/-! ## Bring-up, reset and the fatal state (R400, R417) -/

/-- A firmware image is accepted (R429): it verifies under both schemes, and its security version is at least the fused minimum.
(DESIGN CHOICE, log 16) -/
def firmwareOk (image : List Byte) : Bool :=
  Config.rsaVerifies image && Config.slhVerifies image && decide (Config.fusedVersion ≤ Config.securityVersion image)

/-- Bring-up with an accepted image (R417, R429): the installed DDR-5 of operands a, b and c is trained, the default operating points are loaded,
and the image that runs is measured. -/
def State.bringUp (s : State) (image : List Byte) : State :=
  let x := s.operand
  { s with
    up := true
    ddr := [min x.a (2 ^ 40), min x.b (2 ^ 40), min x.c (2 ^ 40)]
    clusters := s.clusters.map fun c => { c with power := { points := defaultPoints, point := 5 } }
    firmware := { s.firmware with state := .active, image := image, measurements := [sha384 image] } }

/-- Power-on with an image that is not accepted: the package fails closed (R429).
(DESIGN CHOICE, log 70) -/
def State.failClosed (s : State) : State := { s with firmware := { s.firmware with closed := true } }

/-- The device verifies the image of its active slot, the operand's where it brings one, and comes up or fails closed (R417, R429).
(DESIGN CHOICE, log 56; DESIGN CHOICE, log 70) -/
def State.start (s : State) : State :=
  let image := (s.operand.frame.map (·.data)).getD s.firmware.image
  if firmwareOk image then s.bringUp image else s.failClosed

/-- POWER_ON (R417): bring-up. A package that has failed closed stays so (R429).
(DESIGN CHOICE, log 56) -/
def evPowerOn (s : State) : Outcome State Fault Refusal := .next (if s.up || s.firmware.closed then s else s.start)

/-- The package as its tables are after a reset: memory, the keys' generations, the counters, the firmware slots and the fabric's identity
stay.
(DEDUCED, log 63) -/
def State.cleared (s : State) : State :=
  { State.reset with
    schedule := s.schedule, free := s.free, now := s.now, serial := s.serial, nextSquad := s.nextSquad, keyGen := s.keyGen
    operand := s.operand, mem := s.mem, tags := s.tags, zorFrames := s.zorFrames, zorWritten := s.zorWritten
    badLines := s.badLines, poison := s.poison, outbox := s.outbox, events := s.events
    firmware := { slot := s.firmware.slot, image := s.firmware.image, spare := s.firmware.spare }
    fabric := { devid := s.fabric.devid, routes := s.fabric.routes, lost := s.fabric.lost, nextReq := s.fabric.nextReq, sent := s.fabric.sent } }

/-- HOST_RESET (R417): every task is killed and reported with END 3, and bring-up repeats. A package that has failed closed answers only SPDM (R429).
(DEDUCED, log 63) -/
def evHostReset (s : State) : Outcome State Fault Refusal :=
  .next (if s.firmware.closed then s else (s.killAll (fun _ => true) 3).cleared.start)

/-- FLIT_CRC_RETRY (R400): a flit that fails its check is resent, which changes only timing.
(DESIGN CHOICE, log 56) -/
def evFlitCrcRetry (s : State) : Outcome State Fault Refusal := .next s

/-- The fatal state (R400): every task is killed with END 4, and the host is told.
(DESIGN CHOICE, log 69) -/
def State.goFatal (s : State) : State := if s.fatal then s else { s.killAll (fun _ => true) 4 with fatal := true }.tellHost [2]

/-- LINK_FAILURE (R400): a link has not delivered a flit for 1 ms.
(DESIGN CHOICE, log 56; DESIGN CHOICE, log 69) -/
def evLinkFailure (s : State) : Outcome State Fault Refusal := .next s.goFatal

/-! ## Firmware updates (R430) -/

/-- FIRMWARE_UPDATE (R430): an update goes on by one state. It begins with the new image, which the operand's frame brings, in the spare slot; CHECK verifies and
measures it; in HANDOVER the old image writes its state into a structure, whose version the new image accepts or not.
(DESIGN CHOICE, log 16; DESIGN CHOICE, log 70) -/
def evFirmwareUpdate (s : State) : Outcome State Fault Refusal :=
  let f := s.firmware
  let put (g : Firmware) : State := { s with firmware := g }
  .next (if !s.up then s
    else match f.state with
      | .active => put { f with state := .quiesce, spare := (s.operand.frame.map (·.data)).getD f.spare }
      | .quiesce => put { f with state := .check }
      | .check => put { f with state := if firmwareOk f.spare then .handover else .active, measurements := f.measurements ++ [sha384 f.spare] }
      | .handover =>
        let v := Config.stateVersion f.image
        put (if Config.acceptsVersion f.spare v then
            { f with state := .probation, since := s.now
                     handover := some ⟨v, (upTo 3).flatMap fun d => (s.line d).map (·.id), s.squads.map (·.1)⟩ }
          else { f with state := .active })
      | .probation => s)

/-- FIRMWARE_HEARTBEAT (R430): the new image's first heartbeat, within 50 ms of the start of probation, makes its slot the active one.
(DESIGN CHOICE, log 70) -/
def evFirmwareHeartbeat (s : State) : Outcome State Fault Refusal :=
  let f := s.firmware
  .next (if f.state = .probation ∧ s.now ≤ f.since + 50000000 then
    { s with firmware := { f with state := .active, slot := 1 - f.slot, image := f.spare, spare := f.image, handover := none } }
  else s)

/-- PROBATION_TIMEOUT (R430): with no heartbeat within 50 ms the old image is active again, from the structure that it wrote.
(DESIGN CHOICE, log 70) -/
def evProbationTimeout (s : State) : Outcome State Fault Refusal :=
  let f := s.firmware
  .next (if f.state = .probation ∧ f.since + 50000000 < s.now then { s with firmware := { f with state := .active, handover := none } } else s)

end Sys2Proof.Machine
end

