-- ==== Sys2Proof/Machine/Power.lean ====
section
/-! DEFINITION. Operating points, the power governor, energy, sensors and thermal limits, and undervolting (22_package_power.md R406 to
R414). -/

namespace Sys2Proof.Machine

open Host (Outcome)

/-! ## Operating points (R406 to R409) -/

/-- The safe set point in mV of the point in force: the entry's voltage, or the fused minimum for its frequency (R406).
(DESIGN CHOICE, log 15) -/
def Cluster.safeMv (c : Cluster) : Nat :=
  let p := c.power.points.getD c.power.point (400, 500)
  max p.2 (Config.fusedMin p.1)

/-- The voltage at which a cluster runs.
(DESIGN CHOICE, log 15) -/
def Cluster.mv (c : Cluster) : Nat := c.safeMv - c.power.under

/-- The frequency in MHz at which a cluster runs: half its point's, rounded down to a step of 25 MHz, on a die without a working diode (R412). -/
def State.mhz (s : State) (cl : Nat) : Nat :=
  let f := ((s.cluster cl).power.points.getD (s.cluster cl).power.point (400, 500)).1
  if s.power.halved.contains (dieOf cl) then f / 2 / 25 * 25 else f

/-- The operand ration of a cluster (R204, R410, R412).
(DESIGN CHOICE, log 64) -/
def State.ration (s : State) (cl : Nat) : Nat := if (aget? (s.cluster cl).power.hot 95).isSome then 4 else s.power.ration

/-- Every cluster takes its point again. -/
def State.repointAll (s : State) : State := (upTo 132).foldl State.repoint s

/-- OP_ENTRY_WRITE (R406): the dispatch core writes w to entry b of cluster a, unless its image is in PROBATION (R430).
(DESIGN CHOICE, log 64; DESIGN CHOICE, log 70) -/
def evOpEntryWrite (s : State) : Outcome State Fault Refusal :=
  .next (if s.firmware.writes then s.modCluster s.operand.a fun c => c.opWrite s.operand.b (field64 s.operand.w 0 32) else s)

/-- OPOINT_RECOMPUTE (R408, R409): the required point of squad a is computed again, with b = 1 for a new latest finish w; without the squad, cluster
c takes its point again.
(DESIGN CHOICE, log 64) -/
def evOpointRecompute (s : State) : Outcome State Fault Refusal :=
  let x := s.operand
  .next (match s.squad x.a with
    | none => s.repoint x.c
    | some sq => s.recompute x.a (if x.b = 1 then x.w.toNat else sq.joinBy))

/-! ## The governor and energy (R410, R411) -/

/-- GOVERNOR_INTERVAL (R410): at the end of 1 ms with an average of a watts and a highest of b watts, the governor lowers the ration or the cap by
one step, or undoes one step.
(DESIGN CHOICE, log 64) -/
def evGovernorInterval (s : State) : Outcome State Fault Refusal :=
  let p := s.power
  let put (g : Power) : State := { s with power := { g with governAt := s.now } }
  .next (if s.now < p.governAt + 1000000 then s
    else if 2600 < s.operand.a then
      (if 4 < p.ration then put { p with ration := p.ration - 4 } else (put { p with cap := p.cap - 1 }).repointAll)
    else if s.operand.b < 2470 then
      (if p.cap < 7 then (put { p with cap := p.cap + 1 }).repointAll else put { p with ration := min 16 (p.ration + 4) })
    else put p)

/-- ENERGY_UPDATE (R411): at a boundary of the 1 ms timer that has been reached and not yet served, every task's count becomes what ENERGY reads.
(DESIGN CHOICE, log 64) -/
def evEnergyUpdate (s : State) : Outcome State Fault Refusal :=
  .next (if s.now / 1000000 ≤ s.power.energyAt then s else s.energyMark)

/-- The tasks with a squad resident on a cluster, each once (R414). -/
def State.residents (s : State) (cl : Nat) : List Nat :=
  (s.squads.filter fun p => p.2.cluster == cl && !p.2.off).foldl (fun l p => addNew l p.2.task) []

/-! ## Sensors and thermal limits (R412) -/

/-- A sample of a sensor: the reading, the cluster's power, that it is out of range, and the median of its neighbours where it has one.
(DESIGN CHOICE, log 65) -/
def Sensor.sample (x : Sensor) (v : Int) (power : Nat) (out : Bool) (med : Option Int) : Sensor :=
  let again := x.same != 0 && v == x.value
  let same := if again then x.same + 1 else 1
  let p0 := if again then x.power0 else power
  let moved := decide (p0 ≤ 10 * (max power p0 - min power p0)) && p0 != 0
  let far := med.any fun m => decide (8 < (v - m).natAbs)
  { value := v, same := same, power0 := p0, failed := x.failed || out || (decide (64 ≤ same) && moved) || far }

/-- A thermal limit in °C meets a temperature: it applies from the limit on, and counts the time that it has been 5 °C below.
(DESIGN CHOICE, log 65) -/
def heat (now : Nat) (t : Int) (hot : List (Nat × Option Nat)) (lim : Nat) : List (Nat × Option Nat) :=
  if (lim : Int) ≤ t then aset hot lim none
  else match aget? hot lim with
    | none => hot
    | some since => aset hot lim (if t + 5 ≤ lim then some (since.getD now) else none)

/-- A cluster's temperature: the larger of its diodes' readings, the median of its neighbours in place of a failed diode's.
(DESIGN CHOICE, log 65) -/
def State.temperature (s : State) (cl : Nat) (med : Int) : Option Int :=
  ((upTo 2).filterMap fun k => (aget? s.power.sensors (3 * cl + k)).map fun x => if x.failed then med else x.value).foldl
    (fun a v => some (match a with
      | some u => max u v
      | none => v)) none

/-- The failed sensors among some.
(DESIGN CHOICE, log 65) -/
def State.failedOf (s : State) (ks : List Nat) : Nat := (ks.filter fun k => (aget? s.power.sensors k).any (·.failed)).length

/-- A cluster meets its temperature: the limits at 95, 105 and 115 °C.
(DESIGN CHOICE, log 65) -/
def State.heatCluster (s : State) (cl : Nat) (t : Int) : State :=
  let s := s.modCluster cl fun c => { c with power := { c.power with hot := heat s.now t (heat s.now t c.power.hot 95) 105 } }
  if 115 ≤ t then s.goFatal else s.repoint cl

/-- SENSOR_SAMPLE (R412): sensor a reads w[31:0], the median of its neighbours being w[63:32], with a power of b milliwatts; c = 1 says that the
reading lies outside the sensor's range.
(DESIGN CHOICE, log 65; DESIGN CHOICE, log 69) -/
def evSensorSample (s : State) : Outcome State Fault Refusal :=
  let x := s.operand
  let a := x.a
  let v := signed (field64 x.w 0 32) 32
  let med := signed (field64 x.w 32 32) 32
  let sense := decide (a < 396) && a % 3 == 2
  let old := (aget? s.power.sensors a).getD {}
  let s1 := { s with power := { s.power with sensors := aset s.power.sensors a (old.sample v x.b (x.c == 1) (if sense then none else some med)) } }
  .next (if a < 396 then
      let cl := a / 3
      let s1 :=
        if 2 ≤ s1.failedOf [3 * cl, 3 * cl + 1, 3 * cl + 2] ∧ !(s1.cluster cl).power.failed then
          ((s1.modCluster cl fun c => { c with power := { c.power with failed := true } }).repoint cl).tellHost [3, BitVec.ofNat 8 cl]
        else s1
      if sense then s1
      else match s1.temperature cl med with
        | some t => s1.heatCluster cl t
        | none => s1
    else if a < 408 then
      let d := (a - 396) / 4
      if s1.failedOf ((upTo 4).map fun k => 396 + 4 * d + k) = 4 ∧ !s1.power.halved.contains d then
        { s1 with power := { s1.power with halved := s1.power.halved ++ [d] } }.tellHost [4, BitVec.ofNat 8 d]
      else s1
    else s)

/-- CLAMP_LIFT (R412): limit b of cluster a lifts, the temperature having been 5 °C below it for 10 ms.
(DESIGN CHOICE, log 65) -/
def evClampLift (s : State) : Outcome State Fault Refusal :=
  let cl := s.operand.a
  .next (match aget? (s.cluster cl).power.hot s.operand.b with
    | some (some since) =>
      if since + 10000000 ≤ s.now then
        (s.modCluster cl fun c => { c with power := { c.power with hot := adel c.power.hot s.operand.b } }).repoint cl
      else s
    | _ => s)

/-! ## Undervolting (R413, R414) -/

/-- UNDERVOLT_STEP (R413): at the end of 10 ms, cluster a, unless locked out, lowers its voltage by 5 mV, not below 500 mV, or raises it by 5 mV after
4 or more corrected errors.
(DESIGN CHOICE, log 64) -/
def evUndervoltStep (s : State) : Outcome State Fault Refusal :=
  let cl := s.operand.a
  .next (s.modCluster cl fun c =>
    let p := c.power
    if p.lockout.isSome ∨ s.now < p.stepAt + 10000000 then c
    else
      let u := if 4 ≤ p.errors then p.under - 5 else if 505 ≤ c.mv then p.under + 5 else p.under
      { c with power := { p with under := u, errors := 0, stepAt := s.now } })

/-- The report of RETRYABLE_POWER to an owner.
(DESIGN CHOICE, log 64) -/
def retryReport (owner id : Nat) : List Byte := toBytes 1 Cause.retryablePower.code ++ toBytes 2 owner ++ toBytes 4 id

/-- A task receives RETRYABLE_POWER (R367, R391): it is squashed when it is speculative, and otherwise runs again from its start. -/
def State.retryTask (s : State) (k : Nat) : State :=
  match s.task k with
  | some t => (if t.uncommitted then s.squash [k] else s.restart k).event (retryReport t.owner k)
  | none => s

/-- POWER_EVENT (R414): cluster a, which met an uncorrectable error below its safe set point, restores it and is locked out for 1 s, and every task with a
squad resident on it receives RETRYABLE_POWER.
(DESIGN CHOICE, log 64) -/
def evPowerEvent (s : State) : Outcome State Fault Refusal :=
  let cl := s.operand.a
  .next (if (s.cluster cl).power.event then
    let ks := s.residents cl
    let s := s.modCluster cl fun c => { c with power := { c.power with under := 0, errors := 0, event := false, lockout := some (s.now + 1000000000) } }
    (ks.foldl State.retryTask s).wakeTasks
  else s)

/-- UNDERVOLT_LOCKOUT_END (R414): the lockout of cluster a has lasted 1 s. -/
def evUndervoltLockoutEnd (s : State) : Outcome State Fault Refusal :=
  .next (s.modCluster s.operand.a fun c =>
    match c.power.lockout with
    | some t => if t ≤ s.now then { c with power := { c.power with lockout := none, stepAt := s.now } } else c
    | none => c)

end Sys2Proof.Machine
end

