-- ==== Sys2Proof/Machine/Fabric.lean ====
section
/-! DEFINITION. The Swithaoc fabric (25_fabric.md R433 to R443): requests performed at their target, answers that arrive, time-outs and shootdown
notices. -/

namespace Sys2Proof.Machine

open Host (Outcome)

/-! ## Requests at their target (R435, R437, R438) -/

/-- A request at its target: its source device, its number there, the owner, its code (0 load, 1 store, 2 + op an atomic, 10 CAS, 13 translation),
address, size and operands.
(DESIGN CHOICE, log 66) -/
structure FabReq where
  src : Nat
  num : Nat
  owner : Nat
  op : Nat
  addr : Nat
  size : Nat
  data : List Nat
deriving DecidableEq, Repr

/-- A request is held back at its target's Umpire, and its package is told (R438).
(DESIGN CHOICE, log 66) -/
def State.fabHeld (s : State) (src num : Nat) : State :=
  { s with fabric :=
      if src = s.fabric.devid then { s.fabric with out := s.fabric.out.map fun r => if r.id = num then { r with held := true } else r }
      else { s.fabric with sent := s.fabric.sent ++ [{ kind := 1, status := 8, conn := src, seq := BitVec.ofNat 64 num }] } }

/-- A violation of a request (R419, R438): its device is frozen for the die that it addresses, and the request waits there.
(DEDUCED, log 67) -/
def State.fabViolation (s : State) (r : FabReq) (code va pa target : Nat) : State :=
  let d := s.reqDie r.owner r.op r.addr
  let s := s.violate none
    { code := code, master := .fabric r.src d, die := d, cluster := 0xFF, owner := r.owner, target := target, va := va, pa := pa
      ident := r.src, lanes := 0 }
  ({ s with fabric := { s.fabric with
    frozenIn := if s.fabric.frozenIn.contains (r.src, d) then s.fabric.frozenIn else s.fabric.frozenIn ++ [(r.src, d)]
    waitingIn := s.fabric.waitingIn ++ [(r.src, d, r.num)] } } : State).fabHeld r.src r.num

/-- The status with which a failed access of a request is answered.
(DESIGN CHOICE, log 66) -/
def fabStatus (f : MemFail) : Nat :=
  match f with
  | .cause .poison _ => 2
  | .cause .uncorrectableData _ => 4
  | _ => 5

/-- A remote translation (R435): the frame, the bytes to the end of the page, the permissions, and log2 of the page size.
(DEDUCED, log 67) -/
def State.fabTranslate (s : State) (r : FabReq) : State :=
  let d := s.walkDie r.owner r.addr
  if !(aget? s.owners r.owner).any (·.remote) then s.fabViolation r 5 r.addr 0 0
  else match State.walkServed 2 s d r.owner r.addr {} with
    | (.ok x, s) =>
      if s.backed x.pa then
        s.fabricAnswer r.src r.num 0 (toBytes 8 x.pa ++ toBytes 8 (x.base + x.size - r.addr)
          ++ toBytes 1 (b2n (x.leaf.getLsbD 4) + 2 * b2n (x.leaf.getLsbD 5)) ++ toBytes 1 (Nat.log2 x.size))
      else s.fabricAnswer r.src r.num 5 []
    | (.error (.touch t), s) => s.addTouch d t
    | (.error (.violation c pa o), s) => s.fabViolation r c r.addr pa o
    | (.error f, s) => s.fabricAnswer r.src r.num (fabStatus f) []

/-- The violation that a request would be at its address: a region's pool, a sealed write, a write to configuration space, or a write to memory of
another owner.
(DEDUCED, log 67) -/
def State.fabGuard (s : State) (r : FabReq) (wr : Bool) : Option (Nat × Nat) :=
  if cfgBase ≤ r.addr then (if wr then some (4, 0) else none)
  else match s.guardPa r.addr r.size wr with
    | some (.violation c _ o) => some (c, o)
    | _ =>
      let o := s.tagOwner r.addr
      if wr && o != 0 && o != r.owner then some (1, o) else none

/-- The bytes that a request reads. -/
def State.fabRead (s : State) (r : FabReq) : MR (List Byte) :=
  if cfgBase ≤ r.addr then (.ok (s.cfgRead false r.addr r.size), s)
  else (s.linesCheck r.owner true (linesOf r.addr r.size)).andThen fun _ s => (.ok (s.bytesAt r.owner true r.addr r.size), s)

/-- What an atomic or CAS request stores over an old value, or none. -/
def FabReq.update (r : FabReq) (old : Nat) : Option Nat :=
  if r.op = 10 then (if old = r.data.getD 1 0 then some (r.data.getD 2 0) else none)
  else some (atomNew (r.op - 2) ((NumTy.ofCode (r.data.getD 0 0)).getD .i32) old (r.data.getD 1 0))

/-- The cluster of a request that the package makes of itself reads the line again, as after its own access past the L1 (R337, R439). -/
def State.fabForget (s : State) (r : FabReq) : State :=
  if r.src = s.fabric.devid then
    match s.fabric.out.find? fun x => x.id == r.num with
    | some x => s.l1Forget x.cluster r.owner (r.addr / 128)
    | none => s
  else s

/-- A request is performed at its target and answered; a translation that meets a first touch has it served (R320). A message of no request's code is a
forged system word (R419).
(DEDUCED, log 67) -/
def State.fabPerform (s : State) (r : FabReq) : State :=
  if r.op = 13 then s.fabTranslate r
  else if 10 < r.op then s.fabViolation r 3 r.addr 0 0
  else match s.fabGuard r (r.op != 0) with
    | some (code, o) => s.fabViolation r code 0 r.addr o
    | none =>
      let s := s.fabForget r
      if r.op = 1 then (s.writeMem r.owner true r.addr (toBytes r.size (r.data.getD 0 0))).fabricAnswer r.src r.num 0 []
      else match s.fabRead r with
        | (.error f, s) => s.fabricAnswer r.src r.num (fabStatus f) []
        | (.ok old, s) =>
          let s := if r.op = 0 then s
            else match r.update (ofBytes old) with
              | some v => s.writeMem r.owner true r.addr (toBytes r.size v)
              | none => s
          s.fabricAnswer r.src r.num 0 old

/-- A source device is frozen for a die.
(DEDUCED, log 67) -/
def State.srcFrozen (s : State) (src d : Nat) : Bool := s.fabric.frozenIn.contains (src, d)

/-- 64-bit words of a message. -/
def dataWords : Nat → List Byte → List Nat
  | 0, _ => []
  | n + 1, bs => ofBytes (bs.take 8) :: dataWords n (bs.drop 8)

/-- The request that a message from another package carries.
(DESIGN CHOICE, log 66) -/
def fabReqOf (f : HostFrame) : FabReq :=
  { src := f.conn, num := f.seq.toNat, owner := f.owner, op := f.kind, addr := f.addr.toNat, size := f.len, data := dataWords (f.data.length / 8) f.data }

/-- A request of another package: one to which shootdown notices are owed gets them with WINDOW_INVALID (R436); one from a device that is frozen for
the die waits (R420).
(DESIGN CHOICE, log 66) -/
def State.fabArrive (s : State) (f : HostFrame) : State :=
  let r := fabReqOf f
  let d := s.reqDie r.owner r.op r.addr
  let owed := s.fabric.owed.filter fun n => n.1 == r.src
  if !owed.isEmpty then
    ({ s with fabric := { s.fabric with owed := s.fabric.owed.filter fun n => n.1 != r.src } } : State).fabricAnswer r.src r.num 3
      (owed.flatMap (·.2))
  else if s.srcFrozen r.src d then ({ s with fabric := { s.fabric with held := s.fabric.held ++ [(d, f)] } } : State).fabHeld r.src r.num
  else s.fabPerform r

/-- The oldest held request whose device is no longer frozen goes on.
(DEDUCED, log 67) -/
def State.fabResume (s : State) : State :=
  match s.fabric.held.find? fun f => !s.srcFrozen f.2.conn f.1 with
  | some f => ({ s with fabric := { s.fabric with held := s.fabric.held.erase f } } : State).fabPerform (fabReqOf f.2)
  | none => s

/-- REMOTE_REQUEST (R437): a request of another package arrives with the message (device, number, owner, code, address, size, operand words); without
one the package's own request a to itself is performed, or with b = 1 the oldest held request of a released device goes on.
(DESIGN CHOICE, log 66) -/
def evRemoteRequest (s : State) : Outcome State Fault Refusal :=
  .next (match s.operand.frame with
    | some f => if f.conn = s.fabric.devid then s else s.fabArrive f
    | none =>
      if s.operand.b = 1 then s.fabResume
      else match s.fabric.out.find? fun r => r.id == s.operand.a && r.dev == s.fabric.devid with
        | none => s
        | some r =>
          let o := s.reqOwner r
          if s.reqSettled r.id || s.srcFrozen r.dev (s.reqDie o r.op r.addr) then s
          else s.fabPerform { src := r.dev, num := r.id, owner := o, op := r.op, addr := r.addr, size := r.size, data := r.data })

/-! ## Answers (R437, R442) -/

/-- The teams and contexts of a cluster that wait for a remote access, or for a place among the outstanding ones (R434), execute their words again.
(DESIGN CHOICE, log 39) -/
def State.wakeRemote (s : State) (cl : Nat) : State :=
  { s with squads := s.squads.map fun p =>
      if p.2.cluster = cl then
        (p.1, { p.2 with
          teams := p.2.teams.map fun tm => if tm.wait = some .remote then { tm with wait := none } else tm
          ctxs := p.2.ctxs.map fun cx => if cx.wait = some .remote then { cx with wait := none } else cx })
      else p }

/-- The unit of a request still exists. -/
def State.unitLives (s : State) (u : UnitRef) : Bool :=
  match u with
  | .team q t => (s.team q t).isSome
  | .ctx q c => (s.ctx q c).isSome

/-- The windows on pages of an owner's range at a device go (R436). -/
def State.dropRemote (s : State) (dev owner va n : Nat) : State :=
  { s with squads := s.squads.map fun p => (p.1, { p.2 with teams := p.2.teams.map fun tm => tm.dropWindows dev false owner va n }) }

/-- The shootdown notices of a device, in turn (R436). -/
def State.noticed (s : State) (dev : Nat) : Nat → List Byte → State
  | 0, _ => s
  | f + 1, bs => (s.dropRemote dev (ofBytes (bs.take 2)) (ofBytes ((bs.drop 2).take 8)) (ofBytes ((bs.drop 10).take 8))).noticed dev f (bs.drop 18)

/-- The package answers a shootdown notice of another once the requests through the windows that it invalidated have been answered (R316, R436).
(DESIGN CHOICE, log 66) -/
def State.answerNotices (s : State) : State :=
  let open_ (i : Nat) : Bool := s.fabric.out.any fun r => r.id == i && !s.reqSettled i
  let ready := s.fabric.notices.filter fun n => !n.2.any open_
  { s with fabric := { s.fabric with
    notices := s.fabric.notices.filter fun n => n.2.any open_
    sent := s.fabric.sent ++ ready.map fun n => { kind := 2, status := 0, conn := n.1.1, seq := n.1.2 } } }

/-- The response to a request is later than R442 allows: more than 1 ms after its issue, unless the Umpire of its target held it back (R438).
(DEDUCED, log 67) -/
def State.tooLate (s : State) (r : RemoteReq) : Bool := !r.held && decide (r.issued + 1000000 < s.now)

/-- The result of a request arrives at its cluster, the notices that come with status 3 first; that of a prefetch, and of a unit that is gone, is dropped,
and one that comes too late is none (R442).
(DESIGN CHOICE, log 66) -/
def State.settleReq (s : State) (r : RemoteReq) (status : Nat) (bs : List Byte) : State :=
  let s := if status = 3 then s.noticed r.dev (bs.length / 18) bs else s
  let status := if s.tooLate r then 1 else status
  let f := s.fabric
  let answers := f.answers.filter fun z => z.1 != r.id
  let g := if s.unitLives r.src && r.lane != prefetchLane then { f with answers := answers, results := f.results ++ [(r.id, status, bs)] }
    else { f with answers := answers, out := f.out.filter fun x => x.id != r.id }
  (({ s with fabric := g } : State).wakeRemote r.cluster).answerNotices

/-- A request waits at the Umpire of its target. -/
def State.fabWaits (s : State) (id : Nat) : State :=
  { s with fabric := { s.fabric with out := s.fabric.out.map fun r => if r.id = id then { r with held := true } else r } }

/-- REMOTE_RESPONSE (R437): the response to request a arrives: of the package itself, or of another package in the message, its kind the status; the word
that the Umpire of the target holds the request back, kind 8, comes the same way.
(DESIGN CHOICE, log 56; DESIGN CHOICE, log 66) -/
def evRemoteResponse (s : State) : Outcome State Fault Refusal :=
  let f := s.fabric
  .next (match f.out.find? fun r => r.id == s.operand.a with
    | none => s
    | some r =>
      if f.results.any fun z => z.1 == r.id then s
      else if r.dev = f.devid then
        match f.answers.find? fun z => z.1 == r.id with
        | some (_, status, bs) => s.settleReq r status bs
        | none => s
      else match s.operand.frame with
        | some m => if m.conn ≠ r.dev then s else if m.kind = 8 then s.fabWaits r.id else s.settleReq r m.kind m.data
        | none => s)

/-- REMOTE_TIMEOUT (R442): request a has had no response for 1 ms. A request that waits at its target's Umpire is not timed out (R438).
(DEDUCED, log 67) -/
def evRemoteTimeout (s : State) : Outcome State Fault Refusal :=
  let f := s.fabric
  .next (match f.out.find? fun r => r.id == s.operand.a with
    | none => s
    | some r =>
      let waits := r.held || (f.waitingIn.any fun w => w.1 == f.devid && w.2.2 == r.id)
        || (r.dev == f.devid && s.srcFrozen r.dev (s.reqDie (s.reqOwner r) r.op r.addr))
      if (f.results.any fun z => z.1 == r.id) || waits || s.now < r.issued + 1000000 then s
      else s.settleReq r 1 [])

/-- SHOOTDOWN_NOTICE (R436): a shootdown on another package (the message's connection) of an owner's range: the windows on that page go, and the
package answers once the requests through them have been answered; without a message, the notices that can be answered are.
(DESIGN CHOICE, log 66) -/
def evShootdownNotice (s : State) : Outcome State Fault Refusal :=
  .next (match s.operand.frame with
    | none => s.answerNotices
    | some f =>
      if f.conn = s.fabric.devid then s
      else
        let use := s.remoteUse f.conn f.owner f.addr.toNat f.len
        let s := s.dropRemote f.conn f.owner f.addr.toNat f.len
        ({ s with fabric := { s.fabric with notices := s.fabric.notices ++ [((f.conn, f.seq), use)] } } : State).answerNotices)

end Sys2Proof.Machine
end

