-- ==== Sys2Proof/Machine/LaneAlu.lean ====
section
/-! DEFINITION. The integer lane words (05_lane_alu.md R99 to R103) and LNOP (02_encoding.md R42). -/

namespace Sys2Proof.Machine

open Host (Outcome)

/-- SAT of a word (R29, R100). -/
def satOf (ex : BitVec 8) : Bool := ex.getLsbD 2

/-- A word with one integer result of its type from A, for each lane of M. -/
def LaneIn.int1 (x : LaneIn) (w : LR) (f : NumTy → Nat → Nat) : LaneRes :=
  let t := x.ty w.ty
  x.plain t w.d.toNat fun l => f t (x.opTy t l w.a.toNat)

/-- A word with one integer result of its type from A and B. -/
def LaneIn.int2 (x : LaneIn) (w : LR) (f : NumTy → Nat → Nat → Nat) : LaneRes :=
  let t := x.ty w.ty
  x.plain t w.d.toNat fun l => f t (x.opTy t l w.a.toNat) (x.opTy t l w.b.toNat)

/-- A word with one integer result of its type from A, B and C. -/
def LaneIn.int3 (x : LaneIn) (w : LR) (f : NumTy → Nat → Nat → Nat → Nat) : LaneRes :=
  let t := x.ty w.ty
  x.plain t w.d.toNat fun l => f t (x.opTy t l w.a.toNat) (x.opTy t l w.b.toNat) (x.opTy t l w.c.toNat)

/-- ext(imm) of R103. -/
def immExt (t : NumTy) (imm : BitVec 32) : Nat :=
  if t = .i64 then (imm.signExtend 64).toNat else imm.toNat

/-- An immediate word: A and ext(imm). -/
def LaneIn.intI (x : LaneIn) (w : LI) (f : NumTy → Nat → Nat → Nat) : LaneRes :=
  let t := x.ty w.ty
  x.plain t w.d.toNat fun l => f t (x.opTy t l w.a.toNat) (immExt t w.imm)

/-! ## Results -/

/-- a + b × 2^k, wrapped or clamped (R99, R100). -/
def iaddsOf (t : NumTy) (sat : Bool) (k a b : Nat) : Nat := t.narrow sat (t.toInt a + t.toInt b * (2 ^ k : Nat))

/-- Integer quotient (R62). -/
def idivOf (t : NumTy) (a b : Nat) : Nat :=
  if t.toInt b = 0 then 2 ^ t.width - 1 else wrapN (Int.tdiv (t.toInt a) (t.toInt b)) t.width

/-- Integer remainder (R62). -/
def iremOf (t : NumTy) (a b : Nat) : Nat :=
  if t.toInt b = 0 then a else wrapN (Int.tmod (t.toInt a) (t.toInt b)) t.width

/-- Logical right shift of a `w`-bit value. -/
def shrOf (w a n : Nat) : Nat := a >>> (n % w)
/-- Left shift within `w` bits. -/
def shlOf (w a n : Nat) : Nat := (a <<< (n % w)) % 2 ^ w
/-- Arithmetic right shift within `w` bits. -/
def sarOf (w a n : Nat) : Nat := wrapN (signed a w >>> (n % w)) w
/-- Left rotation within `w` bits. -/
def rotOf (w a n : Nat) : Nat := ((a <<< (n % w)) ||| (a >>> (w - n % w))) % 2 ^ w

/-- Bit-field extract (R101). -/
def bfxOf (sg : Bool) (w a b : Nat) : Nat :=
  let o := fieldN b 0 6
  let n := min (fieldN b 8 7) w
  let f := fieldN (a % 2 ^ w) o n
  if n = 0 then 0 else if sg then wrapN (signed f n) w else f

/-- Bit-field insert (R101). -/
def bfiOf (w a b c : Nat) : Nat :=
  let o := fieldN b 0 6
  let n := min (fieldN b 8 7) w
  putField c o n a % 2 ^ w

/-- The conditions of R102 on two exact values. -/
def intCond (k : Nat) (a b : Int) : Bool :=
  match k with
  | 0 => a == b
  | 1 => a != b
  | 2 => decide (a < b)
  | 3 => decide (a ≤ b)
  | 4 => decide (b < a)
  | _ => decide (b ≤ a)

/-! ## Meanings -/

/-- LNOP (R42). -/
def execLnop (w : LR) (s : State) : Outcome State Fault Refusal := laneRun (.lnop w) w.ms (fun x => .done x.s) s

/-- IADD (R99). -/
def execIadd (w : LR) (s : State) : Outcome State Fault Refusal :=
  laneRun (.iadd w) w.ms (fun x => x.int2 w fun t a b => t.narrow (satOf w.ex) (t.toInt a + t.toInt b)) s

/-- ISUB (R99). -/
def execIsub (w : LR) (s : State) : Outcome State Fault Refusal :=
  laneRun (.isub w) w.ms (fun x => x.int2 w fun t a b => t.narrow (satOf w.ex) (t.toInt a - t.toInt b)) s

/-- IMUL (R99). -/
def execImul (w : LR) (s : State) : Outcome State Fault Refusal :=
  laneRun (.imul w) w.ms (fun x => x.int2 w fun t a b => t.narrow (satOf w.ex) (t.toInt a * t.toInt b)) s

/-- IMULHI (R99). -/
def execImulhi (w : LR) (s : State) : Outcome State Fault Refusal :=
  laneRun (.imulhi w) w.ms (fun x => x.int2 w fun t a b => wrapN ((t.toInt a * t.toInt b) >>> t.width) t.width) s

/-- IMAD (R99). -/
def execImad (w : LR) (s : State) : Outcome State Fault Refusal :=
  laneRun (.imad w) w.ms (fun x => x.int3 w fun t a b c => t.narrow (satOf w.ex) (t.toInt a * t.toInt b + t.toInt c)) s

/-- IMADW (R99): C and D are pairs, the result in the 64-bit type of the word's signedness. -/
def execImadw (w : LR) (s : State) : Outcome State Fault Refusal :=
  laneRun (.imadw w) w.ms (fun x =>
    let t := x.ty w.ty
    let t64 : NumTy := if t.isSigned then .i64 else .n64
    x.plain t64 w.d.toNat fun l =>
      t64.narrow (satOf w.ex) (t.toInt (x.opTy t l w.a.toNat) * t.toInt (x.opTy t l w.b.toNat) + t64.toInt (x.op64 l w.c.toNat))) s

/-- IDIV (R62, R99). -/
def execIdiv (w : LR) (s : State) : Outcome State Fault Refusal := laneRun (.idiv w) w.ms (fun x => x.int2 w idivOf) s

/-- IREM (R62, R99). -/
def execIrem (w : LR) (s : State) : Outcome State Fault Refusal := laneRun (.irem w) w.ms (fun x => x.int2 w iremOf) s

/-- IMIN (R99). -/
def execImin (w : LR) (s : State) : Outcome State Fault Refusal :=
  laneRun (.imin w) w.ms (fun x => x.int2 w fun t a b => if t.toInt b < t.toInt a then b else a) s

/-- IMAX (R99). -/
def execImax (w : LR) (s : State) : Outcome State Fault Refusal :=
  laneRun (.imax w) w.ms (fun x => x.int2 w fun t a b => if t.toInt a < t.toInt b then b else a) s

/-- IABS (R99). -/
def execIabs (w : LR) (s : State) : Outcome State Fault Refusal :=
  laneRun (.iabs w) w.ms (fun x => x.int1 w fun t a => t.narrow (satOf w.ex) ((t.toInt a).natAbs : Int)) s

/-- IADDS (R99). -/
def execIadds (w : LR) (s : State) : Outcome State Fault Refusal :=
  laneRun (.iadds w) w.ms (fun x => x.int2 w fun t a b => iaddsOf t (satOf w.ex) (fieldN w.fn.toNat 0 6) a b) s

/-- AND (R99). -/
def execAndv (w : LR) (s : State) : Outcome State Fault Refusal :=
  laneRun (.andv w) w.ms (fun x => x.int2 w fun _ a b => a &&& b) s

/-- OR (R99). -/
def execOrv (w : LR) (s : State) : Outcome State Fault Refusal :=
  laneRun (.orv w) w.ms (fun x => x.int2 w fun _ a b => a ||| b) s

/-- XOR (R99). -/
def execXorv (w : LR) (s : State) : Outcome State Fault Refusal :=
  laneRun (.xorv w) w.ms (fun x => x.int2 w fun _ a b => a ^^^ b) s

/-- ANDN (R99). -/
def execAndn (w : LR) (s : State) : Outcome State Fault Refusal :=
  laneRun (.andn w) w.ms (fun x => x.int2 w fun t a b => a &&& (2 ^ t.width - 1 - b)) s

/-- SHL (R99). -/
def execShl (w : LR) (s : State) : Outcome State Fault Refusal :=
  laneRun (.shl w) w.ms (fun x => x.int2 w fun t a b => shlOf t.width a b) s

/-- SHR (R99). -/
def execShr (w : LR) (s : State) : Outcome State Fault Refusal :=
  laneRun (.shr w) w.ms (fun x => x.int2 w fun t a b => shrOf t.width a b) s

/-- SAR (R99). -/
def execSar (w : LR) (s : State) : Outcome State Fault Refusal :=
  laneRun (.sar w) w.ms (fun x => x.int2 w fun t a b => sarOf t.width a b) s

/-- ROT (R99). -/
def execRot (w : LR) (s : State) : Outcome State Fault Refusal :=
  laneRun (.rot w) w.ms (fun x => x.int2 w fun t a b => rotOf t.width a b) s

/-- POPC (R99). -/
def execPopc (w : LR) (s : State) : Outcome State Fault Refusal :=
  laneRun (.popc w) w.ms (fun x => x.int1 w fun t a => popN t.width a) s

/-- CLZ (R99). -/
def execClz (w : LR) (s : State) : Outcome State Fault Refusal :=
  laneRun (.clz w) w.ms (fun x => x.int1 w fun t a => clzN t.width a) s

/-- BREV (R99). -/
def execBrev (w : LR) (s : State) : Outcome State Fault Refusal :=
  laneRun (.brev w) w.ms (fun x => x.int1 w fun t a => revN t.width a) s

/-- BFX (R101). -/
def execBfx (w : LR) (s : State) : Outcome State Fault Refusal :=
  laneRun (.bfx w) w.ms (fun x => x.int2 w fun t a b => bfxOf t.isSigned t.width a b) s

/-- BFI (R101). -/
def execBfi (w : LR) (s : State) : Outcome State Fault Refusal :=
  laneRun (.bfi w) w.ms (fun x => x.int3 w fun t a b c => bfiOf t.width a b c) s

/-- MOV (R99). -/
def execMov (w : LR) (s : State) : Outcome State Fault Refusal := laneRun (.mov w) w.ms (fun x => x.int1 w fun _ a => a) s

/-- SEL (R99). -/
def execSel (w : LR) (s : State) : Outcome State Fault Refusal :=
  laneRun (.sel w) w.ms (fun x =>
    let t := x.ty w.ty
    let k := x.tm.m (fieldN w.fn.toNat 0 3)
    x.plain t w.d.toNat fun l => if k.getLsbD l then x.opTy t l w.a.toNat else x.opTy t l w.b.toNat) s

/-- ICMP (R102). -/
def execIcmp (w : LR) (s : State) : Outcome State Fault Refusal :=
  laneRun (.icmp w) w.ms (fun x =>
    let t := x.ty w.ty
    x.maskOut w.d.toNat fun l => intCond w.fn.toNat (t.toInt (x.opTy t l w.a.toNat)) (t.toInt (x.opTy t l w.b.toNat))) s

/-- LDI (R103). -/
def execLdi (w : LI) (s : State) : Outcome State Fault Refusal :=
  laneRun (.ldi w) w.ms (fun x =>
    let t := x.ty w.ty
    x.plain t w.d.toNat fun _ => immExt t w.imm) s

/-- IADDI (R103). -/
def execIaddi (w : LI) (s : State) : Outcome State Fault Refusal :=
  laneRun (.iaddi w) w.ms (fun x => x.intI w fun t a b => (a + b) % 2 ^ t.width) s

/-- IMULI (R103). -/
def execImuli (w : LI) (s : State) : Outcome State Fault Refusal :=
  laneRun (.imuli w) w.ms (fun x => x.intI w fun t a b => (a * b) % 2 ^ t.width) s

/-- ANDI (R103). -/
def execAndi (w : LI) (s : State) : Outcome State Fault Refusal :=
  laneRun (.andi w) w.ms (fun x => x.intI w fun _ a b => a &&& b) s

/-- ORI (R103). -/
def execOri (w : LI) (s : State) : Outcome State Fault Refusal :=
  laneRun (.ori w) w.ms (fun x => x.intI w fun _ a b => a ||| b) s

/-- XORI (R103). -/
def execXori (w : LI) (s : State) : Outcome State Fault Refusal :=
  laneRun (.xori w) w.ms (fun x => x.intI w fun _ a b => a ^^^ b) s

/-- SHIFTI (R103). -/
def execShifti (w : LI) (s : State) : Outcome State Fault Refusal :=
  laneRun (.shifti w) w.ms (fun x => x.intI w fun t a _ =>
    let n := fieldN w.imm.toNat 0 6
    match fieldN w.imm.toNat 6 2 with
    | 0 => shlOf t.width a n
    | 1 => shrOf t.width a n
    | 2 => sarOf t.width a n
    | _ => rotOf t.width a n) s

/-- ICMPI (R103). -/
def execIcmpi (w : LI) (s : State) : Outcome State Fault Refusal :=
  laneRun (.icmpi w) w.ms (fun x =>
    let t := x.ty w.ty
    x.maskOut (fieldN w.d.toNat 0 3) fun l =>
      intCond (fieldN w.d.toNat 3 5) (t.toInt (x.opTy t l w.a.toNat)) (t.toInt (immExt t w.imm))) s

end Sys2Proof.Machine
end

