-- ==== Sys2Proof/Machine/GenScalar.lean ====
section
/-! DEFINITION. The scalar integer and float words of a generator context (09_cluster_generator.md R214 to R218). -/

namespace Sys2Proof.Machine

open Host (Outcome)

/-! ## Integer words of format GR (R214, R215) -/

/-- The integer type of the word's width and of its U bit. -/
def szTy (sz : Nat) (u : Bool) : NumTy :=
  match sz, u with
  | 0, false => .i64 | 0, true => .n64 | 1, false => .i32 | 1, true => .n32
  | 2, false => .i16 | 2, true => .n16 | _, false => .i8 | _, true => .n8

/-- U of a GR integer word. -/
def unsignedGR (w : GR) : Bool := w.fn.getLsbD 1

/-- The type a GR integer word works in. -/
def grTy (w : GR) : NumTy := szTy w.sz.toNat (unsignedGR w)

/-- A word with a w-bit result: D extended under U, and CC under .CC (R214). -/
def GenIn.int (x : GenIn) (w : GR) (r : Nat) (cc : CC) : GenRes :=
  let cx := x.cx.setS w.d.toNat (extRes (szWidth w.sz.toNat) (unsignedGR w) r)
  x.finish (if w.fn.getLsbD 2 then { cx with cc := cc } else cx)

/-- A word whose .CC clears C and V. -/
def GenIn.intZ (x : GenIn) (w : GR) (r : Nat) : GenRes := x.int w r (ccOf (szWidth w.sz.toNat) r false false)

/-- A word of a and b whose .CC clears C and V. -/
def GenIn.int2Z (x : GenIn) (w : GR) (f : NumTy → Nat → Nat → Nat) : GenRes := x.intZ w (f (grTy w) (x.a w) (x.b w))

/-- SADD (R215). -/
def execSadd (w : GR) (s : State) : Outcome State Fault Refusal :=
  genRun (.sadd w) w.cnd (fun x => x.int w (x.a w + x.b w) (ccAdd (szWidth w.sz.toNat) (x.a w) (x.b w))) s

/-- SSUB (R215). -/
def execSsub (w : GR) (s : State) : Outcome State Fault Refusal :=
  genRun (.ssub w) w.cnd (fun x =>
    let wd := szWidth w.sz.toNat
    x.int w (x.a w + (2 ^ wd - x.b w)) (ccSub wd (x.a w) (x.b w))) s

/-- SMUL (R215). -/
def execSmul (w : GR) (s : State) : Outcome State Fault Refusal :=
  genRun (.smul w) w.cnd (fun x => x.int2Z w fun t a b => a * b % 2 ^ t.width) s

/-- SMULHI (R215). -/
def execSmulhi (w : GR) (s : State) : Outcome State Fault Refusal :=
  genRun (.smulhi w) w.cnd (fun x => x.int2Z w fun t a b => wrapN ((t.toInt a * t.toInt b) >>> t.width) t.width) s

/-- SDIV (R62, R215). -/
def execSdiv (w : GR) (s : State) : Outcome State Fault Refusal := genRun (.sdiv w) w.cnd (fun x => x.int2Z w idivOf) s

/-- SREM (R62, R215). -/
def execSrem (w : GR) (s : State) : Outcome State Fault Refusal := genRun (.srem w) w.cnd (fun x => x.int2Z w iremOf) s

/-- SMIN (R215). -/
def execSmin (w : GR) (s : State) : Outcome State Fault Refusal :=
  genRun (.smin w) w.cnd (fun x => x.int2Z w fun t a b => if t.toInt b < t.toInt a then b else a) s

/-- SMAX (R215). -/
def execSmax (w : GR) (s : State) : Outcome State Fault Refusal :=
  genRun (.smax w) w.cnd (fun x => x.int2Z w fun t a b => if t.toInt a < t.toInt b then b else a) s

/-- SAND (R215). -/
def execSand (w : GR) (s : State) : Outcome State Fault Refusal := genRun (.sand w) w.cnd (fun x => x.int2Z w fun _ a b => a &&& b) s

/-- SOR (R215). -/
def execSor (w : GR) (s : State) : Outcome State Fault Refusal := genRun (.sor w) w.cnd (fun x => x.int2Z w fun _ a b => a ||| b) s

/-- SXOR (R215). -/
def execSxor (w : GR) (s : State) : Outcome State Fault Refusal := genRun (.sxor w) w.cnd (fun x => x.int2Z w fun _ a b => a ^^^ b) s

/-- SSHL (R215). -/
def execSshl (w : GR) (s : State) : Outcome State Fault Refusal :=
  genRun (.sshl w) w.cnd (fun x => x.int2Z w fun t a b => shlOf t.width a b) s

/-- SSHR (R215). -/
def execSshr (w : GR) (s : State) : Outcome State Fault Refusal :=
  genRun (.sshr w) w.cnd (fun x => x.int2Z w fun t a b => shrOf t.width a b) s

/-- SSAR (R215). -/
def execSsar (w : GR) (s : State) : Outcome State Fault Refusal :=
  genRun (.ssar w) w.cnd (fun x => x.int2Z w fun t a b => sarOf t.width a b) s

/-- SPOPC (R215). -/
def execSpopc (w : GR) (s : State) : Outcome State Fault Refusal :=
  genRun (.spopc w) w.cnd (fun x => x.intZ w (popN 64 (x.a w))) s

/-- SCLZ (R215). -/
def execSclz (w : GR) (s : State) : Outcome State Fault Refusal :=
  genRun (.sclz w) w.cnd (fun x => x.intZ w (clzN (szWidth w.sz.toNat) (x.a w))) s

/-- SBFX (R215). -/
def execSbfx (w : GR) (s : State) : Outcome State Fault Refusal :=
  genRun (.sbfx w) w.cnd (fun x => x.int2Z w fun t a b => bfxOf t.isSigned t.width a b) s

/-- SBFI (R215). -/
def execSbfi (w : GR) (s : State) : Outcome State Fault Refusal :=
  genRun (.sbfi w) w.cnd (fun x =>
    let wd := szWidth w.sz.toNat
    x.intZ w (bfiOf wd (x.a w) (x.b w) ((x.rd.S w.d.toNat).toNat % 2 ^ wd))) s

/-- SMOV (R215). -/
def execSmov (w : GR) (s : State) : Outcome State Fault Refusal :=
  genRun (.smov w) w.cnd (fun x => x.intZ w (if w.fn.getLsbD 0 then x.b w else x.a w)) s

/-- SSEL (R215): it selects on CC and never sets it. -/
def execSsel (w : GR) (s : State) : Outcome State Fault Refusal :=
  genRun (.ssel w) w.cnd (fun x =>
    let r := if x.cx.cc.holds (fieldN w.fn.toNat 4 4) then x.a w else x.b w
    x.finish (x.cx.setS w.d.toNat (extRes (szWidth w.sz.toNat) (unsignedGR w) r))) s

/-! ## Float words (R217, R218) -/

/-- The float type of an SZ code. -/
def szFloat (sz : Nat) : NumTy := if sz = 8 then .f32 else .f64

/-- The value a float word reads from a register: an F32 lies in the low half (R217). -/
def GenIn.fval (x : GenIn) (sz r : Nat) : XVal :=
  let t := szFloat sz
  t.decode ((x.rd.S r).toNat % 2 ^ t.width)

/-- RND of a float word. -/
def grRnd (w : GR) : Rnd := Rnd.ofCode (fieldN w.fn.toNat 0 2)
/-- OVF of a float word. -/
def grOvf (w : GR) : Ovf := Ovf.ofCode (fieldN w.fn.toNat 2 2)

/-- A word with a rounded float result: under OVF 11 an overflow traps with neither D nor CC written (R218) and
every information word zero (R67). -/
def GenIn.flt (x : GenIn) (w : GR) (t : NumTy) (r : Rounded) : GenRes :=
  if r.trap then .trap .fpOverflow [] x.s
  else x.finish { x.cx.setS w.d.toNat (BitVec.ofNat 64 r.code) with cc := ccFloat t r }

/-- SCMP (R215, R218). -/
def execScmp (w : GR) (s : State) : Outcome State Fault Refusal :=
  genRun (.scmp w) w.cnd (fun x =>
    if 8 ≤ w.sz.toNat then
      let t := szFloat w.sz.toNat
      let bv := if w.fn.getLsbD 0 then wrapN (signed w.imm.toNat 16) 64 else (x.rd.S w.b.toNat).toNat
      x.finish { x.cx with cc := ccCmp (x.fval w.sz.toNat w.a.toNat) (t.decode (bv % 2 ^ t.width)) }
    else x.finish { x.cx with cc := ccSub (szWidth w.sz.toNat) (x.a w) (x.b w) }) s

/-- SFADD (R218). -/
def execSfadd (w : GR) (s : State) : Outcome State Fault Refusal :=
  genRun (.sfadd w) w.cnd (fun x =>
    let t := szFloat w.sz.toNat
    x.flt w t (roundX t (grRnd w) (grOvf w) (xadd (grRnd w) (x.fval w.sz.toNat w.a.toNat) (x.fval w.sz.toNat w.b.toNat)))) s

/-- SFMUL (R218). -/
def execSfmul (w : GR) (s : State) : Outcome State Fault Refusal :=
  genRun (.sfmul w) w.cnd (fun x =>
    let t := szFloat w.sz.toNat
    x.flt w t (roundX t (grRnd w) (grOvf w) (xmul (x.fval w.sz.toNat w.a.toNat) (x.fval w.sz.toNat w.b.toNat)))) s

/-- SFFMA (R218). -/
def execSffma (w : GR) (s : State) : Outcome State Fault Refusal :=
  genRun (.sffma w) w.cnd (fun x =>
    let t := szFloat w.sz.toNat
    let v := x.fval w.sz.toNat
    x.flt w t (roundX t (grRnd w) (grOvf w) (xfma (grRnd w) (v w.a.toNat) (v w.b.toNat) (v w.d.toNat)))) s

/-- CC of a float-to-integer conversion (R218): N is the sign of the integer that D holds.
(DEDUCED, log 20) -/
def ccInt (t : NumTy) (r : Rounded) : CC :=
  { z := r.code == 0, n := decide (t.toInt r.code < 0), c := r.flags.getLsbD 0, v := r.flags.getLsbD 4 }

/-- SFCVT (R63, R218).
(DEDUCED, log 20) -/
def execSfcvt (w : GR) (s : State) : Outcome State Fault Refusal :=
  genRun (.sfcvt w) w.cnd (fun x =>
    let src := fieldN w.fn.toNat 4 4
    let dst := w.sz.toNat
    let u := w.imm.getLsbD 0
    let v : XVal :=
      if src < 8 then
        let t := szTy src u
        XVal.ofInt (t.toInt ((x.rd.S w.a.toNat).toNat % 2 ^ t.width))
      else x.fval src w.a.toNat
    if dst < 8 then
      let t := szTy dst u
      let r := toIntTy t v (grRnd w)
      x.finish { x.cx.setS w.d.toNat (extRes t.width u r.code) with cc := ccInt t r }
    else
      let t := szFloat dst
      x.flt w t (roundX t (grRnd w) (grOvf w) (v, fIf v.isSnan fIV))) s

/-! ## Words of format GI (R216) -/

/-- The operand a of a GI word. -/
def GenIn.ai (x : GenIn) (w : GI) : Nat := (x.rd.S w.a.toNat).toNat % 2 ^ szWidth w.sz.toNat

/-- SignExtend(IMM32)[w−1:0]. -/
def bImm (w : GI) : Nat := (imm32 w.imm).toNat % 2 ^ szWidth w.sz.toNat

/-- A GI word with a sign-extended result. -/
def GenIn.gi (x : GenIn) (w : GI) (r : Nat) : GenRes := x.finish (x.cx.setS w.d.toNat (extRes (szWidth w.sz.toNat) false r))

/-- SLDI (R216). -/
def execSldi (w : GI) (s : State) : Outcome State Fault Refusal :=
  genRun (.sldi w) w.cnd (fun x => x.finish (x.cx.setS w.d.toNat (imm32 w.imm))) s

/-- SLDIH (R216). -/
def execSldih (w : GI) (s : State) : Outcome State Fault Refusal :=
  genRun (.sldih w) w.cnd (fun x => x.finish (x.cx.setS w.d.toNat (w.imm ++ (x.rd.S w.d.toNat).extractLsb' 0 32))) s

/-- SADDI (R216). -/
def execSaddi (w : GI) (s : State) : Outcome State Fault Refusal :=
  genRun (.saddi w) w.cnd (fun x => x.gi w (x.ai w + bImm w)) s

/-- SANDI (R216). -/
def execSandi (w : GI) (s : State) : Outcome State Fault Refusal :=
  genRun (.sandi w) w.cnd (fun x => x.gi w (x.ai w &&& bImm w)) s

/-- SSHLI (R216). -/
def execSshli (w : GI) (s : State) : Outcome State Fault Refusal :=
  genRun (.sshli w) w.cnd (fun x => x.gi w (shlOf (szWidth w.sz.toNat) (x.ai w) (fieldN w.imm.toNat 0 6))) s

/-- SCMPI (R216). -/
def execScmpi (w : GI) (s : State) : Outcome State Fault Refusal :=
  genRun (.scmpi w) w.cnd (fun x => x.finish { x.cx with cc := ccSub (szWidth w.sz.toNat) (x.ai w) (bImm w) }) s

end Sys2Proof.Machine
end

