-- ==== Sys2Proof/Machine/GenVote.lean ====
section
/-! DEFINITION. Reading votes (09_cluster_generator.md R237, R238): VREAD, VPEEK and VOTE_READABLE. -/

namespace Sys2Proof.Machine

open Host (Outcome)

/-- The record at the head of a context's queue, when it is readable: it was made so, or its upper bound has passed (R237). -/
def Ctx.readableHead (cx : Ctx) (cycle : Nat) : Option DWord :=
  match cx.votes with
  | v :: _ => if v.readable || decide (v.upper ≤ cycle) then some v.rec_ else none
  | [] => none

/-- CC of a record read (R238). -/
def voteCC (r : DWord) : CC := { z := !r.getLsbD 16, n := false, c := r.getLsbD 17, v := false }

/-- A vote of the context is outstanding (R238). -/
def State.voteOutstanding (s : State) (q c : Nat) (cx : Ctx) : Bool :=
  !cx.seq.isEmpty || !cx.votes.isEmpty || !cx.partials.isEmpty || s.unretired q c none

/-- VREAD (R238): an entry becomes free. Reading a record is a DEVICE-scope acquire (R335).
(DEDUCED, log 71) -/
def execVread (w : GR) (s : State) : Outcome State Fault Refusal :=
  genRun (.vread w) w.cnd (fun x =>
    match x.cx.readableHead (x.s.cluster x.sq.cluster).cycle with
    | some r =>
      let s := x.s.modCtx x.q x.c fun cx => { cx.setS w.d.toNat r with cc := voteCC r, votes := cx.votes.drop 1 }
      .done ((s.l1Clear x.sq.cluster).wakeVoters x.q x.c)
    | none => if x.s.voteOutstanding x.q x.c x.cx then .wait .vread x.s else .trap .voteEmpty [] x.s) s

/-- VPEEK (R238).
(DEDUCED, log 71) -/
def execVpeek (w : GR) (s : State) : Outcome State Fault Refusal :=
  genRun (.vpeek w) w.cnd (fun x =>
    match x.cx.readableHead (x.s.cluster x.sq.cluster).cycle with
    | some r => .done ((x.s.modCtx x.q x.c fun cx => { cx.setS w.d.toNat r with cc := voteCC r }).l1Clear x.sq.cluster)
    | none => x.finish { x.cx.setS w.d.toNat 0 with cc := { z := true, n := false, c := false, v := true } }) s

/-- The first record not yet readable becomes so, once its lower bound has passed (R237).
(DEDUCED, log 71) -/
def nextReadable (cycle : Nat) : List VoteRec → List VoteRec
  | [] => []
  | v :: t =>
    if v.readable then v :: nextReadable cycle t
    else if v.lower ≤ cycle then { v with readable := true } :: t
    else v :: t

/-- VOTE_READABLE (R237): the oldest record of context (a, b) that is not readable becomes readable, no sooner than its bound.
(DEDUCED, log 71) -/
def evVoteReadable (s : State) : Outcome State Fault Refusal :=
  let q := s.operand.a
  .next (s.modCtx q s.operand.b fun cx => { cx with votes := nextReadable (s.cycleOf q) cx.votes })

end Sys2Proof.Machine
end

