-- ==== Sys2Proof/Machine/LaneCross.lean ====
section
/-! DEFINITION. The cross-lane words (05_lane_alu.md R115 to R118) and the mask words (R119, R120). -/

namespace Sys2Proof.Machine

open Host (Outcome)

/-! ## Cross-lane words -/

/-- A word in which each lane of M receives A of a lane of its group, given by its index in the group (R115); A is read in the passes of those lanes too
(R208). -/
def LaneIn.gather (x : LaneIn) (w : LR) (src : Nat → Nat → Nat) : LaneRes :=
  let t := x.ty w.ty
  let g := x.tm.gw
  let from_ (l : Nat) : Nat := l / g * g + src l (l % g)
  match x.tm.badIn (srcRegs (wideTy x.tm.ckEnv w.ty) w.a.toNat) (maskOf ((x.tm.lanesOf x.m).map from_)) with
  | some (r, l) => x.uncorrectable x.m (badInfo [] r l) x.s
  | none => x.plain t w.d.toNat fun l => x.opTy t (from_ l) w.a.toNat

/-- The source lane of SHFL within its group of G lanes (R116): its own where the lane named lies outside. -/
def shflLane (mode G g b : Nat) : Nat :=
  match mode with
  | 0 => b % G
  | 1 => if b ≤ g then g - b else g
  | 2 => if g + b < G then g + b else g
  | _ => if (g ^^^ (b % G)) < G then g ^^^ (b % G) else g

/-- SHFL (R116): b is read as N32. -/
def execShfl (w : LR) (s : State) : Outcome State Fault Refusal :=
  laneRun (.shfl w) w.ms (fun x => x.gather w fun l g => shflLane (fieldN w.fn.toNat 0 2) x.tm.gw g (x.op 1 l w.b.toNat)) s

/-- LROT (R116). -/
def execLrot (w : LR) (s : State) : Outcome State Fault Refusal :=
  laneRun (.lrot w) w.ms (fun x => x.gather w fun _ g => (g + w.fn.toNat) % x.tm.gw) s

/-- LBCAST (R116): lane k of the group, or with FIRST its lowest lane in M. -/
def execLbcast (w : LR) (s : State) : Outcome State Fault Refusal :=
  laneRun (.lbcast w) w.ms (fun x => x.gather w fun l g =>
    if w.fn.getLsbD 6 then ((upTo x.tm.gw).find? fun k => x.m.getLsbD (l - g + k)).getD 0 else fieldN w.fn.toNat 0 6) s

/-- COMPACT (R117): the values of each group's lanes in M move to the group's first lanes, in M or not. -/
def execCompact (w : LR) (s : State) : Outcome State Fault Refusal :=
  laneRun (.compact w) w.ms (fun x =>
    let t := x.ty w.ty
    let g := x.tm.gw
    let act (k : Nat) : List Nat := (upTo g).filter fun i => x.m.getLsbD (k * g + i)
    let dst := maskOf ((upTo (x.tm.lanes / g)).flatMap fun k => (upTo (act k).length).map fun j => k * g + j)
    x.finish (x.tm.setTy t w.d.toNat dst fun l => x.opTy t (l / g * g + (act (l / g)).getD (l % g) 0) w.a.toNat)) s

/-! ## Scans and reductions (R118) -/

/-- The identity of an operator: 0 .ADD, 1 .MIN, 2 .MAX.
(DEDUCED, log 19) -/
def scanId (t : NumTy) (op : Nat) : Nat :=
  if t.isInt then
    match op with
    | 0 => 0
    | 1 => wrapN t.maxInt t.width
    | _ => wrapN t.minInt t.width
  else
    match t.fmt with
    | some f =>
      match op with
      | 0 => f.zeroCode true
      | 1 => f.withSign false f.infCode
      | _ => f.withSign true f.infCode
    | none => 0

/-- One application of the operator: an application to the identity is exact and sets no flag.
(DEDUCED, log 19) -/
def scanOp (t : NumTy) (op : Nat) (rnd : Rnd) (ovf : Ovf) (a b : Nat) : Rounded :=
  if t.isInt then
    let r := match op with
      | 0 => (a + b) % 2 ^ t.width
      | 1 => if t.toInt b < t.toInt a then b else a
      | _ => if t.toInt a < t.toInt b then b else a
    ⟨r, 0, false⟩
  else
    let r := match op with
      | 0 => roundX t rnd ovf (xadd rnd (t.decode a) (t.decode b))
      | 1 => let (c, f) := fminmax t false a b; ⟨c, f, false⟩
      | _ => let (c, f) := fminmax t true a b; ⟨c, f, false⟩
    if a = scanId t op ∨ b = scanId t op then { r with flags := 0 } else r

/-- The values of a group in a scan or reduction, with the flags set and the positions that overflowed. -/
structure ScanSt where
  xs : List Nat
  flags : Flags5
  traps : List Nat
deriving DecidableEq, Repr

/-- One step of R118 applied to all positions at once: position g combines the values at `p g` and `q g` when it is named. Under OVF 11 an application that
overflowed goes on with the code 0.
(DEDUCED, log 19; DESIGN CHOICE, log 76) -/
def ScanSt.step (z : ScanSt) (f : Nat → Nat → Rounded) (named : Nat → Bool) (p q : Nat → Nat) : ScanSt :=
  let rs := z.xs.zipIdx.map fun (x, g) => if named g then f (z.xs.getD (p g) 0) (z.xs.getD (q g) 0) else ⟨x, 0, false⟩
  { xs := rs.map (·.code), flags := rs.foldl (fun a r => a ||| r.flags) z.flags
    traps := z.traps ++ (rs.zipIdx.filter fun r => r.1.trap).map (·.2) }

/-- The scan of a group of G values: distances 1, 2, 4, … below G. -/
def scanGroup (f : Nat → Nat → Rounded) (G : Nat) : Nat → Nat → ScanSt → ScanSt
  | 0, _, z => z
  | n + 1, d, z => if d < G then scanGroup f G n (2 * d) (z.step f (fun g => decide (d ≤ g)) (· - d) id) else z

/-- The reduction of a group: distances d, d/2, …, 1. -/
def redGroup (f : Nat → Nat → Rounded) : Nat → Nat → ScanSt → ScanSt
  | 0, _, z => z
  | n + 1, d, z => if d = 0 then z else redGroup f n (d / 2) (z.step f (fun g => decide (g < d)) id (· + d))

/-- LSCAN and LRED over every group with a lane in M: `fin` gives what a position receives from the combined values. Every position
counts for flags and overflows, whether or not its lane is in M.
(DEDUCED, log 19; DESIGN CHOICE, log 76) -/
def LaneIn.combine (x : LaneIn) (w : LR) (run : (Nat → Nat → Rounded) → ScanSt → ScanSt) (fin : List Nat → Nat → Nat) : LaneRes :=
  let t := x.ty w.ty
  let g := x.tm.gw
  let op := fieldN w.fn.toNat 0 2
  let f := scanOp t op (x.rnd w.ty w.ex) (x.ovf w.ty w.ex)
  let groups := (upTo (x.tm.lanes / g)).filter fun k => (upTo g).any fun i => x.m.getLsbD (k * g + i)
  let zs := groups.map fun k =>
    (k, run f ⟨(upTo g).map fun i => if x.m.getLsbD (k * g + i) then x.opTy t (k * g + i) w.a.toNat else scanId t op, 0, []⟩)
  let traps := zs.flatMap fun z => (upTo g).filterMap fun i => if z.2.traps.contains i then some (z.1 * g + i) else none
  if traps.isEmpty then
    x.finish ((x.tm.setTy t w.d.toNat x.m fun l =>
      fin (((zs.find? fun z => z.1 == l / g).map (·.2.xs)).getD []) (l % g)).orFlags (zs.foldl (fun a z => a ||| z.2.flags) f0))
  else x.trap .fpOverflow (ovfInfo traps)

/-- LSCAN (R118): FN[2] is the exclusive form. -/
def execLscan (w : LR) (s : State) : Outcome State Fault Refusal :=
  laneRun (.lscan w) w.ms (fun x =>
    x.combine w (fun f z => scanGroup f x.tm.gw 7 1 z) fun xs g =>
      if w.fn.getLsbD 2 then (if g = 0 then scanId (x.ty w.ty) (fieldN w.fn.toNat 0 2) else xs.getD (g - 1) 0) else xs.getD g 0) s

/-- LRED (R118). -/
def execLred (w : LR) (s : State) : Outcome State Fault Refusal :=
  laneRun (.lred w) w.ms (fun x => x.combine w (fun f z => redGroup f 7 (x.tm.gw / 2) z) fun xs _ => xs.getD 0 0) s

/-! ## Mask words (R119, R120) -/

/-- MLOG. -/
def execMlog (w : LR) (s : State) : Outcome State Fault Refusal :=
  laneRun (.mlog w) w.ms (fun x =>
    let a := x.tm.m w.a.toNat
    let b := x.tm.m w.b.toNat
    x.maskOut w.d.toNat fun l => w.fn.getLsbD (2 * b2n (a.getLsbD l) + b2n (b.getLsbD l))) s

/-- MSET. -/
def execMset (w : LR) (s : State) : Outcome State Fault Refusal :=
  laneRun (.mset w) w.ms (fun x => x.maskOut w.d.toNat fun _ => w.fn.getLsbD 0) s

/-- MENTER. -/
def execMenter (w : LR) (s : State) : Outcome State Fault Refusal :=
  laneRun (.menter w) w.ms (fun x =>
    let tm := x.tm
    if 16 ≤ tm.stack.length then x.trap .maskStack []
    else x.finish { tm with stack := (tm.m 0, tm.fmtr) :: tm.stack, masks := tm.masks.set 0 (tm.m 0 &&& tm.m w.a.toNat) }) s

/-- MFLIP. -/
def execMflip (w : LR) (s : State) : Outcome State Fault Refusal :=
  laneRun (.mflip w) w.ms (fun x =>
    let tm := x.tm
    match tm.stack with
    | [] => x.trap .maskStack []
    | (m, f) :: _ => x.finish { tm with masks := tm.masks.set 0 (m &&& ~~~(tm.m 0)), fmtr := f }) s

/-- MLEAVE. -/
def execMleave (w : LR) (s : State) : Outcome State Fault Refusal :=
  laneRun (.mleave w) w.ms (fun x =>
    let tm := x.tm
    match tm.stack with
    | [] => x.trap .maskStack []
    | (m, f) :: rest => x.finish { tm with masks := tm.masks.set 0 m, fmtr := f, stack := rest }) s

/-- MFIRST: within each group, the lowest lane of mA AND M. -/
def execMfirst (w : LR) (s : State) : Outcome State Fault Refusal :=
  laneRun (.mfirst w) w.ms (fun x =>
    let t := x.tm.m w.a.toNat &&& x.m
    x.maskOut w.d.toNat fun l =>
      t.getLsbD l && !((upTo (l % x.tm.gw)).any fun k => t.getLsbD (l / x.tm.gw * x.tm.gw + k))) s

/-- MTOV: bit l, or with WORD the mask word of the lane's pass. -/
def execMtov (w : LR) (s : State) : Outcome State Fault Refusal :=
  laneRun (.mtov w) w.ms (fun x =>
    let a := x.tm.m w.a.toNat
    x.plain .n32 w.d.toNat fun l => if w.fn.getLsbD 0 then fieldN a.toNat (l / 32 * 32) 32 else b2n (a.getLsbD l)) s

/-- VTOM. -/
def execVtom (w : LR) (s : State) : Outcome State Fault Refusal :=
  laneRun (.vtom w) w.ms (fun x => x.maskOut w.d.toNat fun l => x.op 1 l w.a.toNat != 0) s

end Sys2Proof.Machine
end

