-- ==== Sys2Proof/Machine/MatrixTile.lean ====
section
/-! DEFINITION. The tile operations HAD, TCVT, TTRANS and TRED, the moves TFROMV and TTOV, and the fused epilogue TEPI (07_core_matrix.md
R180 to R190). -/

namespace Sys2Proof.Machine

open Host (Outcome)

/-! ## Whole tiles (R180 to R182) -/

/-- The range-lock entry that an outstanding copy holds on one of the listed lines (R182). -/
def LaneIn.lockedLine (x : LaneIn) (h : Nat) (ls : List Nat) : Option Nat := ls.findSome? fun l => x.s.tileLockHit x.q h l

/-- Elements written to a tile of scalar type, whose lines then become FULL in one step (R181). -/
def State.putElems (s : State) (q h : Nat) (t : Tile) (rs : List ((Nat × Nat) × Nat)) : State :=
  let t' := rs.foldl (fun t r => t.setCode r.1.1 r.1.2 r.2) t
  let s := s.setTile q h (if rs.length = t.rows * t.cols then t'.cleanAll else t')
  if t.level = 0 then s else s.fillLines q h ((rs.flatMap fun r => t.elemLines r.1.1 r.1.2).eraseDups)

/-- A word on whole tiles: the checks of R177 after decode, the source lines, and then what `f` makes of the source and destination tiles. `ok`
is the check of types and shapes. -/
def LaneIn.tileOp (x : LaneIn) (w : LR) (ok : Tile → Tile → Bool) (f : Tile → Tile → LaneRes) : LaneRes :=
  let dh := w.d.toNat
  let bh := w.b.toNat
  let m0 := x.tm.m 0
  match lowLane x.m with
  | none => .done x.s
  | some l0 =>
    let core := x.tm.coreOf l0
    x.onUnit core <|
    match x.handle core dh, x.handle core bh with
    | some d, some b =>
      if !ok d b then .park .tileHandle (matInfo dh bh x.tm.sstepInfo 0 0) m0 [] x.s
      else
        match (if d.level = 0 then none else x.lockedLine dh (upTo d.lineCount)) with
        | some i => .park .rangeConflict (matInfo dh bh x.tm.sstepInfo i 0) m0 [] x.s
        | none =>
          let reads := (upTo b.rows).flatMap fun r => (upTo b.cols).flatMap fun c => needOf bh b r c
          x.needLines dh bh m0 reads <|
          match (if b.level = 0 then b.bad.head? else none) with
          | some e => x.badElem dh bh m0 e
          | none => f d b
    | _, _ => .park .tileHandle (matInfo dh bh x.tm.sstepInfo 0 0) m0 [] x.s

/-- The results of a tile operation, rounded, in row-major order: an overflow under OVF 11 writes nothing (R67). -/
def LaneIn.tilePut (x : LaneIn) (w : LR) (d : Tile) (rs : List ((Nat × Nat) × Rounded)) : LaneRes :=
  match rs.find? fun r => r.2.trap with
  | some r => .park .fpOverflow [0, 0, BitVec.ofNat 64 r.1.1, BitVec.ofNat 64 r.1.2] (x.tm.m 0) [] x.s
  | none =>
    .done ((x.s.putElems x.q w.d.toNat d (rs.map fun r => (r.1, r.2.code))).modTeam x.q x.t fun tm =>
      tm.orFlags (rs.foldl (fun a r => a ||| r.2.flags) f0))

/-- The elements of a shape in row-major order. -/
def cells (rows cols : Nat) : List (Nat × Nat) := (upTo rows).flatMap fun r => (upTo cols).map fun c => (r, c)

/-- The transform of R183 of a tile at (r, c), before its rounding: along each row, or each column under AXIS 1. -/
def LaneIn.hadAt (x : LaneIn) (w : LR) (rnd : Rnd) (b : Tile) (r c : Nat) : XVal × Flags5 :=
  let n := hadN x.tm.fmtr
  let seed := aget 0 x.sq.seeds (field32 x.tm.fmtr 28 4)
  let byCol := w.fn.getLsbD 4
  let p := if byCol then r else c
  let base := p / n * n
  let xs := (upTo n).map fun j =>
    if byCol then (if base + j < b.rows then b.value x.tm.zblk (base + j) c else .zero false)
    else if base + j < b.cols then b.value x.tm.zblk r (base + j) else .zero false
  hadOut rnd (w.fn.getLsbD 5) (fieldN w.fn.toNat 0 4) (hadSigns seed (p / n)) xs (p - base)

/-- HAD (R183). -/
def execHad (w : LR) (s : State) : Outcome State Fault Refusal :=
  laneRun (.had w) w.ms (fun x =>
    let t := x.ty w.ty
    let rnd := x.rnd w.ty w.ex
    x.tileOp w (fun d b => d.ty == t && b.ty == t && d.rows == b.rows && d.cols == b.cols) fun d b =>
      x.tilePut w d ((cells d.rows d.cols).map fun rc =>
        (rc, roundX t rnd (x.ovf w.ty w.ex) (x.hadAt w rnd b rc.1 rc.2)))) s

/-- The exact source value of TCVT at (r, c), with the flags of its decode and transform. -/
def LaneIn.cvtAt (x : LaneIn) (w : LR) (rnd : Rnd) (b : Tile) (r c : Nat) : XVal × Flags5 :=
  let nanBlk (r c : Nat) : Flags5 := fIf (b.ty.isBlock && b.scale r c == 0xFF) fIV
  if w.ex.getLsbD 0 then
    let (y, f) := x.hadAt w rnd b r c
    (y, f ||| nanBlk r c)
  else (b.value x.tm.zblk r c, nanBlk r c)

/-- The first element in row-major order that makes a block overflow, of blocks given by their first row and column with their 32 values (R67, R68). -/
def blockFirst (t : NumTy) (rnd : Rnd) (zs : List ((Nat × Nat) × List XVal)) : Nat × Nat :=
  let es := zs.flatMap fun z => (z.2.zipIdx.filter fun v => elemOverflows t rnd 127 v.1).map fun v => (z.1.1 + v.2, z.1.2)
  (leastBy (fun e : Nat × Nat => e.1 * 2 ^ 16 + e.2) es).getD (0, 0)

/-- TCVT (R184). Between integer types the exact value, transformed under HAD, is rounded and clamped with no flag.
(DEDUCED, log 26) -/
def execTcvt (w : LR) (s : State) : Outcome State Fault Refusal :=
  laneRun (.tcvt w) w.ms (fun x =>
    let t := x.ty w.ty
    let rnd := x.rnd w.ty w.ex
    let ovf := x.ovf w.ty w.ex
    x.tileOp w (fun d b => d.ty == t && w.d != w.b && d.rows == b.rows && d.cols == b.cols) fun d b =>
      if t.isBlock then
        let bs := (cells (d.rows / 32) d.cols).map fun bc =>
          let vs : List (XVal × Flags5) := (upTo 32).map fun i => x.cvtAt w rnd b (32 * bc.1 + i) bc.2
          let k := encodeBlock t (vs.map fun v => v.1) rnd ovf x.tm.zblk
          let k : Block := { k with flags := vs.foldl (fun a v => a ||| v.2) k.flags }
          ((bc, vs, k) : (Nat × Nat) × List (XVal × Flags5) × Block)
        if bs.any fun z => z.2.2.trap then
          let e := blockFirst t rnd ((bs.filter fun z => z.2.2.trap).map fun z => ((32 * z.1.1, z.1.2), z.2.1.map (·.1)))
          .park .fpOverflow [0, 0, BitVec.ofNat 64 e.1, BitVec.ofNat 64 e.2] (x.tm.m 0) [] x.s
        else
          let d' := (bs.foldl (fun d z => d.setBlock z.1.1 z.1.2 z.2.2.scale z.2.2.elems) d).cleanAll
          .done (((x.s.setTile x.q w.d.toNat d').fillLines x.q w.d.toNat (upTo d.lineCount)).modTeam x.q x.t fun tm =>
            tm.orFlags (bs.foldl (fun a z => a ||| z.2.2.flags) f0))
      else
        x.tilePut w d ((cells d.rows d.cols).map fun rc =>
          let r := roundX t rnd ovf (x.cvtAt w rnd b rc.1 rc.2)
          (rc, if t.isInt && b.ty.isInt then { r with flags := 0 } else r))) s

/-- TTRANS (R185). -/
def execTtrans (w : LR) (s : State) : Outcome State Fault Refusal :=
  laneRun (.ttrans w) w.ms (fun x =>
    let t := x.ty w.ty
    x.tileOp w (fun d b => d.ty == t && b.ty == t && w.d != w.b && d.rows == b.cols && d.cols == b.rows) fun d b =>
      x.tilePut w d ((cells d.rows d.cols).map fun rc => (rc, ⟨b.code rc.2 rc.1, 0, false⟩))) s

/-- The reduction of a line of codes of type `bt` (R186). -/
def tredLine (op : Nat) (bt t : NumTy) (rnd : Rnd) (ovf : Ovf) (cs : List Nat) : Rounded :=
  if t.isInt then
    match op with
    | 0 => ⟨(cs.sum) % 2 ^ 32, 0, false⟩
    | k =>
      match cs with
      | [] => ⟨0, 0, false⟩
      | c :: rest => ⟨rest.foldl (fun a b => if (t.toInt b < t.toInt a) = (k = 1) ∧ b ≠ a then b else a) c, 0, false⟩
  else if op = 0 then roundX t rnd ovf (xsum rnd (cs.map bt.decode))
  else
    let fl := cs.foldl (fun a c => a ||| fIf (bt.decode c).isSnan fIV) f0
    match cs.map fun c => (roundTo .f32 (bt.decode c) .ne .inf).code with
    | [] => ⟨0, 0, false⟩
    | c :: rest => ⟨rest.foldl (fun a b => (fminmax .f32 (op == 2) a b).1) c, fl, false⟩

/-- TRED (R186). -/
def execTred (w : LR) (s : State) : Outcome State Fault Refusal :=
  laneRun (.tred w) w.ms (fun x =>
    let t := x.ty w.ty
    let byCol := w.fn.getLsbD 4
    let pair (b : NumTy) : Bool := if t.isInt then b == .i32 else b == .f32 || b == .f16 || b == .bf16
    x.tileOp w (fun d b => d.ty == t && pair b.ty &&
        (if byCol then d.rows == 1 && d.cols == b.cols else d.rows == b.rows && d.cols == 1)) fun d b =>
      x.tilePut w d ((cells d.rows d.cols).map fun rc =>
        let cs := if byCol then (upTo b.rows).map fun r => b.code r rc.2 else (upTo b.cols).map fun c => b.code rc.1 c
        (rc, tredLine (fieldN w.fn.toNat 0 2) b.ty t (x.rnd w.ty w.ex) (x.ovf w.ty w.ex) cs))) s

/-! ## Moves (R187) -/

/-- The lanes of M in row block rb, ascending. -/
def LaneIn.rbLanes (x : LaneIn) (rb : Nat) : List Nat := x.tm.lanesOf (x.m &&& rowBlock rb)

/-- The tile row that a lane of a row block moves, when the lane's segment lies in the tile (R187). -/
def moveRow (t : Tile) (ty : NumTy) (rb u n l : Nat) : Option Nat :=
  let r := if t.level = 0 then l - 64 * rb else l
  if t.ty == ty && decide (r < t.rows) && decide (128 * u + 4 * n ≤ t.cols * (ty.width / 8)) then some r else none

/-- The bytes of a row's segment, as the numbers of their first bit and their count. -/
def segBit (t : Tile) (r u : Nat) : Nat := t.bitOf r 0 + 1024 * u

/-- TFROMV (R187): it writes whatever the line state is and leaves that state.
(DEDUCED, log 27) -/
def execTfromv (w : LR) (s : State) : Outcome State Fault Refusal :=
  laneRun (.tfromv w) w.ms (fun x =>
    let rb := fieldN w.c.toNat 4 4
    let u := fieldN w.c.toNat 0 4
    let n := fieldN w.fn.toNat 0 5 + 1
    let dh := w.d.toNat
    let core := x.tm.coreOf (64 * rb)
    let ls := x.rbLanes rb
    if ls.isEmpty then .done x.s
    else x.onUnit core <|
    let tile := x.handle core dh
    let row (l : Nat) : Option (Tile × Nat) := tile.bind fun t => (moveRow t (x.ty w.ty) rb u n l).map fun r => (t, r)
    let conflict (l : Nat) : Option Nat := (row l).bind fun tr =>
      if tr.1.level = 0 then none else x.lockedLine dh (bitLines (segBit tr.1 tr.2 u) (32 * n))
    let stops := ls.filterMap fun l =>
      if (row l).isNone then some (l, Stop.fault .tileHandle (matInfo dh 0 x.tm.sstepInfo 0 0) [])
      else (conflict l).map fun i => (l, .fault .rangeConflict (matInfo dh 0 x.tm.sstepInfo i 0) [])
    if ls.any fun l => (conflict l).isSome then
      match firstFault stops with
      | some (c, i, r) => .park c i (x.m &&& rowBlock rb) r x.s
      | none => .done x.s
    else match x.tm.badAt (matrixRegs x.tm.ckEnv (.tfromv w)) (x.m &&& rowBlock rb), firstFault stops with
    | some _, some (c, i, r) => .park c i (x.m &&& rowBlock rb) r x.s
    | some (r, l), none => x.uncorrectable (x.m &&& rowBlock rb) (badInfo (x.tm.decodeInfo (.tfromv w)) r l) x.s
    | none, _ =>
      let put (t : Tile) (l : Nat) : Tile := match row l with
        | none => t
        | some (k, r) =>
          if k.level = 0 then (upTo n).foldl (fun t i => t.setCode r (32 * u + i) (x.rd.V l (w.a.toNat + i)).toNat) t
          else t.setBytes (segBit k r u / 8) ((upTo n).flatMap fun i => toBytes 4 (x.rd.V l (w.a.toNat + i)).toNat)
      let s := match tile with
        | some t => x.s.setTile x.q dh (ls.foldl put t)
        | none => x.s
      x.ending s x.master stops) s

/-- TTOV (R187): each line is read only while it is FULL; with an accumulator element marked bad no lane is performed (R208). A lane that awaits a line
of a segment over several lines reports the segment's first column.
(DESIGN CHOICE, log 79) -/
def execTtov (w : LR) (s : State) : Outcome State Fault Refusal :=
  laneRun (.ttov w) w.ms (fun x =>
    let rb := fieldN w.c.toNat 4 4
    let u := fieldN w.c.toNat 0 4
    let n := fieldN w.fn.toNat 0 5 + 1
    let bh := w.b.toNat
    let core := x.tm.coreOf (64 * rb)
    let ls := x.rbLanes rb
    if ls.isEmpty then .done x.s
    else x.onUnit core <|
    let tile := x.handle core bh
    let one (l : Nat) : Except Stop (Tile × Nat) :=
      match tile.bind fun t => (moveRow t (x.ty w.ty) rb u n l).map fun r => (t, r) with
      | none => .error (.fault .tileHandle (matInfo w.d.toNat bh x.tm.sstepInfo 0 0) [])
      | some (t, r) =>
        if t.level = 0 then
          match t.bad.find? fun e => decide (e / 64 = r) && decide (32 * u ≤ e % 64) && decide (e % 64 < 32 * u + n) with
          | some e => .error (.fault .uncorrectableData (matInfo w.d.toNat bh x.tm.sstepInfo (e / 64) (e % 64)) [])
          | none => .ok (t, r)
        else match (bitLines (segBit t r u) (32 * n)).find? fun j => !t.full j with
          | some j => .error (.line bh j (matInfo w.d.toNat bh x.tm.sstepInfo r (128 * u / (t.ty.width / 8))))
          | none =>
            if (t.badLine (bitLines (segBit t r u) (32 * n))).isSome then
              .error (.fault .uncorrectableData (matInfo w.d.toNat bh x.tm.sstepInfo r (128 * u / (t.ty.width / 8))) [])
            else .ok (t, r)
    let ok := ls.filterMap fun l => match one l with
      | .ok v => some (l, v)
      | .error _ => none
    let stops := ls.filterMap fun l => match one l with
      | .ok _ => none
      | .error e => some (l, e)
    let reg (l i : Nat) : Word := match (ok.find? fun p => p.1 == l) with
      | some (_, t, r) =>
        if t.level = 0 then BitVec.ofNat 32 (t.code r (32 * u + i))
        else BitVec.ofNat 32 (ofBytes (t.bytes (segBit t r u / 8 + 4 * i) 4))
      | none => 0
    let m := maskOf (ok.map (·.1))
    let s := x.s.modTeam x.q x.t fun tm => (upTo n).foldl (fun tm i => tm.setV (w.d.toNat + i) m fun l => reg l i) tm
    if stops.any fun z => z.2.isUncorrectable then
      if (x.s.cluster x.sq.cluster).undervolted && tile.any (·.clustered) then x.uncorrectable x.m [] x.s
      else match tile.filter (·.level == 0), firstFault stops with
        | some _, some (c, i, r) => .park c i (x.m &&& rowBlock rb) r x.s
        | _, _ => x.ending s x.master stops
    else x.ending s x.master stops) s

/-! ## The fused epilogue (R188 to R190) -/

/-- The exact value of an epilogue element before its rounding, with the flags of its arithmetic (R189). -/
def LaneIn.epiValue (x : LaneIn) (w : LR) (rnd : Rnd) (d : Tile) (rb i j : Nat) : XVal × Flags5 :=
  let acc := d.ty.decode (d.code i j)
  let (y, f) := if w.fn.getLsbD 4 then xmul acc (NumTy.f32.decode (x.rd.V (64 * rb + i) (w.a.toNat + 2)).toNat) else (acc, f0)
  let bias := d.ty.decode (x.rd.V (64 * rb + j) (w.a.toNat + 1)).toNat
  let (y, g) := if w.fn.getLsbD 5 then (let (z, h) := xadd rnd y bias; (z, f ||| h)) else (y, f)
  let y := if w.fn.getLsbD 3 && !y.isNan && y.neg then .zero false else y
  (y, g)

/-- The rounded epilogue element: an integer from an I32 accumulator is clamped with no flag (R189). -/
def LaneIn.epiElem (x : LaneIn) (w : LR) (t : NumTy) (d : Tile) (rb i j : Nat) : Rounded :=
  let rnd := x.rnd w.ty w.ex
  if d.ty.isInt && t.isInt then
    let a := d.ty.toInt (d.code i j)
    let b := if w.fn.getLsbD 5 then a + d.ty.toInt (x.rd.V (64 * rb + j) (w.a.toNat + 1)).toNat else a
    let c := if w.fn.getLsbD 3 && decide (b < 0) then 0 else b
    ⟨t.narrow true c, 0, false⟩
  else roundX t rnd (x.ovf w.ty w.ex) (x.epiValue w rnd d rb i j)

/-- The accumulator of an epilogue and the rows it stores, after the checks that both forms share: `k` goes on. Where no element has
failed, word 0 of TEPI.MEM names the handles as that of TEPI does.
(DEDUCED, log 28; DESIGN CHOICE, log 88) -/
def LaneIn.epilogue (x : LaneIn) (w : LR) (bh : Nat) (blk : Bool) (k : Nat → Tile → List Nat → Mask → LaneRes) : LaneRes :=
  let rb := fieldN w.c.toNat 4 4
  let dh := w.d.toNat
  let rm := x.rbMask rb
  let core := x.tm.coreOf (64 * rb)
  let stop (c : Cause) : LaneRes := .park c (matInfo dh bh x.tm.sstepInfo 0 0) (x.m &&& rm) [] x.s
  if x.m &&& rm = 0 then .done x.s
  else x.onUnit core <|
  match x.handle core dh with
  | none => stop .tileHandle
  | some d =>
    if d.level ≠ 0 then stop .tileHandle
    else
      let want := rm &&& rowBlock rb &&& maskBelow (64 * rb + d.rows)
      if blk && (x.m &&& want != want) then stop .illegalConvergence
      else if d.ty.isInt && (x.ty w.ty).isInt && (w.fn.getLsbD 4 || fieldN w.ex.toNat 3 4 != 0) then stop .reservedField
      else
        let rows := (upTo (min d.rows 64)).filter fun i => decide (64 * rb + i < x.tm.lanes) && x.m.getLsbD (64 * rb + i)
        k rb d rows (maskOf (rows.map (64 * rb + ·)))

/-- An epilogue's reads of its registers and its accumulator, an error among which ends it (R189, R208): row offsets of the rows stored, biases of the
columns and scales of the rows whose lanes exist; `k` goes on. -/
def LaneIn.epiReads (x : LaneIn) (i : Instr) (w : LR) (rb : Nat) (d : Tile) (rows : List Nat) (mask : Mask) (k : LaneRes) : LaneRes :=
  let a := w.a.toNat
  let near (l n : Nat) : Bool := decide (64 * rb ≤ l) && decide (l < 64 * rb + n)
  match x.tm.bad.find? fun b => (matrixRegs x.tm.ckEnv i).contains b.1
      && (if b.1 = a then mask.getLsbD b.2 else near b.2 (min (if b.1 = a + 1 then d.cols else d.rows) 64)) with
  | some (r, l) => x.uncorrectable mask (badInfo (x.tm.decodeInfo i) r l) x.s
  | none => match d.bad.find? fun e => rows.contains (e / 64) with
    | some e => match x.badElem w.d.toNat w.b.toNat mask e, w.fn.getLsbD 7 with
      | .park c info m r s, true => .park c (0 :: info.drop 1) m r s
      | r, _ => r
    | none => k

/-- The information words of an epilogue's overflow (R67, R190), which has one. TEPI.MEM has no destination row and column, and gives those of a tile
destination at column block 0.
(DEDUCED, log 28; DESIGN CHOICE, log 75) -/
def epiTrap (rs : List ((Nat × Nat) × Rounded)) (rb cb : Nat) : Option (List DWord) :=
  (rs.find? fun r => r.2.trap).map fun r =>
    let ls := ((upTo 64).filter fun i => rs.any fun z => z.1.1 == i && z.2.trap).map (64 * rb + ·)
    matOvfInfo ls (64 * rb + r.1.1) (64 * cb + r.1.2)

/-- TEPI to a tile (R188, R189).
(DEDUCED, log 28) -/
def execTepi (w : LR) (s : State) : Outcome State Fault Refusal :=
  laneRun (.tepi w) w.ms (fun x =>
    let t := x.ty w.ty
    let dh := w.d.toNat
    let bh := w.b.toNat
    let cb := fieldN w.c.toNat 0 4
    x.epilogue w bh t.isBlock fun rb d rows mask =>
      let free (s : State) : State := if w.fn.getLsbD 6 then s.freeTile x.q dh else s
      let stop (c : Cause) (w2 : Nat) : LaneRes := .park c (matInfo dh bh x.tm.sstepInfo w2 0) mask [] x.s
      match x.tile bh with
      | none => stop .tileHandle 0
      | some b =>
        if b.level = 0 ∨ b.ty ≠ t ∨ b.cols < 64 * cb + d.cols ∨ rows.any (fun i => decide (b.rows ≤ 64 * rb + i)) then stop .tileHandle 0
        else if t.isBlock then
          let brows := (upTo 2).filter fun k => rows.any fun i => i / 32 == k
          let bs := (brows.flatMap fun k => (upTo d.cols).map fun j => (k, j)).map fun bc =>
            let vs := (upTo 32).map fun i =>
              if rows.contains (32 * bc.1 + i) then x.epiValue w (x.rnd w.ty w.ex) d rb (32 * bc.1 + i) bc.2 else (.zero false, f0)
            (bc, vs, encodeBlock t (vs.map (·.1)) (x.rnd w.ty w.ex) (x.ovf w.ty w.ex) x.tm.zblk)
          let lines := (bs.flatMap fun z => (upTo 32).flatMap fun i => b.elemLines (64 * rb + 32 * z.1.1 + i) (64 * cb + z.1.2)).eraseDups
          match x.lockedLine bh lines with
          | some i => stop .rangeConflict i
          | none =>
            x.epiReads (.tepi w) w rb d rows mask <|
            if bs.any fun z => z.2.2.trap then
              let zs := (bs.filter fun z => z.2.2.trap).map fun z => ((64 * rb + 32 * z.1.1, 64 * cb + z.1.2), z.2.1.map (·.1))
              let ls := (upTo 1024).filter fun l => zs.any fun z =>
                decide (z.1.1 ≤ l) && decide (l < z.1.1 + 32) && elemOverflows t (x.rnd w.ty w.ex) 127 (z.2.getD (l - z.1.1) (.zero false))
              let e := blockFirst t (x.rnd w.ty w.ex) zs
              .park .fpOverflow (matOvfInfo ls e.1 e.2) mask [] x.s
            else
              let b' := bs.foldl (fun b z => b.setBlock (2 * rb + z.1.1) (64 * cb + z.1.2) z.2.2.scale z.2.2.elems) b
              let fl := bs.foldl (fun a z => z.2.1.foldl (fun a v => a ||| v.2) (a ||| z.2.2.flags)) f0
              .done (free (((x.s.setTile x.q bh b').fillLines x.q bh lines).modTeam x.q x.t fun tm => tm.orFlags fl))
        else
          let rs := rows.flatMap fun i => (upTo d.cols).map fun j => ((i, j), x.epiElem w t d rb i j)
          let lines := (rs.flatMap fun r => b.elemLines (64 * rb + r.1.1) (64 * cb + r.1.2)).eraseDups
          match x.lockedLine bh lines with
          | some i => stop .rangeConflict i
          | none =>
            x.epiReads (.tepi w) w rb d rows mask <|
            match epiTrap rs rb cb with
            | some info => .park .fpOverflow info mask [] x.s
            | none =>
              let s := x.s.putElems x.q bh b (rs.map fun r => ((64 * rb + r.1.1, 64 * cb + r.1.2), r.2.code))
              .done (free (s.modTeam x.q x.t fun tm => tm.orFlags (rs.foldl (fun a r => a ||| r.2.flags) f0)))) s

/-- The key of the remote request for element j of the row of lane l. -/
def rowReq (l j : Nat) : Nat := 2 ^ 16 + 64 * l + j

/-- One row of TEPI.MEM, element by element from `j` on: it stops at the first element that fails.
(DEDUCED, log 28) -/
def LaneIn.epiRow (x : LaneIn) (w : LR) (n l : Nat) : List Nat → Nat → State → LR2 Nat
  | [], _, s => (.ok 0, s)
  | c :: cs, j, s =>
    let win := x.tm.window (fieldN w.b.toNat 0 3)
    let off : Int := ((x.rd.V l w.a.toNat).toNat + j * n : Nat)
    LR2.andThen (s.windowAddr (x.acc s l) win off n { wr := true } false) fun g s =>
      match g with
      | .loc va pa zor =>
        LR2.andThen ((s.pwrite (x.acc s l) va pa zor (toBytes n c)).at va) fun _ s => epiRow x w n l cs (j + 1) s
      | .rem va dev addr =>
        LR2.andThen (x.remote s (rowReq l j) va dev addr n 1 [c] true) fun _ s => epiRow x w n l cs (j + 1) s

/-- What keeps one row of TEPI.MEM from being stored, when nothing is stored, element by element from `j` on; `hot` tells that the row overflows. -/
def LaneIn.epiDry (x : LaneIn) (w : LR) (n l : Nat) (hot : Bool) : List Nat → Nat → State → LR2 Nat
  | [], _, s => (.ok 0, s)
  | c :: cs, j, s =>
    let win := x.tm.window (fieldN w.b.toNat 0 3)
    let off : Int := ((x.rd.V l w.a.toNat).toNat + j * n : Nat)
    let r : LR2 Nat := LR2.andThen (s.windowAddr (x.acc s l) win off n { wr := true } false) fun g s =>
      match s.storeFault (x.acc s l) g (toBytes n c) with
      | some e => (.error e, s)
      | none => (.ok 0, s)
    LR2.andThen (if hot then r.hot 0 else r) fun _ s => epiDry x w n l hot cs (j + 1) s

/-- Asks for the elements of a remote row that have not been asked for: done once every one has been. -/
def LaneIn.issueRow (x : LaneIn) (w : LR) (n l : Nat) : List Nat → Nat → State → LR2 Nat
  | [], _, s => (.ok 0, s)
  | c :: cs, j, s =>
    if (s.fabric.out.any fun r => r.src == .team x.q x.t && r.lane == rowReq l j) then issueRow x w n l cs (j + 1) s
    else
      let win := x.tm.window (fieldN w.b.toNat 0 3)
      let off : Int := ((x.rd.V l w.a.toNat).toNat + j * n : Nat)
      LR2.andThen (s.windowAddr (x.acc s l) win off n { wr := true } false) fun g s =>
        match g with
        | .loc va _ _ => (.error (.remote, va), s)
        | .rem va dev addr =>
          match x.remote s (rowReq l j) va dev addr n 1 [c] true with
          | (.ok _, s) => (.error (.remote, va), s)
          | (.error (.remote, va), s) =>
            if s.fabric.out.any fun r => r.src == .team x.q x.t && r.lane == rowReq l j then issueRow x w n l cs (j + 1) s
            else (.error (.remote, va), s)
          | (.error e, s) => (.error e, s)

/-- The requests of a row. -/
def LaneIn.rowReqs (x : LaneIn) (s : State) (l n : Nat) : List RemoteReq :=
  s.fabric.out.filter fun r => r.src == .team x.q x.t && decide (rowReq l 0 ≤ r.lane) && decide (r.lane < rowReq l n)

/-- One row of TEPI.MEM: a remote row asks for all its elements and is performed once every one of them has been answered.
(DEDUCED, log 28) -/
def LaneIn.epiStore (x : LaneIn) (w : LR) (n l : Nat) (cs : List Nat) (s : State) : LR2 Nat :=
  if (x.tm.window (fieldN w.b.toNat 0 3)).kind = 4 then
    let drop (s : State) : State :=
      let left := (x.rowReqs s l cs.length).map (·.id)
      { s with fabric := { s.fabric with
        out := s.fabric.out.filter fun r => !left.contains r.id
        results := s.fabric.results.filter fun z => !left.contains z.1 } }
    match x.issueRow w n l cs 0 s with
    | (.error (.remote, va), s) => (.error (.remote, va), s)
    | (.error e, s) => (.error e, drop s)
    | (.ok _, s) =>
      if (x.rowReqs s l cs.length).all fun r => s.fabric.results.any fun z => z.1 == r.id then
        let (r, s) := x.epiRow w n l cs 0 s
        (r, drop s)
      else (.error (.remote, 0), s)
  else x.epiRow w n l cs 0 s

/-- TEPI to memory (R188 to R190): each row is performed whole or is unfinished; the accumulator is released once every row is stored. With an overflow
no row is stored, every row keeps its own faults, and every row is unfinished.
(DEDUCED, log 28) -/
def execTepiMem (w : LR) (s : State) : Outcome State Fault Refusal :=
  laneRun (.tepiMem w) w.ms (fun x =>
    let t := x.ty w.ty
    let dh := w.d.toNat
    let wi := fieldN w.b.toNat 0 3
    x.epilogue w w.b.toNat false fun rb d rows mask =>
      x.epiReads (.tepiMem w) w rb d rows mask <|
      let n := t.width / 8
      let rs := rows.flatMap fun i => (upTo d.cols).map fun j => ((i, j), x.epiElem w t d rb i j)
      let codes (i : Nat) : List Nat := (rs.filter fun r => r.1.1 == i).map (·.2.code)
      let mw : MemWord := { win := wi, wr := true, lsize := lsizeOf n }
      let ls := rows.map (64 * rb + ·)
      let fix (p : Nat × Stop) : Nat × Stop := match p.2 with
        | .fault c (v :: _ :: w2 :: _) r => (p.1, .fault c [v, BitVec.ofNat 64 x.tm.sstepInfo, w2, 0] r)
        | e => (p.1, e)
      match epiTrap rs rb 0 with
      | some info =>
        let hot (l : Nat) : Bool := rs.any fun r => 64 * rb + r.1.1 == l && r.2.trap
        let z := x.each mw (fun s l => x.epiDry w n l (hot l) (codes (l - 64 * rb)) 0 s) ls { s := x.s }
        let ovf : List (Nat × Stop) := (z.vals.filter fun v => hot v.1).map fun v => (v.1, .fault .fpOverflow info [])
        let stops := ({ z with stops := z.stops.map fix ++ ovf } : LaneSt).ordered x.tm.lanes
        x.ending z.s x.master stops (mask &&& ~~~stopMask stops fun _ => true)
      | none =>
        let z := x.each mw (fun s l => x.epiStore w n l (codes (l - 64 * rb)) s) ls { s := x.s }
        let fl := rs.foldl (fun a r => if (z.vals.any fun v => v.1 == 64 * rb + r.1.1) then a ||| r.2.flags else a) f0
        let s := z.s.modTeam x.q x.t fun tm => tm.holdFlags fl
        let stops := (z.ordered x.tm.lanes).map fix
        x.ending (if stops.isEmpty && x.tm.faulted.isEmpty && w.fn.getLsbD 6 then s.freeTile x.q dh else s) x.master stops) s

end Sys2Proof.Machine
end

