-- ==== Sys2Proof/Machine/Wait.lean ====
section
/-! DEFINITION. The end of a context's wait (09_cluster_generator.md R213), and words that are no instructions (02_encoding.md R40). -/

namespace Sys2Proof.Machine

open Host (Outcome)

/-- A COPY of context (q, c) has its place and its lock entries, or must trap (R239, R250, R251): `n` entries are needed. -/
def State.copyPlace (s : State) (q : Nat) (sq : Squad) (tag n : Nat) : Bool :=
  let room := decide (n ≤ (s.die (dieOf sq.cluster)).freeLocks.length)
  match s.copyOfTag q tag with
  | some (_, cp) => cp.slices.length != cp.count && room
  | none => decide ((s.copies.filter fun p => ((s.squad p.2.q).map (·.cluster)) == some sq.cluster).length < 32) && room

/-- The three conditions of a DIGEST on team n hold (R428). -/
def State.digestReady (s : State) (q c : Nat) (sq : Squad) (n : Nat) : Bool :=
  match s.ownedTeam q c n with
  | .team q' t => match s.team q' t with
    | some tm =>
      let gs := (upTo tm.lanes).filterMap fun l => aget? tm.digests l
      !s.bound q c q' t && gs.all (fun g => (aget? s.seals g.sealId).any (·.hashed))
        && (aget? s.owners (s.ownerOf sq)).any fun o => decide (o.logWrite + gs.length ≤ o.logRead + o.logCap)
    | none => true
  | _ => true

/-- The condition for which a context waits has cleared; waits that other steps end are not judged here.
(DESIGN CHOICE, log 39) -/
def State.waitOver (s : State) (q c : Nat) (sq : Squad) (cx : Ctx) (w : CtxWait) : Bool :=
  match w with
  | .yieldTag tag => (s.copyOfTag q tag).isNone
  | .vread => (cx.readableHead (s.cluster sq.cluster).cycle).isSome || !s.voteOutstanding q c cx
  | .mwait _ _ _ _ | .huddle _ | .fault | .frozen | .touch | .remote => false
  | .sdrain ch => s.drained q c ch
  | .emission => !cx.seqFull
  | .mailbox d i _ send => match aget? (s.die d).mailboxes i with
    | some m => if send then decide (m.msgs.length < 16) else !m.msgs.isEmpty
    | none => true
  | .copyRoom tag n => s.copyPlace q sq tag n
  | .copyEnd tag => match s.copyOfTag q tag with
    | some (_, cp) => cp.state == CopyState.failed
    | none => true
  | .twait (some k) => (s.retired k).isSome
  | .twait none => cx.tasks.any fun k => (s.retired k).isSome
  | .admission d _ => decide (s.tableUsed d < 8192)
  | .spec => !s.speculative sq
  | .digest n => s.digestReady q c sq n
  | .idle k => (s.squad k).all (·.idle)
  | .sealFree i => !s.sealBusy i
  | .resident n => match s.ownedTeam q c n with
    | .away => false
    | _ => true
  | .faultSlot => decide ((s.die (dieOf sq.cluster)).faults < 1024)

/-- CONTEXT_WAIT_RESUME (R213): context (a, b), whose condition has cleared, executes its word again.
(DESIGN CHOICE, log 39) -/
def evContextWaitResume (s : State) : Outcome State Fault Refusal :=
  let q := s.operand.a
  let c := s.operand.b
  .next (match s.squad q, s.ctx q c with
    | some sq, some cx =>
      match cx.wait with
      | some w =>
        if s.waitOver q c sq cx w then
          s.modCtx q c fun cx => { cx with wait := none, spawning := match w with
            | .admission _ r => some r
            | _ => none }
        else s
      | none => s
    | _, _ => s)

/-- ILLEGAL_LANE_OPC (R40): a word of a team that no lane opcode names; its unfinished lanes are those of m0, since it has no mask field.
(DESIGN CHOICE, log 59) -/
def evIllegalLaneOpc (s : State) : Outcome State Fault Refusal :=
  laneRun .illegalLaneOpc 0 (fun x => x.trap .illegalLaneOpc []) s

/-- ILLEGAL_GEN_OPC (R40): a word of a context that no generator opcode names.
(DESIGN CHOICE, log 59) -/
def evIllegalGenOpc (s : State) : Outcome State Fault Refusal :=
  genRun .illegalGenOpc 0 (fun x => .trap .illegalGenOpc [] x.s) s

end Sys2Proof.Machine
end

