-- ==== Sys2Proof/Machine/Dispatch.lean ====
section
/-! DEFINITION. The dispatcher: one arm per constructor of Instr, each a direct call of that instruction's meaning. -/

namespace Sys2Proof.Machine

/-- The meaning of an instruction word or device step at a state: an instruction word acts for the unit named by `State.cur`. -/
def exec (i : Instr) (s : State) : Host.Outcome State Fault Refusal :=
  match i with
  | .lnop w => Sys2Proof.Machine.execLnop w s
  | .iadd w => Sys2Proof.Machine.execIadd w s
  | .isub w => Sys2Proof.Machine.execIsub w s
  | .imul w => Sys2Proof.Machine.execImul w s
  | .imulhi w => Sys2Proof.Machine.execImulhi w s
  | .imad w => Sys2Proof.Machine.execImad w s
  | .imadw w => Sys2Proof.Machine.execImadw w s
  | .idiv w => Sys2Proof.Machine.execIdiv w s
  | .irem w => Sys2Proof.Machine.execIrem w s
  | .imin w => Sys2Proof.Machine.execImin w s
  | .imax w => Sys2Proof.Machine.execImax w s
  | .iabs w => Sys2Proof.Machine.execIabs w s
  | .iadds w => Sys2Proof.Machine.execIadds w s
  | .andv w => Sys2Proof.Machine.execAndv w s
  | .orv w => Sys2Proof.Machine.execOrv w s
  | .xorv w => Sys2Proof.Machine.execXorv w s
  | .andn w => Sys2Proof.Machine.execAndn w s
  | .shl w => Sys2Proof.Machine.execShl w s
  | .shr w => Sys2Proof.Machine.execShr w s
  | .sar w => Sys2Proof.Machine.execSar w s
  | .rot w => Sys2Proof.Machine.execRot w s
  | .popc w => Sys2Proof.Machine.execPopc w s
  | .clz w => Sys2Proof.Machine.execClz w s
  | .brev w => Sys2Proof.Machine.execBrev w s
  | .bfx w => Sys2Proof.Machine.execBfx w s
  | .bfi w => Sys2Proof.Machine.execBfi w s
  | .mov w => Sys2Proof.Machine.execMov w s
  | .sel w => Sys2Proof.Machine.execSel w s
  | .icmp w => Sys2Proof.Machine.execIcmp w s
  | .ldi w => Sys2Proof.Machine.execLdi w s
  | .iaddi w => Sys2Proof.Machine.execIaddi w s
  | .imuli w => Sys2Proof.Machine.execImuli w s
  | .andi w => Sys2Proof.Machine.execAndi w s
  | .ori w => Sys2Proof.Machine.execOri w s
  | .xori w => Sys2Proof.Machine.execXori w s
  | .shifti w => Sys2Proof.Machine.execShifti w s
  | .icmpi w => Sys2Proof.Machine.execIcmpi w s
  | .fadd w => Sys2Proof.Machine.execFadd w s
  | .fsub w => Sys2Proof.Machine.execFsub w s
  | .fmul w => Sys2Proof.Machine.execFmul w s
  | .ffma w => Sys2Proof.Machine.execFfma w s
  | .fmin w => Sys2Proof.Machine.execFmin w s
  | .fmax w => Sys2Proof.Machine.execFmax w s
  | .fdiv w => Sys2Proof.Machine.execFdiv w s
  | .fsqrt w => Sys2Proof.Machine.execFsqrt w s
  | .frcp w => Sys2Proof.Machine.execFrcp w s
  | .frsq w => Sys2Proof.Machine.execFrsq w s
  | .fexp2 w => Sys2Proof.Machine.execFexp2 w s
  | .flog2 w => Sys2Proof.Machine.execFlog2 w s
  | .ftanh w => Sys2Proof.Machine.execFtanh w s
  | .fsin w => Sys2Proof.Machine.execFsin w s
  | .fcmp w => Sys2Proof.Machine.execFcmp w s
  | .fclass w => Sys2Proof.Machine.execFclass w s
  | .faddi w => Sys2Proof.Machine.execFaddi w s
  | .fmuli w => Sys2Proof.Machine.execFmuli w s
  | .cvtf w => Sys2Proof.Machine.execCvtf w s
  | .cvtfi w => Sys2Proof.Machine.execCvtfi w s
  | .cvtif w => Sys2Proof.Machine.execCvtif w s
  | .scaleb w => Sys2Proof.Machine.execScaleb w s
  | .packmx w => Sys2Proof.Machine.execPackmx w s
  | .unpkmx w => Sys2Proof.Machine.execUnpkmx w s
  | .packds w => Sys2Proof.Machine.execPackds w s
  | .unpkds w => Sys2Proof.Machine.execUnpkds w s
  | .shfl w => Sys2Proof.Machine.execShfl w s
  | .lrot w => Sys2Proof.Machine.execLrot w s
  | .lscan w => Sys2Proof.Machine.execLscan w s
  | .lred w => Sys2Proof.Machine.execLred w s
  | .lbcast w => Sys2Proof.Machine.execLbcast w s
  | .compact w => Sys2Proof.Machine.execCompact w s
  | .mlog w => Sys2Proof.Machine.execMlog w s
  | .mset w => Sys2Proof.Machine.execMset w s
  | .menter w => Sys2Proof.Machine.execMenter w s
  | .mflip w => Sys2Proof.Machine.execMflip w s
  | .mleave w => Sys2Proof.Machine.execMleave w s
  | .mfirst w => Sys2Proof.Machine.execMfirst w s
  | .mtov w => Sys2Proof.Machine.execMtov w s
  | .vtom w => Sys2Proof.Machine.execVtom w s
  | .vote w => Sys2Proof.Machine.execVote w s
  | .setfmt w => Sys2Proof.Machine.execSetfmt w s
  | .claim w => Sys2Proof.Machine.execClaim w s
  | .give w => Sys2Proof.Machine.execGive w s
  | .trapw w => Sys2Proof.Machine.execTrapw w s
  | .lbrk w => Sys2Proof.Machine.execLbrk w s
  | .wset w => Sys2Proof.Machine.execWset w s
  | .lfence w => Sys2Proof.Machine.execLfence w s
  | .ldw w => Sys2Proof.Machine.execLdw w s
  | .stw w => Sys2Proof.Machine.execStw w s
  | .ldg w => Sys2Proof.Machine.execLdg w s
  | .stg w => Sys2Proof.Machine.execStg w s
  | .atom w => Sys2Proof.Machine.execAtom w s
  | .atomn w => Sys2Proof.Machine.execAtomn w s
  | .cas w => Sys2Proof.Machine.execCas w s
  | .prefw w => Sys2Proof.Machine.execPrefw w s
  | .ldt w => Sys2Proof.Machine.execLdt w s
  | .stt w => Sys2Proof.Machine.execStt w s
  | .tempty w => Sys2Proof.Machine.execTempty w s
  | .tfull w => Sys2Proof.Machine.execTfull w s
  | .harrive w => Sys2Proof.Machine.execHarrive w s
  | .hsync w => Sys2Proof.Machine.execHsync w s
  | .hwait w => Sys2Proof.Machine.execHwait w s
  | .hexpect w => Sys2Proof.Machine.execHexpect w s
  | .spld w => Sys2Proof.Machine.execSpld w s
  | .spst w => Sys2Proof.Machine.execSpst w s
  | .spnext w => Sys2Proof.Machine.execSpnext w s
  | .spadd w => Sys2Proof.Machine.execSpadd w s
  | .mma w => Sys2Proof.Machine.execMma w s
  | .mmaz w => Sys2Proof.Machine.execMmaz w s
  | .had w => Sys2Proof.Machine.execHad w s
  | .tcvt w => Sys2Proof.Machine.execTcvt w s
  | .tepi w => Sys2Proof.Machine.execTepi w s
  | .tepiMem w => Sys2Proof.Machine.execTepiMem w s
  | .tnew w => Sys2Proof.Machine.execTnew w s
  | .tfree w => Sys2Proof.Machine.execTfree w s
  | .tzero w => Sys2Proof.Machine.execTzero w s
  | .tfromv w => Sys2Proof.Machine.execTfromv w s
  | .ttov w => Sys2Proof.Machine.execTtov w s
  | .ttrans w => Sys2Proof.Machine.execTtrans w s
  | .tred w => Sys2Proof.Machine.execTred w s
  | .descend w => Sys2Proof.Machine.execDescend w s
  | .dregroup w => Sys2Proof.Machine.execDregroup w s
  | .dtrace w => Sys2Proof.Machine.execDtrace w s
  | .dgrad w => Sys2Proof.Machine.execDgrad w s
  | .dleaf w => Sys2Proof.Machine.execDleaf w s
  | .sadd w => Sys2Proof.Machine.execSadd w s
  | .ssub w => Sys2Proof.Machine.execSsub w s
  | .smul w => Sys2Proof.Machine.execSmul w s
  | .smulhi w => Sys2Proof.Machine.execSmulhi w s
  | .sdiv w => Sys2Proof.Machine.execSdiv w s
  | .srem w => Sys2Proof.Machine.execSrem w s
  | .smin w => Sys2Proof.Machine.execSmin w s
  | .smax w => Sys2Proof.Machine.execSmax w s
  | .sand w => Sys2Proof.Machine.execSand w s
  | .sor w => Sys2Proof.Machine.execSor w s
  | .sxor w => Sys2Proof.Machine.execSxor w s
  | .sshl w => Sys2Proof.Machine.execSshl w s
  | .sshr w => Sys2Proof.Machine.execSshr w s
  | .ssar w => Sys2Proof.Machine.execSsar w s
  | .spopc w => Sys2Proof.Machine.execSpopc w s
  | .sclz w => Sys2Proof.Machine.execSclz w s
  | .sbfx w => Sys2Proof.Machine.execSbfx w s
  | .sbfi w => Sys2Proof.Machine.execSbfi w s
  | .smov w => Sys2Proof.Machine.execSmov w s
  | .ssel w => Sys2Proof.Machine.execSsel w s
  | .scmp w => Sys2Proof.Machine.execScmp w s
  | .sldi w => Sys2Proof.Machine.execSldi w s
  | .sldih w => Sys2Proof.Machine.execSldih w s
  | .saddi w => Sys2Proof.Machine.execSaddi w s
  | .sandi w => Sys2Proof.Machine.execSandi w s
  | .sshli w => Sys2Proof.Machine.execSshli w s
  | .scmpi w => Sys2Proof.Machine.execScmpi w s
  | .sfadd w => Sys2Proof.Machine.execSfadd w s
  | .sfmul w => Sys2Proof.Machine.execSfmul w s
  | .sffma w => Sys2Proof.Machine.execSffma w s
  | .sfcvt w => Sys2Proof.Machine.execSfcvt w s
  | .br w => Sys2Proof.Machine.execBr w s
  | .brz w => Sys2Proof.Machine.execBrz w s
  | .loop w => Sys2Proof.Machine.execLoop w s
  | .call w => Sys2Proof.Machine.execCall w s
  | .ret w => Sys2Proof.Machine.execRet w s
  | .jmpr w => Sys2Proof.Machine.execJmpr w s
  | .exitw w => Sys2Proof.Machine.execExitw w s
  | .yield w => Sys2Proof.Machine.execYield w s
  | .yieldTag w => Sys2Proof.Machine.execYieldTag w s
  | .emit w => Sys2Proof.Machine.execEmit w s
  | .recw w => Sys2Proof.Machine.execRecw w s
  | .replay w => Sys2Proof.Machine.execReplay w s
  | .pbdrop w => Sys2Proof.Machine.execPbdrop w s
  | .vread w => Sys2Proof.Machine.execVread w s
  | .vpeek w => Sys2Proof.Machine.execVpeek w s
  | .sdrain w => Sys2Proof.Machine.execSdrain w s
  | .trans w => Sys2Proof.Machine.execTrans w s
  | .sld w => Sys2Proof.Machine.execSld w s
  | .sst w => Sys2Proof.Machine.execSst w s
  | .satom w => Sys2Proof.Machine.execSatom w s
  | .scas w => Sys2Proof.Machine.execScas w s
  | .sfence w => Sys2Proof.Machine.execSfence w s
  | .mwait w => Sys2Proof.Machine.execMwait w s
  | .spref w => Sys2Proof.Machine.execSpref w s
  | .copy w => Sys2Proof.Machine.execCopy w s
  | .copywait w => Sys2Proof.Machine.execCopywait w s
  | .copyq w => Sys2Proof.Machine.execCopyq w s
  | .copyqResume w => Sys2Proof.Machine.execCopyqResume w s
  | .copycan w => Sys2Proof.Machine.execCopycan w s
  | .gwin w => Sys2Proof.Machine.execGwin w s
  | .gunwin w => Sys2Proof.Machine.execGunwin w s
  | .gharrive w => Sys2Proof.Machine.execGharrive w s
  | .ghsync w => Sys2Proof.Machine.execGhsync w s
  | .chsend w => Sys2Proof.Machine.execChsend w s
  | .chrecv w => Sys2Proof.Machine.execChrecv w s
  | .chset w => Sys2Proof.Machine.execChset w s
  | .tspawn w => Sys2Proof.Machine.execTspawn w s
  | .tretire w => Sys2Proof.Machine.execTretire w s
  | .tretireAt w => Sys2Proof.Machine.execTretireAt w s
  | .tscore w => Sys2Proof.Machine.execTscore w s
  | .tscoreFree w => Sys2Proof.Machine.execTscoreFree w s
  | .twait w => Sys2Proof.Machine.execTwait w s
  | .twaitAny w => Sys2Proof.Machine.execTwaitAny w s
  | .specq w => Sys2Proof.Machine.execSpecq w s
  | .spechold w => Sys2Proof.Machine.execSpechold w s
  | .spnew w => Sys2Proof.Machine.execSpnew w s
  | .spnewAttach w => Sys2Proof.Machine.execSpnewAttach w s
  | .spfree w => Sys2Proof.Machine.execSpfree w s
  | .spfreeStat w => Sys2Proof.Machine.execSpfreeStat w s
  | .seal w => Sys2Proof.Machine.execSeal w s
  | .sealFree w => Sys2Proof.Machine.execSealFree w s
  | .sealQ w => Sys2Proof.Machine.execSealQ w s
  | .digest w => Sys2Proof.Machine.execDigest w s
  | .dtset w => Sys2Proof.Machine.execDtset w s
  | .gtrap w => Sys2Proof.Machine.execGtrap w s
  | .sread w => Sys2Proof.Machine.execSread w s
  | .swrite w => Sys2Proof.Machine.execSwrite w s
  | .eret w => Sys2Proof.Machine.execEret w s
  | .eretSkip w => Sys2Proof.Machine.execEretSkip w s
  | .eretTarget w => Sys2Proof.Machine.execEretTarget w s
  | .ctxsaveRec w => Sys2Proof.Machine.execCtxsaveRec w s
  | .ctxloadRec w => Sys2Proof.Machine.execCtxloadRec w s
  | .ctxsaveSquad w => Sys2Proof.Machine.execCtxsaveSquad w s
  | .ctxloadSquad w => Sys2Proof.Machine.execCtxloadSquad w s
  | .tmask w => Sys2Proof.Machine.execTmask w s
  | .umprel w => Sys2Proof.Machine.execUmprel w s
  | .umprelKill w => Sys2Proof.Machine.execUmprelKill w s
  | .gnop w => Sys2Proof.Machine.execGnop w s
  | .tresume w => Sys2Proof.Machine.execTresume w s
  | .clauseHeaderDecode => Sys2Proof.Machine.evClauseHeaderDecode s
  | .stretchDeliver => Sys2Proof.Machine.evStretchDeliver s
  | .replayIteration => Sys2Proof.Machine.evReplayIteration s
  | .playbookFill => Sys2Proof.Machine.evPlaybookFill s
  | .flagIdle => Sys2Proof.Machine.evFlagIdle s
  | .lineWaitResume => Sys2Proof.Machine.evLineWaitResume s
  | .tileStarvedTimeout => Sys2Proof.Machine.evTileStarvedTimeout s
  | .huddleWaitEnd => Sys2Proof.Machine.evHuddleWaitEnd s
  | .matrixUnitStart => Sys2Proof.Machine.evMatrixUnitStart s
  | .claimGrant => Sys2Proof.Machine.evClaimGrant s
  | .giveReturn => Sys2Proof.Machine.evGiveReturn s
  | .tfreeEffect => Sys2Proof.Machine.evTfreeEffect s
  | .teamEvict => Sys2Proof.Machine.evTeamEvict s
  | .teamReturn => Sys2Proof.Machine.evTeamReturn s
  | .teamEnd => Sys2Proof.Machine.evTeamEnd s
  | .squadExit => Sys2Proof.Machine.evSquadExit s
  | .voteReadable => Sys2Proof.Machine.evVoteReadable s
  | .trapEntry => Sys2Proof.Machine.evTrapEntry s
  | .contextWaitResume => Sys2Proof.Machine.evContextWaitResume s
  | .mwaitReread => Sys2Proof.Machine.evMwaitReread s
  | .preemptContext => Sys2Proof.Machine.evPreemptContext s
  | .preemptDeferTimeout => Sys2Proof.Machine.evPreemptDeferTimeout s
  | .contextRestore => Sys2Proof.Machine.evContextRestore s
  | .copyStart => Sys2Proof.Machine.evCopyStart s
  | .copyLineWrite => Sys2Proof.Machine.evCopyLineWrite s
  | .copyComplete => Sys2Proof.Machine.evCopyComplete s
  | .l1Fill => Sys2Proof.Machine.evL1Fill s
  | .faultRecord => Sys2Proof.Machine.evFaultRecord s
  | .fdoneWrite => Sys2Proof.Machine.evFdoneWrite s
  | .firstTouchService => Sys2Proof.Machine.evFirstTouchService s
  | .bullpenRefill => Sys2Proof.Machine.evBullpenRefill s
  | .shootdownStart => Sys2Proof.Machine.evShootdownStart s
  | .shootdownComplete => Sys2Proof.Machine.evShootdownComplete s
  | .mailboxCreate => Sys2Proof.Machine.evMailboxCreate s
  | .mailboxDestroy => Sys2Proof.Machine.evMailboxDestroy s
  | .configRegWrite => Sys2Proof.Machine.evConfigRegWrite s
  | .patrolScrub => Sys2Proof.Machine.evPatrolScrub s
  | .taskReady => Sys2Proof.Machine.evTaskReady s
  | .lineupRise => Sys2Proof.Machine.evLineupRise s
  | .taskPlace => Sys2Proof.Machine.evTaskPlace s
  | .quantumExpiry => Sys2Proof.Machine.evQuantumExpiry s
  | .exclLoad => Sys2Proof.Machine.evExclLoad s
  | .taskRetire => Sys2Proof.Machine.evTaskRetire s
  | .versionFold => Sys2Proof.Machine.evVersionFold s
  | .specReady => Sys2Proof.Machine.evSpecReady s
  | .specValidate => Sys2Proof.Machine.evSpecValidate s
  | .specCommit => Sys2Proof.Machine.evSpecCommit s
  | .hostRead => Sys2Proof.Machine.evHostRead s
  | .hostWrite => Sys2Proof.Machine.evHostWrite s
  | .launchFrame => Sys2Proof.Machine.evLaunchFrame s
  | .hostAck => Sys2Proof.Machine.evHostAck s
  | .messageResend => Sys2Proof.Machine.evMessageResend s
  | .managementMessage => Sys2Proof.Machine.evManagementMessage s
  | .spdmGetMeasurements => Sys2Proof.Machine.evSpdmGetMeasurements s
  | .ownerCreate => Sys2Proof.Machine.evOwnerCreate s
  | .ownerRetire => Sys2Proof.Machine.evOwnerRetire s
  | .logConsumeAdvance => Sys2Proof.Machine.evLogConsumeAdvance s
  | .powerOn => Sys2Proof.Machine.evPowerOn s
  | .hostReset => Sys2Proof.Machine.evHostReset s
  | .flitCrcRetry => Sys2Proof.Machine.evFlitCrcRetry s
  | .linkFailure => Sys2Proof.Machine.evLinkFailure s
  | .opEntryWrite => Sys2Proof.Machine.evOpEntryWrite s
  | .opointRecompute => Sys2Proof.Machine.evOpointRecompute s
  | .governorInterval => Sys2Proof.Machine.evGovernorInterval s
  | .energyUpdate => Sys2Proof.Machine.evEnergyUpdate s
  | .sensorSample => Sys2Proof.Machine.evSensorSample s
  | .clampLift => Sys2Proof.Machine.evClampLift s
  | .undervoltStep => Sys2Proof.Machine.evUndervoltStep s
  | .powerEvent => Sys2Proof.Machine.evPowerEvent s
  | .undervoltLockoutEnd => Sys2Proof.Machine.evUndervoltLockoutEnd s
  | .violationRecord => Sys2Proof.Machine.evViolationRecord s
  | .sealHashDone => Sys2Proof.Machine.evSealHashDone s
  | .firmwareUpdate => Sys2Proof.Machine.evFirmwareUpdate s
  | .firmwareHeartbeat => Sys2Proof.Machine.evFirmwareHeartbeat s
  | .probationTimeout => Sys2Proof.Machine.evProbationTimeout s
  | .remoteRequest => Sys2Proof.Machine.evRemoteRequest s
  | .remoteResponse => Sys2Proof.Machine.evRemoteResponse s
  | .remoteTimeout => Sys2Proof.Machine.evRemoteTimeout s
  | .shootdownNotice => Sys2Proof.Machine.evShootdownNotice s
  | .illegalLaneOpc => Sys2Proof.Machine.evIllegalLaneOpc s
  | .illegalGenOpc => Sys2Proof.Machine.evIllegalGenOpc s

end Sys2Proof.Machine
end

