-- ==== Sys2Proof/Machine/Step.lean ====
section
/-! DEFINITION. The step of the package, and the placing of one instruction where the next step fetches it. -/

namespace Sys2Proof.Machine

/-- One step of the package: the next turn of its schedule, or an automatic turn when the schedule is empty.
(DESIGN CHOICE, log 1) -/
def step (s : State) : Host.Outcome State Fault Refusal := stepWith exec s

/-- The state with the instruction of bits `w` placed so that the next step fetches and runs it (R19): bits at or above `nbits` are zero.
(DESIGN CHOICE, log 9) -/
def State.withFetchWord (s : State) (nbits w : Nat) : State :=
  s.placeWord (wordOfBytes (toBytes 8 (w % 2 ^ min nbits 64)))

end Sys2Proof.Machine
end

