-- ==== Sys2Proof/Safety.lean ====
section
/-! DEFINITION. What the statements are stated in: when a lane word or a generator word begins with every operand settled, what it reads, and
what a completed word leaves (02_encoding.md R41, R44; 01_machine.md R25; 04_team_state.md R84, R87, R88). -/

namespace Sys2Proof.Machine

/-- The cycle count of a squad's cluster. -/
def State.cycleAt (s : State) (sq : Squad) : Nat := (s.cluster sq.cluster).cycle

/-- The current unit is team t of squad q, and the word passes its decode checks (R41), reads no register marked bad (R208) and none whose
value an older word has still to settle (R25). -/
def LaneReady (s : State) (q t : Nat) (sq : Squad) (tm : Team) (i : Instr) (ms : BitVec 3) : Prop :=
  s.cur = some (.team q t) ∧ s.squad q = some sq ∧ sq.teams[t]? = some tm ∧ fieldCheck tm.ckEnv i = none
    ∧ tm.badRead i (tm.acting ms) = none ∧ (∀ h ∈ tm.hazards, h.live tm.busy (s.cycleAt sq) = false)

/-- What a lane word of a settled team acts on. -/
def laneIn (s : State) (q t : Nat) (sq : Squad) (tm : Team) (ms : BitVec 3) : LaneIn := ⟨s, q, t, sq, tm, tm, tm.acting ms⟩

/-- The state after a lane word that changes its team alone has retired. -/
def State.laneEnd (s : State) (q t : Nat) (sq : Squad) (tm : Team) (i : Instr) (ms : BitVec 3) (new : Team) : State :=
  (s.modTeam q t fun _ => new).retire q t sq tm i (tm.acting ms)

/-- The state after a lane word has parked its team with lanes `u` unfinished: the word has taken its issue slots (R84, R446). -/
def State.laneStop (s : State) (q t : Nat) (sq : Squad) (tm : Team) (i : Instr) (ms : BitVec 3) (c : Cause) (info : List DWord) (u : Mask)
    (rec_ : List Byte := []) : State := (s.takeSlot q t sq tm i (tm.acting ms)).park q t c info u false rec_

/-- The current unit is context c of squad q, and the word passes its decode checks (R41), its predicate holds (R37), and it reads no
register whose value an older word has still to settle (R25). -/
def GenReady (s : State) (q c : Nat) (sq : Squad) (cx : Ctx) (i : Instr) (cnd : BitVec 4) : Prop :=
  s.cur = some (.ctx q c) ∧ s.squad q = some sq ∧ sq.ctxs[c]? = some cx ∧ fieldCheck {} i = none
    ∧ cx.cc.holds cnd.toNat = true ∧ (∀ h ∈ cx.hazards, h.live cx.busy (s.cycleAt sq) = false)

/-- What a generator word of a settled context acts on. -/
def genIn (s : State) (q c : Nat) (sq : Squad) (cx : Ctx) : GenIn := ⟨s, q, c, sq, cx, cx⟩

/-- The state after a generator word that changes its context alone and goes on with the next word. -/
def State.genEnd (s : State) (q c : Nat) (sq : Squad) (cx : Ctx) (i : Instr) (new : Ctx) : State :=
  (s.modCtx q c fun _ => new).genRetire q c sq cx i Ctx.advance

/-- The state after a generator word that changes its context alone and jumps (R23). -/
def State.genJump (s : State) (q c : Nat) (sq : Squad) (cx : Ctx) (i : Instr) (new : Ctx) (pc : DWord) : State :=
  (s.modCtx q c fun _ => new).genRetire q c sq cx i (·.jump pc)

/-- The exact integer x brought into a type: clamped to its range under SAT, and otherwise reduced modulo 2^width (R60, R100). -/
def fitInt (t : NumTy) (sat : Bool) (x : Int) : Nat :=
  ((if sat then max t.minInt (min t.maxInt x) else x) % ((2 ^ t.width : Nat) : Int)).toNat

/-- A team whose registers read as those of another, whose word has written the same of them, and which is otherwise the same. -/
def Team.readsAs (new tm : Team) : Prop :=
  new = { tm with v := new.v, bad := new.bad, wrote := new.wrote } ∧ new.written.Perm tm.written ∧ ∀ r l, l < tm.lanes → new.V l r = tm.V l r

/-- The n bytes at pa, of virtual address va, are ordinary memory of the owner that an access of cluster cl may read, or write: aligned, below
configuration space, in no region pool or (for a write) sealed frame, under no range lock, with no error or poison, written under the owner's
present key, with every copy in the cluster's L1 equal to memory. -/
structure Reaches (s : State) (cl owner va pa n : Nat) (wr : Bool) : Prop where
  size : n ∈ [1, 2, 4, 8]
  aligned : pa % n = 0
  below : pa + n ≤ cfgBase
  guard : s.guardPa pa n wr = none
  lock : s.lockHit owner va n wr = none
  good : pa / 128 ∉ s.badLines
  clean : pa / 128 ∉ s.poison
  own : s.foreignTag owner (pa / 128) = false
  old : s.unwritten (pa / 128) = false
  l1 : ∀ b, aget? (s.cluster cl).l1 (l1Key owner (pa / 128)) = some b → b = s.bytesAt owner false (pa / 128 * 128) 128
  miss : ∀ e ∈ (s.cluster cl).miss, e.line = l1Key owner (pa / 128) → e.bytes = s.bytesAt owner false (pa / 128 * 128) 128

/-- The window of a word is a MEM window with the permissions that the access needs, and lane l's offset lies in it, aligned (R130, R135, R314). -/
structure InWindow (x : LaneIn) (w : LM) (dw n : Nat) (rd wr : Bool) (l : Nat) : Prop where
  kind : (x.tm.window w.w.toNat).kind = 1
  read : rd = true → (x.tm.window w.w.toNat).rd = true
  write : wr = true → (x.tm.window w.w.toNat).wr = true
  low : 0 ≤ x.off w dw l
  aligned : x.off w dw l % (n : Int) = 0
  high : x.off w dw l + n ≤ (x.tm.window w.w.toNat).limit

/-- The virtual and physical addresses of lane l of a windowed word (R130, R314). -/
def winVa (x : LaneIn) (w : LM) (dw l : Nat) : Nat := wrapN ((x.tm.window w.w.toNat).base + x.off w dw l) 64
/-- The physical address of lane l of a windowed word (R314, R366). -/
def winPa (x : LaneIn) (w : LM) (dw l : Nat) : Nat := x.s.winPa (x.tm.window w.w.toNat) (x.off w dw l).toNat
/-- The virtual address of lane l of a raw word (R131). -/
def rawVa (x : LaneIn) (w : LM) (l : Nat) : Nat := wrapN ((x.rd.V64 l w.a.toNat).toNat + signed w.disp.toNat 25) 64

/-- The TLB of the lane's core serves a raw access (R311, R312). -/
structure InTlb (s : State) (x : LaneIn) (w : LM) (n : Nat) (wr : Bool) (l : Nat) (e : TlbEnt) : Prop where
  aligned : rawVa x w l % n = 0
  low : rawVa x w l < 2 ^ 56
  hit : (((s.cluster x.sq.cluster).cores[x.tm.coreOf l]?).bind fun c => tlbFind c.tlb (s.ownerOf x.sq) (rawVa x w l)) = some e
  allowed : (if wr then ({ wr := true } : Need) else { rd := true }).allowed e.leaf = true
  dirty : wr = true → e.leaf.getLsbD 11 = true
  backed : s.backed (xlOf (rawVa x w l) e.size e.leaf).pa = true

/-- The cluster TLB serves a scalar access of n bytes at va, with the permissions that it needs (R222, R311, R312). -/
structure GenTlb (s : State) (sq : Squad) (va n : Nat) (need : Need) (e : TlbEnt) : Prop where
  aligned : va % n = 0
  low : va < 2 ^ 56
  hit : tlbFind (s.cluster sq.cluster).tlb (s.ownerOf sq) va = some e
  allowed : need.allowed e.leaf = true
  dirty : need.wr = true → e.leaf.getLsbD 11 = true
  backed : s.backed (xlOf va e.size e.leaf).pa = true

/-- The number that n bytes of memory hold, least significant first (R3). -/
def memNat (s : State) (pa n : Nat) : Nat := ofBytes ((upTo n).map fun i => memGet s.mem (pa + i))

/-- The region after the listed lanes, in order, have each stored a value at their key: none when one of them finds no node free (R355, R356). -/
def regionStores (t : NumTy) (key : Nat → Nat) (val : Region → Nat → Nat) : List Nat → Region → Option Region
  | [], r => some r
  | l :: ls, r =>
    match storeAt r t (key l) (val r l) with
    | .ok r' _ => regionStores t key val ls r'
    | .fail _ _ _ => none

/-- The matrix unit of a lane core is free, and no word waits for it (R162). -/
def unitFree (s : State) (cl core : Nat) : Prop :=
  (((s.cluster cl).cores[core]?).getD {}).holder = none ∧ (((s.cluster cl).cores[core]?).getD {}).queue = []

/-- The value that the last of the listed lanes whose n bytes cover an address gives it, for bytes stored at `pa`. -/
def lastStore (ls : List Nat) (pa : Nat → Nat) (n : Nat) (v : Nat → Nat) (a : Nat) : Option Byte :=
  (ls.reverse.find? fun l => decide (pa l ≤ a) && decide (a < pa l + n)).map fun l => (toBytes n (v l)).getD (a - pa l) 0

/-- The request of lane l of a team's word to another device, which takes the next number (R434). -/
def LaneIn.request (x : LaneIn) (l dev addr n op : Nat) (data : List Nat) : RemoteReq :=
  { id := x.s.fabric.nextReq, cluster := x.sq.cluster, src := .team x.q x.t, lane := l, op := op, dev := dev, addr := addr, size := n, data := data
    issued := x.s.now }

/-- The fabric once a request has been sent. -/
def Fabric.sending (f : Fabric) (r : RemoteReq) : Fabric := { f with nextReq := f.nextReq + 1, out := f.out ++ [r] }

/-- The fabric once the answer to a request has been taken. -/
def Fabric.answered (f : Fabric) (id : Nat) : Fabric := { f with out := f.out.filter (·.id != id), results := f.results.filter (·.1 != id) }

/-- The value of one location of n bytes that each of some lanes finds, when they act on it one after another, and the value that the last leaves
(R142). -/
def atomRun (new : Nat → Nat → Option Nat) (n : Nat) : List Nat → Nat → List (Nat × Nat) × Nat
  | [], v => ([], v)
  | l :: ls, v =>
    let r := atomRun new n ls ((new l v).getD v % 2 ^ (8 * n))
    ((l, v) :: r.1, r.2)

end Sys2Proof.Machine
end

