-- ==== Sys2Proof/Certificates/Slice0/Obligations.lean ====
section
/-! DEFINITION. The statements about the model, for the provers. -/

open Sys2Proof Sys2Proof.Machine

/-- R99, R100: IADD, ISUB, IMUL, IMAD, IADDS and IABS retire with D holding, for each lane of M, the exact result brought into the type: wrapped, or
clamped under SAT. IMADW does so in the 64-bit type of the word's signedness, with C and D pairs. -/
def Obligations.IntegerArithmeticWritesTheFittedExactResult : Prop :=
  ∀ (s : State) (q t : Nat) (sq : Squad) (tm : Team) (w : LR),
    let x := laneIn s q t sq tm w.ms
    let ty := x.ty w.ty
    let a (l : Nat) : Int := ty.toInt (x.opTy ty l w.a.toNat)
    let b (l : Nat) : Int := ty.toInt (x.opTy ty l w.b.toNat)
    let c (l : Nat) : Int := ty.toInt (x.opTy ty l w.c.toNat)
    let sat := w.ex.getLsbD 2
    let gives (i : Instr) (k : NumTy) (f : Nat → Nat) : Prop :=
      LaneReady s q t sq tm i w.ms →
        exec i s = .next (s.laneEnd q t sq tm i w.ms (tm.setTy k w.d.toNat (tm.acting w.ms) f))
    gives (.iadd w) ty (fun l => fitInt ty sat (a l + b l))
    ∧ gives (.isub w) ty (fun l => fitInt ty sat (a l - b l))
    ∧ gives (.imul w) ty (fun l => fitInt ty sat (a l * b l))
    ∧ gives (.imad w) ty (fun l => fitInt ty sat (a l * b l + c l))
    ∧ gives (.iadds w) ty (fun l => fitInt ty sat (a l + b l * (2 : Int) ^ (w.fn.toNat % 64)))
    ∧ gives (.iabs w) ty (fun l => fitInt ty sat |a l|)
    ∧ (∀ t64 : NumTy, t64 = (if ty.isSigned then NumTy.i64 else NumTy.n64) →
        gives (.imadw w) t64 fun l => fitInt t64 sat (a l * b l + t64.toInt (x.op64 l w.c.toNat)))

/-- R62: IDIV and SDIV give the quotient rounded toward zero, IREM and SREM the remainder with the sign of the dividend; a division by zero gives all
ones and the dividend, and the most negative value divided by −1 gives itself and 0 (both follow by reduction modulo 2^w); neither sets a flag nor
traps. -/
def Obligations.DivisionRoundsTowardZero : Prop :=
  (∀ (t : NumTy) (a b : Nat), 
    (t.toInt b = 0 → idivOf t a b = 2 ^ t.width - 1 ∧ iremOf t a b = a)
    ∧ (t.toInt b ≠ 0 → ∃ k r : Int, t.toInt a = k * t.toInt b + r ∧ |r| < |t.toInt b| ∧ 0 ≤ r * t.toInt a
        ∧ idivOf t a b = (k % ((2 ^ t.width : Nat) : Int)).toNat ∧ iremOf t a b = (r % ((2 ^ t.width : Nat) : Int)).toNat))
  ∧ (∀ (s : State) (q t : Nat) (sq : Squad) (tm : Team) (w : LR),
      let x := laneIn s q t sq tm w.ms
      let ty := x.ty w.ty
      let gives (i : Instr) (f : NumTy → Nat → Nat → Nat) : Prop :=
        LaneReady s q t sq tm i w.ms →
          exec i s = .next (s.laneEnd q t sq tm i w.ms
            (tm.setTy ty w.d.toNat (tm.acting w.ms) fun l => f ty (x.opTy ty l w.a.toNat) (x.opTy ty l w.b.toNat)))
      gives (.idiv w) idivOf ∧ gives (.irem w) iremOf)
  ∧ (∀ (s : State) (q c : Nat) (sq : Squad) (cx : Ctx) (w : GR),
      let x := genIn s q c sq cx
      let gives (i : Instr) (f : NumTy → Nat → Nat → Nat) : Prop :=
        let r := f (grTy w) (x.a w) (x.b w)
        let d := cx.setS w.d.toNat (extRes (szWidth w.sz.toNat) (unsignedGR w) r)
        GenReady s q c sq cx i w.cnd →
          exec i s = .next (s.genEnd q c sq cx i
            (if w.fn.getLsbD 2 then { d with cc := ccOf (szWidth w.sz.toNat) r false false } else d))
      gives (.sdiv w) idivOf ∧ gives (.srem w) iremOf)

/-- R99, R101: minimum and maximum by type, the high half of the product, the bitwise words, shifts and rotation by the amount mod w, counts, bit
reversal and bit fields, MOV and SEL. R103: the immediate words, where the immediate is sign-extended for I64 and zero-extended otherwise; results
wrap. -/
def Obligations.LogicalShiftFieldAndImmediateWordsWriteTheirResult : Prop :=
  (∀ (s : State) (q t : Nat) (sq : Squad) (tm : Team) (w : LR),
      let x := laneIn s q t sq tm w.ms
      let ty := x.ty w.ty
      let n := ty.width
      let a (l : Nat) : Nat := x.opTy ty l w.a.toNat
      let b (l : Nat) : Nat := x.opTy ty l w.b.toNat
      let c (l : Nat) : Nat := x.opTy ty l w.c.toNat
      let gives (i : Instr) (f : Nat → Nat) : Prop :=
        LaneReady s q t sq tm i w.ms →
          exec i s = .next (s.laneEnd q t sq tm i w.ms (tm.setTy ty w.d.toNat (tm.acting w.ms) f))
      gives (.imulhi w) (fun l => ((ty.toInt (a l) * ty.toInt (b l) / ((2 ^ n : Nat) : Int)) % ((2 ^ n : Nat) : Int)).toNat)
      ∧ gives (.imin w) (fun l => if ty.toInt (a l) ≤ ty.toInt (b l) then a l else b l)
      ∧ gives (.imax w) (fun l => if ty.toInt (b l) ≤ ty.toInt (a l) then a l else b l)
      ∧ gives (.andv w) (fun l => a l &&& b l)
      ∧ gives (.orv w) (fun l => a l ||| b l)
      ∧ gives (.xorv w) (fun l => a l ^^^ b l)
      ∧ gives (.andn w) (fun l => a l &&& (2 ^ n - 1 - b l))
      ∧ gives (.shl w) (fun l => a l * 2 ^ (b l % n) % 2 ^ n)
      ∧ gives (.shr w) (fun l => a l / 2 ^ (b l % n))
      ∧ gives (.sar w) (fun l => ((signed (a l) n / ((2 ^ (b l % n) : Nat) : Int)) % ((2 ^ n : Nat) : Int)).toNat)
      ∧ gives (.rot w) (fun l => rotOf n (a l) (b l))
      ∧ gives (.popc w) (fun l => popN n (a l))
      ∧ gives (.clz w) (fun l => clzN n (a l))
      ∧ gives (.brev w) (fun l => revN n (a l))
      ∧ gives (.bfx w) (fun l => bfxOf ty.isSigned n (a l) (b l))
      ∧ gives (.bfi w) (fun l => bfiOf n (a l) (b l) (c l))
      ∧ gives (.mov w) a
      ∧ gives (.sel w) (fun l => if (tm.m (w.fn.toNat % 8)).getLsbD l then a l else b l))
  ∧ (∀ (s : State) (q t : Nat) (sq : Squad) (tm : Team) (w : LI),
      let x := laneIn s q t sq tm w.ms
      let ty := x.ty w.ty
      let n := ty.width
      let imm : Nat := if ty = .i64 then (w.imm.signExtend 64).toNat else w.imm.toNat
      let a (l : Nat) : Nat := x.opTy ty l w.a.toNat
      let k : Nat := w.imm.toNat % 64
      let gives (i : Instr) (f : Nat → Nat) : Prop :=
        LaneReady s q t sq tm i w.ms →
          exec i s = .next (s.laneEnd q t sq tm i w.ms (tm.setTy ty w.d.toNat (tm.acting w.ms) f))
      gives (.ldi w) (fun _ => imm)
      ∧ gives (.iaddi w) (fun l => (a l + imm) % 2 ^ n)
      ∧ gives (.imuli w) (fun l => a l * imm % 2 ^ n)
      ∧ gives (.andi w) (fun l => a l &&& imm)
      ∧ gives (.ori w) (fun l => a l ||| imm)
      ∧ gives (.xori w) (fun l => a l ^^^ imm)
      ∧ (w.imm.toNat / 64 % 4 = 0 → gives (.shifti w) fun l => a l * 2 ^ (k % n) % 2 ^ n)
      ∧ (w.imm.toNat / 64 % 4 = 1 → gives (.shifti w) fun l => a l / 2 ^ (k % n))
      ∧ (w.imm.toNat / 64 % 4 = 2 → gives (.shifti w) fun l => sarOf n (a l) k)
      ∧ (w.imm.toNat / 64 % 4 = 3 → gives (.shifti w) fun l => rotOf n (a l) k))

/-- R97, R102, R108, R119: a word that writes mask register mK sets bit l by its condition for lanes l in M and leaves the mask's other bits: ICMP,
ICMPI (integer order of the type), MLOG (the truth table FN), MSET, VTOM, and FCMP (with IV for a signalling NaN). -/
def Obligations.MaskWritingWordsSetTheBitsOfTheirLanes : Prop :=
  ∀ (s : State) (q t : Nat) (sq : Squad) (tm : Team),
    let put (m : Mask) (k : Nat) (f : Nat → Bool) (new : Team) : Prop :=
      new = { tm with masks := new.masks, fflags := new.fflags } ∧ (∀ j, j ≠ k → new.m j = tm.m j)
        ∧ (k < tm.masks.length → ∀ l, l < tm.lanes → (new.m k).getLsbD l = if m.getLsbD l then f l else (tm.m k).getLsbD l)
    let gives (i : Instr) (ms : BitVec 3) (k : Nat) (fl : Team → Prop) (f : Nat → Bool) : Prop :=
      tm.lanes ≤ 1024 → LaneReady s q t sq tm i ms → ∃ new, put (tm.acting ms) k f new ∧ fl new ∧ exec i s = .next (s.laneEnd q t sq tm i ms new)
    let same (new : Team) : Prop := new.fflags = tm.fflags
    (∀ w : LR,
      let x := laneIn s q t sq tm w.ms
      let ty := x.ty w.ty
      let v (f l : Nat) : Int := ty.toInt (x.opTy ty l f)
      let u (f l : Nat) : XVal := ty.decode (x.opTy ty l f)
      gives (.icmp w) w.ms w.d.toNat same (fun l => intCond w.fn.toNat (v w.a.toNat l) (v w.b.toNat l))
      ∧ gives (.mlog w) w.ms w.d.toNat same (fun l =>
          w.fn.getLsbD ((if (tm.m w.a.toNat).getLsbD l then 2 else 0) + (if (tm.m w.b.toNat).getLsbD l then 1 else 0)))
      ∧ gives (.mset w) w.ms w.d.toNat same (fun _ => w.fn.getLsbD 0)
      ∧ gives (.vtom w) w.ms w.d.toNat same (fun l => decide (x.op 1 l w.a.toNat ≠ 0))
      ∧ gives (.fcmp w) w.ms w.d.toNat
          (fun new => new.fflags = tm.fflags ||| (if (upTo tm.lanes).any fun l => (tm.acting w.ms).getLsbD l && ((u w.a.toNat l).isSnan || (u w.b.toNat l).isSnan)
            then 0x10#5 else 0)) (fun l => fltCond w.fn.toNat (u w.a.toNat l) (u w.b.toNat l)))
    ∧ (∀ w : LI,
      let x := laneIn s q t sq tm w.ms
      let ty := x.ty w.ty
      gives (.icmpi w) w.ms (w.d.toNat % 8) same (fun l =>
        intCond (w.d.toNat / 8) (ty.toInt (x.opTy ty l w.a.toNat)) (ty.toInt (immExt ty w.imm))))

/-- R67, R73, R95, R104 to R107, R110 to R114: a word with a rounded result retires when no lane's result overflows under OVF 11, with D holding each
lane's rounded result and the flags of all lanes of M ORed into FFLAGS; when some lane does overflow so, its team parks with FP_OVERFLOW and all of
M unfinished, and nothing else is written. The results: RoundTo of the exact sum, difference, product, fused product and sum, quotient and root;
minimumNumber and maximumNumber; the approximations (an unstated value within R107's bound: a free value of the model, notes/assumptions/5);
conversions; a × 2^b; and the value of a block's element. -/
def Obligations.RoundedWordsWriteOrTrap : Prop :=
  ∀ (s : State) (q t : Nat) (sq : Squad) (tm : Team),
    let gives (i : Instr) (ms : BitVec 3) (k : NumTy) (d : Nat) (r : Nat → Rounded) : Prop :=
      LaneReady s q t sq tm i ms →
        ((∀ l ∈ tm.lanesOf (tm.acting ms), (r l).trap = false) →
          exec i s = .next (s.laneEnd q t sq tm i ms
            ((tm.setTy k d (tm.acting ms) fun l => (r l).code).orFlags
              ((tm.lanesOf (tm.acting ms)).foldl (fun f l => f ||| (r l).flags) 0))))
        ∧ ((∃ l ∈ tm.lanesOf (tm.acting ms), (r l).trap = true) →
          ∃ info, exec i s = .next (s.laneStop q t sq tm i ms .fpOverflow info (tm.acting ms)))
    (∀ w : LR,
      let x := laneIn s q t sq tm w.ms
      let ty := x.ty w.ty
      let rnd := x.rnd w.ty w.ex
      let ovf := x.ovf w.ty w.ex
      let a (l : Nat) : XVal := ty.decode (x.opTy ty l w.a.toNat)
      let b (l : Nat) : XVal := ty.decode (x.opTy ty l w.b.toNat)
      let c (l : Nat) : XVal := ty.decode (x.opTy ty l w.c.toNat)
      let src := x.cvtSrc w
      let dst := x.cvtDst w
      let v (l : Nat) : XVal := src.decode (x.opTy src l w.a.toNat)
      let near (f : ApproxFn) (l : Nat) : Rounded := f.apply ty rnd ovf (s.free * 1024 + l) (x.opTy ty l w.a.toNat)
      let d := w.d.toNat
      gives (.fadd w) w.ms ty d (fun l => roundX ty rnd ovf (xadd rnd (a l) (b l)))
      ∧ gives (.fsub w) w.ms ty d (fun l => roundX ty rnd ovf (xadd rnd (a l) (b l).negate))
      ∧ gives (.fmul w) w.ms ty d (fun l => roundX ty rnd ovf (xmul (a l) (b l)))
      ∧ gives (.ffma w) w.ms ty d (fun l => roundX ty rnd ovf (xfma rnd (a l) (b l) (c l)))
      ∧ gives (.fdiv w) w.ms ty d (fun l => roundX ty rnd ovf (xdiv (a l) (b l)))
      ∧ gives (.fsqrt w) w.ms ty d (fun l => roundX ty rnd ovf (xsqrt (a l)))
      ∧ gives (.fmin w) w.ms ty d (fun l =>
          ⟨(fminmax ty false (x.opTy ty l w.a.toNat) (x.opTy ty l w.b.toNat)).1, (fminmax ty false (x.opTy ty l w.a.toNat) (x.opTy ty l w.b.toNat)).2, false⟩)
      ∧ gives (.fmax w) w.ms ty d (fun l =>
          ⟨(fminmax ty true (x.opTy ty l w.a.toNat) (x.opTy ty l w.b.toNat)).1, (fminmax ty true (x.opTy ty l w.a.toNat) (x.opTy ty l w.b.toNat)).2, false⟩)
      ∧ gives (.frcp w) w.ms ty d (near .rcp) ∧ gives (.frsq w) w.ms ty d (near .rsq) ∧ gives (.fexp2 w) w.ms ty d (near .exp2)
      ∧ gives (.flog2 w) w.ms ty d (near .log2) ∧ gives (.ftanh w) w.ms ty d (near .tanh)
      ∧ gives (.fsin w) w.ms ty d (near (if w.fn.getLsbD 0 then .cos else .sin))
      ∧ gives (.cvtf w) w.ms dst d (fun l => roundTo dst (v l) rnd ovf)
      ∧ gives (.cvtif w) w.ms dst d (fun l => roundTo dst (v l) rnd ovf)
      ∧ gives (.cvtfi w) w.ms dst d (fun l => toIntTy dst (v l) rnd)
      ∧ gives (.scaleb w) w.ms ty d (fun l => roundTo ty ((a l).scale2 (signed (x.op 1 l w.b.toNat) 32)) rnd ovf)
      ∧ (∀ i ∈ [Instr.unpkmx w, .unpkds w], gives i w.ms .f32 d fun l =>
          let e := x.op 1 l w.a.toNat
          roundX .f32 rnd ovf (decodeBlk ty tm.zblk (fieldN e 8 8) (e % 2 ^ ty.width), fIf (fieldN e 8 8 == 0xFF) fIV)))
    ∧ (∀ w : LI,
      let x := laneIn s q t sq tm w.ms
      let ty := x.ty w.ty
      let rnd := x.rnd w.ty 0
      let ovf := x.ovf w.ty 0
      let a (l : Nat) : XVal := ty.decode (x.opTy ty l w.a.toNat)
      let k : XVal := NumTy.f32.decode w.imm.toNat
      gives (.faddi w) w.ms ty w.d.toNat (fun l => roundX ty rnd ovf (xadd rnd (a l) k))
      ∧ gives (.fmuli w) w.ms ty w.d.toNat (fun l => roundX ty rnd ovf (xmul (a l) k)))

/-- R109, R113: FCLASS writes the one-hot class; PACKMX and PACKDS give every lane of M its block's scale byte above its element byte, lanes outside M
counting as +0, when no block of a pass overflows under OVF 11. R115 to R117: SHFL, LROT and LBCAST give each lane of M the value of A of a lane of
its group, unless a register read there is bad (R208: UNCORRECTABLE_DATA); COMPACT moves the values of each group's lanes in M to its first lanes,
in ascending order, and leaves every other lane of D. -/
def Obligations.PackAndCrossLaneWordsWriteTheirResult : Prop :=
  (∀ (s : State) (q t : Nat) (sq : Squad) (tm : Team) (w : LR),
      let x := laneIn s q t sq tm w.ms
      let ty := x.ty w.ty
      let m := tm.acting w.ms
      let passes := (upTo 32).filter fun p => fieldN m.toNat (32 * p) 32 != 0
      let block (p : Nat) : Block := (x.packBlock w ty p).2
      (LaneReady s q t sq tm (.fclass w) w.ms →
        exec (.fclass w) s = .next (s.laneEnd q t sq tm (.fclass w) w.ms
          (tm.setTy .n32 w.d.toNat m fun l => fclassOf ty (x.opTy ty l w.a.toNat))))
      ∧ ∀ i ∈ [Instr.packmx w, .packds w], LaneReady s q t sq tm i w.ms → (∀ p ∈ passes, (block p).trap = false) →
          ∃ new, exec i s = .next (s.laneEnd q t sq tm i w.ms new)
            ∧ new = { tm with v := new.v, bad := new.bad, fflags := new.fflags, wrote := new.wrote }
            ∧ new.fflags = passes.foldl (fun f p => f ||| (block p).flags) tm.fflags
            ∧ new.written = (tm.setV w.d.toNat m fun _ => 0).written
            ∧ ∀ r l, l < tm.lanes → l < 1024 → new.V l r =
                if r = w.d.toNat ∧ m.getLsbD l then BitVec.ofNat 32 ((block (l / 32)).scale * 256 + (block (l / 32)).elems.getD (l % 32) 0)
                else tm.V l r)
  ∧ (∀ (s : State) (q t : Nat) (sq : Squad) (tm : Team) (w : LR),
      let x := laneIn s q t sq tm w.ms
      let ty := x.ty w.ty
      let m := tm.acting w.ms
      let G := tm.gw
      let gives (i : Instr) (src : Nat → Nat → Nat) : Prop :=
        let bad := tm.badIn (srcRegs (wideTy tm.ckEnv w.ty) w.a.toNat) (maskOf ((tm.lanesOf m).map fun l => l / G * G + src l (l % G)))
        LaneReady s q t sq tm i w.ms →
          (bad = none → exec i s = .next (s.laneEnd q t sq tm i w.ms
            (tm.setTy ty w.d.toNat m fun l => x.opTy ty (l / G * G + src l (l % G)) w.a.toNat)))
          ∧ ∀ r l, bad = some (r, l) → (s.cluster sq.cluster).undervolted = false →
              exec i s = .next (s.laneStop q t sq tm i w.ms .uncorrectableData (badInfo [] r l) m)
      let mode := w.fn.toNat % 4
      let b (l : Nat) : Nat := x.op 1 l w.b.toNat
      (mode = 0 → gives (.shfl w) fun l _ => b l % G)
      ∧ (mode = 1 → gives (.shfl w) fun l g => if b l ≤ g then g - b l else g)
      ∧ (mode = 2 → gives (.shfl w) fun l g => if g + b l < G then g + b l else g)
      ∧ (mode = 3 → gives (.shfl w) fun l g => if g ^^^ (b l % G) < G then g ^^^ (b l % G) else g)
      ∧ (gives (.lrot w) fun _ g => (g + w.fn.toNat) % G)
      ∧ (w.fn.getLsbD 6 = false → gives (.lbcast w) fun _ _ => w.fn.toNat % 64)
      ∧ (w.fn.getLsbD 6 = true → gives (.lbcast w) fun l g => ((upTo G).find? fun k => m.getLsbD (l - g + k)).getD 0)
      ∧ (LaneReady s q t sq tm (.compact w) w.ms →
          let act (k : Nat) : List Nat := (upTo G).filter fun i => m.getLsbD (k * G + i)
          let dst : Mask := maskOf ((upTo (tm.lanes / G)).flatMap fun k => (upTo (act k).length).map fun j => k * G + j)
          exec (.compact w) s = .next (s.laneEnd q t sq tm (.compact w) w.ms
            (tm.setTy ty w.d.toNat dst fun l => x.opTy ty (l / G * G + (act (l / G)).getD (l % G) 0) w.a.toNat))))

/-- R118: for each group with a lane in M, the group's values, with the identity for lanes outside M, are combined in the fixed order; LSCAN gives lane
g of the group its inclusive or exclusive prefix and LRED gives every lane of M the group's combination, with the flags of every application ORed
in, when no application overflows under OVF 11. Integer applications set no flag and never overflow. -/
def Obligations.ScansAndReductionsCombineTheirGroups : Prop :=
  (∀ (s : State) (q t : Nat) (sq : Squad) (tm : Team) (w : LR),
    let x := laneIn s q t sq tm w.ms
    let ty := x.ty w.ty
    let m := tm.acting w.ms
    let G := tm.gw
    let op := w.fn.toNat % 4
    let f := scanOp ty op (x.rnd w.ty w.ex) (x.ovf w.ty w.ex)
    let start (k : Nat) : ScanSt :=
      { xs := (upTo G).map fun i => if m.getLsbD (k * G + i) then x.opTy ty (k * G + i) w.a.toNat else scanId ty op, flags := 0, traps := [] }
    let groups := (upTo (tm.lanes / G)).filter fun k => (upTo G).any fun i => m.getLsbD (k * G + i)
    let gives (i : Instr) (z : Nat → ScanSt) (r : List Nat → Nat → Nat) : Prop :=
      LaneReady s q t sq tm i w.ms → (∀ k ∈ groups, (z k).traps = []) →
        exec i s = .next (s.laneEnd q t sq tm i w.ms
          ((tm.setTy ty w.d.toNat m fun l => if l / G ∈ groups then r (z (l / G)).xs (l % G) else r [] (l % G)).orFlags
            (groups.foldl (fun b k => b ||| (z k).flags) 0)))
    gives (.lred w) (fun k => redGroup f 7 (G / 2) (start k)) (fun xs _ => xs.getD 0 0)
    ∧ (w.fn.getLsbD 2 = false → gives (.lscan w) (fun k => scanGroup f G 7 1 (start k)) fun xs g => xs.getD g 0)
    ∧ (w.fn.getLsbD 2 = true → gives (.lscan w) (fun k => scanGroup f G 7 1 (start k)) fun xs g => if g = 0 then scanId ty op else xs.getD (g - 1) 0))
  ∧ ∀ (ty : NumTy) (op : Nat) (rnd : Rnd) (ovf : Ovf) (a b : Nat), ty.isInt = true →
      (scanOp ty op rnd ovf a b).flags = 0 ∧ (scanOp ty op rnd ovf a b).trap = false

/-- R79, R81, R119, R120: MENTER pushes m0 and FMTR and narrows m0 by mA; MFLIP takes the complement of m0 within the top of the stack, whose FMTR it
restores; MLEAVE pops both. A push onto 16 entries, and MFLIP or MLEAVE of an empty stack, park with MASK_STACK. MFIRST keeps the lowest lane of mA
in M of each group; MTOV gives each lane of M its bit, or its pass's word, of mA. -/
def Obligations.MaskStackWordsPushFlipAndPop : Prop :=
  ∀ (s : State) (q t : Nat) (sq : Squad) (tm : Team) (w : LR),
    let m := tm.acting w.ms
    let gives (i : Instr) (new : Team) : Prop := exec i s = .next (s.laneEnd q t sq tm i w.ms new)
    let parks (i : Instr) : Prop := exec i s = .next (s.laneStop q t sq tm i w.ms .maskStack [] m)
    (LaneReady s q t sq tm (.menter w) w.ms →
      (tm.stack.length < 16 → gives (.menter w)
        { tm with stack := (tm.m 0, tm.fmtr) :: tm.stack, masks := tm.masks.set 0 (tm.m 0 &&& tm.m w.a.toNat) })
      ∧ (16 ≤ tm.stack.length → parks (.menter w)))
    ∧ (LaneReady s q t sq tm (.mflip w) w.ms →
      (∀ top f rest, tm.stack = (top, f) :: rest → gives (.mflip w) { tm with masks := tm.masks.set 0 (top &&& ~~~(tm.m 0)), fmtr := f })
      ∧ (tm.stack = [] → parks (.mflip w)))
    ∧ (LaneReady s q t sq tm (.mleave w) w.ms →
      (∀ top f rest, tm.stack = (top, f) :: rest → gives (.mleave w) { tm with masks := tm.masks.set 0 top, fmtr := f, stack := rest })
      ∧ (tm.stack = [] → parks (.mleave w)))
    ∧ (LaneReady s q t sq tm (.mfirst w) w.ms → tm.lanes ≤ 1024 → ∃ new, gives (.mfirst w) new ∧ new = { tm with masks := new.masks }
        ∧ (∀ j, j ≠ w.d.toNat → new.m j = tm.m j)
        ∧ (w.d.toNat < tm.masks.length → ∀ l, l < tm.lanes → (new.m w.d.toNat).getLsbD l =
            if m.getLsbD l then
              (tm.m w.a.toNat).getLsbD l
                && !((upTo (l % tm.gw)).any fun k => (tm.m w.a.toNat &&& m).getLsbD (l / tm.gw * tm.gw + k))
            else (tm.m w.d.toNat).getLsbD l))
    ∧ (LaneReady s q t sq tm (.mtov w) w.ms →
      gives (.mtov w) (tm.setTy .n32 w.d.toNat m fun l =>
        if w.fn.getLsbD 0 then fieldN (tm.m w.a.toNat).toNat (l / 32 * 32) 32 else if (tm.m w.a.toNat).getLsbD l then 1 else 0))

/-- R42, R124, R128, R129: LNOP retires and changes nothing else; SETFMT writes FMTR; WSET of the system-origin side band loads its window register, and
a WSET without it parks with PRIV_WORD; LFENCE retires, an acquire wider than the cluster leaving no line in the cluster's L1. (The model's choice:
that a wide acquire leaves no line in the cluster's L1, notes/assumptions/12 and 55.) R126, R127, R385, R405: TRAP with lanes in M parks its team
with USER_TRAP, after its system-call record of 64 bytes has gone to the owner's designated ring when one is designated and not full; it waits while
that ring is full, and in an uncommitted speculative task; LBRK with lanes in M parks with BREAK and IMM[15:0]. With no lane in M both retire and do
nothing. (The model's choice: a TRAP whose owner has no designated ring parks without a record, notes/assumptions/68.) -/
def Obligations.FormatWindowFenceAndTrapWordsComplete : Prop :=
  (∀ (s : State) (q t : Nat) (sq : Squad) (tm : Team),
      (∀ w : LR, LaneReady s q t sq tm (.lnop w) w.ms → exec (.lnop w) s = .next (s.retire q t sq tm (.lnop w) (tm.acting w.ms)))
      ∧ (∀ w : LI, LaneReady s q t sq tm (.setfmt w) w.ms →
          exec (.setfmt w) s = .next (s.laneEnd q t sq tm (.setfmt w) w.ms { tm with fmtr := w.imm }))
      ∧ (∀ (w : LI) (b : BufWord) (rest : List BufWord), tm.buffer = b :: rest → LaneReady s q t sq tm (.wset w) w.ms →
          (∀ win, b.sys = some win →
            exec (.wset w) s = .next (s.laneEnd q t sq tm (.wset w) w.ms { tm with win := aset tm.win (w.d.toNat % 8) win }))
          ∧ (b.sys = none → exec (.wset w) s = .next (s.laneStop q t sq tm (.wset w) w.ms .privWord [] (tm.acting w.ms))))
      ∧ (∀ w : LM, LaneReady s q t sq tm (.lfence w) w.ms →
          ∃ z, exec (.lfence w) s = .next (z.retire q t sq tm (.lfence w) (tm.acting w.ms))
            ∧ (wideAcq w.ord.toNat w.scope.toNat = false → z = s)
            ∧ (wideAcq w.ord.toNat w.scope.toNat = true → z = s.modCluster sq.cluster fun c => { c with l1 := [], miss := [] })))
  ∧ (∀ (s : State) (q t : Nat) (sq : Squad) (tm : Team) (w : LI),
      let m := tm.acting w.ms
      let o := s.ownerOf sq
      (LaneReady s q t sq tm (.lbrk w) w.ms →
        (m ≠ 0 → exec (.lbrk w) s = .next (s.laneStop q t sq tm (.lbrk w) w.ms .breakTrap [BitVec.ofNat 64 (w.imm.toNat % 2 ^ 16), 0, 0, 0] m))
        ∧ (m = 0 → exec (.lbrk w) s = .next (s.retire q t sq tm (.lbrk w) m)))
      ∧ (LaneReady s q t sq tm (.trapw w) w.ms →
        (lowLane m = none → exec (.trapw w) s = .next (s.retire q t sq tm (.trapw w) m))
        ∧ (∀ l, lowLane m = some l → s.speculative sq = true → exec (.trapw w) s = .next (s.waits q t sq tm (.trapw w) m .spec))
        ∧ (∀ l, ((laneIn s q t sq tm w.ms).sysRecord w.imm l).length = 64)
        ∧ (∀ l, lowLane m = some l → s.speculative sq = false →
          ((∀ ow, aget? s.owners o = some ow → ow.ringConn = none) → exec (.trapw w) s = .next (s.laneStop q t sq tm (.trapw w) w.ms .userTrap [] m))
          ∧ (∀ ow c, aget? s.owners o = some ow → ow.ringConn = some c →
            (ow.ringUsed < ow.ringCap → tm.badAt (runRegs 0 (min 8 tm.n)) (maskOf [l]) = none → exec (.trapw w) s =
              .next (({ s with owners := aset s.owners o { ow with ringUsed := ow.ringUsed + 1 } }.send c 7
                ((laneIn s q t sq tm w.ms).sysRecord w.imm l)).laneStop q t sq tm (.trapw w) w.ms .userTrap [] m))
            ∧ (∀ r k, ow.ringUsed < ow.ringCap → tm.badAt (runRegs 0 (min 8 tm.n)) (maskOf [l]) = some (r, k) →
                (s.cluster sq.cluster).undervolted = false →
                exec (.trapw w) s = .next (s.laneStop q t sq tm (.trapw w) w.ms .uncorrectableData (badInfo [] r k) m))
            ∧ (ow.ringCap ≤ ow.ringUsed → exec (.trapw w) s = .next (s.waits q t sq tm (.trapw w) m .ring))))))

/-- R122, R123, R236, R237: a VOTE that is not of a merged channel, of a context that has not exited, enters that context's queue with the record of
R123 and the readable-time bounds 24 and 48 cycles after its last pass, 20 more between clusters of two dies, when the queue has an entry free; with
none it waits. On a merged channel the record waits for those of the channel's other teams, from the first on in one entry, and the last pushes one
record: the sum of the counts, at most 65,535, ANY of any and ALL of all, in the channel's order (R236). (The model's reading: the queue entry of a
merged record, and bounds that count from the retirement, notes/assumptions/71.) R125, R198: a CLAIM whose granules are free on each of the team's
cores, with no claim before it there, adds IMM registers to the team and retires, and otherwise waits, in the line of each of those cores where they
are not, behind every claim issued before it; a GIVE of a team with idle flags takes IMM registers away, whose values are lost, and otherwise waits.
(The model's choice: a hazard on a register given is kept, notes/assumptions/87.) -/
def Obligations.VoteClaimAndGiveWordsComplete : Prop :=
  ((∀ (s : State) (q t oq oc : Nat) (sq osq : Squad) (tm : Team) (cx : Ctx) (w : LI),
      let kind := w.imm.toNat / 2 ^ 16 % 4
      let r := voteRecord t kind (w.imm.toNat % 2 ^ 16) (tm.m 0) (tm.m w.a.toNat)
      let p := passesOf tm (.vote w) (tm.acting w.ms)
      let cyc := (s.cluster osq.cluster).cycle + (if tm.started.isSome then 0 else max p.1 p.2 - 1)
      let far := if osq.cluster / 44 = sq.cluster / 44 then 0 else 1
      LaneReady s q t sq tm (.vote w) w.ms → tm.owner = some (oq, oc) → s.squad oq = some osq → osq.ctxs[oc]? = some cx → cx.exited = false →
        (tm.buffer.head?.bind (·.merge)) = none →
        (cx.voteEntries < 64 →
          exec (.vote w) s = .next ((s.modCtx oq oc fun z => { z with
            votes := z.votes ++ [{ rec_ := r, lower := cyc + 24 + 20 * far, upper := cyc + 48 + 20 * far, squads := [q] }] }).retire q t sq tm (.vote w) (tm.acting w.ms)))
        ∧ (64 ≤ cx.voteEntries → exec (.vote w) s = .next (s.waits q t sq tm (.vote w) (tm.acting w.ms) .vote)))
    ∧ (∀ (s : State) (q t oq oc serial : Nat) (sq osq : Squad) (tm : Team) (cx : Ctx) (p : Partial) (w : LI),
      let kind := w.imm.toNat / 2 ^ 16 % 4
      let r := voteRecord t kind (w.imm.toNat % 2 ^ 16) (tm.m 0) (tm.m w.a.toNat)
      let ps := passesOf tm (.vote w) (tm.acting w.ms)
      let cyc := (s.cluster osq.cluster).cycle + (if tm.started.isSome then 0 else max ps.1 ps.2 - 1)
      let parts := p.parts ++ [⟨q, t, r⟩]
      let has (d : Nat × Nat) (x : VotePart) : Bool := x.q == d.1 && x.t == d.2
      let from_ := p.dests.filterMap fun d => parts.find? (has d)
      LaneReady s q t sq tm (.vote w) w.ms → tm.owner = some (oq, oc) → s.squad oq = some osq → osq.ctxs[oc]? = some cx → cx.exited = false →
        (tm.buffer.head?.bind (·.merge)) = some serial → (cx.partials.find? fun x => x.serial == serial) = some p →
        (p.entry = false → 64 ≤ cx.voteEntries → exec (.vote w) s = .next (s.waits q t sq tm (.vote w) (tm.acting w.ms) .vote))
        ∧ (p.entry = true ∨ cx.voteEntries < 64 →
          ((∃ d ∈ p.dests, parts.any (has d) = false) →
            exec (.vote w) s = .next ((s.modCtx oq oc fun z => { z with
              partials := z.partials.map fun x => if x.serial = serial then { p with parts := parts, entry := true, first := kind == 3 } else x }).retire
                q t sq tm (.vote w) (tm.acting w.ms)))
          ∧ ((∀ d ∈ p.dests, parts.any (has d) = true) →
            let far := (from_.map fun x => s.dieHops oq x.q).foldl max 0
            exec (.vote w) s = .next ((s.modCtx oq oc fun z => { z with
              partials := z.partials.filter fun x => x.serial != serial
              votes := z.votes ++ [{ rec_ := mergeVotes from_ (kind == 3), lower := cyc + 24 + 20 * far, upper := cyc + 48 + 20 * far
                                     squads := from_.map (·.q) }] }).retire q t sq tm (.vote w) (tm.acting w.ms)))))
    ∧ ∀ (ps : List VotePart) (first : Bool),
        (mergeVotes ps first).toNat % 2 ^ 16 = min ((ps.map fun x => x.rec_.toNat % 2 ^ 16).sum) 65535
        ∧ (mergeVotes ps first).getLsbD 16 = (ps.any fun x => x.rec_.getLsbD 16)
        ∧ (mergeVotes ps first).getLsbD 17 = (ps.all fun x => x.rec_.getLsbD 17))
  ∧ (∀ (s : State) (q t : Nat) (sq : Squad) (tm : Team) (w : LI),
      let n := w.imm.toNat
      let line (k : Nat) : List (Nat × Nat) := (((s.cluster sq.cluster).cores[k]?).map (·.claims)).getD []
      let before (p : Nat × Nat) : Bool := p != (q, t) && (s.team p.1 p.2).any fun u => decide (u.claimAt ≤ s.serial)
      let fits (k : Nat) : Prop := line k = [] ∧ s.granules sq.cluster k + tm.passesOn k * n / 8 ≤ 512
      (LaneReady s q t sq tm (.claim w) w.ms →
        ((∀ k ∈ tm.cores, fits k) → exec (.claim w) s = .next (s.laneEnd q t sq tm (.claim w) w.ms { tm with n := tm.n + n }))
        ∧ ((∃ k ∈ tm.cores, ¬ fits k) → ∃ z : State, exec (.claim w) s = .next (z.waits q t sq tm (.claim w) (tm.acting w.ms) .claim)
            ∧ z = { s with serial := s.serial + 1, squads := (s.modTeam q t fun tm => { tm with claimAt := s.serial + 1 }).squads, clusters := z.clusters }
            ∧ ∀ k, k < (s.cluster sq.cluster).cores.length → sq.cluster < s.clusters.length →
                (fits k ∨ k ∉ tm.cores → (((z.cluster sq.cluster).cores[k]?).map (·.claims)).getD [] = line k)
                ∧ (¬ fits k → k ∈ tm.cores → (((z.cluster sq.cluster).cores[k]?).map (·.claims)).getD []
                  = (line k).takeWhile before ++ (q, t) :: (line k).dropWhile before)))
      ∧ (LaneReady s q t sq tm (.give w) w.ms →
        (tm.busy = 0 → ∃ new, exec (.give w) s = .next (s.laneEnd q t sq tm (.give w) w.ms new)
          ∧ new = { tm with n := tm.n - n, v := new.v, bad := new.bad }
          ∧ ∀ r l, new.V l r = if r < tm.n - n then tm.V l r else 0)
        ∧ (tm.busy ≠ 0 → exec (.give w) s = .next (s.waits q t sq tm (.give w) (tm.acting w.ms) .give))))

/-- R130 to R133, R136, R137: when every lane of M reaches ordinary memory, through a MEM window or at a raw address that its TLB serves, LDW and LDG
retire with D holding what memory holds at each lane's address (a narrow float widened to F32), and every byte of memory is as before. With one lane
in M they do so wherever the lane's address leads: through a GATHER window, past LIMIT and after a walk, and in an uncommitted speculative task with
its buffered writes laid over memory (R384). Through a REMOTE window LDW sends one request and waits, and the answer goes to D (R434). R143, R434:
PREFW retires whatever its lanes name, traps for none of them, and changes no byte of memory and no register: only copies in the cluster's L1,
requests to other packages, and whose the lines are that L2 drops under R326. One into L2 alone changes nothing but such requests. With 1,024
requests of the cluster outstanding it waits with the lanes whose requests find no place. -/
def Obligations.LoadsGiveWhatMemoryHoldsAndPrefetchesChangeNothing : Prop :=
  (∀ (s : State) (q t : Nat) (sq : Squad) (tm : Team) (w : LM),
      let x := laneIn s q t sq tm w.ms
      let ty := x.ty w.ty
      let n := ty.width / 8
      let m := tm.acting w.ms
      let owner := s.ownerOf sq
      let gives (i : Instr) (va pa : Nat → Nat) : Prop :=
        LaneReady s q t sq tm i w.ms → s.speculative sq = false → tm.starved = false → tm.faulted = [] → tm.lanes ≤ 1024 →
          (∀ l ∈ tm.lanesOf m, Reaches s sq.cluster owner (va l) (pa l) n false) →
          ∃ (z : State) (new : Team), exec i s = .next (z.retire q t sq tm i m)
            ∧ z = { s with squads := (s.modTeam q t fun _ => new).squads, clusters := z.clusters }
            ∧ new.readsAs (tm.setTy (loadTy ty) w.d.toNat m fun l => loadImage ty (memNat s (pa l) n))
      ((∀ l ∈ tm.lanesOf m, InWindow x w 25 n true false l) → gives (.ldw w) (winVa x w 25) (winPa x w 25))
      ∧ ∀ e : Nat → TlbEnt, (∀ l ∈ tm.lanesOf m, InTlb s x w n false l (e l)) →
          gives (.ldg w) (rawVa x w) (fun l => (xlOf (rawVa x w l) (e l).size (e l).leaf).pa)
      ∧ ∀ l : Nat, tm.lanesOf m = [l] → l < 1024 → tm.faulted = [] →
          let put (z : State) (v : Nat) : State := z.modTeam q t fun tm => tm.setTy (loadTy ty) w.d.toNat (maskOf [l]) fun _ => loadImage ty v
          (∀ (i : Instr) (va pa : Nat) (zor : Bool) (z : State), LaneReady s q t sq tm i w.ms →
              (i = .ldw w ∧ x.winTgt w 25 n { rd := true } true s l = (.ok (.loc va pa zor), z))
                ∨ (i = .ldg w ∧ x.rawTgt w n { rd := true } s l = (.ok (.loc va pa zor), z)) →
              Reaches z sq.cluster owner va pa n false →
              ∃ y : State, exec i s = .next (y.retire q t sq tm i m)
                ∧ y = { put z (ofBytes (z.overlaid (x.acc z l) pa (z.bytesAt owner false pa n))) with clusters := y.clusters })
          ∧ ∀ va dev addr : Nat, LaneReady s q t sq tm (.ldw w) w.ms → x.winTgt w 25 n { rd := true } true s l = (.ok (.rem va dev addr), s) →
              let f := s.fabric
              (f.out.find? (fun r => r.src == .team q t && r.lane == l) = none → s.reachable dev = true → s.remoteOut sq.cluster < 1024 →
                ∃ tm' : Team, tm'.readsAs { tm with todo := some (maskOf [l]) }
                  ∧ exec (.ldw w) s = .next (({ s with fabric := f.sending (x.request l dev addr n 0 []) }.modTeam q t fun _ => tm').waits
                      q t sq tm (.ldw w) m .remote))
              ∧ ∀ (r : RemoteReq) (id : Nat) (bs : List Byte), f.out.find? (fun r => r.src == .team q t && r.lane == l) = some r →
                  f.results.find? (fun z => z.1 == r.id) = some (id, 0, bs) →
                  ∃ y : State, exec (.ldw w) s = .next (y.retire q t sq tm (.ldw w) m)
                    ∧ y = { put { s with fabric := f.answered r.id } (ofBytes bs) with clusters := y.clusters })
  ∧ (∀ (s : State) (q t : Nat) (sq : Squad) (tm : Team) (w : LM),
      let m := tm.acting w.ms
      let same (z : State) : Prop :=
        z = { s with clusters := z.clusters, tags := z.tags, fabric := z.fabric }
          ∧ z.fabric = { s.fabric with nextReq := z.fabric.nextReq, out := z.fabric.out }
          ∧ (w.d.getLsbD 0 = true → z = { s with fabric := z.fabric })
      LaneReady s q t sq tm (.prefw w) w.ms →
        ((tm.window w.w.toNat).kind ≠ 4 ∨ s.remoteOut sq.cluster + (tm.lanesOf m).length ≤ 1024 →
          ∃ z : State, exec (.prefw w) s = .next (z.retire q t sq tm (.prefw w) m) ∧ same z)
        ∧ ∃ z : State, same z
            ∧ (exec (.prefw w) s = .next (z.retire q t sq tm (.prefw w) m)
              ∨ ∃ ls : List Nat, ls ≠ [] ∧ ls.Sublist (tm.lanesOf m) ∧ 1024 ≤ z.remoteOut sq.cluster
                  ∧ exec (.prefw w) s = .next ((z.modTeam q t fun tm => { tm with todo := some (maskOf ls) }).waits q t sq tm (.prefw w) m .remote)))

/-- R130, R131, R136, R138: when every lane of M reaches ordinary memory and no value overflows under OVF 11, STW and STG retire with each stored byte
holding what the highest lane that covers it stores, every other byte of memory as before, and the flags of the narrowings held for FFLAGS, which
retirement adds (R73). With one lane in M they do so wherever the lane's address leads: through a GATHER window, past LIMIT and after a walk; an
uncommitted speculative task's store outside its versions is buffered and memory is as before (R384). Through a REMOTE window STW sends one request
and waits, and retires with its answer (R434). -/
def Obligations.StoresWriteTheirBytesAndNoOthers : Prop :=
  ∀ (s : State) (q t : Nat) (sq : Squad) (tm : Team) (w : LM),
    let x := laneIn s q t sq tm w.ms
    let ty := x.ty w.ty
    let n := ty.width / 8
    let m := tm.acting w.ms
    let owner := s.ownerOf sq
    let v (l : Nat) : Rounded := narrowStore tm.fmtr ty (if ty.width = 64 then (tm.V64 l w.d.toNat).toNat else (tm.V l w.d.toNat).toNat)
    let gives (i : Instr) (va pa : Nat → Nat) : Prop :=
      LaneReady s q t sq tm i w.ms → s.speculative sq = false → tm.starved = false → tm.faulted = [] → tm.lanes ≤ 1024 → Memory.wf s.mem = true →
        (∀ l ∈ tm.lanesOf m, (v l).trap = false ∧ Reaches s sq.cluster owner (va l) (pa l) n true) →
        ∃ z : State, exec i s = .next (z.retire q t sq tm i m)
          ∧ z.team q t = some (tm.holdFlags ((tm.lanesOf m).foldl (fun f l => f ||| (v l).flags) 0))
          ∧ (∀ a, memGet z.mem a = (lastStore (tm.lanesOf m) pa n (fun l => (v l).code) a).getD (memGet s.mem a))
          ∧ z = { s with mem := z.mem, tags := z.tags, poison := z.poison, badLines := z.badLines, zorWritten := z.zorWritten, squads := z.squads,
                         clusters := z.clusters }
    ((∀ l ∈ tm.lanesOf m, InWindow x w 25 n false true l) → gives (.stw w) (winVa x w 25) (winPa x w 25))
    ∧ ∀ e : Nat → TlbEnt, (∀ l ∈ tm.lanesOf m, InTlb s x w n true l (e l)) →
        gives (.stg w) (rawVa x w) (fun l => (xlOf (rawVa x w l) (e l).size (e l).leaf).pa)
    ∧ ∀ l : Nat, tm.lanesOf m = [l] → l < 1024 → tm.faulted = [] → (v l).trap = false →
        let bytes := toBytes n (v l).code
        (∀ (i : Instr) (va pa : Nat) (zor : Bool) (z : State), LaneReady s q t sq tm i w.ms → Memory.wf z.mem = true →
            (i = .stw w ∧ x.winTgt w 25 n { wr := true } true s l = (.ok (.loc va pa zor), z))
              ∨ (i = .stg w ∧ x.rawTgt w n { wr := true } s l = (.ok (.loc va pa zor), z)) →
            Reaches z sq.cluster owner va pa n true → z.overAllowance (x.acc z l) pa n = false →
            ∃ y : State, exec i s = .next ((y.modTeam q t fun tm => tm.holdFlags (v l).flags).retire q t sq tm i m)
              ∧ (z.buffers (x.acc z l) pa = false →
                  (∀ a, memGet y.mem a = (lastStore [l] (fun _ => pa) n (fun _ => (v l).code) a).getD (memGet z.mem a))
                  ∧ y = { z with mem := y.mem, tags := y.tags, poison := y.poison, badLines := y.badLines, zorWritten := y.zorWritten, clusters := y.clusters })
              ∧ (z.buffers (x.acc z l) pa = true →
                  y = z.modTask sq.task fun k => { k with overlay := bytes.zipIdx.foldl (fun o b => aset o (pa + b.2) b.1) k.overlay }))
        ∧ ∀ va dev addr : Nat, LaneReady s q t sq tm (.stw w) w.ms → x.winTgt w 25 n { wr := true } true s l = (.ok (.rem va dev addr), s) →
            let f := s.fabric
            (f.out.find? (fun r => r.src == .team q t && r.lane == l) = none → s.speculative sq = false → s.reachable dev = true →
              s.remoteOut sq.cluster < 1024 →
              exec (.stw w) s = .next (({ s with fabric := f.sending (x.request l dev addr n 1 [(v l).code]) }.modTeam q t
                fun tm => { tm with todo := some (maskOf [l]) }).waits q t sq tm (.stw w) m .remote))
            ∧ ∀ (r : RemoteReq) (id : Nat) (bs : List Byte), f.out.find? (fun r => r.src == .team q t && r.lane == l) = some r →
                f.results.find? (fun z => z.1 == r.id) = some (id, 0, bs) →
                exec (.stw w) s = .next ((({ s with fabric := f.answered r.id }).modTeam q t fun tm => tm.holdFlags (v l).flags).retire q t sq tm (.stw w) m)

/-- R139 to R142: when every lane of M reaches ordinary memory through a MEM window and no two lanes name one location, ATOM, ATOMN and CAS retire with
each lane's location holding the new value of R140 (for CAS the lane's second value where the old one equals its first), every other byte of memory
as before, and ATOM and CAS with the old values in D. Lanes that all name one location act on it one after another in some order, each with the
value that the one before it left. With one lane in M, an uncommitted speculative task's atomic outside its versions waits (R385), and through a
REMOTE window the word sends one request and waits, and its answer goes to D (R434). -/
def Obligations.AtomicsReplaceEachLocationOnce : Prop :=
  ∀ (s : State) (q t : Nat) (sq : Squad) (tm : Team) (w : LM),
    let x := laneIn s q t sq tm w.ms
    let ty := x.ty w.ty
    let n := ty.width / 8
    let m := tm.acting w.ms
    let owner := s.ownerOf sq
    let pa := winPa x w 21
    let reg (d l : Nat) : Nat := if ty.width = 64 then (tm.V64 l d).toNat else (tm.V l d).toNat
    let old (l : Nat) : Nat := memNat s (pa l) n
    let gives (i : Instr) (new : Nat → Nat → Option Nat) (ret : Bool) (code : Nat) (data : Nat → List Nat) : Prop :=
      LaneReady s q t sq tm i w.ms → tm.faulted = [] → tm.lanes ≤ 1024 →
        (s.speculative sq = false → tm.starved = false → Memory.wf s.mem = true →
          (∀ l ∈ tm.lanesOf m, InWindow x w 21 n true true l ∧ Reaches s sq.cluster owner (winVa x w 21 l) (pa l) n true) →
          ((∀ l ∈ tm.lanesOf m, ∀ k ∈ tm.lanesOf m, l ≠ k → pa l ≠ pa k) →
            ∃ (z : State) (tm' : Team), exec i s = .next (z.retire q t sq tm i m) ∧ z.team q t = some tm'
              ∧ tm'.readsAs (if ret then tm.setTy ty w.d.toNat m old else tm)
              ∧ (∀ l ∈ tm.lanesOf m, memNat z (pa l) n = (new l (old l)).getD (old l) % 2 ^ (8 * n))
              ∧ (∀ a, (∀ l ∈ tm.lanesOf m, ¬ (pa l ≤ a ∧ a < pa l + n)) → memGet z.mem a = memGet s.mem a))
          ∧ ∀ p : Nat, (∀ l ∈ tm.lanesOf m, pa l = p) → tm.lanesOf m ≠ [] →
              ∃ (ls : List Nat) (z : State) (tm' : Team), ls.Perm (tm.lanesOf m)
                ∧ exec i s = .next (z.retire q t sq tm i m) ∧ z.team q t = some tm'
                ∧ tm'.readsAs (if ret then tm.setTy ty w.d.toNat m (aget 0 (atomRun new n ls (memNat s p n)).1) else tm)
                ∧ memNat z p n = (atomRun new n ls (memNat s p n)).2
                ∧ ∀ a, ¬ (p ≤ a ∧ a < p + n) → memGet z.mem a = memGet s.mem a)
        ∧ ∀ l : Nat, tm.lanesOf m = [l] → l < 1024 →
            (∀ (va : Nat) (zor : Bool) (p : Nat) (z : State), x.winTgt w 21 n { rd := true, wr := true } false s l = (.ok (.loc va p zor), z) →
              z.buffers (x.acc z l) p = true →
              exec i s = .next ((z.modTeam q t fun tm => { (if ret then tm.setTy ty w.d.toNat 0 fun _ => 0 else tm) with todo := some (maskOf [l]) }).waits
                q t sq tm i m .spec))
            ∧ ∀ va dev addr : Nat, x.winTgt w 21 n { rd := true, wr := true } false s l = (.ok (.rem va dev addr), s) →
                let f := s.fabric
                (f.out.find? (fun r => r.src == .team q t && r.lane == l) = none → s.speculative sq = false → s.reachable dev = true →
                  s.remoteOut sq.cluster < 1024 →
                  ∃ tm' : Team, tm'.readsAs { tm with todo := some (maskOf [l]) }
                    ∧ exec i s = .next (({ s with fabric := f.sending (x.request l dev addr n code (data l)) }.modTeam q t fun _ => tm').waits
                        q t sq tm i m .remote))
                ∧ ∀ (r : RemoteReq) (id : Nat) (bs : List Byte), f.out.find? (fun r => r.src == .team q t && r.lane == l) = some r →
                    f.results.find? (fun z => z.1 == r.id) = some (id, 0, bs) →
                    ∃ (y : State) (tm' : Team), tm'.readsAs (if ret then tm.setTy ty w.d.toNat (maskOf [l]) fun _ => ofBytes bs else tm)
                      ∧ exec i s = .next (y.retire q t sq tm i m)
                      ∧ y = { { s with fabric := f.answered r.id }.modTeam q t fun _ => tm' with clusters := y.clusters }
    let op := w.disp.toNat / 2 ^ 21 % 2 ^ 4
    let b (l : Nat) : Nat := reg w.d.toNat l % 2 ^ ty.width
    let d2 := w.d.toNat + (if ty.width = 64 then 2 else 1)
    gives (.atom w) (fun l v => some (atomNew op ty v (b l))) true (2 + op) (fun l => [ty.code, b l])
    ∧ gives (.atomn w) (fun l v => some (atomNew op ty v (b l))) false (2 + op) (fun l => [ty.code, b l])
    ∧ gives (.cas w) (fun l v => if v = reg w.d.toNat l then some (reg d2 l) else none) true 10 (fun l => [ty.code, reg w.d.toNat l, reg d2 l])

/-- R84, R135, R144, R146, for LDW and STW: with one lane in M, a window of no kind that they accept parks the team with WINDOW_INVALID, and in a MEM or
REMOTE window an offset that is no multiple of the access size parks it with MISALIGNED, and a negative offset, a missing permission or, in a REMOTE
window, an offset beyond LIMIT with PROTECTION; an address whose walk or gather index fails parks it with the failure's cause, PAGE_FAULT where an
entry is invalid (R133, R311); a device to which no route leads with FABRIC_UNREACHABLE (R442). The lane is unfinished, and memory is as before. -/
def Obligations.FaultingWindowAccessesParkTheTeam : Prop :=
  ∀ (s : State) (q t l : Nat) (sq : Squad) (tm : Team) (w : LM),
    let x := laneIn s q t sq tm w.ms
    let win := tm.window w.w.toNat
    let n := (x.ty w.ty).width / 8
    let m := tm.acting w.ms
    tm.lanesOf m = [l] → l < 1024 → tm.faulted = [] →
    ∀ i ∈ [Instr.ldw w, Instr.stw w], LaneReady s q t sq tm i w.ms →
      (i = .stw w → (narrowStore tm.fmtr (x.ty w.ty) (x.datum (x.ty w.ty) w.d.toNat l)).trap = false) →
      let parks (c : Cause) : Prop :=
        ∃ (info : List DWord) (rec_ : List Byte) (z : State), exec i s = .next (z.laneStop q t sq tm i w.ms c info (maskOf [l]) rec_) ∧ z.mem = s.mem
          ∧ ∃ tm', z.team q t = some tm' ∧ tm'.readsAs { tm with faulted := tm'.faulted }
      let tgt := x.winTgt w 25 n { rd := decide (i = .ldw w), wr := decide (i = .stw w) } true s l
      (win.kind ∉ [1, 2, 4] → parks .windowInvalid)
      ∧ (win.kind ∈ [1, 4] → x.off w 25 l % (n : Int) ≠ 0 → parks .misaligned)
      ∧ (win.kind ∈ [1, 4] → x.off w 25 l % (n : Int) = 0 →
          (x.off w 25 l < 0 ∨ (i = .ldw w ∧ win.rd = false) ∨ (i = .stw w ∧ win.wr = false) ∨ (win.kind = 4 ∧ win.limit < x.off w 25 l + n)) →
          parks .protection)
      ∧ (∀ (c : Cause) (w2 va : Nat), tgt = (.error (.cause c w2, va), s) → parks c)
      ∧ (∀ (level : Nat) (entry : DWord) (va : Nat), tgt = (.error (.page level entry, va), s) ∨ tgt = (.error (.indexPage level entry, va), s) →
          parks .pageFault)
      ∧ ∀ va dev addr : Nat, tgt = (.ok (.rem va dev addr), s) → s.reachable dev = false → (i = .stw w → s.speculative sq = false) →
          s.fabric.out.find? (fun r => r.src == .team q t && r.lane == l) = none → parks .fabricUnreachable

/-- R137, R138, R146, R150 to R155: when every lane of M names an element of a tile that it may reach, LDT gives the elements of FULL lines without an
error, STT writes them with the lines' states as they were and its narrowings' flags held for FFLAGS, TEMPTY sets their lines EMPTY and TFULL sets
them FULL; each retires. With no lane in M they retire, and every tile and register reads as before. When every lane names a handle that is
unallocated or an ACC tile's, each parks the team with TILE_HANDLE and every lane unfinished. R191, R193 to R197: TNEW makes the tile that its
lowest lane's register describes, on the core that runs that lane, with every line EMPTY, or FULL and zero under INIT; it parks with TILE_HANDLE
when the handle is allocated or the shape is none of the level's, and with TILE_STORE_FULL when the level lacks space. TFREE frees an allocated
handle, and TZERO makes every element zero: of a tile in TS or L2P with its lines FULL, or EMPTY under .EMPTY, which parks with RESERVED_FIELD for
an ACC tile; both park with TILE_HANDLE for an unallocated handle, and with RANGE_CONFLICT, naming the entry, when a copy locks a line of the tile.
TFREE parks with TILE_HANDLE too when the handle was freed while it waited, and waits while an access to the tile is under way, and TZERO of an ACC
tile runs on its core's unit. With no lane in M they retire and change nothing. -/
def Obligations.TileWordsReachAndManageTiles : Prop :=
  (∀ (s : State) (q t : Nat) (sq : Squad) (tm : Team) (w : LR),
      let x := laneIn s q t sq tm w.ms
      let ty := x.ty w.ty
      let m := tm.acting w.ms
      let h := w.b.toNat
      let ls := tm.lanesOf m
      let row (l : Nat) : Nat := x.op 1 l w.a.toNat
      let col (l : Nat) : Nat := x.op 1 l w.c.toNat
      let v (l : Nat) : Rounded := narrowStore tm.fmtr ty (if ty.width = 64 then (tm.V64 l w.d.toNat).toNat else (tm.V l w.d.toNat).toNat)
      let words : List Instr := [.ldt w, .stt w, .tempty w, .tfull w]
      tm.faulted = [] →
      (∀ k : Tile,
        let lines (l : Nat) : List Nat := k.elemLines (row l) (col l)
        x.tile h = some k → k.level ≠ 0 → tm.starved = false → tm.lanes ≤ 1024 → (∀ l ∈ ls, row l < k.rows ∧ col l < k.cols) →
          (LaneReady s q t sq tm (.ldt w) w.ms → k.ty = ty → (∀ l ∈ ls, k.badLine (lines l) = none ∧ ∀ j ∈ lines l, k.full j = true) →
            ∃ new, exec (.ldt w) s = .next (s.laneEnd q t sq tm (.ldt w) w.ms new)
              ∧ new.readsAs (tm.setTy (loadTy ty) w.d.toNat m fun l => loadImage ty (k.code (row l) (col l))))
          ∧ ((∀ l ∈ ls, ∀ j ∈ lines l, s.tileLockHit q h j = none) →
            (LaneReady s q t sq tm (.stt w) w.ms → k.ty = ty → (∀ l ∈ ls, (v l).trap = false) →
              exec (.stt w) s = .next (((s.setTile q h (ls.foldl (fun k l => k.setCode (row l) (col l) (v l).code) k)).modTeam q t fun y =>
                y.holdFlags (ls.foldl (fun f l => f ||| (v l).flags) 0)).retire q t sq tm (.stt w) m))
            ∧ (LaneReady s q t sq tm (.tempty w) w.ms →
              exec (.tempty w) s = .next ((s.setTile q h (k.setEmpty (ls.flatMap lines))).retire q t sq tm (.tempty w) m))
            ∧ (LaneReady s q t sq tm (.tfull w) w.ms →
              exec (.tfull w) s = .next ((s.fillLines q h (ls.flatMap lines)).retire q t sq tm (.tfull w) m))))
      ∧ (ls = [] → ∀ i ∈ words, LaneReady s q t sq tm i w.ms →
          ∃ (z : State) (new : Team), exec i s = .next (z.retire q t sq tm i m) ∧ z = { s with squads := z.squads } ∧ z.team q t = some new
            ∧ (∀ r l, l < tm.lanes → new.V l r = tm.V l r) ∧ ∀ (j : Nat) (k : Tile) (r c : Nat), s.tile q j = some k →
                ∃ k', z.tile q j = some k' ∧ k'.code r c = k.code r c ∧ ∀ n, k'.full n = k.full n)
      ∧ (ls ≠ [] → (s.tile q h = none ∨ ∃ k, s.tile q h = some k ∧ k.level = 0) → ∀ i ∈ words, LaneReady s q t sq tm i w.ms →
          (∀ l ∈ ls, (v l).trap = false) → tm.lanes ≤ 1024 →
          ∃ (z : State) (new : Team) (info : List DWord), exec i s = .next (z.laneStop q t sq tm i w.ms .tileHandle info (maskOf ls))
            ∧ z.mem = s.mem ∧ z.team q t = some new ∧ ∀ r l, l < tm.lanes → new.V l r = tm.V l r))
  ∧ (∀ (s : State) (q t : Nat) (sq : Squad) (tm : Team) (w : LR),
      let x := laneIn s q t sq tm w.ms
      let ty := x.ty w.ty
      let m := tm.acting w.ms
      let d := w.d.toNat
      let level := w.fn.toNat % 4
      let parks (i : Instr) (c : Cause) (w2 : Nat) : Prop := exec i s = .next (s.laneStop q t sq tm i w.ms c [BitVec.ofNat 64 d, 0, BitVec.ofNat 64 w2, 0] m)
      (m = 0 → ∀ i ∈ [Instr.tnew w, .tfree w, .tzero w], LaneReady s q t sq tm i w.ms → exec i s = .next (s.retire q t sq tm i m))
      ∧ (∀ l0, lowLane m = some l0 → LaneReady s q t sq tm (.tnew w) w.ms → tm.badAt [w.a.toNat] (maskOf [l0]) = none →
        let rows := (tm.V l0 w.a.toNat).toNat % 2 ^ 16
        let cols := (tm.V l0 w.a.toNat).toNat / 2 ^ 16
        let core := tm.coreOf l0
        let new : Tile := { level := level, ty := ty, rows := rows, cols := cols, core := core }
        let n := spaceOf level ty rows cols
        let shape : Prop := 0 < rows ∧ 0 < cols ∧ (level = 0 → rows ≤ 64 ∧ cols ≤ 64) ∧ (ty.isBlock = true → rows % 32 = 0)
        (s.tile q d = none → shape → s.room sq level core n = true →
          exec (.tnew w) s = .next ((s.setTile q d
            (if level ≠ 0 ∧ w.fn.getLsbD 2 = true then new.setFull (upTo new.lineCount) else new)).retire q t sq tm (.tnew w) m))
        ∧ ((s.tile q d ≠ none ∨ ¬ shape) → parks (.tnew w) .tileHandle n)
        ∧ (s.tile q d = none → shape → s.room sq level core n = false → parks (.tnew w) .tileStoreFull n))
      ∧ (m ≠ 0 →
        (∀ i ∈ [Instr.tfree w, .tzero w], LaneReady s q t sq tm i w.ms →
          (s.tile q d = none → parks i .tileHandle 0)
          ∧ ∀ e, x.tile d ≠ none → s.tileLocked q d = some e → parks i .rangeConflict e)
        ∧ (LaneReady s q t sq tm (.tfree w) w.ms →
          (d ∈ tm.lostTiles → parks (.tfree w) .tileHandle 0)
          ∧ (x.tile d ≠ none → s.tileLocked q d = none → s.tileInUse q d = false → exec (.tfree w) s = .next ((s.freeTile q d).retire q t sq tm (.tfree w) m))
          ∧ (x.tile d ≠ none → s.tileLocked q d = none → s.tileInUse q d = true → exec (.tfree w) s = .next (s.waits q t sq tm (.tfree w) m (.tfree d))))
        ∧ (∀ k, LaneReady s q t sq tm (.tzero w) w.ms → s.tile q d = some k → s.tileLocked q d = none →
          (k.level ≠ 0 → w.fn.getLsbD 0 = true →
            exec (.tzero w) s = .next ((s.setTile q d { k with lines := [] }).retire q t sq tm (.tzero w) m))
          ∧ (k.level ≠ 0 → w.fn.getLsbD 0 = false →
            exec (.tzero w) s = .next (((s.setTile q d { k with lines := [] }).fillLines q d (upTo k.lineCount)).retire q t sq tm (.tzero w) m))
          ∧ (k.level = 0 → w.fn.getLsbD 0 = true → exec (.tzero w) s = .next (s.laneStop q t sq tm (.tzero w) w.ms .reservedField [] m))
          ∧ (k.level = 0 → w.fn.getLsbD 0 = false → unitFree s sq.cluster k.core →
            exec (.tzero w) s =
              .next (((s.setTile q d { k with acc := [], bad := [] }).leaveUnit sq.cluster k.core (q, t)).retire q t sq tm (.tzero w) m)))))

/-- R157 to R160, R265: HARRIVE and GHARRIVE make the arrival, track the phase before it and go on; HSYNC and GHSYNC make it, go on when it completed
the phase, and otherwise wait; a GHSYNC whose arrival was made before it was abandoned makes none and goes on, or waits still. HWAIT goes on when
the phase is not the tracked one, and otherwise waits; HEXPECT adds to the owed completions. An arrival or a sum that is not allowed changes no
huddle: the team parks with its top mask unfinished, or the context traps, with HUDDLE_MISMATCH. R157 to R159: an arrival that is allowed either
leaves the phase and adds one to ARR, or, when it is the last one expected and nothing is owed, advances PH modulo 2^32 and clears ARR; an arrival
beyond those expected, of an unexpected count, or with none expected is refused. HEXPECT adds to OWED, and completes the phase when every expected
arrival is in and nothing is owed any longer; a sum outside −32,768 to 32,767 is refused. -/
def Obligations.HuddleWordsArriveWaitAndExpect : Prop :=
  ((∀ (s : State) (q t : Nat) (sq : Squad) (tm : Team) (w : LI),
      let h := w.imm.toNat % 16
      let n := w.imm.toNat / 2 ^ 16
      let hd := sq.huddle h
      let m := tm.acting w.ms
      let fails (i : Instr) : Prop := exec i s = .next (s.laneStop q t sq tm i w.ms .huddleMismatch [] (tm.m 0))
      (LaneReady s q t sq tm (.harrive w) w.ms →
        (∀ hd', hd.arrive n = some hd' →
          exec (.harrive w) s = .next (((s.setHuddle q h hd').modTeam q t fun y => y.setTp h hd.ph).retire q t sq tm (.harrive w) m))
        ∧ (hd.arrive n = none → fails (.harrive w)))
      ∧ (LaneReady s q t sq tm (.hsync w) w.ms →
        (∀ hd', hd.arrive n = some hd' →
          (hd'.ph ≠ hd.ph → exec (.hsync w) s = .next (((s.setHuddle q h hd').modTeam q t fun y => y.setTp h hd'.ph).retire q t sq tm (.hsync w) m))
          ∧ (hd'.ph = hd.ph → exec (.hsync w) s =
            .next (((s.setHuddle q h hd').modTeam q t fun y => y.setTp h hd.ph).waits q t sq tm (.hsync w) m (.huddle h))))
        ∧ (hd.arrive n = none → fails (.hsync w)))
      ∧ (LaneReady s q t sq tm (.hwait w) w.ms →
        (hd.ph ≠ aget 0 tm.tp h → exec (.hwait w) s = .next (s.laneEnd q t sq tm (.hwait w) w.ms (tm.setTp h hd.ph)))
        ∧ (hd.ph = aget 0 tm.tp h → exec (.hwait w) s = .next (s.waits q t sq tm (.hwait w) m (.huddle h))))
      ∧ (LaneReady s q t sq tm (.hexpect w) w.ms →
        (∀ hd', hd.expect (signed n 16) = some hd' → exec (.hexpect w) s = .next ((s.setHuddle q h hd').retire q t sq tm (.hexpect w) m))
        ∧ (hd.expect (signed n 16) = none → fails (.hexpect w))))
    ∧ (∀ (s : State) (q c : Nat) (sq : Squad) (cx : Ctx) (w : GR),
      let h := w.fn.toNat % 16
      let n := w.imm.toNat
      let hd := sq.huddle h
      let fails (i : Instr) : Prop :=
        exec i s = .next (s.ctxTrap q c .huddleMismatch [BitVec.ofNat 64 h, BitVec.ofNat 64 hd.exp, BitVec.ofNat 64 n, 0])
      (GenReady s q c sq cx (.gharrive w) w.cnd →
        (∀ hd', hd.arrive n = some hd' → exec (.gharrive w) s =
          .next (((s.setHuddle q h hd').modCtx q c fun y => y.setTp h hd.ph).genRetire q c sq cx (.gharrive w) Ctx.advance))
        ∧ (hd.arrive n = none → fails (.gharrive w)))
      ∧ (GenReady s q c sq cx (.ghsync w) w.cnd → cx.arrived ≠ some cx.pc.toNat →
        (∀ hd', hd.arrive n = some hd' →
          (hd'.ph ≠ hd.ph → exec (.ghsync w) s =
            .next (((s.setHuddle q h hd').modCtx q c fun y => y.setTp h hd'.ph).genRetire q c sq cx (.ghsync w) Ctx.advance))
          ∧ (hd'.ph = hd.ph → exec (.ghsync w) s =
            .next (((s.setHuddle q h hd').modCtx q c fun y => { y.setTp h hd.ph with arrived := some y.pc.toNat }).modCtx q c fun y =>
              { y with wait := some (.huddle h) })))
        ∧ (hd.arrive n = none → fails (.ghsync w)))
      ∧ (GenReady s q c sq cx (.ghsync w) w.cnd → cx.arrived = some cx.pc.toNat →
        (hd.ph ≠ aget 0 cx.tp h → exec (.ghsync w) s = .next (s.genEnd q c sq cx (.ghsync w) { cx.setTp h hd.ph with arrived := none }))
        ∧ (hd.ph = aget 0 cx.tp h → exec (.ghsync w) s = .next (s.modCtx q c fun y => { y with wait := some (.huddle h) })))))
  ∧ ((∀ (h : Huddle) (n : Nat),
      let e := if n ≠ 0 ∧ h.arr = 0 then n else h.exp
      (h.arrive n = none ↔ (n ≠ 0 ∧ h.arr ≠ 0 ∧ n ≠ h.exp) ∨ e = 0 ∨ h.arr = e)
      ∧ ∀ h', h.arrive n = some h' →
          h'.exp = e ∧ h'.owed = h.owed
            ∧ (h.arr + 1 = e ∧ h.owed = 0 → h'.ph = (h.ph + 1) % 2 ^ 32 ∧ h'.arr = 0)
            ∧ (¬ (h.arr + 1 = e ∧ h.owed = 0) → h'.ph = h.ph ∧ h'.arr = h.arr + 1))
    ∧ ∀ (h : Huddle) (n : Int),
      let done : Prop := h.arr = h.exp ∧ h.exp ≠ 0 ∧ h.owed + n = 0
      (h.expect n = none ↔ h.owed + n < -32768 ∨ 32767 < h.owed + n)
      ∧ ∀ h', h.expect n = some h' →
          h'.exp = h.exp ∧ h'.owed = h.owed + n
            ∧ (done → h'.ph = (h.ph + 1) % 2 ^ 32 ∧ h'.arr = 0) ∧ (¬ done → h'.ph = h.ph ∧ h'.arr = h.arr))

/-- R353 to R357: through a COORD window of a live region with the permission, for lanes whose coordinates are in range, SPLD gives each lane the value
at its key, zero where there is none; SPNEXT the next key above it with its value, or the end mark; SPST stores each lane's value at its key, in
lane order, a zero deleting the entry, and sets its narrowings' flags; SPADD stores, at each key, what the entry comes to when the lanes that name
it have added to it in lane order. Each retires when the region has the nodes it needs, and other regions and memory are as before. Where others may
step between lanes (R355), an SPST has stored its first lanes and goes on with the rest. A window that names no live region parks the team with
WINDOW_INVALID, another type than the region's with ILLEGAL_TYPE, registers that do not fit with RESERVED_FIELD, a missing permission with
PROTECTION, and a coordinate out of range with COORD_RANGE; no region changes. (The model's choices: how many lanes a turn lets an SPST perform at
once, notes/assumptions/1; WINDOW_INVALID of every lane, notes/assumptions/29.) -/
def Obligations.RegionWordsLookUpStoreAndStep : Prop :=
  ∀ (s : State) (q t : Nat) (sq : Squad) (tm : Team) (w : LM) (die index : Nat) (r : Region) (key : Nat → Nat),
    let x := laneIn s q t sq tm w.ms
    let ty := x.ty w.ty
    let m := tm.acting w.ms
    let ls := tm.lanesOf m
    let win := tm.window w.w.toNat
    let d := w.d.toNat
    let datum (l : Nat) : Nat := if ty.width = 64 then (tm.V64 l d).toNat else (tm.V l d).toNat
    let v (l : Nat) : Rounded := narrowStore tm.fmtr ty (datum l)
    let add (old l : Nat) : Nat :=
      if ty.isInt then (old + datum l) % 2 ^ ty.width
      else (roundX ty .ne .inf (xadd .ne (ty.decode old) (NumTy.f32.decode (datum l % 2 ^ 32)))).code
    let sum (r : Region) (l : Nat) : Nat := (ls.filter fun j => key j == key l).foldl add ((r.find (key l)).getD 0).toNat
    let last (l : Nat) : Bool := ls.all fun j => key j != key l || decide (j ≤ l)
    let sound (wr : Bool) : Prop := tm.badIn (x.regionReads w wr) m = none
    tm.faulted = [] →
    (s.windowRegion win = some (die, index, r) → ty = shapeTy r.shape → die < s.dies.length → tm.lanes ≤ 1024 → tm.starved = false →
      s.badLines = [] → s.poison = [] → s.speculative sq = false → wideAcq w.ord.toNat w.scope.toNat = false →
      (s.limit = none → sound false → LaneReady s q t sq tm (.spld w) w.ms → (m ≠ 0 → x.regionRegs w r.shape ty false = false) → win.rd = true →
        (∀ l ∈ ls, keyOf r.shape (x.coords w r.shape l) = .ok (key l)) →
        ∃ (z : State) (new : Team), exec (.spld w) s = .next (z.retire q t sq tm (.spld w) m) ∧ z.mem = s.mem ∧ z.team q t = some new
          ∧ new.readsAs (tm.setTy (loadTy ty) d m fun l => loadImage ty ((r.find (key l)).getD 0).toNat))
      ∧ (s.limit = none → sound false → LaneReady s q t sq tm (.spnext w) w.ms → (m ≠ 0 → x.regionRegs w r.shape ty true = false) → win.rd = true →
        (∀ l ∈ ls, x.startMark w r.shape l = false ∧ keyOf r.shape (x.coords w r.shape l) = .ok (key l)) →
        ∃ (z : State) (new : Team) (vals : LaneSt), exec (.spnext w) s = .next (z.retire q t sq tm (.spnext w) m) ∧ z.mem = s.mem
          ∧ z.team q t = some new ∧ new.readsAs (putNext r.shape d vals tm)
          ∧ ∀ l ∈ ls, vals.done.getLsbD l = true ∧ vals.val l = (match r.next (key l) with
              | some (k, e) => k * 2 ^ 64 + e.toNat
              | none => 2 ^ 128))
      ∧ (sound true → LaneReady s q t sq tm (.spst w) w.ms → (m ≠ 0 → x.regionRegs w r.shape ty false = false) → win.wr = true →
        (∀ l ∈ ls, (v l).trap = false ∧ keyOf r.shape (x.coords w r.shape l) = .ok (key l)) →
        let stored (z : State) (now : List Nat) (r' : Region) : Prop :=
          z.mem = s.mem ∧ z.team q t = some (tm.holdFlags (now.foldl (fun f l => f ||| (v l).flags) 0))
            ∧ (now ≠ [] → aget? (z.die die).regions index = some r') ∧ ∀ j, j ≠ index → aget? (z.die die).regions j = aget? (s.die die).regions j
        (∀ r', s.limit = none → regionStores ty key (fun _ l => (v l).code) ls r = some r' →
          ∃ z : State, exec (.spst w) s = .next (z.retire q t sq tm (.spst w) m) ∧ stored z ls r')
        ∧ ∀ (n : Nat) (r' : Region), s.limit = some n → n + 1 < ls.length → regionStores ty key (fun _ l => (v l).code) (ls.take (n + 1)) r = some r' →
          ∃ z : State, stored z (ls.take (n + 1)) r'
            ∧ exec (.spst w) s = .next ((z.takeSlot q t sq tm (.spst w) m).modTeam q t fun y => { y with todo := some (maskOf (ls.drop (n + 1))) }))
      ∧ (s.limit = none → sound true → LaneReady s q t sq tm (.spadd w) w.ms → (m ≠ 0 → x.regionRegs w r.shape ty false = false) → win.rd = true → win.wr = true →
        (∀ l ∈ ls, keyOf r.shape (x.coords w r.shape l) = .ok (key l)) →
        ∀ r', regionStores ty key sum (ls.filter last) r = some r' →
        ∃ z : State, exec (.spadd w) s = .next (z.retire q t sq tm (.spadd w) m) ∧ z.mem = s.mem
          ∧ (ls ≠ [] → aget? (z.die die).regions index = some r') ∧ ∀ j, j ≠ index → aget? (z.die die).regions j = aget? (s.die die).regions j))
    ∧ ∀ i ∈ [Instr.spld w, .spst w, .spnext w, .spadd w], LaneReady s q t sq tm i w.ms → tm.lanes ≤ 1024 → ls ≠ [] →
        let wr := decide (i = .spst w ∨ i = .spadd w)
        let regs (r : Region) : Bool := x.regionRegs w r.shape ty (decide (i = .spnext w))
        let stops (c : Cause) (u : Mask) : Prop :=
          ∃ (info : List DWord) (z : State), exec i s = .next (z.laneStop q t sq tm i w.ms c info u) ∧ z.mem = s.mem ∧ z.dies = s.dies
        sound wr → (i = .spst w → ∀ l ∈ ls, (v l).trap = false) →
        (s.windowRegion win = none → stops .windowInvalid (maskOf ls))
        ∧ (s.windowRegion win = some (die, index, r) →
            (ty ≠ shapeTy r.shape → stops .illegalType m)
            ∧ (ty = shapeTy r.shape → regs r = true → stops .reservedField m)
            ∧ (ty = shapeTy r.shape → regs r = false → (wr = true → s.speculative sq = false) →
                (((i = .spst w ∨ win.rd = true) ∧ (wr = false ∨ win.wr = true)) → s.limit = none → die < s.dies.length →
                  ∀ l e, ls = [l] → keyOf r.shape (x.coords w r.shape l) = .error e → (i = .spnext w → x.startMark w r.shape l = false) →
                    stops .coordRange (maskOf [l]))
                ∧ (((i ≠ .spst w ∧ win.rd = false) ∨ (wr = true ∧ win.wr = false)) → stops .protection (maskOf ls))))

/-- R162 to R173: an MMA or MMAZ whose row block's lanes all lie in M, on a free unit, with its tiles as R164 and R171 require, every line that it reads
FULL and no line, register or accumulator element that it reads bad, retires with each element of the accumulator tile holding the new value of R168
(from zero under MMAZ), its flags held for FFLAGS, which retirement adds (R73), the latch set under REUSE and released otherwise, and every other
tile, memory and register as before, when no element overflows under OVF 11. With no lane of the row block in M it retires and does nothing; with
some of them it parks with ILLEGAL_CONVERGENCE; and with tiles that R177's checks refuse it parks with their cause. -/
def Obligations.MultiplyWordsWriteTheAccumulator : Prop :=
  ∀ (s : State) (q t : Nat) (sq : Squad) (tm : Team) (w : LR) (zero : Bool),
    let i : Instr := if zero then .mmaz w else .mma w
    let x := laneIn s q t sq tm w.ms
    let m := tm.acting w.ms
    let rb := w.c.toNat / 16
    let core := tm.coreOf (64 * rb)
    let aT := x.ty w.ty
    let rm := x.rbMask rb
    LaneReady s q t sq tm i w.ms →
      (m &&& rm = 0 → exec i s = .next (s.retire q t sq tm i m))
      ∧ (m &&& rm ≠ 0 → m &&& rm ≠ rm → exec i s = .next (s.laneStop q t sq tm i w.ms .illegalConvergence (tm.decodeInfo i) rm))
      ∧ (rm ≠ 0 → m &&& rm = rm → unitFree s sq.cluster core →
        (∀ c, x.mmaTiles w core aT = .error c →
          exec i s = .next ((s.leaveUnit sq.cluster core (q, t)).laneStop q t sq tm i w.ms c (tm.decodeInfo i) rm))
        ∧ ∀ d b map, x.mmaTiles w core aT = .ok (d, b, map) → tm.todo = none →
          let p := x.mmaOf w zero aT d b map
          let rs := p.run p.kn
          (∀ k, k < p.kn → x.missing (p.need k) = none ∧ x.badNeed (p.need k) = none) → x.badA i w p = none → (zero = false → d.bad = []) →
          (∀ r ∈ rs, r.2.trap = false) →
          ∃ z : State, exec i s = .next (z.retire q t sq tm i m)
            ∧ z.tile q w.d.toNat = some (rs.foldl (fun k r => k.setCode r.1.1 r.1.2 r.2.code) d)
            ∧ (∀ h, h ≠ w.d.toNat → z.tile q h = s.tile q h)
            ∧ z.mem = s.mem
            ∧ z.team q t = some { tm with
                owedFlags := tm.owedFlags ||| rs.foldl (fun f r => f ||| r.2.flags) 0
                latch := if w.ex.getLsbD 7 then some ⟨w.a.toNat, rb, aT.code, w.ex.getLsbD 2, x.aVals w rb aT.code⟩ else none })

/-- R168 for integer classes: an element's new value is its old value, or zero under MMAZ, when no product is formed, and otherwise that plus the exact
sum of the products formed, modulo 2^32, whenever that sum is an integer; it sets no flag and never overflows. (Under MMA.HAD the sum may be no
integer, and the element is then a free value: notes/assumptions/83.) -/
def Obligations.IntegerAccumulationIsExactModulo32Bits : Prop :=
  ∀ (p : Mma) (k2 : Nat), p.aT.isInt = true → ∀ r ∈ p.run k2,
    let base := if p.zero then 0 else p.d.code r.1.1 r.1.2
    let c := 64 * p.cb + r.1.2
    let row := if r.1.1 < p.lanes then ((p.rows.getD r.1.1 []).take k2).drop p.k1 else []
    let col := if c < p.b.cols then (bElems p.b p.map p.zblk (p.ks * mmaK p.aT.code) k2 c).drop p.k1 else []
    let sum := matSumInt row col
    r.2.flags = 0 ∧ r.2.trap = false
      ∧ (sum.1 = false → r.2.code = base)
      ∧ ∀ n : Int, sum.1 = true → sum.2.m * 2 ^ sum.2.e.toNat = n * 2 ^ (-sum.2.e).toNat → (r.2.code : Int) = (signed base 32 + n) % 2 ^ 32

/-- R180 to R186: HAD, TCVT to a scalar type and to a block type, TTRANS and TRED, with a lane in M, on a free unit, with tiles of the types and shapes
the word requires, no lock on the destination, every source line FULL and good and no source accumulator element bad, retire with each destination
element (or block) the rounded result, the destination's lines FULL, and the flags ORed in, when no element overflows under OVF 11. TCVT between
integer types clamps without a flag, and under HAD rounds the transformed value first. With no lane in M they retire and do nothing; with a handle
that they may not name, or types or shapes that do not fit, they park with TILE_HANDLE and the top mask unfinished. R187: for lanes of M in the row
block whose rows and segments lie in the tile, TFROMV writes each lane's registers A to A + n − 1, none of them bad, to its row's segment u,
whatever the lines' states, and TTOV reads FULL lines without an error back into D to D + n − 1; other tiles and memory are as before. With no such
lane they retire, and every register and tile is as before. -/
def Obligations.WholeTileAndTileMoveWordsComplete : Prop :=
  (∀ (s : State) (q t : Nat) (sq : Squad) (tm : Team) (w : LR),
      let x := laneIn s q t sq tm w.ms
      let ty := x.ty w.ty
      let m := tm.acting w.ms
      let dh := w.d.toNat
      let bh := w.b.toNat
      let rnd := x.rnd w.ty w.ex
      let ovf := x.ovf w.ty w.ex
      let okHad (d b : Tile) : Prop := d.ty = ty ∧ b.ty = ty ∧ d.rows = b.rows ∧ d.cols = b.cols
      let okCvt (d b : Tile) : Prop := d.ty = ty ∧ w.d ≠ w.b ∧ d.rows = b.rows ∧ d.cols = b.cols
      let okTrans (d b : Tile) : Prop := d.ty = ty ∧ b.ty = ty ∧ w.d ≠ w.b ∧ d.rows = b.cols ∧ d.cols = b.rows
      let okRed (d b : Tile) : Prop := d.ty = ty ∧ (if ty.isInt then b.ty = .i32 else b.ty = .f32 ∨ b.ty = .f16 ∨ b.ty = .bf16)
        ∧ (if w.fn.getLsbD 4 then d.rows = 1 ∧ d.cols = b.cols else d.rows = b.rows ∧ d.cols = 1)
      let words : List (Instr × (Tile → Tile → Prop)) := [(.had w, okHad), (.tcvt w, okCvt), (.ttrans w, okTrans), (.tred w, okRed)]
      (∀ p ∈ words, LaneReady s q t sq tm p.1 w.ms → lowLane m = none → exec p.1 s = .next (s.retire q t sq tm p.1 m))
      ∧ ∀ l0, lowLane m = some l0 → unitFree s sq.cluster (tm.coreOf l0) →
        let core := tm.coreOf l0
        (∀ p ∈ words, LaneReady s q t sq tm p.1 w.ms →
          (x.handle core dh = none ∨ x.handle core bh = none ∨ ∃ d b, x.handle core dh = some d ∧ x.handle core bh = some b ∧ ¬ p.2 d b) →
          exec p.1 s = .next ((s.leaveUnit sq.cluster core (q, t)).laneStop q t sq tm p.1 w.ms .tileHandle (matInfo dh bh tm.sstepInfo 0 0) (tm.m 0)))
        ∧ ∀ d b, x.handle core dh = some d → x.handle core bh = some b → (d.level ≠ 0 → x.lockedLine dh (upTo d.lineCount) = none) →
          let reads := (upTo b.rows).flatMap fun r => (upTo b.cols).flatMap fun c => needOf bh b r c
          x.missing reads = none → x.badNeed reads = none → (b.level = 0 → b.bad = []) →
          let gives (i : Instr) (ok : Prop) (f : Nat × Nat → Rounded) : Prop :=
            let rs := (cells d.rows d.cols).map fun rc => (rc, f rc)
            LaneReady s q t sq tm i w.ms → ok → (∀ r ∈ rs, r.2.trap = false) →
              exec i s = .next ((((s.putElems q dh d (rs.map fun r => (r.1, r.2.code))).modTeam q t fun y =>
                y.orFlags (rs.foldl (fun a r => a ||| r.2.flags) f0)).leaveUnit sq.cluster core (q, t)).retire q t sq tm i m)
          gives (.had w) (okHad d b) (fun rc => roundX ty rnd ovf (x.hadAt w rnd b rc.1 rc.2))
          ∧ gives (.tcvt w) (okCvt d b ∧ ty.isBlock = false)
              (fun rc =>
                let r := roundX ty rnd ovf (x.cvtAt w rnd b rc.1 rc.2)
                if ty.isInt && b.ty.isInt then
                  (if w.ex.getLsbD 0 then { r with flags := 0 } else ⟨fitInt ty true (b.ty.toInt (b.code rc.1 rc.2)), 0, false⟩)
                else r)
          ∧ (let blocks := (cells (d.rows / 32) d.cols).map fun bc =>
                let vs := (upTo 32).map fun i => x.cvtAt w rnd b (32 * bc.1 + i) bc.2
                (bc, encodeBlock ty (vs.map (·.1)) rnd ovf tm.zblk, vs.map (·.2))
             LaneReady s q t sq tm (.tcvt w) w.ms → okCvt d b → ty.isBlock = true → (∀ k ∈ blocks, k.2.1.trap = false) →
              exec (.tcvt w) s = .next (((((s.setTile q dh
                (blocks.foldl (fun y k => y.setBlock k.1.1 k.1.2 k.2.1.scale k.2.1.elems) d).cleanAll).fillLines q dh (upTo d.lineCount)).modTeam q t fun y =>
                  y.orFlags (blocks.foldl (fun a k => a ||| k.2.2.foldl (· ||| ·) k.2.1.flags) f0)).leaveUnit sq.cluster core (q, t)).retire q t sq tm
                (.tcvt w) m))
          ∧ gives (.ttrans w) (okTrans d b) (fun rc => ⟨b.code rc.2 rc.1, 0, false⟩)
          ∧ gives (.tred w) (okRed d b) fun rc => tredLine (w.fn.toNat % 4) b.ty ty rnd ovf
              (if w.fn.getLsbD 4 then (upTo b.rows).map fun r => b.code r rc.2 else (upTo b.cols).map fun c => b.code rc.1 c))
  ∧ (∀ (s : State) (q t : Nat) (sq : Squad) (tm : Team) (w : LR),
      let x := laneIn s q t sq tm w.ms
      let ty := x.ty w.ty
      let m := tm.acting w.ms
      let rb := w.c.toNat / 16
      let u := w.c.toNat % 16
      let n := w.fn.toNat % 32 + 1
      let core := tm.coreOf (64 * rb)
      let ls := x.rbLanes rb
      (ls = [] → ∀ i ∈ [Instr.tfromv w, .ttov w], LaneReady s q t sq tm i w.ms → exec i s = .next (s.retire q t sq tm i m))
      ∧ ∀ k : Tile, let row (l : Nat) : Nat := if k.level = 0 then l - 64 * rb else l
        tm.lanes ≤ 1024 → tm.starved = false → tm.faulted = [] → ls ≠ [] → unitFree s sq.cluster core → k.ty = ty → (∀ l ∈ ls, row l < k.rows) →
        128 * u + 4 * n ≤ k.cols * (ty.width / 8) →
        (LaneReady s q t sq tm (.tfromv w) w.ms → x.handle core w.d.toNat = some k →
          tm.badAt (matrixRegs tm.ckEnv (.tfromv w)) (m &&& rowBlock rb) = none →
          (k.level ≠ 0 → ∀ l ∈ ls, x.lockedLine w.d.toNat (bitLines (segBit k (row l) u) (32 * n)) = none) →
          ∃ z : State, exec (.tfromv w) s = .next (z.retire q t sq tm (.tfromv w) m) ∧ z.mem = s.mem ∧ z.team q t = some tm
            ∧ (∀ h, h ≠ w.d.toNat → z.tile q h = s.tile q h)
            ∧ (k.level = 0 → z.tile q w.d.toNat = some (ls.foldl (fun k l =>
                (upTo n).foldl (fun k i => k.setCode (row l) (32 * u + i) (tm.V l (w.a.toNat + i)).toNat) k) k))
            ∧ (k.level ≠ 0 → z.tile q w.d.toNat = some (ls.foldl (fun y l =>
                y.setBytes (segBit k (row l) u / 8) ((upTo n).flatMap fun i => toBytes 4 (tm.V l (w.a.toNat + i)).toNat)) k)))
        ∧ (LaneReady s q t sq tm (.ttov w) w.ms → x.handle core w.b.toNat = some k → k.bad = [] →
          (k.level ≠ 0 → ∀ l ∈ ls, k.badLine (bitLines (segBit k (row l) u) (32 * n)) = none
            ∧ ∀ j ∈ bitLines (segBit k (row l) u) (32 * n), k.full j = true) →
          ∃ (z : State) (new : Team), exec (.ttov w) s = .next (z.retire q t sq tm (.ttov w) m) ∧ z.mem = s.mem
            ∧ (∀ h, z.tile q h = s.tile q h)
            ∧ z.team q t = some new ∧ new = { tm with v := new.v, bad := new.bad, wrote := new.wrote }
            ∧ ∀ r l, l < tm.lanes → new.V l r =
                if l ∈ ls ∧ w.d.toNat ≤ r ∧ r < w.d.toNat + n then
                  (if k.level = 0 then BitVec.ofNat 32 (k.code (row l) (32 * u + (r - w.d.toNat)))
                   else BitVec.ofNat 32 (ofBytes (k.bytes (segBit k (row l) u / 8 + 4 * (r - w.d.toNat)) 4)))
                else tm.V l r))

/-- R188 to R190: TEPI to a tile, and TEPI.MEM to a MEM window, with no register and no accumulator element that they read bad, store the epilogue's
rounded element for each row of the accumulator whose lane is in M: the tile's elements, or its blocks when M holds every lane of a row, with their
lines FULL; or the bytes of memory, every other byte as before. The flags are ORed in (TEPI.MEM holds them for FFLAGS, which retirement adds), and
under REL the accumulator is freed. With no lane of the row block in M both retire and do nothing. -/
def Obligations.EpiloguesStoreTheAccumulatorRows : Prop :=
  ∀ (s : State) (q t : Nat) (sq : Squad) (tm : Team) (w : LR),
    let x := laneIn s q t sq tm w.ms
    let ty := x.ty w.ty
    let m := tm.acting w.ms
    let rb := w.c.toNat / 16
    let cb := w.c.toNat % 16
    let core := tm.coreOf (64 * rb)
    let rnd := x.rnd w.ty w.ex
    let rel (z : State) : State := if w.fn.getLsbD 6 then z.freeTile q w.d.toNat else z
    (m &&& x.rbMask rb = 0 → ∀ i ∈ [Instr.tepi w, .tepiMem w], LaneReady s q t sq tm i w.ms → exec i s = .next (s.retire q t sq tm i m))
    ∧ ∀ d : Tile,
      let rows := (upTo (min d.rows 64)).filter fun i => decide (64 * rb + i < tm.lanes) && m.getLsbD (64 * rb + i)
      let rs := rows.flatMap fun i => (upTo d.cols).map fun j => ((i, j), x.epiElem w ty d rb i j)
      let fl := rs.foldl (fun a r => a ||| r.2.flags) f0
      tm.lanes ≤ 1024 → tm.starved = false → tm.faulted = [] → tm.wait = none → m &&& x.rbMask rb ≠ 0 → unitFree s sq.cluster core →
      x.handle core w.d.toNat = some d → d.level = 0 →
      (d.ty.isInt && ty.isInt && (w.fn.getLsbD 4 || fieldN w.ex.toNat 3 4 != 0)) = false → (∀ e ∈ d.bad, e / 64 ∉ rows) →
      (∀ b, LaneReady s q t sq tm (.tepi w) w.ms → (∀ p ∈ tm.bad, p.1 ∉ matrixRegs tm.ckEnv (.tepi w)) → x.tile w.b.toNat = some b → b.level ≠ 0 →
        b.ty = ty → 64 * cb + d.cols ≤ b.cols → (∀ i ∈ rows, 64 * rb + i < b.rows) →
        (ty.isBlock = false → (∀ r ∈ rs, r.2.trap = false) →
          x.lockedLine w.b.toNat ((rs.flatMap fun r => b.elemLines (64 * rb + r.1.1) (64 * cb + r.1.2)).eraseDups) = none →
          exec (.tepi w) s = .next (((rel ((s.putElems q w.b.toNat b (rs.map fun r => ((64 * rb + r.1.1, 64 * cb + r.1.2), r.2.code))).modTeam q t
            fun y => y.orFlags fl)).leaveUnit sq.cluster core (q, t)).retire q t sq tm (.tepi w) m))
        ∧ (let blocks := (((upTo 2).filter fun k => rows.any fun i => i / 32 == k).flatMap fun k => (upTo d.cols).map fun j => (k, j)).map fun bc =>
              let vs := (upTo 32).map fun i => if rows.contains (32 * bc.1 + i) then x.epiValue w rnd d rb (32 * bc.1 + i) bc.2 else (.zero false, f0)
              (bc, encodeBlock ty (vs.map (·.1)) rnd (x.ovf w.ty w.ex) tm.zblk, vs.map (·.2))
           let lines := (blocks.flatMap fun k => (upTo 32).flatMap fun i => b.elemLines (64 * rb + 32 * k.1.1 + i) (64 * cb + k.1.2)).eraseDups
           ty.isBlock = true → (∀ i, i < min d.rows 64 → 64 * rb + i < tm.lanes → i ∈ rows) → (∀ k ∈ blocks, k.2.1.trap = false) →
           x.lockedLine w.b.toNat lines = none →
           exec (.tepi w) s = .next (((rel (((s.setTile q w.b.toNat
              (blocks.foldl (fun y k => y.setBlock (2 * rb + k.1.1) (64 * cb + k.1.2) k.2.1.scale k.2.1.elems) b)).fillLines q w.b.toNat lines).modTeam q t
                fun y => y.orFlags (blocks.foldl (fun a k => k.2.2.foldl (· ||| ·) (a ||| k.2.1.flags)) f0))).leaveUnit sq.cluster core (q, t)).retire
              q t sq tm (.tepi w) m)))
      ∧ (let n := ty.width / 8
         let win := tm.window (w.b.toNat % 8)
         let off (i j : Nat) : Nat := (tm.V (64 * rb + i) w.a.toNat).toNat + j * n
         let pa (i j : Nat) : Nat := s.winPa win (off i j)
         LaneReady s q t sq tm (.tepiMem w) w.ms → (∀ p ∈ tm.bad, p.1 ∉ matrixRegs tm.ckEnv (.tepiMem w)) → (∀ r ∈ rs, r.2.trap = false) →
         win.kind = 1 → win.wr = true → s.speculative sq = false → Memory.wf s.mem = true →
         (∀ i ∈ rows, ∀ j, j < d.cols → off i j + n ≤ win.limit ∧ off i j % n = 0
            ∧ Reaches s sq.cluster (s.ownerOf sq) (wrapN (win.base + (off i j : Nat)) 64) (pa i j) n true) →
         (∀ i ∈ rows, ∀ i' ∈ rows, ∀ j j', j < d.cols → j' < d.cols → (i, j) ≠ (i', j') → pa i j ≠ pa i' j') →
         ∃ z : State, exec (.tepiMem w) s = .next (z.retire q t sq tm (.tepiMem w) m)
           ∧ (∀ i ∈ rows, ∀ j, j < d.cols → memNat z (pa i j) n = (x.epiElem w ty d rb i j).code % 2 ^ (8 * n))
           ∧ (∀ a, (∀ i ∈ rows, ∀ j, j < d.cols → ¬ (pa i j ≤ a ∧ a < pa i j + n)) → memGet z.mem a = memGet s.mem a)
           ∧ z.team q t = some (tm.holdFlags fl)
           ∧ z.tile q w.d.toNat = if w.fn.getLsbD 6 then none else some d)

/-- R270: a threshold node takes the left branch exactly when the feature is less than its threshold, and its MISSR bit for a NaN; a category node takes
the set bit of the feature's integer value from 0 to 255, and its MISSR bit for any other feature. R272: a descent that stands at a leaf ends there;
at any other node above the greatest depth it goes on at the child that its branch names, with the branch bit at the path's depth, and the node and
what it tested added to the digest's message. -/
def Obligations.DescentsFollowTheBranchOfEachNode : Prop :=
  (∀ (b : List Byte) (v : XVal),
      let missr := (u32At b 0).testBit 4
      let thr := NumTy.f32.decode (u32At b 16)
      (nodeTy b = 2 → v.isNan = true → branchOf b v = missr)
      ∧ (nodeTy b = 2 → v.isNan = false → (branchOf b v = false ↔ thr.isNan = false ∧ v.cmp thr = .lt))
      ∧ (nodeTy b = 3 → (∀ c, category v = some c → branchOf b v = (b.getD (16 + c / 8) 0).getLsbD (c % 8) ∧ c ≤ 255)
          ∧ (category v = none → branchOf b v = missr)))
  ∧ (∀ (x : LaneIn) (win : Window) (d : List DWord) (k h l r f : Nat) (t : Tile) (s s' : State) (p : Path) (b : List Byte),
      x.fetchNode win d k l p.node p.depth s = (.ok b, s') →
        (nodeTy b = 4 → x.descendFrom win d k h t l r (f + 1) s p = (.ok { p with msg := p.msg ++ toBytes 4 p.node }, s'))
        ∧ (∀ bit tested iv, nodeTy b ≠ 4 → p.depth ≠ treeDepth d → takeBranch d h t l r b = .ok (bit, tested, iv) →
            let c := if treeLinked d then u32At b (8 + 4 * b2n bit) else 2 * p.node + 1 + b2n bit
            (c < treeNodes d → x.descendFrom win d k h t l r (f + 1) s p
              = x.descendFrom win d k h t l r f s'
                  { node := c, bits := p.bits + b2n bit * 2 ^ p.depth, depth := p.depth + 1, tree := p.tree
                    msg := p.msg ++ toBytes 4 p.node ++ toBytes 4 tested, iv := p.iv || iv })
            ∧ (treeNodes d ≤ c → ∃ e, (x.descendFrom win d k h t l r (f + 1) s p).1 = .error e)))

/-- R271, R272, R278, R281: with the descent unit free, DESCEND of lanes whose descents all reach a leaf writes each lane's leaf to D, its path bits and
depth to the path-trace register, and under DIGEST its digest, and sets IV where a descent met a NaN neuron; DLEAF of lanes that all name leaves
writes the leaves' values, or adds them to D, and sets the additions' flags. Both retire, which adds the flags to FFLAGS (R73). A LINKED tree with
A+1 at or beyond the claimed count parks DESCEND with RESERVED_FIELD; a window that is no TREE window parks them, and DGRAD, with WINDOW_INVALID;
DESCEND of an unallocated row tile parks with TILE_HANDLE and DLEAF of an index beyond the tree with DESCENT_NODE. With no lane in M both retire and
do nothing. (Hypothesis: each lane's own walk, from the state that the reads of the lane before left, ends so, and reads only: every squad is as
before.) -/
def Obligations.DescendAndLeafWordsWriteTheirLanes : Prop :=
  ∀ (s : State) (q t : Nat) (sq : Squad) (tm : Team) (w : LR),
    let x := laneIn s q t sq tm w.ms
    let m := tm.acting w.ms
    let ls := tm.lanesOf m
    let win := tm.window (w.c.toNat % 8)
    let pt := w.c.toNat / 16 % 8
    let linked : Prop := win.kind = 5 ∧ treeLinked win.tree = true
    let each {α : Type} (f : State → Nat → DR α) (p : Nat → α) (zs : Nat → State) : Prop :=
      zs 0 = s ∧ (∀ n l, ls[n]? = some l → f (zs n) l = (.ok (p l), zs (n + 1))) ∧ ∀ n, n ≤ ls.length → (zs n).squads = s.squads
    (m = 0 → ∀ i ∈ [Instr.descend w, .dleaf w], LaneReady s q t sq tm i w.ms → exec i s = .next (s.retire q t sq tm i m))
    ∧ (tm.lanes ≤ 1024 → tm.starved = false → tm.faulted = [] → m ≠ 0 → (s.cluster sq.cluster).descent = [] →
      (∀ (p : Nat → Path) (zs : Nat → State), LaneReady s q t sq tm (.descend w) w.ms →
        (linked → w.a.toNat + 1 < tm.n ∧ tm.badIn [w.a.toNat + 1] m = none) →
        each (x.descendLane w tm.inUnit) p zs →
        ∃ (z : State) (new : Team), exec (.descend w) s = .next (z.retire q t sq tm (.descend w) m) ∧ z.mem = (zs ls.length).mem ∧ z.team q t = some new
          ∧ (∀ r l, l < tm.lanes → new.V l r = if r = w.d.toNat ∧ l ∈ ls then BitVec.ofNat 32 (p l).node else tm.V l r)
          ∧ (∀ l ∈ ls, new.ptOf pt l = (BitVec.ofNat 32 (p l).bits, (p l).depth))
          ∧ new.owedFlags = (if ls.any fun l => (p l).iv then tm.owedFlags ||| 0x10#5 else tm.owedFlags)
          ∧ (treeDigest win.tree = true → ∀ l ∈ ls, aget? new.digests l =
              some { sealId := treeSeal win.tree, tree := (p l).tree, leaf := (p l).node, depth := (p l).depth, digest := shake128 (p l).msg })
          ∧ (treeDigest win.tree = false → new.digests = tm.digests))
      ∧ (LaneReady s q t sq tm (.descend w) w.ms → linked → tm.n ≤ w.a.toNat + 1 →
        ∃ z : State, exec (.descend w) s = .next (z.laneStop q t sq tm (.descend w) w.ms .reservedField [] m) ∧ z.mem = s.mem ∧ z.team q t = some tm)
      ∧ (∀ (b : Nat → List Byte) (zs : Nat → State), LaneReady s q t sq tm (.dleaf w) w.ms →
        each (x.leafLane w tm.inUnit) b zs →
        let first := w.fn.toNat % 8
        let count := w.fn.toNat / 8 % 8 + 1
        let rnd := Rnd.ofCode (fieldN w.ex.toNat 3 2)
        let value (l i : Nat) : Rounded :=
          let v := leafValue (b l) (first + i)
          if w.fn.getLsbD 6 then roundX .f32 rnd .inf (xadd rnd (NumTy.f32.decode (tm.V l (w.d.toNat + i)).toNat) (NumTy.f32.decode v)) else ⟨v, 0, false⟩
        ∃ (z : State) (new : Team), exec (.dleaf w) s = .next (z.retire q t sq tm (.dleaf w) m) ∧ z.mem = (zs ls.length).mem ∧ z.team q t = some new
          ∧ new.owedFlags = tm.owedFlags ||| ls.foldl (fun f l => (upTo count).foldl (fun f i => f ||| (value l i).flags) f) 0
          ∧ ∀ r l, l < tm.lanes → new.V l r =
              if l ∈ ls ∧ w.d.toNat ≤ r ∧ r < w.d.toNat + count then BitVec.ofNat 32 (value l (r - w.d.toNat)).code else tm.V l r)
      ∧ (ls ≠ [] →
        let stops (i : Instr) (c : Cause) : Prop :=
          ∃ (info : List DWord) (z : State), exec i s = .next (z.laneStop q t sq tm i w.ms c info (maskOf ls)) ∧ z.mem = s.mem
        (∀ i ∈ [Instr.descend w, .dleaf w, .dgrad w], LaneReady s q t sq tm i w.ms → win.kind ≠ 5 → stops i .windowInvalid)
        ∧ (LaneReady s q t sq tm (.descend w) w.ms → win.kind = 5 → (linked → w.a.toNat + 1 < tm.n ∧ tm.badIn [w.a.toNat + 1] m = none) →
            x.tile w.b.toNat = none → stops (.descend w) .tileHandle)
        ∧ (LaneReady s q t sq tm (.dleaf w) w.ms → win.kind = 5 → tm.inUnit = true ∨ s.sealGone win.tree = false →
            (∀ l ∈ ls, treeNodes win.tree ≤ x.op 1 l w.a.toNat) → stops (.dleaf w) .descentNode)))

/-- R279, R280: with the descent unit free, DREGROUP gives the lanes of M the rows in ascending order of key, row and lane, and each lane its rank;
DTRACE gives each lane its path bits and depth. Both retire, and with no lane in M do nothing else. R282: with the descent unit free, a DGRAD with
one lane in M whose path passes the level, over a HEAP tree and a row of FULL lines, adds the exact gradient times each feature, and the gradient
itself after the last, rounded to nearest even, to the elements of the level's node; every other byte of memory and every register is as before, and
the word retires. A lane whose path does not pass the level adds nothing, and with no lane in M the word retires and does nothing. -/
def Obligations.RegroupTraceAndGradientWordsComplete : Prop :=
  (∀ (s : State) (q t : Nat) (sq : Squad) (tm : Team) (w : LR),
      let m := tm.acting w.ms
      let ls := tm.lanesOf m
      let d := w.d.toNat
      let rank (l : Nat) : Nat × Nat × Nat := ((tm.V l w.a.toNat).toNat, (tm.V l (w.a.toNat + 1)).toNat, l)
      let before (a b : Nat × Nat × Nat) : Prop := a.1 < b.1 ∨ a.1 = b.1 ∧ (a.2.1 < b.2.1 ∨ a.2.1 = b.2.1 ∧ a.2.2 < b.2.2)
      (m = 0 → ∀ i ∈ [Instr.dregroup w, .dtrace w], LaneReady s q t sq tm i w.ms → exec i s = .next (s.retire q t sq tm i m))
      ∧ (tm.lanes ≤ 1024 → m ≠ 0 → (s.cluster sq.cluster).descent = [] →
        (LaneReady s q t sq tm (.dregroup w) w.ms →
          ∃ (z : State) (new : Team) (sorted : List Nat), exec (.dregroup w) s = .next (z.retire q t sq tm (.dregroup w) m) ∧ z.mem = s.mem
            ∧ z.team q t = some new ∧ new = { tm with v := new.v, bad := new.bad, wrote := new.wrote }
            ∧ sorted.Perm ls ∧ sorted.Pairwise (fun a b => before (rank a) (rank b))
            ∧ ∀ r l, l < tm.lanes → new.V l r =
                if l ∈ ls ∧ r = d then tm.V (sorted.getD (ls.idxOf l) 0) (w.a.toNat + 1)
                else if l ∈ ls ∧ r = d + 1 then BitVec.ofNat 32 (sorted.idxOf l)
                else tm.V l r)
        ∧ (LaneReady s q t sq tm (.dtrace w) w.ms →
          ∃ (z : State) (new : Team), exec (.dtrace w) s = .next (z.retire q t sq tm (.dtrace w) m) ∧ z.mem = s.mem
            ∧ z.team q t = some new ∧ new = { tm with v := new.v, bad := new.bad, wrote := new.wrote }
            ∧ ∀ r l, l < tm.lanes → new.V l r =
                if l ∈ ls ∧ r = d then (tm.ptOf (w.c.toNat / 16 % 8) l).1
                else if l ∈ ls ∧ r = d + 1 then BitVec.ofNat 32 (tm.ptOf (w.c.toNat / 16 % 8) l).2
                else tm.V l r)))
  ∧ (∀ (s : State) (q t : Nat) (sq : Squad) (tm : Team) (w : LR),
      let x := laneIn s q t sq tm w.ms
      let m := tm.acting w.ms
      let d := (tm.window (w.c.toNat % 8)).tree
      let gw := tm.window (w.d.toNat % 8)
      let lev := w.fn.toNat % 32
      (m = 0 → LaneReady s q t sq tm (.dgrad w) w.ms → exec (.dgrad w) s = .next (s.retire q t sq tm (.dgrad w) m))
      ∧ ∀ (l : Nat) (k : Tile) (xs : List XVal),
      let path := tm.ptOf (w.c.toNat / 16 % 8) l
      let node := heapNode path.1.toNat lev
      let n := treeFeat d
      let at_ (f : Nat) : Nat := node * (4 * (n + 1)) + 4 * f
      let g := NumTy.f32.decode (tm.V l w.a.toNat).toNat
      let pa (f : Nat) : Nat := s.winPa gw (at_ f)
      let y (f : Nat) : XVal := (xs ++ [XVal.fin false 1 0]).getD f (.zero false)
      LaneReady s q t sq tm (.dgrad w) w.ms → tm.lanesOf m = [l] → tm.lanes ≤ 1024 → tm.starved = false → tm.faulted = [] → (s.cluster sq.cluster).descent = [] →
        (tm.window (w.c.toNat % 8)).kind = 5 → gw.kind = 1 → treeLinked d = false →
        x.rowTile d w.b.toNat l (tm.V l (w.a.toNat + 1)).toNat = .ok k →
        (path.2 ≤ lev → ∃ z : State, exec (.dgrad w) s = .next (z.retire q t sq tm (.dgrad w) m) ∧ z.team q t = some tm ∧ z.mem = s.mem)
        ∧ (lev < path.2 → gw.rd = true → gw.wr = true →
          rowFeatures w.b.toNat k l (tm.V l (w.a.toNat + 1)).toNat (upTo n) = .ok xs →
          s.speculative sq = false → Memory.wf s.mem = true →
          (∀ f, f ≤ n → at_ f + 4 ≤ gw.limit ∧ Reaches s sq.cluster (s.ownerOf sq) (wrapN (gw.base + (at_ f : Nat)) 64) (pa f) 4 true) →
          (∀ f, f ≤ n → ∀ f', f' ≤ n → f ≠ f' → pa f ≠ pa f') →
          ∃ z : State, exec (.dgrad w) s = .next (z.retire q t sq tm (.dgrad w) m) ∧ z.team q t = some tm
            ∧ (∀ f, f ≤ n → memNat z (pa f) 4 = (roundX .f32 .ne .inf (xfma .ne g (y f) (NumTy.f32.decode (memNat s (pa f) 4)))).code)
            ∧ (∀ a, (∀ f, f ≤ n → ¬ (pa f ≤ a ∧ a < pa f + 4)) → memGet z.mem a = memGet s.mem a)))

/-- R214, R215, R216: the scalar integer words write D with their result of width w, zero-extended under U and sign-extended otherwise, and under .CC
set Z and N from the result, with the carry out and the signed overflow of SADD and SSUB and with C = V = 0 for the others; SSEL never sets CC; SCMP
and SCMPI set CC as a subtraction does and write nothing. They go on with the next word. -/
def Obligations.ScalarIntegerWordsWriteResultAndFlags : Prop :=
  ∀ (s : State) (q c : Nat) (sq : Squad) (cx : Ctx),
    let fl (n r : Nat) (cf vf : Bool) : CC := { z := decide (r % 2 ^ n = 0), n := r.testBit (n - 1), c := cf, v := vf }
    let out (n x : Nat) : Bool := decide (2 ^ n ≤ x)
    let ovfl (n : Nat) (e : Int) : Bool := decide (e < -2 ^ (n - 1) ∨ 2 ^ (n - 1) ≤ e)
    (∀ w : GR,
      let n := szWidth w.sz.toNat
      let u := w.fn.getLsbD 1
      let a := (cx.S w.a.toNat).toNat % 2 ^ n
      let b := (if w.fn.getLsbD 0 then w.imm.signExtend 64 else cx.S w.b.toNat).toNat % 2 ^ n
      let sg (v : Nat) : Int := signed v n
      let ord (v : Nat) : Int := if u then (v : Int) else sg v
      let sub := (a + 2 ^ n - b) % 2 ^ n
      let gives (i : Instr) (r : Nat) (cf vf : Bool) : Prop :=
        GenReady s q c sq cx i w.cnd →
          let d := cx.setS w.d.toNat (if u then BitVec.ofNat 64 r else BitVec.ofInt 64 (sg r))
          exec i s = .next (s.genEnd q c sq cx i (if w.fn.getLsbD 2 then { d with cc := fl n r cf vf } else d))
      let plain (i : Instr) (r : Nat) : Prop := gives i r false false
      gives (.sadd w) ((a + b) % 2 ^ n) (out n (a + b)) (ovfl n (sg a + sg b))
      ∧ gives (.ssub w) sub (out n (a + 2 ^ n - b)) (ovfl n (sg a - sg b))
      ∧ plain (.smul w) (a * b % 2 ^ n)
      ∧ plain (.smulhi w) ((ord a * ord b / 2 ^ n) % 2 ^ n).toNat
      ∧ plain (.smin w) (if ord a ≤ ord b then a else b)
      ∧ plain (.smax w) (if ord b ≤ ord a then a else b)
      ∧ plain (.sand w) (a &&& b) ∧ plain (.sor w) (a ||| b) ∧ plain (.sxor w) (a ^^^ b)
      ∧ plain (.sshl w) (a * 2 ^ (b % n) % 2 ^ n)
      ∧ plain (.sshr w) (a / 2 ^ (b % n))
      ∧ plain (.ssar w) ((sg a / 2 ^ (b % n)) % 2 ^ n).toNat
      ∧ plain (.spopc w) (((upTo n).filter fun i => a.testBit i).length)
      ∧ plain (.sclz w) (clzN n a)
      ∧ plain (.sbfx w) (bfxOf (!u) n a b)
      ∧ plain (.sbfi w) (bfiOf n a b ((cx.S w.d.toNat).toNat % 2 ^ n))
      ∧ plain (.smov w) (if w.fn.getLsbD 0 then b else a)
      ∧ (GenReady s q c sq cx (.ssel w) w.cnd → exec (.ssel w) s = .next (s.genEnd q c sq cx (.ssel w)
          (let r := if cx.cc.holds (w.fn.toNat / 16) then a else b
           cx.setS w.d.toNat (if u then BitVec.ofNat 64 r else BitVec.ofInt 64 (sg r)))))
      ∧ (GenReady s q c sq cx (.scmp w) w.cnd → w.sz.toNat < 8 → exec (.scmp w) s = .next (s.genEnd q c sq cx (.scmp w)
          { cx with cc := fl n sub (out n (a + 2 ^ n - b)) (ovfl n (sg a - sg b)) })))
    ∧ ∀ w : GI,
      let n := szWidth w.sz.toNat
      let a := (cx.S w.a.toNat).toNat % 2 ^ n
      let b := (w.imm.signExtend 64).toNat % 2 ^ n
      let gives (i : Instr) (new : Ctx) : Prop := GenReady s q c sq cx i w.cnd → exec i s = .next (s.genEnd q c sq cx i new)
      let put (r : Nat) : Ctx := cx.setS w.d.toNat (BitVec.ofInt 64 (signed r n))
      gives (.sldi w) (cx.setS w.d.toNat (w.imm.signExtend 64))
      ∧ gives (.sldih w) (cx.setS w.d.toNat (w.imm ++ (cx.S w.d.toNat).setWidth 32))
      ∧ gives (.saddi w) (put ((a + b) % 2 ^ n))
      ∧ gives (.sandi w) (put (a &&& b))
      ∧ gives (.sshli w) (put (a * 2 ^ (w.imm.toNat % 64 % n) % 2 ^ n))
      ∧ gives (.scmpi w) { cx with cc := fl n ((a + 2 ^ n - b) % 2 ^ n) (out n (a + 2 ^ n - b)) (ovfl n (signed a n - signed b n)) }

/-- R63, R105, R217, R218: SFADD, SFMUL, SFFMA and SFCVT write D with the rounded result and CC with its zero, sign, inexact, and invalid or overflow
bits; an overflow under OVF 11 writes neither and traps. An integer result is extended from its width, with C inexact and V invalid. SCMP of float
types sets NZCV 1000, 0110, 0010 or 0011. (The model's readings: N of an SFCVT to an integer type is the sign of the exact integer, so never set for
an unsigned type, and FP_OVERFLOW has zero information words, notes/assumptions/20.) -/
def Obligations.ScalarFloatWordsWriteResultAndFlags : Prop :=
  ∀ (s : State) (q c : Nat) (sq : Squad) (cx : Ctx) (w : GR),
    let ty (z : Nat) : NumTy := if z = 8 then .f32 else .f64
    let t := ty w.sz.toNat
    let rnd := Rnd.ofCode (w.fn.toNat % 4)
    let ovf := Ovf.ofCode (w.fn.toNat / 4 % 4)
    let v (z r : Nat) : XVal := (ty z).decode ((cx.S r).toNat % 2 ^ (ty z).width)
    let a := v w.sz.toNat w.a.toNat
    let b := v w.sz.toNat w.b.toNat
    let gives (i : Instr) (r : Rounded) : Prop :=
      GenReady s q c sq cx i w.cnd →
        (r.trap = false → exec i s = .next (s.genEnd q c sq cx i { cx.setS w.d.toNat (BitVec.ofNat 64 r.code) with
          cc := { z := (t.decode r.code).isZero, n := (t.decode r.code).neg, c := r.flags.getLsbD 0, v := r.flags.getLsbD 4 || r.flags.getLsbD 2 } }))
        ∧ (r.trap = true → exec i s = .next (s.ctxTrap q c .fpOverflow []))
    let src := w.fn.toNat / 16
    let u := w.imm.getLsbD 0
    let from_ : XVal := if src < 8 then XVal.ofInt ((szTy src u).toInt ((cx.S w.a.toNat).toNat % 2 ^ (szTy src u).width)) else v src w.a.toNat
    let order (x y : XVal) : CC :=
      if x.isNan || y.isNan then { n := false, z := false, c := true, v := true }
      else { n := x.cmp y == .lt, z := x.cmp y == .eq, c := x.cmp y != .lt, v := false }
    gives (.sfadd w) (roundX t rnd ovf (xadd rnd a b))
    ∧ gives (.sfmul w) (roundX t rnd ovf (xmul a b))
    ∧ gives (.sffma w) (roundX t rnd ovf (xfma rnd a b (v w.sz.toNat w.d.toNat)))
    ∧ (8 ≤ w.sz.toNat → gives (.sfcvt w) (roundX t rnd ovf (from_, if from_.isSnan then 0x10#5 else 0)))
    ∧ (w.sz.toNat < 8 → GenReady s q c sq cx (.sfcvt w) w.cnd →
        let k := szTy w.sz.toNat u
        let r := toIntTy k from_ rnd
        exec (.sfcvt w) s = .next (s.genEnd q c sq cx (.sfcvt w)
          { cx.setS w.d.toNat (if u then BitVec.ofNat 64 (r.code % 2 ^ k.width) else BitVec.ofInt 64 (signed r.code k.width)) with
            cc := { z := r.code == 0, n := decide (k.toInt r.code < 0), c := r.flags.getLsbD 0, v := r.flags.getLsbD 4 } }))
    ∧ (8 ≤ w.sz.toNat → w.fn.getLsbD 0 = false → GenReady s q c sq cx (.scmp w) w.cnd →
        exec (.scmp w) s = .next (s.genEnd q c sq cx (.scmp w) { cx with cc := order a b }))

/-- R23, R37, R43, R219, R220, R221: BR and YIELD go to PC + 8 × OFF32, and BRZ and LOOP when their test holds; otherwise they go on with the next word.
LOOP stores its decremented counter either way; CALL stores the address after its clause and goes to its target; RET and JMPR go to S(A), or trap
with MISALIGNED. YIELD.TAG goes to its target when no copy of the squad has its tag outstanding, and otherwise waits. EXIT ends the context, with
its queue of votes empty and the teams that awaited an entry of it woken, or, when a trap that is not held pends there, kills the task with it. GNOP
does nothing. Any of these words whose predicate is false goes on with the next word and does nothing. (The model's readings: an EXIT with a pending
trap that is not held kills the task, notes/assumptions/23; the zero information words of MISALIGNED, and a LOOP on s0, which jumps,
notes/assumptions/20.) -/
def Obligations.ControlWordsMoveThePc : Prop :=
  ∀ (s : State) (q c : Nat) (sq : Squad) (cx : Ctx),
    let on (i : Instr) (z : State) : Prop := exec i s = .next (z.genRetire q c sq cx i Ctx.advance)
    let jump (i : Instr) (z : State) (pc : DWord) : Prop := exec i s = .next (z.genRetire q c sq cx i (·.jump pc))
    let skips (i : Instr) (cnd : BitVec 4) : Prop :=
      s.cur = some (.ctx q c) → s.squad q = some sq → sq.ctxs[c]? = some cx → fieldCheck {} i = none → cx.cc.holds cnd.toNat = false →
        exec i s = .next (s.genRetire q c sq cx .illegalGenOpc Ctx.advance)
    (∀ w : GB,
      let target := cx.pc + 8 * w.off.signExtend 64
      let a := cx.S w.a.toNat
      let ready (i : Instr) : Prop := GenReady s q c sq cx i w.cnd
      (ready (.br w) → jump (.br w) s target)
      ∧ (ready (.brz w) → ((a = 0 ↔ w.b.getLsbD 0 = false) → jump (.brz w) s target) ∧ (¬ (a = 0 ↔ w.b.getLsbD 0 = false) → on (.brz w) s))
      ∧ (ready (.loop w) →
          let z := s.modCtx q c fun y => y.setS w.a.toNat (a - 1)
          (a ≠ 1 → jump (.loop w) z target) ∧ (a = 1 → on (.loop w) z))
      ∧ (ready (.call w) → ∀ k, cx.clause = some k →
          jump (.call w) (s.modCtx q c fun y => y.setS w.a.toNat (cx.pc + BitVec.ofNat 64 (8 * (k.len - k.idx)))) target)
      ∧ (ready (.yield w) → jump (.yield w) s target)
      ∧ (ready (.yieldTag w) →
          ((∀ p ∈ s.copies, ¬ (p.2.q = q ∧ p.2.tag = a.toNat)) → jump (.yieldTag w) s target)
          ∧ ((∃ p ∈ s.copies, p.2.q = q ∧ p.2.tag = a.toNat) →
              exec (.yieldTag w) s = .next (s.modCtx q c fun y => { y with wait := some (.yieldTag a.toNat) })))
      ∧ ∀ i ∈ [Instr.br w, .brz w, .loop w, .call w, .yield w, .yieldTag w], skips i w.cnd)
    ∧ ∀ w : GR,
      let a := cx.S w.a.toNat
      (∀ i ∈ [Instr.ret w, .jmpr w], GenReady s q c sq cx i w.cnd →
        (a.toNat % 8 = 0 → jump i s a) ∧ (a.toNat % 8 ≠ 0 → exec i s = .next (s.ctxTrap q c .misaligned [])))
      ∧ (GenReady s q c sq cx (.exitw w) w.cnd →
          ((∀ p ∈ cx.pending, s.held p = true) →
            on (.exitw w) ((s.modCtx q c fun y => { y with exited := true, votes := [], partials := [] }).wakeVoters q c))
          ∧ (∀ p, cx.pending.find? (fun p => !s.held p) = some p → on (.exitw w) (s.trapKill sq.task p.cause p.causeBits p.info)))
      ∧ (GenReady s q c sq cx (.gnop w) w.cnd → on (.gnop w) s)
      ∧ ∀ i ∈ [Instr.ret w, .jmpr w, .exitw w], skips i w.cnd

/-- R73, R175, R225, R226, R286, R392, R409: SREAD writes D with the named register; SWRITE of TRAPVEC, OPOINT, and an owned team's FFLAGS or SSTEP
replaces it, bits that read as zero written as zero; a HINT's time is kept, since it takes effect within 10 µs. Both wait for an owned team that is
not resident, and a number of no owned team traps with RESERVED_FIELD. (The model's reading: the wait for an owned team that is not resident,
notes/assumptions/25.) -/
def Obligations.SpecialRegistersReadAndWrite : Prop :=
  ∀ (s : State) (q c : Nat) (sq : Squad) (cx : Ctx) (w : GR),
    let n := w.imm.toNat
    let a := cx.S w.a.toNat
    let team := s.ownedTeam q c (w.fn.toNat % 64)
    (GenReady s q c sq cx (.sread w) w.cnd →
      let gives (v : Nat) : Prop := exec (.sread w) s = .next (s.genEnd q c sq cx (.sread w) (cx.setS w.d.toNat (BitVec.ofNat 64 v)))
      (n = 0x00 → gives cx.role) ∧ (n = 0x01 → gives (teamx sq q c)) ∧ (n = 0x0D → gives (s.ownx sq cx))
      ∧ (n = 0x02 → gives sq.id) ∧ (n = 0x03 → gives sq.instance_)
      ∧ (n = 0x04 → gives (sq.cluster % 44)) ∧ (n = 0x05 → gives (sq.cluster / 44))
      ∧ (n = 0x06 → gives s.fabric.devid)
      ∧ (∀ t, s.task sq.task = some t → (n = 0x07 → gives t.owner) ∧ (n = 0x08 → gives (t.energyRead / 1000 % 2 ^ 48)) ∧ (n = 0x30 → gives (s.specState t)))
      ∧ (n = 0x09 → gives (s.cluster sq.cluster).cycle)
      ∧ (n = 0x0A → gives capBase) ∧ (n = 0x31 → gives ((s.cluster sq.cluster).power.point * 2 ^ 4 + sq.opoint))
      ∧ (n = 0x0B → gives 24) ∧ (n = 0x0C → gives 48)
      ∧ (n = 0x20 → gives cx.trapcause.toNat) ∧ (n = 0x21 → gives cx.trappc.toNat) ∧ (n = 0x26 → gives cx.trapvec.toNat)
      ∧ (∀ k, k < 4 → n = 0x22 + k → gives (cx.trapinfo.getD k 0).toNat)
      ∧ (n ≠ 0x10 → n ≠ 0x11 → ∃ v, gives v)
      ∧ (∀ tq t tm, team = .team tq t → s.team tq t = some tm → (n = 0x10 → gives tm.fflags.toNat) ∧ (n = 0x11 → gives tm.sstep.toNat))
      ∧ (n = 0x10 ∨ n = 0x11 →
          (team = .no → exec (.sread w) s = .next (s.ctxTrap q c .reservedField []))
          ∧ (team = .away → exec (.sread w) s = .next (s.modCtx q c fun y => { y with wait := some (.resident (w.fn.toNat % 64)) }))))
    ∧ (GenReady s q c sq cx (.swrite w) w.cnd →
      let on (z : State) : Prop := exec (.swrite w) s = .next (z.genRetire q c sq cx (.swrite w) Ctx.advance)
      (n = 0x26 → on (s.modCtx q c fun _ => { cx with trapvec := a - BitVec.ofNat 64 (a.toNat % 8) }))
      ∧ (n = 0x31 → on (s.modSquad q fun y => { y with opoint := a.toNat % 8, hintAt := some (y.hintAt.getD s.now) }))
      ∧ (∀ tq t, team = .team tq t →
          (n = 0x10 → on (s.modTeam tq t fun y => { y with fflags := a.setWidth 5 }))
          ∧ (n = 0x11 → on (s.modTeam tq t fun y => { y with sstep := (a.setWidth 32) &&& 0x8000FFFF#32 })))
      ∧ (n = 0x10 ∨ n = 0x11 →
          (team = .no → exec (.swrite w) s = .next (s.ctxTrap q c .reservedField []))
          ∧ (team = .away → exec (.swrite w) s = .next (s.modCtx q c fun y => { y with wait := some (.resident (w.fn.toNat % 64)) }))))

/-- R222 to R224, R230: a scalar access that the cluster TLB serves, to ordinary memory, completes: SLD gives D what memory holds; SST stores D's low
bytes and no others; SATOM and SCAS replace the location as R223 gives and give D the old value; MWAIT gives D a value that differs, and waits while
it does not and, whatever the address, while its task is uncommitted. For each of these an address at or above 2^56 traps with PROTECTION and
another misaligned one with MISALIGNED, both reporting the address. SFENCE and SPREF complete whatever their address, and change no scalar register
and no memory: SFENCE marks a release that orders what the context delivers after it, and both may change cached copies. -/
def Obligations.ScalarMemoryWordsReachMemory : Prop :=
  ∀ (s : State) (q c : Nat) (sq : Squad) (cx : Ctx) (w : GM),
    let n := 2 ^ (3 - w.sz.toNat)
    let at_ (k : Nat) : Nat := (((cx.S w.a.toNat).toNat + signed w.disp.toNat k : Int) % 2 ^ 64).toNat
    let va := at_ 32
    let pa (va : Nat) (e : TlbEnt) : Nat := (xlOf va e.size e.leaf).pa
    let d := (cx.S w.d.toNat).toNat % 2 ^ (8 * n)
    let there (va : Nat) (need : Need) (e : TlbEnt) : Prop :=
      GenTlb s sq va n need e ∧ Reaches s sq.cluster (s.ownerOf sq) va (pa va e) n need.wr ∧ s.speculative sq = false ∧ Memory.wf s.mem = true
    let ends (i : Instr) (z : State) (v : Nat) : Prop :=
      exec i s = .next ((z.modCtx q c fun y => y.setS w.d.toNat (BitVec.ofNat 64 v)).genRetire q c sq cx i Ctx.advance)
    let others (z : State) (p : Nat) : Prop := ∀ a, a < p ∨ p + n ≤ a → memGet z.mem a = memGet s.mem a
    let wrote (z : State) : Prop :=
      z = { s with mem := z.mem, tags := z.tags, poison := z.poison, badLines := z.badLines, zorWritten := z.zorWritten, clusters := z.clusters }
    let fails (i : Instr) (va : Nat) : Prop :=
      (2 ^ 56 ≤ va → ∃ info, info.getD 0 0 = BitVec.ofNat 64 va ∧ exec i s = .next (s.ctxTrap q c .protection info))
      ∧ (va < 2 ^ 56 → va % n ≠ 0 → ∃ info, info.getD 0 0 = BitVec.ofNat 64 va ∧ exec i s = .next (s.ctxTrap q c .misaligned info))
    (GenReady s q c sq cx (.sld w) 0 →
      (∀ e, there va { rd := true } e → ∃ z : State, z = { s with clusters := z.clusters } ∧ ends (.sld w) z (memNat s (pa va e) n))
      ∧ fails (.sld w) va)
    ∧ (GenReady s q c sq cx (.sst w) 0 →
      (∀ e, there va { wr := true } e → ∃ z : State, wrote z ∧ memNat z (pa va e) n = d ∧ others z (pa va e)
        ∧ exec (.sst w) s = .next (z.genRetire q c sq cx (.sst w) Ctx.advance))
      ∧ fails (.sst w) va)
    ∧ (GenReady s q c sq cx (.satom w) 0 →
      (∀ e, there (at_ 28) { rd := true, wr := true } e →
        let p := pa (at_ 28) e
        ∃ z : State, wrote z ∧ memNat z p n = satomNew (w.disp.toNat / 2 ^ 28) (8 * n) (memNat s p n) d ∧ others z p
          ∧ ends (.satom w) z (memNat s p n))
      ∧ fails (.satom w) (at_ 28))
    ∧ (GenReady s q c sq cx (.scas w) 0 →
      (∀ e, there va { rd := true, wr := true } e →
        let p := pa va e
        let old := memNat s p n
        ∃ z : State, wrote z ∧ memNat z p n = (if old = d then (cx.S (w.d.toNat + 1)).toNat % 2 ^ (8 * n) else old) ∧ others z p
          ∧ ends (.scas w) z old)
      ∧ fails (.scas w) va)
    ∧ (GenReady s q c sq cx (.mwait w) 0 →
      (s.speculative sq = true → exec (.mwait w) s = .next (s.modCtx q c fun y => { y with wait := some .spec }))
      ∧ (s.speculative sq = false → fails (.mwait w) va)
      ∧ (∀ e, there va { rd := true } e → ∃ z : State, z = { s with clusters := z.clusters }
        ∧ (memNat s (pa va e) n ≠ d → ends (.mwait w) z (memNat s (pa va e) n))
        ∧ (memNat s (pa va e) n = d → ∃ k, exec (.mwait w) s = .next (z.modCtx q c fun y =>
            { y with wait := some (.mwait (BitVec.ofNat 64 va) n w.d.toNat k) }))))
    ∧ (GenReady s q c sq cx (.sfence w) 0 →
      let rel : Bool := w.ord.getLsbD 1 && decide (2 ≤ w.scope.toNat)
      ∃ z : State, z = { s with squads := (s.modCtx q c fun y => { y with fenced := y.fenced || rel }).squads, clusters := z.clusters }
        ∧ exec (.sfence w) s = .next (z.genRetire q c sq cx (.sfence w) Ctx.advance))
    ∧ (GenReady s q c sq cx (.spref w) 0 →
      ∃ z : State, z = { s with clusters := z.clusters, tags := z.tags } ∧ exec (.spref w) s = .next (z.genRetire q c sq cx (.spref w) Ctx.advance))

/-- R227 to R229, R231, R232: on a channel that stands, with a place in the sequencer free, EMIT queues its block with each hole filled and goes on
after the block; REC also keeps the unfilled block and its hole map under its id; REPLAY queues the recording with the first values and steps of its
holes. The first value that does not fit its hole traps with HOLE_RANGE, its index, its iteration and itself, and for a replay the last iteration's
values are tested as well. An EMIT or REC that does not end its clause traps with CLAUSE_FORMAT; REC of a standing id without its R bit, or one
beyond the squad's words, traps with PLAYBOOK_ID, and so do REPLAY and PBDROP of an id that does not stand; PBDROP removes its id. With both places
taken EMIT, REC and REPLAY wait. -/
def Obligations.EmissionWordsQueueTheirStretches : Prop :=
  ∀ (s : State) (q c : Nat) (sq : Squad) (cx : Ctx),
    let v (r : Nat) : Int := (cx.S r).toInt
    let queue (z : State) (i : SeqItem) : State := z.modCtx q c fun y => { y with seq := y.seq ++ [i] }
    let waits (i : Instr) : Prop := exec i s = .next (s.modCtx q c fun y => { y with wait := some .emission })
    let hole (i : Instr) (z : State) (k j : Nat) (x : Int) : Prop :=
      exec i s = .next (z.ctxTrap q c .holeRange [BitVec.ofNat 64 k, BitVec.ofNat 64 j, BitVec.ofInt 64 x, 0] (cx.gap i))
    let id (x : BitVec 16) : DWord := BitVec.ofNat 64 x.toNat
    (∀ w : GE,
      let ch := w.ch.toNat
      let vs := (upTo w.nh.toNat).map fun i => v (w.sb.toNat + i)
      let free : Prop := cx.seq.length < 2 ∧ s.streamUse q c sq cx ch = .ok
      (∀ i ∈ [Instr.emit w, .recw w], GenReady s q c sq cx i 0 → ∀ k, cx.clause = some k → k.idx + 1 ≠ k.len →
        exec i s = .next (s.ctxTrap q c .clauseFormat []))
      ∧ (∀ i ∈ [Instr.emit w, .recw w], GenReady s q c sq cx i 0 → (∀ k, cx.clause = some k → k.idx + 1 = k.len) →
        (2 ≤ cx.seq.length → waits i)
        ∧ ∀ hs b next s', free → (genIn s q c sq cx).readBlock w = .ok (hs, b, next, s') →
          (∀ k x, firstMisfit b 0 hs vs = some (k, x) → hole i s' k 0 x)
          ∧ (firstMisfit b 0 hs vs = none →
            let ends (z : State) : Prop :=
              exec i s = .next ((queue z (.block ch (fillBlock b hs vs) none)).genRetire q c sq cx i (·.jump (BitVec.ofNat 64 next)))
            (i = .emit w → ends s')
            ∧ (i = .recw w → ∀ sq1, s'.squad q = some sq1 →
              let new : Squad := { sq1 with playbook := aset sq1.playbook w.id.toNat { serial := s'.serial, block := b, holes := hs } }
              let stops (reason : Nat) : Prop := exec i s = .next (s'.ctxTrap q c .playbookId [id w.id, BitVec.ofNat 64 reason, 0, 0] (cx.gap i))
              let kept : Prop := aget? sq1.playbook w.id.toNat = none ∨ w.fl.getLsbD 0 = true
              (¬ kept → stops 1) ∧ (kept → 262144 < new.playWords → stops 2)
              ∧ (kept → new.playWords ≤ 262144 → ∃ z : State, ends z ∧ z.squad q = some new ∧ z.mem = s'.mem))))
      ∧ (GenReady s q c sq cx (.replay w) 0 →
        (2 ≤ cx.seq.length → waits (.replay w))
        ∧ (aget? sq.playbook w.id.toNat = none → cx.seq.length < 2 →
          exec (.replay w) s = .next (s.ctxTrap q c .playbookId [id w.id, 0, 0, 0]))
        ∧ ∀ r, aget? sq.playbook w.id.toNat = some r → free →
          let h := r.holes.length
          let n := max w.len.toNat 1
          let base := (upTo h).map fun i => v (w.sb.toNat + i)
          let step := (upTo h).map fun i => if 1 ≤ w.len.toNat then v (w.sb.toNat + 8 + i) else 0
          let last := (upTo h).map fun i => base.getD i 0 + ((n - 1 : Nat) : Int) * step.getD i 0
          (h ≠ 0 → w.sb.toNat + h ≤ 256) → (1 ≤ w.len.toNat → w.sb.toNat + 7 + h ≤ 255) →
          (firstMisfit r.block 0 r.holes base = none → firstMisfit r.block 0 r.holes last = none →
            exec (.replay w) s = .next ((queue s (.replay ch w.id.toNat r base step n 0)).genRetire q c sq cx (.replay w) Ctx.advance))
          ∧ (∀ k x, firstMisfit r.block 0 r.holes base = some (k, x) →
              (∀ k' x', firstMisfit r.block 0 r.holes last = some (k', x') → k ≤ k') → hole (.replay w) s k 0 x)
          ∧ (∀ k x, firstMisfit r.block 0 r.holes last = some (k, x) →
              (∀ k' x', firstMisfit r.block 0 r.holes base = some (k', x') → k < k') → hole (.replay w) s k (n - 1) x)))
    ∧ ∀ w : GR, GenReady s q c sq cx (.pbdrop w) w.cnd →
        let k := w.imm.toNat % 4096
        ((aget? sq.playbook k).isSome = true → exec (.pbdrop w) s =
          .next ((s.modSquad q fun y => { y with playbook := adel y.playbook k }).genRetire q c sq cx (.pbdrop w) Ctx.advance))
        ∧ (aget? sq.playbook k = none → exec (.pbdrop w) s = .next (s.ctxTrap q c .playbookId [BitVec.ofNat 64 k, 0, 0, 0]))

/-- R235, R237, R238: VREAD gives D the record at the head of the queue once it is readable, sets Z and C from its ANY and ALL bits and removes it; it
waits while a vote is outstanding and traps with VOTE_EMPTY otherwise. VPEEK leaves the record, and gives 0 with Z and V set when none is readable.
SDRAIN ends once everything issued on its channel has been delivered and has retired, and waits until then. (The model's choice: SDRAIN's acquire
empties the cluster's L1 and its list of misses, notes/assumptions/12; its channel with no team, notes/assumptions/32.) -/
def Obligations.VoteReadsAndDrainsComplete : Prop :=
  ∀ (s : State) (q c : Nat) (sq : Squad) (cx : Ctx) (w : GR),
    let d := w.d.toNat
    let on (i : Instr) (z : State) : Prop := exec i s = .next (z.genRetire q c sq cx i Ctx.advance)
    let readable (v : VoteRec) : Prop := v.readable = true ∨ v.upper ≤ (s.cluster sq.cluster).cycle
    let got (r : DWord) : Ctx := { cx.setS d r with cc := { z := !r.getLsbD 16, n := false, c := r.getLsbD 17, v := false } }
    let ch := w.imm.toNat % 64
    let all := w.imm.getLsbD 6
    (GenReady s q c sq cx (.vread w) w.cnd →
      (∀ v rest, cx.votes = v :: rest → readable v →
        ∃ z : State, on (.vread w) z ∧ z.ctx q c = some { got v.rec_ with votes := rest } ∧ z.mem = s.mem)
      ∧ ((∀ v, cx.votes.head? = some v → ¬ readable v) →
        (s.voteOutstanding q c cx = true → exec (.vread w) s = .next (s.modCtx q c fun y => { y with wait := some .vread }))
        ∧ (s.voteOutstanding q c cx = false → exec (.vread w) s = .next (s.ctxTrap q c .voteEmpty []))))
    ∧ (GenReady s q c sq cx (.vpeek w) w.cnd →
      (∀ v rest, cx.votes = v :: rest → readable v → ∃ z : State, on (.vpeek w) z ∧ z.ctx q c = some (got v.rec_) ∧ z.mem = s.mem)
      ∧ ((∀ v, cx.votes.head? = some v → ¬ readable v) →
        exec (.vpeek w) s = .next (s.genEnd q c sq cx (.vpeek w) { cx.setS d 0 with cc := { z := true, n := false, c := false, v := true } })))
    ∧ (GenReady s q c sq cx (.sdrain w) w.cnd → all = true ∨ ch = 0 ∨ s.streamUse q c sq cx ch = .ok →
      let k : Option Nat := if all then none else some ch
      (s.drained q c k = true → on (.sdrain w) (s.modCluster sq.cluster fun y => { y with l1 := [], miss := [] }))
      ∧ (s.drained q c k = false → exec (.sdrain w) s = .next (s.modCtx q c fun y => { y with wait := some (.sdrain k) })))

/-- R234, R313, R435: a TRANS of a local address that the cluster TLB serves, outside every span of its task, queues one stretch whose WSET loads a MEM
window at S(A): its frame, the limit bounded by the page, and the permissions asked for that the page has. A TRANS of another package's address asks
that package and waits; with its answer it queues a stretch whose WSET loads a REMOTE window in the same way, from the answer. (The model's choices:
the translate request's operation code 13, its status 0 and the layout of its answer, notes/assumptions/66; the order of TRANS's checks,
notes/assumptions/80; a window's permissions, notes/assumptions/37.) R323, R324: GWIN of an allowed record binds the owner's gather entry anew, with
its generation one higher modulo 4096, and queues a GATHER window over it; GUNWIN of a bound entry ends the binding and moves its generation on, and
of any other does nothing. Both wait while their task is uncommitted. -/
def Obligations.TranslateAndGatherWordsBindWindows : Prop :=
  (∀ (s : State) (q c : Nat) (sq : Squad) (cx : Ctx) (w : GR),
      let va := (cx.S w.a.toNat).toNat
      let b := cx.S w.b.toNat
      let ch := w.imm.toNat % 64
      let dev := b.toNat / 2 ^ 48 % 2 ^ 14
      let binds (z : State) (win : Window) (kind frame limit : Nat) (rd wr : Bool) : Prop :=
        exec (.trans w) s = .next ((z.modCtx q c fun y =>
          { y with seq := y.seq ++ [.block ch [plainHeader, wsetWord (w.d.toNat % 8)] (some win)] }).genRetire q c sq cx (.trans w) Ctx.advance)
        ∧ win.kind = kind ∧ win.base = va ∧ win.frame = frame ∧ win.limit = limit ∧ win.key = s.ownerOf sq ∧ win.span = none
        ∧ win.rd = (w.fn.getLsbD 1 && rd) ∧ win.wr = (w.fn.getLsbD 2 && wr)
      GenReady s q c sq cx (.trans w) w.cnd → cx.seq.length < 2 → s.streamUse q c sq cx ch = .ok → s.ownerOf sq < 4096 →
        (∀ e, w.fn.getLsbD 0 = false → b.toNat < 2 ^ 48 →
          let x := xlOf va e.size e.leaf
          GenTlb s sq va 128 {} e → e.size ∈ [2 ^ 16, 2 ^ 21, 2 ^ 30] → x.pa < 2 ^ 52 → (∀ t, s.task sq.task = some t → t.spanRoom va = none) →
          ∃ win : Window, binds s win 1 x.pa (min b.toNat (x.base + x.size - va)) (e.leaf.getLsbD 4) (e.leaf.getLsbD 5))
        ∧ (w.fn.getLsbD 0 = true → b.toNat < 2 ^ 62 → va < 2 ^ 56 → va % 128 = 0 →
          ((∀ r ∈ s.fabric.out, r.src ≠ .ctx q c) → s.reachable dev = true → s.remoteOut sq.cluster < 1024 →
            let r : RemoteReq := { id := s.fabric.nextReq, cluster := sq.cluster, src := .ctx q c, lane := 0, op := 13, dev := dev, addr := va, size := 0
                                   data := [s.ownerOf sq], issued := s.now }
            exec (.trans w) s = .next (({ s with fabric := { s.fabric with
              nextReq := s.fabric.nextReq + 1, out := s.fabric.out ++ [r] } } : State).modCtx q c fun y => { y with wait := some .remote }))
          ∧ ∀ r bs, s.fabric.out.find? (fun r => r.src == .ctx q c) = some r → s.fabric.results.find? (fun z => z.1 == r.id) = some (r.id, 0, bs) →
            let word (k : Nat) : Nat := ofBytes ((bs.drop (8 * k)).take 8)
            let perm := ofBytes ((bs.drop 16).take 1)
            word 0 % 128 = 0 → word 0 < 2 ^ 52 → word 1 < 2 ^ 32 →
            ∃ win : Window, binds { s with fabric := { s.fabric with
              out := s.fabric.out.filter (·.id != r.id), results := s.fabric.results.filter (·.1 != r.id) } } win 4 (word 0)
                (min (b.toNat % 2 ^ 48) (word 1)) (perm.testBit 0) (perm.testBit 1) ∧ win.devid = dev))
  ∧ (∀ (s : State) (q c : Nat) (sq : Squad) (cx : Ctx) (w : GR),
      let g := w.fn.toNat % 64
      let ch := w.imm.toNat % 64
      let die := sq.cluster / 44
      let key := s.ownerOf sq * 64 + g
      let old : Gather := aget {} (s.die die).gathers key
      let r (k : Nat) : Nat := (cx.S (w.a.toNat + k)).toNat
      let size := 2 ^ (r 2 % 4)
      let n := r 2 / 2 ^ 32
      let put (e : Gather) : State := s.modDie die fun y => { y with gathers := aset y.gathers key e }
      (s.speculative sq = true → ∀ i ∈ [Instr.gwin w, .gunwin w], GenReady s q c sq cx i w.cnd →
        exec i s = .next (s.modCtx q c fun y => { y with wait := some .spec }))
      ∧ (s.speculative sq = false →
      (GenReady s q c sq cx (.gwin w) w.cnd → cx.seq.length < 2 → s.streamUse q c sq cx ch = .ok → s.ownerOf sq < 4096 →
        r 2 / 4 % 2 ^ 30 = 0 → n ≠ 0 → n * size < 2 ^ 32 → r 3 ≠ 0 → r 3 < 2 ^ 32 → r 0 % 4 = 0 → r 1 % size = 0 →
        ∃ win : Window,
          exec (.gwin w) s = .next (((put { bound := true, gen := (old.gen + 1) % 4096, idxVa := r 0, srcVa := r 1, size := size, limit := r 3 }).modCtx q c
            fun y => { y with seq := y.seq ++ [.block ch [plainHeader, wsetWord (w.d.toNat % 8)] (some win)] }).genRetire q c sq cx (.gwin w) Ctx.advance)
          ∧ win.kind = 2 ∧ win.limit = n * size ∧ win.aux = g * 4096 + (old.gen + 1) % 4096 ∧ win.key = s.ownerOf sq
          ∧ win.rd = w.fn.getLsbD 6 ∧ win.wr = w.fn.getLsbD 7)
      ∧ (GenReady s q c sq cx (.gunwin w) w.cnd →
        (old.bound = true → exec (.gunwin w) s =
          .next ((put { gen := (old.gen + 1) % 4096 }).genRetire q c sq cx (.gunwin w) Ctx.advance))
        ∧ (old.bound = false → exec (.gunwin w) s = .next (s.genRetire q c sq cx (.gunwin w) Ctx.advance)))))

/-- R261, R262, R264, R385: through an entry with the permission and the mailbox's key, CHSEND adds S(A) behind the mailbox's messages and waits while
it holds 16, and, whatever the entry, while its task is uncommitted; CHRECV takes the oldest message, and with none waits, or under NB gives 0 and
sets Z. Without the permission either traps with CHANNEL_PERM, and through an entry that names no mailbox with CHANNEL_INVALID. CHSET of a squad
with privilege writes the entry of every context of the task named, resident or saved, and changes no memory. (The model's choices: CHRECV's acquire
empties the cluster's L1, notes/assumptions/12; the channel in word 0 of CHANNEL_PERM, and the order of the checks, notes/assumptions/91.) -/
def Obligations.MailboxAndChannelWordsComplete : Prop :=
  ∀ (s : State) (q c : Nat) (sq : Squad) (cx : Ctx) (w : GR),
    let ch := w.imm.toNat % 64
    let on (i : Instr) (z : State) : Prop := exec i s = .next (z.genRetire q c sq cx i Ctx.advance)
    let waits (i : Instr) (k : CtxWait) : Prop := exec i s = .next (s.modCtx q c fun y => { y with wait := some k })
    let traps (i : Instr) (k : Cause) : Prop := exec i s = .next (s.ctxTrap q c k [BitVec.ofNat 64 ch, 0, 0, 0])
    let put (d i : Nat) (m : Mailbox) (msgs : List DWord) : State :=
      s.modDie d fun x => { x with mailboxes := aset x.mailboxes i { m with msgs := msgs } }
    (GenReady s q c sq cx (.chsend w) w.cnd → s.speculative sq = true → waits (.chsend w) .spec)
    ∧ (GenReady s q c sq cx (.chsend w) w.cnd → s.speculative sq = false →
      (∀ d i m, s.mailUse cx ch 3 = .ok d i m →
        (m.msgs.length < 16 → on (.chsend w) (put d i m (m.msgs ++ [cx.S w.a.toNat])))
        ∧ (16 ≤ m.msgs.length → waits (.chsend w) (.mailbox d i ch true)))
      ∧ (s.mailUse cx ch 3 = .perm → traps (.chsend w) .channelPerm)
      ∧ (s.mailUse cx ch 3 = .invalid → traps (.chsend w) .channelInvalid))
    ∧ (GenReady s q c sq cx (.chrecv w) w.cnd →
      (∀ d i m, s.mailUse cx ch 4 = .ok d i m →
        (∀ v rest, m.msgs = v :: rest → on (.chrecv w)
          (((put d i m rest).modCtx q c fun y => { y.setS w.d.toNat v with cc := { z := false } }).modCluster sq.cluster fun y => { y with l1 := [], miss := [] }))
        ∧ (m.msgs = [] →
          (w.fn.getLsbD 0 = false → waits (.chrecv w) (.mailbox d i ch false))
          ∧ (w.fn.getLsbD 0 = true → exec (.chrecv w) s = .next (s.genEnd q c sq cx (.chrecv w) { cx.setS w.d.toNat 0 with cc := { z := true } }))))
      ∧ (s.mailUse cx ch 4 = .perm → traps (.chrecv w) .channelPerm)
      ∧ (s.mailUse cx ch 4 = .invalid → traps (.chrecv w) .channelInvalid))
    ∧ (GenReady s q c sq cx (.chset w) w.cnd → sq.priv = true →
      let e : List DWord := [cx.S w.a.toNat &&& 0xFFFFFFFFFFF01F3F#64, cx.S (w.a.toNat + 1), cx.S (w.a.toNat + 2), 0]
      let new (y : Squad) : List Ctx :=
        if y.task = (cx.S w.b.toNat).toNat then y.ctxs.map fun k => { k with chans := aset k.chans ch e } else y.ctxs
      ∃ z : State, on (.chset w) z ∧ z.mem = s.mem
        ∧ (∀ j y, s.squad j = some y → ∃ y', z.squad j = some y' ∧ y'.ctxs = new y)
        ∧ ∀ j y, aget? s.saves j = some y → ∃ y', aget? z.saves j = some y' ∧ y'.ctxs = new y)

/-- R240, R249, R250: a COPY whose record passes the checks of R249, with its index vector readable and with room in the range-lock table, adds its
slice to the copy of its tag, which it opens when none is outstanding and fewer than 32 are, and which is queued with its last slice; a full copy
makes it wait, and a slice that disagrees with its copy traps. R254, R255: COPYQ gives D the status of its tag's copy; COPYWAIT does so once the
copy has ended or failed, and waits until then; COPYQ.RESUME makes a failed copy run again; COPYCAN removes its tag's copy and, with none
outstanding, does nothing. -/
def Obligations.CopyWordsComplete : Prop :=
  (∀ (s : State) (q c : Nat) (sq : Squad) (cx : Ctx) (w : GR),
      let r := (upTo 8).map fun k => cx.S (w.a.toNat + k)
      let tag := w.imm.toNat % 256
      let count := w.fn.toNat % 16 + 1
      let h : Option Nat := if w.b.getLsbD 4 then some (w.b.toNat % 16) else none
      let d := s.die (sq.cluster / 44)
      let need := 1 + (if recCsource r then 0 else 1) + (if recRowg r then 1 else 0)
      let held := (s.copies.filter fun p => (s.squad p.2.q).map (·.cluster) == some sq.cluster).length
      let waits : Prop := exec (.copy w) s = .next (s.modCtx q c fun y => { y with wait := some (.copyRoom tag need) })
      let joins (s' : State) (idx : List Nat) (k : Nat) (cp : Copy) : Prop :=
        ∃ (z : State) (cp' : Copy) (sl : Slice), exec (.copy w) s = .next (z.genRetire q c sq cx (.copy w) Ctx.advance) ∧ z.mem = s'.mem
          ∧ aget? z.copies k = some cp' ∧ (∀ j, j ≠ k → aget? z.copies j = aget? s'.copies j)
          ∧ cp'.q = q ∧ cp'.tag = tag ∧ cp'.count = count ∧ cp'.huddle = h ∧ cp'.slices = cp.slices ++ [sl]
          ∧ sl.ctx = c ∧ sl.rec_ = r ∧ sl.idx = idx
          ∧ cp'.state = if cp.slices.length + 1 = count then .queued else cp.state
      GenReady s q c sq cx (.copy w) w.cnd → (∀ f, (genIn s q c sq cx).recChecks r f = f) →
        (∀ s' idx, State.readIndex (s.genAccess sq) (recDst r) (if recRowg r then upTo (recB r 1) else []) s = (.ok idx, s') →
          s'.copies = s.copies → s'.nextCopy = s.nextCopy → need ≤ d.freeLocks.length →
          (s.copyOfTag q tag = none → held < 32 → joins s' idx s.nextCopy { q := q, tag := tag, count := count, huddle := h })
          ∧ (∀ k cp, s.copyOfTag q tag = some (k, cp) → cp.slices.length ≠ count → cp.count = count → cp.huddle = h → joins s' idx k cp))
        ∧ (d.freeLocks.length < need → ∀ k cp, s.copyOfTag q tag = some (k, cp) → cp.slices.length ≠ cp.count → cp.count = count → cp.huddle = h → waits)
        ∧ (s.copyOfTag q tag = none → 32 ≤ held ∨ d.freeLocks.length < need → waits)
        ∧ (∀ k cp, s.copyOfTag q tag = some (k, cp) → cp.slices.length = cp.count → waits)
        ∧ (∀ k cp, s.copyOfTag q tag = some (k, cp) → cp.slices.length ≠ cp.count → cp.count ≠ count ∨ cp.huddle ≠ h →
            exec (.copy w) s = .next (s.ctxTrap q c .reservedField [8, 1, 0, 0])))
  ∧ (∀ (s : State) (q c : Nat) (sq : Squad) (cx : Ctx) (w : GR),
      let tag := w.imm.toNat % 256
      let status (z : State) : DWord := z.copyStatus q sq tag
      let now := s.copyOfTag q tag
      let ends (i : Instr) : Prop := exec i s = .next (s.genEnd q c sq cx i (cx.setS w.d.toNat (status s)))
      (GenReady s q c sq cx (.copyq w) w.cnd → ends (.copyq w))
      ∧ (GenReady s q c sq cx (.copywait w) w.cnd →
        (now = none → ends (.copywait w))
        ∧ ∀ k cp, now = some (k, cp) →
            (cp.state = .failed → ends (.copywait w))
            ∧ (cp.state ≠ .failed → exec (.copywait w) s = .next (s.modCtx q c fun y => { y with wait := some (.copyEnd tag) })))
      ∧ (GenReady s q c sq cx (.copyqResume w) w.cnd → ∃ z : State,
          exec (.copyqResume w) s = .next ((z.modCtx q c fun y => y.setS w.d.toNat (status z)).genRetire q c sq cx (.copyqResume w) Ctx.advance)
          ∧ z = { s with copies := z.copies }
          ∧ (now = none → z = s)
          ∧ ∀ k cp, now = some (k, cp) → (cp.state ≠ .failed → z = s)
              ∧ (cp.state = .failed → aget? s.copies k = some cp →
                  z.copies = aset s.copies k { cp with state := .running, cause := none, fslice := 0, faultInfo := [] }))
      ∧ (GenReady s q c sq cx (.copycan w) w.cnd →
        (now = none → exec (.copycan w) s = .next (s.genRetire q c sq cx (.copycan w) Ctx.advance))
        ∧ ∀ k cp, now = some (k, cp) → exec (.copycan w) s = .next ((s.dropCopy k).genRetire q c sq cx (.copycan w) Ctx.advance)))

/-- R362, R363, R368 to R370, R385, R393: outside an uncommitted speculative task TSPAWN of a record of the task's owner admits a task and gives its id
when the record passes R363, its potential depth allows it and the context's set has room; it waits, keeping the record, while the dependence table
is full, and otherwise traps with RESERVED_FIELD, SPEC_LIMIT or TASK_SET_OVERFLOW, in that order; a TSPAWN that so waited goes on with the record it
kept. TWAIT gives the status of a retired task of the set, and TWAIT.ANY that of the one that retired first, and they remove it; otherwise they wait
or, under NB, give 0 and set Z; TWAIT of no task of the set traps, and TWAIT.ANY of an empty set gives 0 and sets Z. TSCORE makes and TSCORE.FREE
frees a scoreboard of no other owner that no admitted task names; TRETIRE and TRETIRE.AT retire a position and let every task that this makes ready
enter the Lineup; SPECQ reads SPECSTATE; SPECHOLD goes on. In an uncommitted speculative task TSPAWN, TSCORE, TSCORE.FREE, TRETIRE, TRETIRE.AT and
SPECHOLD wait. (The model's choice: the state in which TWAIT and TWAIT.ANY take a status has the cluster's L1 emptied, notes/assumptions/12.) -/
def Obligations.TaskWordsComplete : Prop :=
  ∀ (s : State) (q c : Nat) (sq : Squad) (cx : Ctx) (w : GR),
    let on (i : Instr) (z : State) : Prop := exec i s = .next (z.genRetire q c sq cx i Ctx.advance)
    let ready (i : Instr) : Prop := GenReady s q c sq cx i w.cnd
    let waits (i : Instr) (k : CtxWait) : Prop := exec i s = .next (s.modCtx q c fun y => { y with wait := some k })
    let a := cx.S w.a.toNat
    let sb := w.imm.toNat % 16
    let die := sq.cluster / 44
    let board := aget? (s.die die).boards sb
    let owner := s.ownerOf sq
    let free : Prop := s.speculative sq = false
    let unnamed : Prop := s.boardNamed die sb (fun _ => true) = false
    let mine : Prop := ∀ b, board = some b → b.owner = owner
    let zero (i : Instr) : Prop := exec i s = .next (s.genEnd q c sq cx i { cx.setS w.d.toNat 0 with cc := { z := true } })
    let took (i : Instr) (t : Task) : Prop := on i ((s.modCtx q c fun y =>
      { y.setS w.d.toNat t.status with tasks := y.tasks.filter (· != t.id), cc := { z := false } }).modCluster sq.cluster fun y => { y with l1 := [], miss := [] })
    (∀ i ∈ [Instr.tspawn w, .tscore w, .tscoreFree w, .tretire w, .tretireAt w, .spechold w], ready i → s.speculative sq = true → waits i .spec)
    ∧ (ready (.tspawn w) → free → ∀ (s' : State) (t : Task),
      let d := if w.fn.getLsbD 2 then w.fn.toNat % 4 else die
      (cx.spawning = none ∧ a.toNat % 64 = 0 ∧ a.toNat + 256 ≤ 2 ^ 56
          ∧ ∃ bs, State.spanRead (s.genAccess sq) a.toNat 2 s a.toNat 256 = (.ok bs, s') ∧ t = s'.draft d (recordWords bs))
        ∨ (∃ r, cx.spawning = some r ∧ s' = (s.modCtx q c fun y => { y with spawning := none }) ∧ t = s'.draft d r) →
      t.owner = s'.ownerOf sq →
        let traps (k : Cause) (info : List DWord) : Prop := exec (.tspawn w) s = .next (s'.ctxTrap q c k info)
        let pot := s'.potential (s'.draftDeps t)
        (∀ off, recordBad t = some off → traps .reservedField [BitVec.ofNat 64 off, 0, 0, 0])
        ∧ (recordBad t = none → s'.scoreBad t = true → traps .reservedField [24, 0, 0, 0])
        ∧ (recordBad t = none → s'.scoreBad t = false →
          (t.spec = true → 4 ≤ pot → traps .specLimit [BitVec.ofNat 64 pot, 0, 0, 0])
          ∧ (t.spec = false ∨ pot < 4 →
            (64 ≤ cx.tasks.length → traps .taskSetOverflow [])
            ∧ (cx.tasks.length < 64 →
              (8192 ≤ s'.tableUsed t.die →
                exec (.tspawn w) s = .next (s'.modCtx q c fun y => { y with wait := some (.admission t.die t.record) }))
              ∧ (s'.tableUsed t.die < 8192 →
                on (.tspawn w) ((s'.admitReady t).modCtx q c fun y => { y.setS w.d.toNat (BitVec.ofNat 64 t.id) with tasks := y.tasks ++ [t.id] })
                ∧ ∃ t', aget? (s'.admitReady t).tasks t.id = some t' ∧ t'.record = t.record ∧ t'.owner = t.owner)))))
    ∧ (ready (.twait w) →
      (a.toNat ∉ cx.tasks → exec (.twait w) s = .next (s.ctxTrap q c .reservedField []))
      ∧ (a.toNat ∈ cx.tasks →
        (∀ t, s.task a.toNat = some t → t.phase = .retired → took (.twait w) t)
        ∧ ((∀ t, s.task a.toNat = some t → t.phase ≠ .retired) →
          (w.fn.getLsbD 1 = true → zero (.twait w)) ∧ (w.fn.getLsbD 1 = false → waits (.twait w) (.twait (some a.toNat))))))
    ∧ (ready (.twaitAny w) →
      (cx.tasks = [] → zero (.twaitAny w))
      ∧ (∀ k t, k ∈ cx.tasks → s.task k = some t → t.phase = .retired →
          (∀ j ∈ cx.tasks, j ≠ k → ∀ u, s.task j = some u → u.phase = .retired → t.retiredAt < u.retiredAt) → took (.twaitAny w) t)
      ∧ (cx.tasks ≠ [] → (∀ j ∈ cx.tasks, ∀ u, s.task j = some u → u.phase ≠ .retired) →
          (w.fn.getLsbD 1 = true → zero (.twaitAny w)) ∧ (w.fn.getLsbD 1 = false → waits (.twaitAny w) (.twait none))))
    ∧ (ready (.tscore w) → free → mine → unnamed → a.toNat / 2 ^ 10 % 2 ^ 6 = 0 → a.toNat / 2 ^ 26 % 2 ^ 6 = 0 → a.toNat < 2 ^ 40 →
        let b : Scoreboard := { owner := owner, width := a.toNat % 2 ^ 10 + 1, height := a.toNat / 2 ^ 16 % 2 ^ 10 + 1, mask := a.toNat / 2 ^ 32 }
        on (.tscore w) (s.modDie die fun y => { y with boards := aset y.boards sb b }))
    ∧ (ready (.tscoreFree w) → free → mine → unnamed → on (.tscoreFree w) (s.modDie die fun y => { y with boards := adel y.boards sb }))
    ∧ (ready (.tretire w) → free → ∀ t, s.task sq.task = some t → t.score = true →
        on (.tretire w) ((s.scoreRetire t.die t.sb t.px t.py).modTask t.id fun y => { y with retiredPos := true }).wakeTasks)
    ∧ (ready (.tretireAt w) → free → ∀ b, board = some b → b.owner = owner → a.toNat < 2 ^ 26 → a.toNat / 2 ^ 10 % 2 ^ 6 = 0 →
        a.toNat % 2 ^ 10 < b.width → a.toNat / 2 ^ 16 < b.height →
        on (.tretireAt w) (s.scoreRetire die sb (a.toNat % 2 ^ 10) (a.toNat / 2 ^ 16)).wakeTasks)
    ∧ (ready (.specq w) → ∀ t, s.task sq.task = some t →
        let v := s.specState t
        exec (.specq w) s = .next (s.genEnd q c sq cx (.specq w)
          { cx.setS w.d.toNat (BitVec.ofNat 64 v) with cc := { z := decide (v % 8 = 0 ∨ v % 8 = 3) } }))
    ∧ (ready (.spechold w) → free → exec (.spechold w) s = .next (s.genEnd q c sq cx (.spechold w) cx))

/-- R347 to R352: outside an uncommitted speculative task SPNEW of an allowed base, count and shape, with its pool's pages at hand, makes an empty
region at the lowest free index, whose value it gives, and clears Z, and under BIND queues a window over it; with no index free it gives 0 and sets
Z. SPNEW.ATTACH queues a window over a live region and gives its value; SPFREE ends a live region, moving its generation on, or traps with
RANGE_CONFLICT when an outstanding copy reads it; SPFREE.STAT gives its nodes and entries. In an uncommitted speculative task all four wait. (The
model's choice: the lowest free index, notes/assumptions/85.) -/
def Obligations.RegionContextWordsComplete : Prop :=
  ∀ (s : State) (q c : Nat) (sq : Squad) (cx : Ctx) (w : GR),
    let on (i : Instr) (z : State) : Prop := exec i s = .next (z.genRetire q c sq cx i Ctx.advance)
    let ready (i : Instr) : Prop := GenReady s q c sq cx i w.cnd
    let a := cx.S w.a.toNat
    let owner := s.ownerOf sq
    let ch := w.imm.toNat % 64
    let live (die index : Nat) (r : Region) : Prop :=
      s.regionAt owner (a.toNat / 2 ^ 12 % 2 ^ 6) die index = some r ∧ a.toNat / 2 ^ 18 = owner ∧ owner < 2 ^ 12 ∧ die = a.toNat / 2 ^ 10 % 4 ∧ index = a.toNat % 2 ^ 10
    let windowOf (die index : Nat) (r : Region) (win : Window) : Prop :=
      win.kind = 3 ∧ win.rd = w.fn.getLsbD 6 ∧ win.wr = w.fn.getLsbD 7 ∧ win.key = r.owner % 2 ^ 12 ∧ win.aux = (index * 2 ^ 8 + die * 2 ^ 6 + r.gen) % 2 ^ 18
    let queue (z : State) (win : Window) : State := z.modCtx q c fun y =>
      { y with seq := y.seq ++ [.block ch [plainHeader, wsetWord (w.fn.toNat % 8)] (some win)] }
    (s.speculative sq = true → ∀ i ∈ [Instr.spnew w, .spnewAttach w, .spfree w, .spfreeStat w], ready i →
      exec i s = .next (s.modCtx q c fun y => { y with wait := some .spec }))
    ∧ (s.speculative sq = false →
    (ready (.spnew w) → ∀ frames s',
      let die := sq.cluster / 44
      let n := (cx.S (w.a.toNat + 1)).toNat
      let shape := (cx.S (w.a.toNat + 2)).toNat
      let used (k : Nat) : Bool := ((aget? (s'.die die).regions k).map (·.live)).getD false
      n ≠ 0 → n ≤ 2 ^ 24 → shapeOk shape = true → a.toNat % 256 = 0 → a.toNat + 256 * n ≤ 2 ^ 56 → die < s'.dies.length →
      (w.fn.getLsbD 3 = true → cx.seq.length < 2 ∧ s'.streamUse q c sq cx ch = .ok) →
      State.poolWalk (s.genAccess sq) a.toNat (a.toNat + 256 * n) (n / 256 + 2) s a.toNat [] = (.ok frames, s') →
      ((∀ k, k < 1024 → used k = true) → on (.spnew w) (s'.modCtx q c fun y => { y.setS w.d.toNat 0 with cc := { z := true } }))
      ∧ ∀ k, k < 1024 → used k = false → (∀ j, j < k → used j = true) →
          let gen := (((aget? (s'.die die).regions k).map (·.gen)).getD 0 + 1) % 64
          let r : Region :=
            { live := true, gen := gen, owner := s'.ownerOf sq, shape := shape, base := a.toNat, count := n, frames := frames, root := 0
              nodes := [(0, { leaf := true, keys := [] })] }
          let z := (s'.modDie die fun y => { y with regions := aset y.regions k r }).modCtx q c fun y =>
            { y.setS w.d.toNat (BitVec.ofNat 64 (r.owner * 2 ^ 18 + gen * 2 ^ 12 + die * 2 ^ 10 + k)) with cc := { z := false } }
          (w.fn.getLsbD 3 = false → on (.spnew w) z)
          ∧ (w.fn.getLsbD 3 = true → ∃ win, windowOf die k r win ∧ on (.spnew w) (queue z win)))
    ∧ (ready (.spnewAttach w) → ∀ die index r, live die index r → cx.seq.length < 2 → s.streamUse q c sq cx ch = .ok → w.fn.getLsbD 3 = true →
        ∃ win, windowOf die index r win
          ∧ on (.spnewAttach w) (queue (s.modCtx q c fun y => { y.setS w.d.toNat a with cc := { z := false } }) win))
    ∧ (ready (.spfree w) → ∀ die index r, live die index r → die < s.dies.length → s.regionCopied a.toNat = false →
        ∃ z : State, on (.spfree w) z ∧ z.mem = s.mem ∧ aget? (z.die die).regions index = some { gen := (r.gen + 1) % 64 }
          ∧ ∀ j, j ≠ index → aget? (z.die die).regions j = aget? (s.die die).regions j)
    ∧ (ready (.spfree w) → ∀ die index r, live die index r → s.regionCopied a.toNat = true →
        exec (.spfree w) s = .next (s.ctxTrap q c .rangeConflict []))
    ∧ (ready (.spfreeStat w) → ∀ die index r, live die index r →
        exec (.spfreeStat w) s = .next (s.genEnd q c sq cx (.spfreeStat w)
          (cx.setS w.d.toNat (BitVec.ofNat 64 (r.nodes.length + min r.entries.length (2 ^ 32 - 1) * 2 ^ 32))))))

/-- R266 to R268, R385, R421, R422, R425 to R428: DTSET of an allowed descriptor fills its digest slot and queues a TREE window, when its nodes and
roots lie in the sealed range that an AUDIT descriptor names, and otherwise traps with PROTECTION; a descriptor that breaks R268 traps with
RESERVED_FIELD. SEAL of an allowed range that no sealed range of its owner and no range lock meets makes a table entry, whose number it gives, or
gives 0 and sets Z when the table is full. SEAL.FREE frees the owner's entry, or waits while an audited descent uses it, and traps for another's
entry; SEAL.Q gives an entry's status, and writes the hash of one that is measured. DIGEST writes one log record for each digest of a team's lanes,
in lane order, and clears them, or waits for the context's words, issued or delivered to the team, the hashes or room in the log. UMPREL and
UMPREL.KILL of a squad with privilege close the record that they name. In an uncommitted speculative task SEAL, SEAL.FREE, SEAL.Q and DIGEST wait.
(The model's readings: the information words of an AUDIT descriptor's PROTECTION, notes/assumptions/21; the order of the checks,
notes/assumptions/32 and 53; the words issued and not delivered that DIGEST awaits, notes/assumptions/93.) -/
def Obligations.TreeSealDigestAndUmpireWordsComplete : Prop :=
  ∀ (s : State) (q c : Nat) (sq : Squad) (cx : Ctx) (w : GR),
    let on (i : Instr) (z : State) : Prop := exec i s = .next (z.genRetire q c sq cx i Ctx.advance)
    let ready (i : Instr) : Prop := GenReady s q c sq cx i w.cnd
    let a := cx.S w.a.toNat
    let owner := s.ownerOf sq
    let ch := w.imm.toNat % 64
    let slot := w.imm.toNat % 256
    let free : Prop := s.speculative sq = false
    (ready (.dtset w) → ∀ e,
      let d := (upTo 4).map fun k => cx.S (w.a.toNat + k)
      let sealed : Prop := treeAudit d = true → s.sealCovers owner (treeSeal d) a.toNat (treeNodes d * treeStride d) = true
        ∧ (treeLinked d = true → s.sealCovers owner (treeSeal d) (treeRoots d) (4 * treeTrees d) = true)
      (cx.seq.length < 2 →
        (∀ o, treeBad d = some o → exec (.dtset w) s = .next (s.ctxTrap q c .reservedField [BitVec.ofNat 64 o, 0, 0, 0]))
        ∧ (treeBad d = none → ¬ sealed → exec (.dtset w) s = .next (s.ctxTrap q c .protection [0, 0x100, 0, 0]))
        ∧ (treeBad d = none → sealed → s.streamUse q c sq cx ch = .ok → GenTlb s sq a.toNat 128 {} e →
        ∃ win : Window, win.kind = 5 ∧ win.tree = d ∧ win.wr = false
          ∧ on (.dtset w) ((s.modSquad q fun y => { y with slots := aset y.slots (w.fn.toNat % 16) d }).modCtx q c fun y =>
              { y with seq := y.seq ++ [.block ch [plainHeader, wsetWord (w.d.toNat % 8)] (some win)] }))))
    ∧ (s.speculative sq = true → ∀ i ∈ [Instr.seal w, .sealFree w, .sealQ w, .digest w], ready i →
      exec i s = .next (s.modCtx q c fun y => { y with wait := some .spec }))
    ∧ (ready (.seal w) → free → ∀ frames s',
      let len := (cx.S (w.a.toNat + 1)).toNat
      sealFieldBad a.toNat len = none → a.toNat + len ≤ 2 ^ 56 →
      State.pinFrames (s.genAccess sq) (len / 2 ^ 16 + 1) s a.toNat len = (.ok frames, s') →
      (∀ e ∈ s'.seals, e.2.owner = owner → overlaps a.toNat len e.2.base e.2.len = false) → s'.lockHit owner a.toNat len true = none →
        ((∀ k, k < 256 → (aget? s'.seals k).isSome = true) → on (.seal w) (s'.modCtx q c fun y => { y.setS w.d.toNat 0 with cc := { z := true } }))
        ∧ ∀ k, k < 256 → aget? s'.seals k = none → (∀ j, j < k → (aget? s'.seals j).isSome = true) →
            ∃ z : State, on (.seal w) z ∧ z.mem = s'.mem
              ∧ z.seals = aset s'.seals k { owner := owner, base := a.toNat, len := len, frames := frames.map (·.1), zors := frames.map (·.2) }
              ∧ ∀ y, s'.ctx q c = some y → z.ctx q c = some { y.setS w.d.toNat (BitVec.ofNat 64 k) with cc := { z := false }, fenced := true })
    ∧ (ready (.sealFree w) → free → ∀ e, aget? s.seals slot = some e → e.owner = owner → s.sealBusy slot = false →
        on (.sealFree w) { s with seals := adel s.seals slot })
    ∧ (ready (.sealFree w) → free →
      ((∀ e, aget? s.seals slot = some e → e.owner ≠ owner) → exec (.sealFree w) s = .next (s.ctxTrap q c .reservedField []))
      ∧ ∀ e, aget? s.seals slot = some e → e.owner = owner → s.sealBusy slot = true →
        exec (.sealFree w) s = .next (({ s with seals := aset s.seals slot { e with freeing := true } } : State).modCtx q c fun y =>
          { y with wait := some (.sealFree slot) }))
    ∧ (ready (.sealQ w) → free →
      let gives (z : State) (v : Nat) : Prop := on (.sealQ w) (z.modCtx q c fun y => y.setS w.d.toNat (BitVec.ofNat 64 v))
      ((∀ e, aget? s.seals slot = some e → e.owner ≠ owner) → gives s slot)
      ∧ ∀ e, aget? s.seals slot = some e → e.owner = owner →
        (e.hashed = false → gives s (e.len / 2 ^ 16 * 2 ^ 16 + 2 ^ 8 + slot))
        ∧ (e.hashed = true → a.toNat % 32 = 0 → a.toNat < 2 ^ 56 → a.toNat + e.hash.length ≤ 2 ^ 56 →
          ∀ s', s.spanWrite (s.genAccess sq) a.toNat e.hash = (.ok (), s') → gives s' (e.len / 2 ^ 16 * 2 ^ 16 + 2 * 2 ^ 8 + slot)))
    ∧ (ready (.digest w) → free → ∀ dq t tm o, s.ownedTeam q c (w.fn.toNat % 64) = .team dq t → s.team dq t = some tm → w.b.toNat < tm.n →
      aget? s.owners owner = some o →
      let gs := (upTo tm.lanes).filterMap fun l => (aget? tm.digests l).map fun g => (l, g)
      let due : Prop := s.bound q c dq t = false ∧ (∀ g ∈ gs, ∃ e, aget? s.seals g.2.sealId = some e ∧ e.hashed = true)
        ∧ o.logWrite + gs.length ≤ o.logRead + o.logCap
      (¬ due → exec (.digest w) s = .next (s.modCtx q c fun y => { y with wait := some (.digest (w.fn.toNat % 64)) }))
      ∧ (due → on (.digest w) ((gs.foldl (fun z g => z.logWrite owner fun k => logRecord (tm.V g.1 w.b.toNat) (sq.instance_ % 2 ^ 32) (w.fn.toNat % 64) g.1 g.2
          z.now k (((aget? z.seals g.2.sealId).map (·.hash)).getD [])) s).modTeam dq t fun y => { y with digests := [] })))
    ∧ (∀ v, sq.priv = true → a.toNat < 2 ^ 10 → aget? (s.die (a.toNat / 2 ^ 8)).viol (a.toNat % 256) = some v →
        let die := a.toNat / 2 ^ 8
        let z := s.modDie die fun y => { y with viol := adel y.viol (a.toNat % 256) }
        (ready (.umprel w) → on (.umprel w) (if z.stillNamed v.master then z else z.release v.master))
        ∧ (ready (.umprelKill w) → on (.umprelKill w)
            (State.killMaster { s with dies := s.dies.map (·.closeMaster v.master) } v.master die (a.toNat % 256))))

/-- R284, R285, R286: a context's word that traps with TMASK clear leaves the context's registers as they are, with the trap in its pending line: behind
every trap there, but before those of the same cycle that R284 ranks after it. At a boundary with TMASK clear and a handler set, once the cycle in
which the trap arose is past, TRAP_ENTRY records the return point, sets TMASK, loads TRAPCAUSE, TRAPPC and TRAPINFO0 to TRAPINFO3 from the oldest
trap that is not held, and continues at TRAPVEC, with no other register changed. A trap of its own with TMASK set, and an entry with TRAPVEC 0, kill
the task. -/
def Obligations.TrapsPendAndEnterTheHandler : Prop :=
  (∀ (s : State) (q c : Nat) (sq : Squad) (cx : Ctx),
    let words (l : List DWord) : List DWord := [l.getD 0 0, l.getD 1 0, l.getD 2 0, l.getD 3 0]
    let own (cause : Cause) (info : List DWord) : Pending :=
      { kind := .word, cause := cause, causeBits := cause.code, pc := cx.pc, info := info, task := sq.task, cycle := s.cycleOf q, clause := cx.clause }
    s.squad q = some sq → sq.ctxs[c]? = some cx →
      (∀ (cause : Cause) (info : List DWord), s.speculative sq = false →
        (cx.tmask = false → cx.exited = false → (s.ctxTrap q c cause info).ctx q c =
          some { cx with wait := none, pending := pendInsert (own cause info) cx.pending })
        ∧ (cx.tmask = true → s.ctxTrap q c cause info = s.killTask sq.task 1 cause.code (BitVec.ofNat 64 cause.code :: words info)))
      ∧ ∀ p, s.operand.a = q → s.operand.b = c → cx.pending.find? (fun p => !s.held p) = some p → s.trapDue q c = true →
          (cx.trapvec ≠ 0 → ∃ z : State, exec .trapEntry s = .next z ∧ z.mem = s.mem
            ∧ z.ctx q c = some { cx with
                ret := some (cx.pc, cx.clause, cx.arrived), retWaited := cx.flagsIdle sq.native, arrived := none, tmask := true
                pending := cx.pending.erase p, wait := none, spawning := none, clause := none, trapClause := p.clause, trapGap := p.gap
                trapcause := BitVec.ofNat 64 p.causeBits, trappc := (match p.kind with | .copy _ => cx.pc | _ => p.pc)
                trapinfo := words p.info, pc := cx.trapvec })
          ∧ (cx.trapvec = 0 → exec .trapEntry s = .next (s.killTask sq.task 1 p.cause.code (BitVec.ofNat 64 p.causeBits :: words p.info))))
  ∧ ∀ (p : Pending) (l : List Pending),
    let after (x : Pending) : Prop := x.cycle = p.cycle ∧ p.kind.rank < x.kind.rank
    ∃ a b, l = a ++ b ∧ pendInsert p l = a ++ p :: b ∧ (∀ x ∈ a, ¬ after x) ∧ ∀ x, b.head? = some x → after x

/-- R89, R174, R221, R284 to R286: a lane word that stops on another cause than a page fault parks its team with the cause, its stream position, its
unfinished lanes and its information words, releases its latch, adds the flags held for FFLAGS, and leaves the team's registers, masks and buffer as
they are; the trap pends at the owning context, whose registers stay. Where that context has exited the trap kills its task, and where its squad is
gone the task that had it or else the team's own (the model's choice of the task, notes/assumptions/23), unless the trap is of a speculative task.
R90, R147, R291: a parked team restarts at its word for the unfinished lanes of its record; under SKIP, or with no lane left, the word is left
behind as retired, and of a malformed header the rest of its stretch. -/
def Obligations.ParkingAndRestartingFollowTheRecord : Prop :=
  (∀ (s : State) (q t : Nat) (sq : Squad) (tm : Team) (cause : Cause) (info : List DWord) (m : Mask) (header : Bool) (rec_ : List Byte),
      s.squad q = some sq → sq.teams[t]? = some tm → cause ≠ .pageFault →
        let z := s.park q t cause info m header rec_
        let held := (s.task sq.task).any Task.uncommitted
        ∃ (p : Park) (y : State), p.cause = cause ∧ p.pos = tm.pos ∧ p.mask = m ∧ p.info = info ∧ p.header = header ∧ p.emptied = false
          ∧ y = s.modTeam q t (fun _ => { tm with
              park := some p, fflags := tm.fflags ||| tm.owedFlags, owedFlags := 0, lostTiles := [], awaits := [], inUnit := false
              latch := none, wait := none, todo := none, started := none, half := none, starved := false, faulted := [] })
          ∧ (tm.owner = none → z = y)
          ∧ ∀ o, tm.owner = some o → ∃ d : Pending, (∃ n, d.kind = .team n) ∧ d.cause = cause ∧ d.pc = tm.pos.setWidth 64 ∧ d.info = info ∧ d.task = sq.task
            ∧ d.cycle = s.cycleOf o.1
            ∧ (∀ cx, s.ctx o.1 o.2 = some cx → (cx.exited = false ∨ held = true) →
                z = y.modCtx o.1 o.2 fun cx => { cx with pending := pendInsert d cx.pending })
            ∧ (∀ osq cx, s.squad o.1 = some osq → s.ctx o.1 o.2 = some cx → cx.exited = true → held = false →
                z = y.trapKill osq.task cause d.causeBits info)
            ∧ (s.squad o.1 = none → held = false → z = y.trapKill (s.lostTask o.1 d) cause d.causeBits info))
  ∧ (∀ (tm : Team) (p : Park) (b : BufWord) (rest : List BufWord) (skip : Bool), tm.park = some p → tm.buffer = b :: rest →
      let r := tm.resume skip
      r.park = none ∧ r.wait = none ∧ r.v = tm.v ∧ r.masks = tm.masks
      ∧ (skip = false → p.emptied = false → p.header = false → r.todo = some p.mask ∧ r.buffer = tm.buffer ∧ r.pos = tm.pos)
      ∧ (skip = false → p.emptied = false → p.header = true → r.clause = none ∧ r.buffer = tm.buffer)
      ∧ (skip = true ∨ p.emptied = true → p.header = false → r.todo = none ∧ r.buffer = rest ∧ r.pos = tm.pos + 1)
      ∧ (skip = true ∨ p.emptied = true → p.header = true → r.todo = none ∧ r.clause = none
          ∧ ∀ pre k post, tm.buffer = pre ++ k :: post → (∀ y ∈ pre, y.last = false) → k.last = true → r.buffer = post))

/-- R287 to R291: GTRAP takes its own trap with IMM16 in information word 0; TMASK writes TMASK; within a handler ERET returns to the faulting word,
under SKIP to the word after it, behind the hole map and block of a word that ended its clause with them, and from a team's or a copy's trap to the
return point, clearing TMASK, with the clause there kept and its WAIT not tested again where it was satisfied before; ERET sA goes to S(A), or traps
with MISALIGNED; outside a handler each raises RESERVED_FIELD. TRESUME restarts a parked team and clears Z, and of another team changes nothing else
and sets Z; it waits for an owned team that is not resident, and traps for a number of no owned team. (That wait is the model's choice,
notes/assumptions/25, and the zero information words of MISALIGNED are notes/assumptions/20.) -/
def Obligations.HandlerWordsReturnAndResume : Prop :=
  ∀ (s : State) (q c : Nat) (sq : Squad) (cx : Ctx) (w : GR),
    let ready (i : Instr) : Prop := GenReady s q c sq cx i w.cnd
    let bad (i : Instr) : Prop := exec i s = .next (s.ctxTrap q c .reservedField [])
    let leave (i : Instr) (pc : DWord) (k : Option Clause) (waited : Bool) (arrived : Ctx → Option Nat) : Prop :=
      exec i s = .next ((s.modCtx q c fun y => { y with tmask := false, ret := none, trapClause := none, arrived := arrived y }).genRetire
        q c sq cx i fun y => { y with pc := pc, clause := k, wait := none, waited := waited })
    let own : Prop := cx.trapcause.toNat / 2 ^ 12 % 4 = 0
    (ready (.gtrap w) → exec (.gtrap w) s = .next (s.ctxTrap q c .genTrap [w.imm.setWidth 64, 0, 0, 0]))
    ∧ (ready (.tmask w) → exec (.tmask w) s = .next (s.genEnd q c sq cx (.tmask w) { cx with tmask := w.imm.getLsbD 0 }))
    ∧ (∀ i ∈ [Instr.eret w, .eretSkip w, .eretTarget w], ready i → cx.tmask = false → bad i)
    ∧ (cx.tmask = true → ∀ pc k arr, cx.ret = some (pc, k, arr) →
        (ready (.eret w) → own → leave (.eret w) cx.trappc cx.trapClause true (·.arrived))
        ∧ (ready (.eretSkip w) → own → leave (.eretSkip w) (cx.trappc + BitVec.ofNat 64 (8 * (1 + cx.trapGap))) (cx.trapClause.bind Clause.advance) true (·.arrived))
        ∧ (ready (.eret w) → ¬ own → leave (.eret w) pc k cx.retWaited fun _ => arr)
        ∧ (ready (.eretSkip w) → ¬ own → bad (.eretSkip w)))
    ∧ (cx.tmask = true → cx.ret = none → (ready (.eret w) → bad (.eret w)) ∧ (ready (.eretSkip w) → bad (.eretSkip w)))
    ∧ (ready (.eretTarget w) → cx.tmask = true → w.fn.getLsbD 0 = false →
        let pc := cx.S w.a.toNat
        (pc.toNat % 8 = 0 → exec (.eretTarget w) s =
          .next ((s.modCtx q c fun y => { y with tmask := false, ret := none, trapClause := none }).genRetire q c sq cx (.eretTarget w) (·.jump pc)))
        ∧ (pc.toNat % 8 ≠ 0 → exec (.eretTarget w) s = .next (s.ctxTrap q c .misaligned [0, 0, 0, 0])))
    ∧ (ready (.tresume w) →
      (s.ownedTeam q c (w.imm.toNat % 64) = .no → bad (.tresume w))
      ∧ (s.ownedTeam q c (w.imm.toNat % 64) = .away →
          exec (.tresume w) s = .next (s.modCtx q c fun y => { y with wait := some (.resident (w.imm.toNat % 64)) }))
      ∧ ∀ tq t tm tsq, s.ownedTeam q c (w.imm.toNat % 64) = .team tq t → s.team tq t = some tm → s.squad tq = some tsq →
          (tm.park = none → exec (.tresume w) s = .next (s.genEnd q c sq cx (.tresume w) { cx with cc := { z := true } }))
          ∧ (tm.park ≠ none → ∃ z : State, exec (.tresume w) s = .next (z.genRetire q c sq cx (.tresume w) Ctx.advance)
              ∧ z.mem = s.mem ∧ z.team tq t = some (tm.resume (w.fn.getLsbD 0)) ∧ z.ctx q c = some { cx with cc := { z := false } }))

/-- R24, R293, R294: CTXSAVE.REC writes the parking record of an owned team, 192 bytes, where its memory allows it; CTXLOAD.REC takes away from a parked
team the lanes that its record's mask does not have, and of another team changes nothing. CTXSAVE.SQUAD of a handler squad keeps the state of the
squad that it names under the area it writes, and waits until that squad's flags are idle; CTXLOAD.SQUAD restores each pre-empted context from such
an area, and from any other area freezes as a violation; without the name each freezes as a violation. (The bytes of a save area are the model's
free values: notes/assumptions/13.) -/
def Obligations.ContextSaveAndLoadWordsComplete : Prop :=
  ∀ (s : State) (q c : Nat) (sq : Squad) (cx : Ctx) (w : GR),
    let ready (i : Instr) : Prop := GenReady s q c sq cx i w.cnd
    let on (i : Instr) (z : State) : Prop := exec i s = .next (z.genRetire q c sq cx i Ctx.advance)
    let va := (cx.S w.a.toNat).toNat
    let acc := s.genAccess sq
    let team (tq t : Nat) (tm : Team) : Prop := s.ownedTeam q c (w.imm.toNat % 64) = .team tq t ∧ s.team tq t = some tm
    let frozen (i : Instr) (z : State) (code : Nat) : Prop := ∃ v, exec i s =
      .next ((z.violate (z.holdTask sq) v).modCtx q c fun y => { y with wait := some .frozen }) ∧ v.code = code ∧ v.va = va
    (ready (.ctxsaveRec w) → va % 128 = 0 → va + 192 ≤ 2 ^ 56 → ∀ tq t tm s', team tq t tm →
        (parkRecord tm (w.imm.toNat % 64)).length = 192
        ∧ (s.spanWrite acc va (parkRecord tm (w.imm.toNat % 64)) = (.ok (), s') → on (.ctxsaveRec w) s'))
    ∧ (ready (.ctxloadRec w) → va % 128 = 0 → va + 192 ≤ 2 ^ 56 → ∀ tq t tm, team tq t tm →
        (tm.park = none → on (.ctxloadRec w) s)
        ∧ ∀ p bs s', tm.park = some p → State.spanRead acc (va + 48) 2 s (va + 48) 128 = (.ok bs, s') →
            on (.ctxloadRec w) (s'.modTeam tq t fun y => { y with park := y.park.map fun p =>
              let m := p.mask &&& BitVec.ofNat 1024 (ofBytes bs)
              { p with mask := m, emptied := p.emptied || m == 0 } }))
    ∧ (∀ i ∈ [Instr.ctxsaveSquad w, .ctxloadSquad w], ready i → sq.priv = false ∨ sq.named = 0 → frozen i s 4)
    ∧ (ready (.ctxsaveSquad w) → sq.priv = true → sq.named ≠ 0 → ∀ y, s.squad (sq.named - 1) = some y →
        ((∃ k ∈ y.ctxs, k.exited = false ∧ k.busy ≠ 0) → exec (.ctxsaveSquad w) s = .next (s.modCtx q c fun z => { z with wait := some (.idle (sq.named - 1)) }))
        ∧ ∀ s', (∀ k ∈ y.ctxs, k.exited = true ∨ k.busy = 0) → va + Config.saveAreaBytes.val ≤ 2 ^ 56 →
        s.spanWrite acc va (saveArea s.serial) = (.ok (), s') →
        on (.ctxsaveSquad w) { s' with saves := aset s'.saves s.serial { y with teams := [], tiles := [] }, serial := s.serial + 1 })
    ∧ (ready (.ctxloadSquad w) → sq.priv = true → sq.named ≠ 0 → ∀ y bs s', s.squad (sq.named - 1) = some y →
        va + Config.saveAreaBytes.val ≤ 2 ^ 56 →
        State.spanRead acc va (Config.saveAreaBytes.val / 2 ^ 16 + 2) s va Config.saveAreaBytes.val = (.ok bs, s') →
        let area := s'.saves.find? fun p => p.2.task == y.task && p.2.instance_ == y.instance_ && saveArea p.1 == bs
        (area = none → frozen (.ctxloadSquad w) s' 5)
        ∧ ∀ k old, area = some (k, old) →
        on (.ctxloadSquad w) (s'.modSquad (sq.named - 1) fun z => { z with
          ctxs := z.ctxs.zipIdx.map fun (now, j) => match old.ctxs[j]? with
            | some was => if now.preempted then was.restored now else now
            | none => now }))

/-- R19 to R22, R24, R40, R90, R94, R125, R153, R158, R162, R196, R198, R202, R205 to R207, R221, R298: what each device step does to the team that it
names, when its condition holds: a header is decoded, a flag becomes idle, a wait for a huddle, for tile lines, a matrix or the descent unit, a GIVE
or a TFREE ends, a claim is granted, a team is evicted, returns, or ends with its owner. (The model's choices: the operands that choose the team,
and the tries of a save that failed, notes/assumptions/59 and notes/assumptions/25; a request for an eviction, and a pending CLAIM that takes its
place in its lines again in the order of issue when its team returns, notes/assumptions/24; the ends of waits, notes/assumptions/39, 27 and 26; the
end of a team, notes/assumptions/23.) -/
def Obligations.TeamStepsTakeEffect : Prop :=
  ∀ (s : State) (q t : Nat) (sq : Squad) (tm : Team),
    let goes (i : Instr) (z : State) : Prop := exec i s = .next z
    let named : Prop := s.operand.unit = some (.team q t)
    let set (f : Team → Team) : State := s.modTeam q t f
    let flag := s.operand.c
    let core (k : Nat) : LaneCore := ((s.cluster sq.cluster).cores[k]?).getD {}
    s.squad q = some sq → sq.teams[t]? = some tm →
      (∀ b rest, named → tm.clause = none → tm.park = none → tm.buffer = b :: rest →
        let len := b.word.toNat / 2 ^ 60
        let ok : Prop := 1 ≤ len ∧ len ≤ 7 ∧ (b.word.getLsbD 43 = true → b.word.toNat / 2 ^ 44 % 16 < 12)
          ∧ (b.word.getLsbD 38 = true → b.word.toNat / 2 ^ 39 % 16 < 12) ∧ b.word.toNat % 64 = 0
          ∧ len < tm.buffer.length ∧ ∀ x ∈ tm.buffer.take len, x.last = false
        (ok → goes .clauseHeaderDecode (set fun y => { y with buffer := rest, pos := y.pos + 1, clause := some ⟨b.word, 0⟩ }))
        ∧ (¬ ok → goes .clauseHeaderDecode (s.park q t .clauseFormat [] (tm.m 0) true [])))
      ∧ (named → tm.busy.getLsbD flag = true → ∃ new, goes .flagIdle (set fun _ => new)
          ∧ new = { tm with busy := new.busy, hazards := settle (fun h => h.live new.busy (s.cluster sq.cluster).cycle) tm.hazards }
          ∧ ∀ j, new.busy.getLsbD j = (tm.busy.getLsbD j && decide (j ≠ flag)))
      ∧ (∀ h, named → tm.wait = some (.huddle h) → tm.evicted = false → (sq.huddle h).ph ≠ aget 0 tm.tp h →
          goes .huddleWaitEnd ((s.retireHead q t).modTeam q t fun y => y.setTp h (sq.huddle h).ph))
      ∧ (s.operand.a = q → s.operand.b = t →
          (∀ ls since, tm.wait = some (.lines ls since) →
            (∀ h j, (h, j) ∈ ls → (∀ k, s.tile q h = some k → k.full j = true ∨ k.lineCount ≤ j) →
                goes .lineWaitResume (set fun y => { y with wait := none }))
            ∧ ((∀ h j, (h, j) ∈ ls → ∃ k, s.tile q h = some k ∧ k.full j = false ∧ j < k.lineCount) → goes .lineWaitResume s)
            ∧ (since + 2 ^ 24 ≤ (s.cluster sq.cluster).cycle → tm.evicted = false →
                goes .tileStarvedTimeout (set fun y => { y with wait := none, starved := true })))
          ∧ (∀ k, tm.wait = some .matrix → k < (s.cluster sq.cluster).cores.length →
              (∀ j, j < k → (core j).queue.head? ≠ some (q, t) ∨ (core j).holder ≠ none) →
              (core k).queue.head? = some (q, t) → (core k).holder = none →
              goes .matrixUnitStart ((s.modCore sq.cluster k fun y => { y with queue := y.queue.drop 1, holder := some (q, t) }).modTeam q t fun y =>
                { y with wait := none }))
          ∧ (tm.wait = some .descent → (s.cluster sq.cluster).descent.head? = some (q, t) → goes .matrixUnitStart (set fun y => { y with wait := none }))
          ∧ (tm.wait = some .give → tm.busy = 0 → goes .giveReturn ((s.retireHead q t).modTeam q t fun y => y.dropRegs (tm.n - tm.claimAmount)))
          ∧ (∀ h, tm.wait = some (.tfree h) →
              (s.tileLocked q h = none → s.tileInUse q h = false →
                goes .tfreeEffect (((set fun y => { y with wait := none }).freeTile q h).retireHead q t))
              ∧ (s.tileLocked q h ≠ none → goes .tfreeEffect (set fun y => { y with wait := none })))
          ∧ (s.operand.w = 1 → tm.evicted = false → goes .teamEvict (set fun y => { y with evictReq := true }))
          ∧ (s.operand.w ≠ 1 → tm.evictReq = true → tm.busy = 0 → (∀ w, tm.wait = some w → w.suspends = true) →
              (tm.wait = none → tm.frozen = true ∨ tm.started = none ∧ tm.half = none) →
              (s.operand.c = 0 ∨ s.operand.c = 1 ∧ (s.cluster sq.cluster).undervolted = false →
                goes .teamEvict (((s.suspendSparse q t).leaveLines q t sq.cluster).modTeam q t fun y => { y with
                  evicted := true, evictReq := false, latch := none, inUnit := false, half := none
                  started := if tm.wait.any (·.kept) then tm.started else none }))
              ∧ (2 ≤ s.operand.c → (s.cluster sq.cluster).undervolted = false → goes .teamEvict (s.trapKill sq.task .ctxSaveLost Cause.ctxSaveLost.code []))
              ∧ (1 ≤ s.operand.c → (s.cluster sq.cluster).undervolted = true →
                  goes .teamEvict (s.modCluster sq.cluster fun y => { y with power := { y.power with event := true } })))
          ∧ (tm.evicted = true → tm.ended = false → sq.off = false → s.exclOther q sq.cluster = false →
              (∀ k ∈ tm.cores, s.granules sq.cluster k + tm.passesOn k * tm.n / 8 ≤ 512
                ∧ (s.placesUsed sq.cluster k < 32 ∨ ∃ x ∈ s.residentOn sq.cluster k, gang x = gang (q, t, sq, tm))) →
              let age := (s.cluster sq.cluster).nextAge
              let z := (s.modCluster sq.cluster fun y => { y with nextAge := age + 1 }).modTeam q t fun y =>
                { y with evicted := false, starved := false, age := age, ready := 0, readyOdd := 0, wait := if y.wait.any (·.kept) then y.wait else none }
              (tm.wait ≠ some .claim → goes .teamReturn z)
              ∧ (tm.wait = some .claim → goes .teamReturn (tm.cores.foldl (fun s k => s.joinClaims sq.cluster k q t tm.claimAt) z)))
          ∧ (∀ o, tm.owner = some o → tm.ended = false →
              (s.ownerKilled o.1 = false → s.ownerGone o.1 o.2 = true → tm.buffer = [] → tm.busy = 0 → tm.park = none → tm.wait = none → tm.frozen = false →
                goes .teamEnd (set fun y => { y with ended := true, latch := none, clause := none }))
              ∧ (s.ownerKilled o.1 = true → goes .teamEnd (set fun y => { y with
                  ended := true, latch := none, clause := none, park := none, wait := none, todo := none, buffer := [], faulted := [] }))))
      ∧ (∀ rest k, (((s.cluster s.operand.a).cores[s.operand.b]?).map (·.claims)).getD [] = (q, t) :: rest →
          s.granules s.operand.a s.operand.b + tm.passesOn s.operand.b * tm.claimAmount / 8 ≤ 512 →
          k = s.modCore s.operand.a s.operand.b (fun y => { y with claims := rest }) →
          ((∀ j ∈ tm.cores, (q, t) ∉ (((k.cluster s.operand.a).cores[j]?).map (·.claims)).getD []) →
            goes .claimGrant ((k.retireHead q t).modTeam q t fun y => { y with n := y.n + tm.claimAmount }))
          ∧ ((∃ j ∈ tm.cores, (q, t) ∈ (((k.cluster s.operand.a).cores[j]?).map (·.claims)).getD []) → goes .claimGrant k))
      ∧ (LaneReady s q t sq tm .illegalLaneOpc 0 → goes .illegalLaneOpc (s.laneStop q t sq tm .illegalLaneOpc 0 .illegalLaneOpc [] (tm.acting 0)))

/-- R19, R21, R23, R24, R40, R213, R224, R227, R231, R233, R237, R265, R295 to R298: what each device step does to the context that it names, when its
condition holds: a header is decoded, a flag becomes idle, a wait ends, a stretch or an iteration of a replay is delivered, a recording comes on
chip, a vote record becomes readable, MWAIT reads again, and a context is pre-empted and restored. (The model's choices: the operands that choose
the context, notes/assumptions/59; the request of a pre-emption and what a restore executes again, notes/assumptions/24; a save that is lost, its
tries counted by c, and the order of a due trap before a save, notes/assumptions/25; the ends of waits, notes/assumptions/39.) -/
def Obligations.ContextStepsTakeEffect : Prop :=
  ∀ (s : State) (q c : Nat) (sq : Squad) (cx : Ctx),
    let goes (i : Instr) (z : State) : Prop := exec i s = .next z
    let named : Prop := s.operand.unit = some (.ctx q c)
    let set (f : Ctx → Ctx) : State := s.modCtx q c f
    let flag := s.operand.c
    let woken (w : Option CtxWait) : Option CtxWait := if w = some .emission then none else w
    s.squad q = some sq → sq.ctxs[c]? = some cx →
      (∀ w s', named → cx.clause = none → s.fetch (s.genAccess sq) cx.pc.toNat = (.ok w, s') →
        let len := w.toNat / 2 ^ 60
        let ok : Prop := 1 ≤ len ∧ len ≤ 7 ∧ (w.getLsbD 43 = true → w.toNat / 2 ^ 44 % 16 < 12) ∧ (w.getLsbD 38 = true → w.toNat / 2 ^ 39 % 16 < 12)
          ∧ w.toNat % 64 = 0
        (ok → goes .clauseHeaderDecode (s'.modCtx q c fun y => { y with pc := y.pc + 8, clause := some ⟨w, 0⟩, waited := false }))
        ∧ (¬ ok → goes .clauseHeaderDecode (s'.ctxTrap q c .clauseFormat [])))
      ∧ (named → cx.busy.getLsbD flag = true → ∃ new, goes .flagIdle (set fun _ => new)
          ∧ new = { cx with busy := new.busy, hazards := settle (fun h => h.live new.busy (s.cluster sq.cluster).cycle) cx.hazards }
          ∧ ∀ j, new.busy.getLsbD j = (cx.busy.getLsbD j && decide (j ≠ flag)))
      ∧ (∀ h, named → cx.wait = some (.huddle h) → cx.preempted = false → (sq.huddle h).ph ≠ aget 0 cx.tp h →
          goes .huddleWaitEnd ((set fun y => { y.setTp h (sq.huddle h).ph with arrived := none, wait := none }).genDone q c .illegalGenOpc))
      ∧ (GenReady s q c sq cx .illegalGenOpc 0 → goes .illegalGenOpc (s.ctxTrap q c .illegalGenOpc []))
      ∧ (s.operand.a = q → s.operand.b = c →
          (∀ ch words sys rest, cx.seq = .block ch words sys :: rest → cx.seqStopped = false → s.roomFor (s.chanDests sq q c cx ch) words.length = true →
            goes .stretchDeliver ((s.deliver sq q c ch ((cx.chan ch 0).getLsbD 2) (s.chanDests sq q c cx ch) words sys fun _ => .direct).modCtx q c fun y =>
              { y with seq := rest, wait := woken y.wait }))
          ∧ (∀ ch id r next step left iter rest, cx.seq = .replay ch id r next step left iter :: rest →
              (r.serial ∈ (s.cluster sq.cluster).onchip → cx.seqStopped = false → s.roomFor (s.chanDests sq q c cx ch) r.block.length = true →
                let z := s.deliver sq q c ch ((cx.chan ch 0).getLsbD 2) (s.chanDests sq q c cx ch) (fillBlock r.block r.holes next) none fun i => .replay id i iter
                (left ≤ 1 → goes .replayIteration (z.modCtx q c fun y => { y with seq := rest, wait := woken y.wait }))
                ∧ (1 < left → goes .replayIteration (z.modCtx q c fun y =>
                    { y with seq := .replay ch id r (List.zipWith (· + ·) next step) step (left - 1) (iter + 1) :: rest })))
              ∧ (r.serial ∉ (s.cluster sq.cluster).onchip → s.recWords sq.cluster r.serial ≤ 32768 → ∃ l, r.serial ∈ l ∧ goes .playbookFill (s.modCluster sq.cluster fun y => { y with onchip := l })))
          ∧ (∀ pre v post, cx.votes = pre ++ v :: post → (∀ u ∈ pre, u.readable = true) → v.readable = false →
              v.lower ≤ (s.cluster sq.cluster).cycle →
              goes .voteReadable (set fun y => { y with votes := pre ++ { v with readable := true } :: post }))
          ∧ (∀ w, cx.wait = some w → s.waitOver q c sq cx w = true → goes .contextWaitResume (set fun y => { y with
              wait := none, spawning := match w with
                | .admission _ r => some r
                | _ => none }))
          ∧ (∀ addr n d wide bs s', cx.wait = some (.mwait addr n d wide) → cx.preempted = false → s.freshRead (s.genAccess sq) addr.toNat n wide = (.ok bs, s') →
              ofBytes bs ≠ (cx.S d).toNat % 2 ^ (8 * n) →
              goes .mwaitReread ((s'.modCtx q c fun y => y.setS d (BitVec.ofNat 64 (ofBytes bs))).genDone q c .illegalGenOpc))
          ∧ (s.operand.w = 1 → cx.preemptReq = none → cx.preempted = false → cx.exited = false →
              goes .preemptContext (set fun y => { y with preemptReq := some (s.cluster sq.cluster).cycle }))
          ∧ (cx.saveable = true →
              let take : Prop := s.operand.w ≠ 1 ∧ cx.preemptReq ≠ none ∧ cx.tmask = false ∧ s.trapNext q c = false
              let late : Prop := cx.tmask = true ∧ ∃ since, cx.preemptReq = some since ∧ since + 65536 ≤ (s.cluster sq.cluster).cycle
              let both (z : State) : Prop := (take → goes .preemptContext z) ∧ (late → goes .preemptDeferTimeout z)
              (s.operand.c = 0 ∨ s.operand.c = 1 ∧ (s.cluster sq.cluster).undervolted = false → both (set fun y => { y with preempted := true, preemptReq := none }))
              ∧ (2 ≤ s.operand.c → (s.cluster sq.cluster).undervolted = false → both (s.trapKill sq.task .ctxSaveLost Cause.ctxSaveLost.code []))
              ∧ (1 ≤ s.operand.c → (s.cluster sq.cluster).undervolted = true →
                  both (s.modCluster sq.cluster fun y => { y with power := { y.power with event := true } })))
          ∧ (cx.preempted = true → sq.off = false → s.exclOther q sq.cluster = false → s.ctxRoom sq.cluster sq.priv 1 = true →
              goes .contextRestore (set fun y =>
                { y with preempted := false, spawning := none, wait := if y.wait.any (·.boundary) then none else y.wait })))

/-- R239, R250, R253, R257, R263, R316 to R322, R328, R423, R430: what the steps of the memory system, the mailboxes and the copy engines do, when their
conditions hold: an L1 fill, a fault record and its end, a first touch, a frame for the Bullpen, a shootdown, a mailbox, a register of a die, a line
that the scrubber meets, and the start, a unit of work and the end of a copy. (The model's choices: L1_FILL, notes/assumptions/12; the flow of fault
records, notes/assumptions/22; first touches and frame lists, notes/assumptions/43, under the slot of their owner and fault records under slot 0,
notes/assumptions/7; a second shootdown that waits for the first, and the notice's bytes, notes/assumptions/44; the host's record of a scrubbed
line, notes/assumptions/69; what an image in PROBATION leaves unwritten, notes/assumptions/70; the operands, notes/assumptions/59; copies,
notes/assumptions/41.) -/
def Obligations.MemoryAndCopyStepsTakeEffect : Prop :=
  ∀ s : State,
    let goes (i : Instr) (z : State) : Prop := exec i s = .next z
    let a := s.operand.a
    let x := s.die a
    let w := s.operand.w
    let set (f : Die → Die) : State := s.modDie a f
    (∀ c, s.clusters[a]? = some c →
        (∀ pre e post, c.miss = pre ++ e :: post → (∀ m ∈ pre, m.line ≠ s.operand.b) → e.line = s.operand.b → e.since + 16 ≤ c.cycle →
          goes .l1Fill (s.modCluster a fun y => { y with l1 := ((e.line, e.bytes) :: adel y.l1 e.line).take 2048, miss := y.miss.filter fun m => m.line != e.line }))
        ∧ ((∀ e ∈ c.miss, e.line = s.operand.b → c.cycle < e.since + 16) → goes .l1Fill s))
    ∧ (∀ r rest i md mi m, x.faultQ = r :: rest → x.ringSlot = some i → s.faultBox a = some (md, mi, m) →
        goes .faultRecord (((set fun y => { y with faultQ := rest, ring := aset y.ring i r, ringNext := (i + 1) % 1024 }).devWrite 0
          (x.fring.toNat / 2 ^ 16 % 2 ^ 36 * 2 ^ 16 + 64 * i) r.record).modDie md fun y =>
            { y with mailboxes := aset y.mailboxes mi { m with msgs := m.msgs ++ [BitVec.ofNat 64 i] } }))
    ∧ (∀ r, aget? x.ring (w.toNat % 1024) = some r → s.firmware.state = .active →
        goes .fdoneWrite (((set fun y => { y with ring := adel y.ring (w.toNat % 1024) }).settleFault r.src (w.getLsbD 16)).wakeDie a .faultSlot .faultSlot))
    ∧ (∀ t, x.touches.find? (fun t => t.owner == s.operand.b && t.va == s.operand.c) = some t →
        let z := set fun y => { y with touches := y.touches.filter (· != t) }
        (∀ f, x.bullpen.find? (fun f => f.owner == t.owner && f.size == t.size) = some f → s.devRead t.owner t.entry = t.value → s.guardPa t.entry 8 true = none →
          goes .firstTouchService (((z.modDie a fun y => { y with bullpen := y.bullpen.erase f }).devWrite t.owner t.entry
            (toBytes 8 (t.owner * 2 ^ 52 + f.pa + t.value.toNat / 16 % 8 * 16 + 0x503))).wakeDie a .touch .touch))
        ∧ ((∀ f ∈ x.bullpen, ¬ (f.owner = t.owner ∧ f.size = t.size)) ∨ s.devRead t.owner t.entry ≠ t.value ∨ s.guardPa t.entry 8 true ≠ none →
            goes .firstTouchService (z.wakeDie a .touch .touch)))
    ∧ (let o := s.operand.b
       let at_ := x.listHead o (s.operand.c != 0)
       let size := if s.operand.c = 0 then 2 ^ 16 else 2 ^ 21
       let h := (s.devRead o at_).toNat
       let pa := h / 2 ^ 16 % 2 ^ 36 * 2 ^ 16
       at_ ≠ 0 → pa ≠ 0 → x.bullpen.length < 4096 → (x.bullpen.filter fun f => f.owner == o && f.size == size).length < 32 →
         goes .bullpenRefill (((s.devWrite o at_ (toBytes 8 ((s.devRead o pa).toNat / 2 ^ 16 % 2 ^ 36 * 2 ^ 16 + (h % 2 ^ 16 + 1) % 2 ^ 16))).modDie a fun y =>
           { y with bullpen := y.bullpen ++ [⟨o, size, pa⟩] }).unwriteFrame ⟨o, size, pa⟩))
    ∧ (shootLenOk w = true → s.sealedRange (x.shootOwn.toNat % 2 ^ 12) (x.shootVa.toNat % 2 ^ 56) (w.toNat % 2 ^ 41) = false →
        s.firmware.writes = true → a < s.dies.length →
        let r : Nat × Nat × Nat := (x.shootOwn.toNat % 2 ^ 12, x.shootVa.toNat % 2 ^ 56, w.toNat % 2 ^ 41)
        (x.shooting = none → goes .shootdownStart ((set fun y => { y with shootLen := w, shooting := some r }).shootTold r))
        ∧ (x.shooting ≠ none → goes .shootdownStart (set fun y => { y with shootLen := w, shootQueue := y.shootQueue ++ [r] })))
    ∧ (∀ r : Nat × Nat × Nat, ∃ (m : Message), s.shootTold r = { s with fabric := { s.fabric with
          sent := if s.fabric.routes = [] then s.fabric.sent else s.fabric.sent ++ [m]
          owed := s.fabric.owed ++ s.fabric.lost.map fun d => (d, m.payload) } }
        ∧ m.payload = toBytes 2 r.1 ++ toBytes 8 r.2.1 ++ toBytes 8 r.2.2)
    ∧ (∀ o va n, x.shooting = some (o, va, n) → s.fabric.routes = [] ∨ s.operand.c = 1 → s.remoteUse s.fabric.devid o va n = [] →
        (x.shootQueue = [] → goes .shootdownComplete ((s.shootNow o va n).modDie a fun y => { y with shooting := none }))
        ∧ ∀ r rest, x.shootQueue = r :: rest →
            goes .shootdownComplete (((s.shootNow o va n).modDie a fun y => { y with shooting := some r, shootQueue := rest }).shootTold r))
    ∧ (∀ o va n, x.shooting = some (o, va, n) → (s.fabric.routes ≠ [] ∧ s.operand.c ≠ 1) ∨ s.remoteUse s.fabric.devid o va n ≠ [] → goes .shootdownComplete s)
    ∧ (∀ o va n, (∀ c ∈ (s.shootNow o va n).clusters, (∀ e ∈ c.tlb, ¬ (e.owner = o ∧ overlaps e.base e.size va n = true))
          ∧ ∀ k ∈ c.cores, ∀ e ∈ k.tlb, ¬ (e.owner = o ∧ overlaps e.base e.size va n = true))
        ∧ ∀ p ∈ (s.shootNow o va n).squads, ∀ tm ∈ p.2.teams, ∀ k ∈ tm.win, k.2.kind ≠ 4 → ¬ (k.2.key = o ∧ overlaps k.2.pgBase k.2.pgSize va n = true))
    ∧ (a < s.dies.length → s.firmware.writes = true →
      (aget? x.mailboxes x.mbsel = none → goes .mailboxCreate (set fun y =>
        { y with mailboxes := aset y.mailboxes x.mbsel { live := true, key := x.mbkey }, mberr := false }))
      ∧ (aget? x.mailboxes x.mbsel ≠ none → goes .mailboxCreate (set fun y => { y with mberr := true }))
      ∧ (aget? x.mailboxes x.mbsel ≠ none → goes .mailboxDestroy
          ((set fun y => { y with mailboxes := adel y.mailboxes x.mbsel, mberr := false }).mailboxGone a x.mbsel))
      ∧ (aget? x.mailboxes x.mbsel = none → goes .mailboxDestroy (set fun y => { y with mberr := true })))
    ∧ (s.firmware.state = .probation → ∀ i ∈ [Instr.fdoneWrite, .shootdownStart, .mailboxCreate, .mailboxDestroy, .configRegWrite], goes i s)
    ∧ (let off := s.operand.b
       s.firmware.writes = true →
       (off < 0x8000 → goes .configRegWrite (set fun y => { y with roots := asetD 0 y.roots (off / 8) (w &&& 0x000F_FFFF_FFFF_F801#64) }))
       ∧ (0x10000 ≤ off → off < 0x20000 → off % 16 = 0 → goes .configRegWrite (set fun y => { y with flist0 := asetD 0 y.flist0 ((off - 0x10000) / 16) w }))
       ∧ (0x10000 ≤ off → off < 0x20000 → off % 16 ≠ 0 → goes .configRegWrite (set fun y => { y with flist1 := asetD 0 y.flist1 ((off - 0x10000) / 16) w }))
       ∧ (off = 0x30000 → goes .configRegWrite (set fun y => { y with shootOwn := w &&& 0xFFF#64 }))
       ∧ (off = 0x30008 → goes .configRegWrite (set fun y => { y with shootVa := w &&& 0x00FF_FFFF_FFFF_0000#64 }))
       ∧ (off = 0x30080 → goes .configRegWrite (set fun y => { y with fring := w &&& 0x000F_FFFF_FFFF_0FFF#64 }))
       ∧ (off = 0x40000 → goes .configRegWrite (set fun y => { y with mbsel := w.toNat % 256 }))
       ∧ (off = 0x40008 → goes .configRegWrite (set fun y => { y with mbkey := w })))
    ∧ (a ∈ s.badLines → goes .patrolScrub
        (({ s with badLines := s.badLines.filter (· != a), poison := if s.poison.contains a then s.poison else a :: s.poison } : State).tellHost
          (1 :: toBytes 8 (a * 128))))
    ∧ (a ∉ s.badLines → goes .patrolScrub s)
    ∧ (∀ k, s.nextQueued a = some k → goes .copyStart (s.modCopy k fun c => { c with state := .running }))
    ∧ (∀ cp sq, s.copy a = some cp → s.squad cp.q = some sq → cp.state = .running → cp.fault = false → cp.frozen = false →
        (∀ pre sl post, cp.slices = pre ++ sl :: post → (∀ y ∈ pre, y.done = true) → sl.done = false →
          (sl.started = true → goes .copyLineWrite (s.copyUnit a cp pre.length sl sq))
          ∧ (sl.started = false → goes .copyLineWrite (s.copyHeader a cp pre.length sl sq)))
        ∧ ((∀ y ∈ cp.slices, y.done = true) →
          (cp.huddle = none → goes .copyComplete (s.dropCopy a))
          ∧ ∀ h sq', cp.huddle = some h → (s.dropCopy a).squad cp.q = some sq' →
              (∀ hd, (sq'.huddle h).expect (-1) = some hd → goes .copyComplete ((s.dropCopy a).setHuddle cp.q h hd))
              ∧ ((sq'.huddle h).expect (-1) = none → goes .copyComplete ((s.dropCopy a).pendCopy cp.q ((cp.slices.getLast?.map (·.ctx)).getD 0) cp.tag
                  .huddleMismatch [BitVec.ofNat 64 h, BitVec.ofNat 64 cp.tag, 0, 0]))))

/-- R417, R421, R422, R425 to R430: what the steps of the Umpire, the hash engine, the digest log and the firmware do, when their conditions hold: a
violation gets its record, and the dispatch core releases or kills its master; a hash is done; the host consumes log records; an update goes through
its states. (The model's choices: the bytes of the event that tells the dispatch core of a record, notes/assumptions/69; the operands,
notes/assumptions/59; the firmware's steps, images and structure handed over, whose verification and versions are free values, notes/assumptions/70
and 16; what a release does, notes/assumptions/52.) -/
def Obligations.SecurityStepsTakeEffect : Prop :=
  ∀ s : State,
    let goes (i : Instr) (z : State) : Prop := exec i s = .next z
    let a := s.operand.a
    let f := s.firmware
    let put (i : Instr) (g : Firmware) : Prop := goes i { s with firmware := g }
    let accepted (image : List Byte) : Bool :=
      Config.rsaVerifies image && Config.slhVerifies image && decide (Config.fusedVersion ≤ Config.securityVersion image)
    (∀ v rest i, s.operand.w = 0 → (s.die a).violQ = v :: rest → (s.die a).violSlot = some i → goes .violationRecord
        ((s.modDie a fun x => { x with violQ := rest, viol := aset x.viol i v, violNext := (i + 1) % 256 }).event
          (toBytes 1 0xF0 ++ toBytes 1 a ++ toBytes 1 i)))
    ∧ (∀ v, aget? (s.die a).viol s.operand.b = some v → f.state = .active →
        let y := s.modDie a fun x => { x with viol := adel x.viol s.operand.b }
        let z : State := { s with dies := s.dies.map fun (x : Die) => { x with
          viol := x.viol.filter fun u => u.2.master != v.master, violQ := x.violQ.filter fun u => u.master != v.master } }
        (s.operand.w = 1 → goes .violationRecord (if y.stillNamed v.master then y else y.release v.master))
        ∧ (s.operand.w = 2 → goes .violationRecord (z.killMaster v.master a s.operand.b)))
    ∧ (∀ e, aget? s.seals a = some e → e.hashed = false → e.freeing = false → goes .sealHashDone
        { s with seals := aset s.seals a { e with hashed := true, hash := sha3 (s.sealedBytes e) }
                 firmware := { f with measurements := f.measurements ++ [sha384 (s.sealedBytes e)] } })
    ∧ (∀ o, aget? s.owners a = some o → o.num = a → o.logRead ≤ s.operand.w.toNat → s.operand.w.toNat ≤ o.logWrite →
        goes .logConsumeAdvance { s with owners := aset s.owners a { o with logRead := s.operand.w.toNat } })
    ∧ (s.up = true →
        let new := (s.operand.frame.map (·.data)).getD f.spare
        (f.state = .active → put .firmwareUpdate { f with state := .quiesce, spare := new })
        ∧ (f.state = .quiesce → put .firmwareUpdate { f with state := .check })
        ∧ (f.state = .check → put .firmwareUpdate
            { f with state := if accepted f.spare then .handover else .active, measurements := f.measurements ++ [sha384 f.spare] })
        ∧ (f.state = .handover → ∃ h : Handover, h.version = Config.stateVersion f.image
            ∧ h.lineup = ((upTo 3).flatMap fun d => (s.line d).map (·.id)) ∧ h.squads = s.squads.map (·.1)
            ∧ put .firmwareUpdate (if Config.acceptsVersion f.spare h.version then { f with state := .probation, since := s.now, handover := some h }
              else { f with state := .active })))
    ∧ (f.state = .probation →
        (s.now ≤ f.since + 50000000 → put .firmwareHeartbeat
          { f with state := .active, slot := 1 - f.slot, image := f.spare, spare := f.image, handover := none })
        ∧ (f.since + 50000000 < s.now → put .probationTimeout { f with state := .active, handover := none }))

/-- R221, R258, R366, R367, R372 to R376: what the steps of the Lineup, the distributor and the version store do, when their conditions hold: a task
becomes ready, rises, is placed or placed again, makes others leave, and retires; a quantum runs out; a cluster is cleared for an EXCL squad; a
version folds into home memory; a squad exits. (The model's choices: readiness, levels and their times in ns, notes/assumptions/47; the cluster that
is taken, 50; eviction and return, 24 and 25; EXCL, 51; the readers for which a version waits, and a late write to a sealed place, 46 and 52; the
end of squads and tasks, 23.) -/
def Obligations.TaskStepsTakeEffect : Prop :=
  ∀ s : State,
    let goes (i : Instr) (z : State) : Prop := exec i s = .next z
    let a := s.operand.a
    let gone (k : Nat) : Prop := ∀ u, s.task k = some u → u.phase = .retired
    let active : Prop := s.firmware.state = .active ∧ s.fatal = false
    (∀ t, s.task a = some t → t.id = a →
        (t.phase = .waiting → (∀ k ∈ t.deps, gone k) → s.scoreReady t = true →
          goes .taskReady (s.modTask a fun y => { y with phase := .ready, level := t.prio, entered := s.now, readyTime := s.now }))
        ∧ ((t.phase = .ready ∨ t.phase = .running ∧ t.requeue ≠ []) → t.level < 7 → t.entered + 2000000 ≤ s.now →
          goes .lineupRise (s.modTask a fun y => { y with level := y.level + 1, entered := y.entered + 2000000 }))
        ∧ (t.phase = .completed → t.killed = true ∨ t.uncommitted = false → goes .taskRetire (s.retireTask t)))
    ∧ (∀ t, s.lineHead a = some t → active → s.requeued t = none →
        let priv := s.operand.b == 1
        (t.excl = false → ∀ cl cores, s.preferred t (s.fitting t priv) = some (cl, cores) → t.image0.isSome = true →
          (t.placed ≠ 0 → goes .taskPlace (s.placeNext t.id cl cores s.now))
          ∧ (t.placed = 0 → goes .taskPlace ((s.begin t.id).placeNext t.id cl cores s.now)))
        ∧ (t.excl = false → s.preferred t (s.fitting t priv) = none → goes .taskPlace (s.evictFor t priv))
        ∧ (t.excl = true → goes .taskPlace (s.holdCluster t)))
    ∧ (∀ t i rest sq, s.lineHead a = some t → active → t.requeue = i :: rest → s.squad (t.keyBase + i) = some sq →
        let q := t.keyBase + i
        (s.fitsAgain q sq = true → goes .taskPlace (s.resumeSquad t.id q sq))
        ∧ (s.fitsAgain q sq = false → s.exclOther q sq.cluster = true → goes .taskPlace s)
        ∧ (s.fitsAgain q sq = false → s.exclOther q sq.cluster = false →
            (∀ z, s.makeRoom [sq.cluster] t.level (·.fitsAgain q sq) = some z → goes .taskPlace z)
            ∧ (s.makeRoom [sq.cluster] t.level (·.fitsAgain q sq) = none → goes .taskPlace s)))
    ∧ (∀ sq, s.squad a = some sq → sq.off = false →
        (sq.expired = true → (∀ tm ∈ sq.teams, tm.evicted = true) → (∀ cx ∈ sq.ctxs, cx.preempted = true ∨ cx.exited = true) →
          let z := (s.modSquad a fun x => { x with off := true }).repoint sq.cluster
          goes .quantumExpiry (({ z with serial := z.serial + 1 } : State).modTask sq.task fun y => { y with
            requeue := (y.requeue ++ [sq.instance_]).mergeSort fun i j => decide (i ≤ j), front := z.serial + 2, level := y.prio, entered := z.now }))
        ∧ (sq.expired = true → (∃ tm ∈ sq.teams, tm.evicted = false) ∨ (∃ cx ∈ sq.ctxs, cx.preempted = false ∧ cx.exited = false) →
            goes .quantumExpiry s)
        ∧ (∀ h, sq.expired = false → s.lineHead (sq.cluster / 44) = some h →
            let stuck : Prop := (s.requeued h = none ∧ h.excl = false ∧ s.fitting h false = [])
              ∨ ∃ q' sq', s.requeued h = some (q', sq') ∧ sq'.cluster = sq.cluster ∧ s.fitsAgain q' sq' = false
            (sq.placed + sq.quantum ≤ s.now → h.level = s.prioOf sq → stuck → goes .quantumExpiry (s.askSquad a))
            ∧ (¬ (sq.placed + sq.quantum ≤ s.now ∧ h.level = s.prioOf sq ∧ stuck) → goes .quantumExpiry s)))
    ∧ (∀ key, (s.cluster a).excl = some key →
        let held (p : Nat × Squad) : Prop := p.2.cluster = a ∧ (p.2.off = false ∨ ∃ x ∈ s.copies, x.2.q = p.1 ∧ (x.2.state = .queued ∨ x.2.state = .running))
        ((∃ p ∈ s.squads, held p) → goes .exclLoad (s.askDrained a))
        ∧ ((∀ p ∈ s.squads, ¬ held p) → active → s.squad key = none →
            let next := s.tasks.find? fun p => p.2.keyBase + p.2.placed == key && p.2.excl && p.2.phase == TaskPhase.ready
            (∀ k t cores, next = some (k, t) → s.fits t a false = some cores → goes .exclLoad (s.placeNext k a cores (s.cluster a).exclAt))
            ∧ (next = none → goes .exclLoad (s.modCluster a fun c => { c with excl := none }))))
    ∧ (∀ v, aget? s.versions a = some v → v.key = a → v.predicted = false → v.started = false → (∀ k ∈ v.writers ++ v.readers ++ v.after, gone k) →
        (∀ u ∈ s.versionsOf v.die v.owner, ¬ (u.key < v.key ∧ meets (u.lo, u.hi) (v.lo, v.hi) = true)) →
        goes .versionFold { s with versions := adel s.versions a })
    ∧ (∀ v l pa zor s', aget? s.versions a = some v → v.key = a → v.predicted = false → v.started = true → v.lo = l → v.hi = l + 1 →
        (∀ k ∈ v.writers ++ v.readers ++ v.after, gone k) →
        (∀ u ∈ s.versionsOf v.die v.owner, ¬ (u.key < v.key ∧ meets (u.lo, u.hi) (v.lo, v.hi) = true)) →
        s.homeLine v.die v.owner l = (some (pa, zor), s') →
        let copied (y : State) : State := y.writeMem v.owner zor pa (y.bytesAt v.owner false v.pa 128)
        let bad (y : State) : State := { y with poison := pa / 128 :: y.poison.filter (· != pa / 128) }
        let folded (y : State) : Prop := goes .versionFold { y with versions := adel y.versions a }
        (s'.guardPa pa 128 true = none → ∀ y,
          (s'.linesCheck v.owner false [v.pa / 128] = (.ok (), y) → folded (copied y))
          ∧ ∀ e, s'.linesCheck v.owner false [v.pa / 128] = (.error e, y) → folded (bad (copied y)))
        ∧ ∀ code p o, s'.guardPa pa 128 true = some (.violation code p o) → ∃ u, folded (s'.violate none u) ∧ u.code = code ∧ u.pa = p ∧ u.va = l * 128)
    ∧ (∀ sq, s.squad a = some sq → (∀ cx ∈ sq.ctxs, cx.exited = true ∧ cx.pending = [] ∧ cx.seq = []) → (∀ tm ∈ sq.teams, tm.ended = true) →
        (∀ p ∈ s.copies, p.2.q = a → p.2.state ≠ .queued ∧ p.2.state ≠ .running) →
        goes .squadExit ((s.reclaim a).modTask sq.task fun t => t.exit sq.instance_).wakeTasks)

/-- R299: a reclaimed squad leaves its cluster with its copies cancelled; memory and every other squad stay: its teams and their registers, and of each
of its contexts the scalar registers, CC and the PC, as all the rest of it. -/
def Obligations.AReclaimedSquadLeavesNothing : Prop :=
  ∀ (s : State) (q : Nat),
    (s.reclaim q).mem = s.mem ∧ (s.reclaim q).squad q = none ∧ (∀ p ∈ (s.reclaim q).copies, p ∈ s.copies)
    ∧ (∀ k ∈ s.copiesOf q, aget? (s.reclaim q).copies k = none)
    ∧ (∀ j, j ≠ q → (s.reclaim q).squad j = s.squad j)
    ∧ ∀ j c cx, j ≠ q → s.ctx j c = some cx → ∃ cx', (s.reclaim q).ctx j c = some cx' ∧ (∀ r, cx'.S r = cx.S r) ∧ cx'.cc = cx.cc ∧ cx'.pc = cx.pc

/-- R383, R386 to R389: SPEC_READY lets a task that may speculate enter the Lineup as pending at its depth; SPEC_VALIDATE squashes a pending task whose
prediction its retired producer belies and passes one whose sources have settled; SPEC_COMMIT of a passed task that has completed, or whose agent is
at an effect, drains its buffered writes, makes it committed, takes the readers' depths again, delivers what it held, and lets the tasks that this
makes ready enter the Lineup. A killed task does neither. (The model's reading: depths taken again at commit, entry into the Lineup again after a
squash and violations held until the commit, notes/assumptions/49; readiness and its time in ns, notes/assumptions/47.) -/
def Obligations.SpeculationStepsTakeEffect : Prop :=
  ∀ (s : State) (t : Task),
    let goes (i : Instr) (z : State) : Prop := exec i s = .next z
    let a := s.operand.a
    s.task a = some t → t.id = a →
      (s.canSpeculate t = true → t.producer = none → goes .specReady (s.modTask a fun y =>
        { y with phase := .ready, level := y.prio, entered := s.now, readyTime := s.now, specPhase := .pending, depth := s.depthOf t }))
      ∧ (∀ e u v, s.canSpeculate t = true → t.producer = some e → s.historyOf t = some (u, v) → goes .specReady ((s.modTask a fun y =>
        { y with phase := .ready, level := y.prio, entered := s.now, readyTime := s.now, specPhase := .pending, depth := s.depthOf t }).predict t u v))
      ∧ (t.uncommitted = true → t.specPhase = .pending → t.killed = false →
          (∀ e, t.producer = some e → s.gone e = true → s.predictionOk t = false → goes .specValidate (s.squash [a]).wakeTasks)
          ∧ ((∀ e, t.producer = some e → s.gone e = true ∧ s.predictionOk t = true) → (∀ k ∈ t.deps, s.settled k = true) → s.specSources t = [] →
              goes .specValidate (s.modTask a fun y => { y with specPhase := .passed })))
      ∧ (t.uncommitted = true → t.specPhase = .passed → t.killed = false →
          (t.phase = .completed ∨ s.atEffect t = true →
            let z := t.heldV.foldl (fun s v => s.violate none v)
              ((((s.drain t).freePredicted a).modTask a fun y => { y with specPhase := .committed, depth := 0, overlay := [], heldV := [], heldT := [] }).redepth)
            goes .specCommit ((s.fatalHeld a).foldl (fun s x => s.trapKill x.1 x.2.cause x.2.causeBits x.2.info) (z.wakeSpec a)).wakeTasks)
          ∧ (t.phase ≠ .completed → s.atEffect t = false → goes .specCommit s))
      ∧ (t.killed = true → goes .specCommit s ∧ goes .specValidate s)

/-- R364, R402 to R405, R419, R429: what a message of the host gets: in its turn it is performed and answered, or violates; a message already performed
is acknowledged and answered again; before bring-up ends, and when it is malformed, it is refused with statuses 4 and 5; one that names no
connection gets nothing once the package is up. (Acknowledgements, first sequence numbers, the order of the checks and the walking die are the
model's: notes/assumptions/60.) -/
def Obligations.HostMessagesAreAnswered : Prop :=
  ∀ (s : State) (f : HostFrame),
    let goes (i : Instr) (z : State) : Prop := exec i s = .next z
    let m := Message.parse f.data
    let d := m.addr.toNat % 4
    let o := ((recordWords m.payload).getD 3 0).toNat / 2 ^ 8 % 2 ^ 12
    let kinds : List (Instr × (Nat → Bool)) := [(.hostRead, fun k => k != 3 && k != 5 && k != 9 && k != 10), (.hostWrite, (· == 3)), (.launchFrame, (· == 5)),
      (.managementMessage, (· == 9)), (.spdmGetMeasurements, (· == 9))]
    s.operand.frame = some f → 32 ≤ f.data.length →
      (aget? s.conns m.conn = none → ∀ p ∈ kinds, p.2 m.kind = true →
        (s.up = false → m.kind ≠ 9 → goes p.1 { s with outbox := s.outbox ++ [(m.answer 4 []).encode] })
        ∧ (s.up = true ∨ m.kind = 9 → goes p.1 s))
      ∧ ∀ c, aget? s.conns m.conn = some c →
      (∀ p ∈ kinds, p.2 m.kind = true →
        (c.frozen = true → goes p.1 s)
        ∧ (c.frozen = false → m.seq < c.nextRx →
          (∀ r, c.replies.find? (fun r => r.seq == m.seq) = some r →
            let z := s.ack c.num m.seq
            goes p.1 { z with outbox := z.outbox ++ [r.encode] })
          ∧ ((∀ r ∈ c.replies, r.seq ≠ m.seq) → goes p.1 (s.ack c.num m.seq)))
        ∧ (c.frozen = false → c.nextRx < m.seq → goes p.1 s)
        ∧ (c.frozen = false → m.seq = c.nextRx → s.up = false → m.kind ≠ 9 → goes p.1 (s.answered c m 4 []))
        ∧ (c.frozen = false → m.seq = c.nextRx → s.up = true ∨ m.kind = 9 → m.consistent f.data = false → goes p.1 (s.answered c m 5 [])))
      ∧ (c.frozen = false → m.seq = c.nextRx → m.consistent f.data = true →
          (m.kind = 9 → goes .managementMessage (s.took c m).manage
            ∧ goes .spdmGetMeasurements ((s.took c m).send c.num 9 s.firmware.report))
          ∧ (s.up = true →
            (m.kind = 1 → ∀ e ps s1 bs s2,
              (hostParts c.owner { rd := true } 3 s m.addr.toNat m.len = (.error e, s1) → goes .hostRead (s1.hostEnd c m e))
              ∧ (hostParts c.owner { rd := true } 3 s m.addr.toNat m.len = (.ok ps, s1) →
                  (s1.hostGuard c.owner false ps = some e → goes .hostRead (s1.hostEnd c m e))
                  ∧ (s1.hostGuard c.owner false ps = none → hostBytes c.owner s1 ps = (.error e, s2) → goes .hostRead (s2.hostEnd c m e))
                  ∧ (s1.hostGuard c.owner false ps = none → hostBytes c.owner s1 ps = (.ok bs, s2) → goes .hostRead (s2.answered c m 0 bs))))
            ∧ (m.kind = 3 → ∀ e ps s1,
              (hostParts c.owner { wr := true } 3 s m.addr.toNat m.len = (.error e, s1) → goes .hostWrite (s1.hostEnd c m e))
              ∧ (hostParts c.owner { wr := true } 3 s m.addr.toNat m.len = (.ok ps, s1) →
                  (s1.hostGuard c.owner true ps = some e → goes .hostWrite (s1.hostEnd c m e))
                  ∧ (s1.hostGuard c.owner true ps = none → goes .hostWrite ((hostStore c.owner s1 ps m.payload).answered c m 0 []))))
            ∧ (m.kind = 5 →
              (d = 3 → goes .launchFrame (s.answered c m 4 []))
              ∧ (d ≠ 3 → o ≠ c.owner → goes .launchFrame (s.connViolation c m 3 d 0 0 o))
              ∧ (d ≠ 3 → o = c.owner → (s.die d).inbound.length < 64 → s.firmware.state = .active → goes .launchFrame
                  ((s.took c m).modDie d fun x => { x with inbound := x.inbound ++ [{ conn := c.num, seq := m.seq, record := m.payload }] }))
              ∧ (d ≠ 3 → o = c.owner → 64 ≤ (s.die d).inbound.length ∨ s.firmware.state ≠ .active → goes .launchFrame s))))

/-- R364, R400, R402, R403, R405, R417, R418, R429: what the steps of the dispatch core do without a message of the host to answer: admission of a
launch frame, acknowledgements, resending, the management channel, owners, bring-up, reset and the failure of a link. (The model's choices: the
operands that carry an owner's page tables and frame lists, notes/assumptions/61, and a management function, 62; the operands of POWER_ON and
HOST_RESET and the image that they start, whose verification is a free value, 56, 16 and 70; what an image in PROBATION leaves undone, 70; that the
acknowledgement of a message of kind 7 frees a slot of its owner's system-call ring, 60 and 68; the order in which an owner is retired, 63.) -/
def Obligations.DeviceManagementTakesEffect : Prop :=
  ∀ s : State,
    let goes (i : Instr) (z : State) : Prop := exec i s = .next z
    let a := s.operand.a
    let b := s.operand.b
    let w := s.operand.w
    let image := (s.operand.frame.map (·.data)).getD s.firmware.image
    let accepted : Prop := Config.rsaVerifies image = true ∧ Config.slhVerifies image = true ∧ Config.fusedVersion ≤ Config.securityVersion image
    (∀ fr rest, s.operand.frame = none → (s.die a).inbound = fr :: rest → s.firmware.state = .active → s.fatal = false →
      let out := s.modDie a fun x => { x with inbound := rest }
      let t := { s.draft a (recordWords fr.record) with conn := some fr.conn }
      let u := if 4 ≤ s.potential (s.draftDeps t) then { t with spec := false } else t
      (aget? s.conns fr.conn = none → goes .launchFrame out)
      ∧ (aget? s.conns fr.conn ≠ none →
        (∀ off, recordBad t = some off → goes .launchFrame (out.reply (fr.answer a 4 (toBytes 4 off))))
        ∧ (recordBad t = none → s.scoreBad t = true → goes .launchFrame (out.reply (fr.answer a 4 (toBytes 4 24))))
        ∧ (recordBad t = none → s.scoreBad t = false → 8192 ≤ s.tableUsed a → goes .launchFrame s)
        ∧ (recordBad t = none → s.scoreBad t = false → s.tableUsed a < 8192 →
            goes .launchFrame ((out.admitReady u).reply (fr.answer a 0 (toBytes 4 u.id))))))
    ∧ (∀ f c u, s.operand.frame = some f → 32 ≤ f.data.length → (Message.parse f.data).kind = 10 → (Message.parse f.data).consistent f.data = true →
        aget? s.conns (Message.parse f.data).conn = some c → c.unacked.find? (fun u => u.seq == (Message.parse f.data).seq) = some u → c.frozen = false →
        let z : State := { s with conns := aset s.conns c.num { c with unacked := c.unacked.filter (· != u) } }
        (u.kind ≠ 7 → goes .hostAck z) ∧ (u.kind = 7 → goes .hostAck (z.freeRing c.owner)))
    ∧ (∀ c u, aget? s.conns a = some c → c.unacked.find? (fun u => u.seq == w) = some u → c.frozen = false →
        goes .messageResend { s with outbox := s.outbox ++ [u.encode] })
    ∧ (s.operand.frame = none → goes .managementMessage s.manage
        ∧ ∃ m : Message, m.kind = 9 ∧ m.payload = s.firmware.report ∧ goes .spdmGetMeasurements { s with outbox := s.outbox ++ [m.encode] })
    ∧ (0 < a → a ≤ 4095 → aget? s.owners a = none → s.up = true → s.firmware.writes = true → 10 ≤ s.operand.c % 64 →
        ∃ z, goes .ownerCreate z ∧ z.keyGen = s.keyGen + 1 ∧ z.mem = s.mem
          ∧ aget? z.owners a = some { num := a, keyGen := s.keyGen + 1, logged := true, logBase := s.operand.c / 64 * 64, logCap := 2 ^ (s.operand.c % 64) }
          ∧ (∀ k, k ≠ a → aget? z.owners k = aget? s.owners k)
          ∧ ∀ d ∈ z.dies, aget 0 d.roots a = (w &&& 0x000F_FFFF_FFFF_F801#64) ∧ aget 0 d.flist0 a = BitVec.ofNat 64 b
            ∧ aget 0 d.flist1 a = BitVec.ofNat 64 (b / 2 ^ 64))
    ∧ (aget? s.owners a ≠ none → s.firmware.writes = true → ∃ z, goes .ownerRetire z ∧ aget? z.owners a = none ∧ (∀ p ∈ z.conns, p.2.owner ≠ a) ∧ (∀ p ∈ z.seals, p.2.owner ≠ a)
        ∧ ∀ c ∈ z.clusters, (∀ e ∈ c.tlb, e.owner ≠ a) ∧ ∀ k ∈ c.cores, ∀ e ∈ k.tlb, e.owner ≠ a)
    ∧ (s.firmware.writes = false → goes .ownerCreate s ∧ goes .ownerRetire s)
    ∧ (s.up = true ∨ s.firmware.closed = true → goes .powerOn s)
    ∧ (s.up = false → s.firmware.closed = false →
        (accepted → let z := s.bringUp image
          goes .powerOn z ∧ z.up = true ∧ z.firmware.state = .active ∧ z.firmware.image = image ∧ z.firmware.measurements = [sha384 image] ∧ z.mem = s.mem)
        ∧ (¬ accepted → goes .powerOn { s with firmware := { s.firmware with closed := true } }))
    ∧ (s.firmware.closed = true → goes .hostReset s)
    ∧ (s.firmware.closed = false → ∃ z, goes .hostReset z ∧ z.tasks = [] ∧ z.squads = [] ∧ z.conns = [] ∧ z.fatal = false
        ∧ (accepted → z.up = true ∧ z.firmware.closed = false) ∧ (¬ accepted → z.up = false ∧ z.firmware.closed = true))
    ∧ goes .flitCrcRetry s
    ∧ (s.fatal = false → ∃ z, goes .linkFailure z ∧ z.fatal = true)
    ∧ (s.fatal = true → goes .linkFailure s)

/-- R434 to R437, R442: a request of another package is performed at its target and its answer sent; the response to an outstanding request settles it,
and so does the passing of 1 ms without one, with the status unreachable; a shootdown notice of another package drops the windows on its range and
is answered once the requests through them have been. The package's own store to itself leaves no older copy in its cluster's L1. (Request codes and
statuses are the model's: notes/assumptions/66; the time-out of a request that its target's Umpire holds back, 67; when a notice is answered, 44 and
66.) -/
def Obligations.FabricStepsTakeEffect : Prop :=
  ∀ s : State,
    let goes (i : Instr) (z : State) : Prop := exec i s = .next z
    let fb := s.fabric
    let a := s.operand.a
    (∀ f, s.operand.frame = some f → f.conn ≠ fb.devid →
      let r := fabReqOf f
      let d := s.reqDie r.owner r.op r.addr
      (∀ n ∈ fb.owed, n.1 ≠ r.src) → s.srcFrozen r.src d = false → r.op ≠ 13 → s.fabGuard r (r.op != 0) = none →
        (r.op = 1 → goes .remoteRequest ((s.writeMem r.owner true r.addr (toBytes r.size (r.data.getD 0 0))).fabricAnswer r.src r.num 0 []))
        ∧ (∀ bs s', r.op = 0 → s.fabRead r = (.ok bs, s') → goes .remoteRequest (s'.fabricAnswer r.src r.num 0 bs))
        ∧ (∀ bs s', 2 ≤ r.op → r.op < 10 → s.fabRead r = (.ok bs, s') →
            goes .remoteRequest ((s'.writeMem r.owner true r.addr (toBytes r.size
              (atomNew (r.op - 2) ((NumTy.ofCode (r.data.getD 0 0)).getD .i32) (ofBytes bs) (r.data.getD 1 0)))).fabricAnswer r.src r.num 0 bs))
        ∧ (∀ bs s', r.op = 10 → s.fabRead r = (.ok bs, s') →
            (ofBytes bs = r.data.getD 1 0 →
              goes .remoteRequest ((s'.writeMem r.owner true r.addr (toBytes r.size (r.data.getD 2 0))).fabricAnswer r.src r.num 0 bs))
            ∧ (ofBytes bs ≠ r.data.getD 1 0 → goes .remoteRequest (s'.fabricAnswer r.src r.num 0 bs))))
    ∧ (∀ r, fb.out.find? (fun r => r.id == a) = some r → (∀ z ∈ fb.results, z.1 ≠ r.id) →
        (∀ f, s.operand.frame = some f → f.conn = r.dev → r.dev ≠ fb.devid →
          (f.kind ≠ 8 → goes .remoteResponse (s.settleReq r f.kind f.data)) ∧ (f.kind = 8 → goes .remoteResponse (s.fabWaits r.id)))
        ∧ (∀ st bs, r.dev = fb.devid → fb.answers.find? (fun z => z.1 == r.id) = some (r.id, st, bs) → goes .remoteResponse (s.settleReq r st bs))
        ∧ (r.dev ≠ fb.devid → r.held = false → (∀ z ∈ fb.waitingIn, z.1 ≠ fb.devid) → r.issued + 1000000 ≤ s.now → goes .remoteTimeout (s.settleReq r 1 []))
        ∧ (s.now < r.issued + 1000000 ∨ r.held = true → goes .remoteTimeout s))
    ∧ (∀ r, s.operand.frame = none → s.operand.b ≠ 1 → fb.out.find? (fun r => r.id == a) = some r → r.dev = fb.devid → r.op = 1 →
        s.reqSettled r.id = false → s.srcFrozen r.dev (s.reqDie (s.reqOwner r) r.op r.addr) = false →
        s.fabGuard { src := r.dev, num := r.id, owner := s.reqOwner r, op := r.op, addr := r.addr, size := r.size, data := r.data } true = none →
        goes .remoteRequest (((s.l1Forget r.cluster (s.reqOwner r) (r.addr / 128)).writeMem (s.reqOwner r) true r.addr
          (toBytes r.size (r.data.getD 0 0))).fabricAnswer r.dev r.id 0 []))
    ∧ (∀ f, s.operand.frame = some f → f.conn ≠ fb.devid → fb.notices = [] →
        let use := s.remoteUse f.conn f.owner f.addr.toNat f.len
        let dropped := s.squads.map fun p => (p.1, { p.2 with teams := p.2.teams.map fun tm => tm.dropWindows f.conn false f.owner f.addr.toNat f.len })
        (use = [] → ∃ m : Message, m.conn = f.conn ∧ m.seq = f.seq ∧
          goes .shootdownNotice { s with squads := dropped, fabric := { fb with sent := fb.sent ++ [m] } })
        ∧ (use ≠ [] → goes .shootdownNotice { s with squads := dropped, fabric := { fb with notices := [((f.conn, f.seq), use)] } }))

/-- R406, R408 to R414: what the passing of time and the steps of the operating points, the governor, the energy counters, the sensors and the
undervolting controller do. (Their operands and the sensors' numbers are the model's: notes/assumptions/64 and 65.) -/
def Obligations.PowerStepsTakeEffect : Prop :=
  ∀ s : State,
    let goes (i : Instr) (z : State) : Prop := exec i s = .next z
    let a := s.operand.a
    let b := s.operand.b
    let w := s.operand.w
    let p := s.power
    let k := (s.cluster a).power
    let put (g : Power) : State := { s with power := { g with governAt := s.now } }
    let set (f : ClusterPower → ClusterPower) : State := s.modCluster a fun c => { c with power := f c.power }
    (let f := w.toNat / 2 ^ 8 % 2 ^ 6
     let v := w.toNat % 2 ^ 6
     (s.firmware.writes = true → f ≤ 48 → v ≤ 60 → goes .opEntryWrite (set fun k => { k with points := k.points.set b (400 + 25 * f, 500 + 5 * v), under := if b = k.point then 0 else k.under }))
     ∧ (s.firmware.writes = true → 48 < f ∨ 60 < v → goes .opEntryWrite (set id))
     ∧ (s.firmware.writes = false → goes .opEntryWrite s))
    ∧ (s.squad a = none → goes .opointRecompute (s.repoint s.operand.c))
    ∧ (∀ sq t, s.squad a = some sq → s.task sq.task = some t →
        let fin := if b = 1 then w.toNat else sq.joinBy
        let req := (s.cluster sq.cluster).requiredPoint ((t.word 4).toNat % 2 ^ 48) s.now fin sq.opoint
        goes .opointRecompute ((s.modSquad a fun q => { q with joinBy := fin, required := req, hintAt := none }).repoint sq.cluster))
    ∧ (s.now < p.governAt + 1000000 → goes .governorInterval s)
    ∧ (p.governAt + 1000000 ≤ s.now →
        (2600 < a → 4 < p.ration → goes .governorInterval (put { p with ration := p.ration - 4 }))
        ∧ (2600 < a → p.ration ≤ 4 → goes .governorInterval (put { p with cap := p.cap - 1 }).repointAll)
        ∧ (a ≤ 2600 → b < 2470 → p.cap < 7 → goes .governorInterval (put { p with cap := p.cap + 1 }).repointAll)
        ∧ (a ≤ 2600 → b < 2470 → 7 ≤ p.cap → goes .governorInterval (put { p with ration := min 16 (p.ration + 4) }))
        ∧ (a ≤ 2600 → 2470 ≤ b → goes .governorInterval (put p)))
    ∧ (∀ q sq h, s.squad q = some sq → sq.hintAt = some h → h + 10000 ≤ s.now → ∃ sq', s.hintsDue.squad q = some sq' ∧ sq'.hintAt = none)
    ∧ (s.now / 1000000 ≤ p.energyAt → goes .energyUpdate s)
    ∧ (p.energyAt < s.now / 1000000 → ∃ z, goes .energyUpdate z ∧ z.power = { p with energyAt := s.now / 1000000 }
        ∧ ∀ k t, s.task k = some t → z.task k = some { t with energyRead := t.energy })
    ∧ (∀ k t cycles ns, s.task k = some t →
        let used (now n : Nat) : Nat := ((s.residences k).map fun cl => Config.energyUsed cl now n).sum
        let past := (s.now + ns) % 1000000
        (ns ≤ past → (s.tick cycles ns).task k = some { t with energy := t.energy + used s.now ns })
        ∧ (past < ns → (s.tick cycles ns).task k = some { t with
            energyRead := t.energy + used s.now (ns - past), energy := t.energy + used s.now (ns - past) + used (s.now + (ns - past)) past }))
    ∧ (let v := signed (w.toNat % 2 ^ 32) 32
       let med := signed (w.toNat / 2 ^ 32 % 2 ^ 32) 32
       let cl := a / 3
       let got := ((aget? p.sensors a).getD {}).sample v b (s.operand.c == 1) (if a < 396 ∧ a % 3 = 2 then none else some med)
       let z : State := { s with power := { p with sensors := aset p.sensors a got } }
       (a < 396 → z.failedOf [3 * cl, 3 * cl + 1, 3 * cl + 2] < 2 →
         (a % 3 = 2 → goes .sensorSample z)
         ∧ (∀ t, a % 3 ≠ 2 → z.temperature cl med = some t → goes .sensorSample (z.heatCluster cl t)))
       ∧ (396 ≤ a → a < 408 → p.halved.contains ((a - 396) / 4) = true → goes .sensorSample z)
       ∧ ∀ t, 115 ≤ t → (z.heatCluster cl t).fatal = true)
    ∧ (∀ since, aget? k.hot b = some (some since) → since + 10000000 ≤ s.now →
        goes .clampLift ((set fun k => { k with hot := adel k.hot b }).repoint a))
    ∧ (k.lockout = none → k.stepAt + 10000000 ≤ s.now → a < s.clusters.length →
        let stepped (u : Nat) : State := set fun k => { k with under := u, errors := 0, stepAt := s.now }
        (4 ≤ k.errors → goes .undervoltStep (stepped (k.under - 5)))
        ∧ (k.errors < 4 → 505 ≤ (s.cluster a).mv → goes .undervoltStep (stepped (k.under + 5)))
        ∧ (k.errors < 4 → (s.cluster a).mv < 505 → goes .undervoltStep (stepped k.under)))
    ∧ (k.event = true → ∀ ks : List Nat, (∀ t, t ∈ ks ↔ ∃ q ∈ s.squads, q.2.cluster = a ∧ q.2.off = false ∧ q.2.task = t) → ks.length ≤ 1 →
        let z := set fun k => { k with under := 0, errors := 0, event := false, lockout := some (s.now + 1000000000) }
        (ks = [] → goes .powerEvent z.wakeTasks) ∧ ∀ t, ks = [t] → goes .powerEvent (z.retryTask t).wakeTasks)
    ∧ (∀ t, k.lockout = some t → t ≤ s.now → a < s.clusters.length →
        goes .undervoltLockoutEnd (set fun k => { k with lockout := none, stepAt := s.now }))

/-- R19, R28, R35, R38, R41: every well-formed instruction has a word, and that word, at any address, decodes to it. -/
def Obligations.EncodedWordsDecodeToThemselves : Prop :=
  ∀ i : Instr, i.wf = true →
    ∃ w, encode i = some w ∧ decodeWord w = .ok i ∧ decodeTableWord 64 w.toNat = some i
      ∧ ∀ rest, decodeBytes (toBytes 8 w.toNat ++ rest) = .ok (i, rest)

/-- R38, R40, R41: a word that decodes is the word of the well-formed instruction it decodes to, so no two words decode alike. -/
def Obligations.DecodedWordsEncodeToThemselves : Prop := ∀ (w : DWord) (i : Instr), decodeWord w = .ok i → i.wf = true ∧ encode i = some w

/-- R28, R35, R38, R40, R41: the words that the spec's chapters write out decode to the instructions they stand for, one or more of each format, and
words that are no instruction are rejected by the cause of the first check that fails. -/
def Obligations.WordsWrittenOutDecode : Prop :=
  let reads (w : DWord) (i : Instr) : Prop := decodeWord w = .ok i
  let stops (w : DWord) (c : Cause) : Prop := decodeWord w = .error c
  reads 0x336A010203040000#64 (.ffma ⟨3, 10, 1, 2, 3, 4, 0, 0⟩) ∧ reads 0x3E0A010184000200#64 (.fcmp ⟨0, 10, 1, 1, 0x84, 0, 2, 0⟩)
  ∧ reads 0x5A00000100000000#64 (.menter ⟨0, 0, 0, 1, 0, 0, 0, 0⟩) ∧ reads 0x6100000000000C0A#64 (.setfmt ⟨0, 0, 0, 0, 0xC0A⟩)
  ∧ reads 0x6000000100020007#64 (.vote ⟨0, 0, 0, 1, 0x20007⟩) ∧ reads 0x6808051280000040#64 (.ldw ⟨0, 8, 5, 9, 2, 0, 0, 0x40⟩)
  ∧ reads 0x6C05040474400010#64 (.atom ⟨0, 5, 4, 2, 1, 3, 2, 0x400010⟩) ∧ reads 0x8008031014120000#64 (.mma ⟨0, 8, 3, 16, 20, 0x12, 0, 0⟩)
  ∧ reads 0x8409032809016000#64 (.tepi ⟨0, 9, 3, 40, 9, 1, 0x60, 0⟩) ∧ reads 0x840A02040200C000#64 (.tepiMem ⟨0, 10, 2, 4, 2, 0, 0xC0, 0⟩)
  ∧ reads 0x850E140800000100#64 (.tnew ⟨0, 14, 20, 8, 0, 0, 1, 0⟩) ∧ reads 0x900A0A0005130000#64 (.descend ⟨0, 10, 10, 0, 5, 0x13, 0, 0⟩)
  ∧ reads 0xB7100504FFFFFFFF#64 (.saddi ⟨1, 0, 5, 4, 0xFFFFFFFF⟩) ∧ reads 0xC920200000060001#64 (.recw ⟨2, 0, 0x20, 0, 6, 1⟩)
  ∧ reads 0xCF00010304020000#64 (.trans ⟨0, 0, 1, 3, 4, 2, 0⟩) ∧ reads 0xD468000000000000#64 (.sfence ⟨3, 1, 0, 0, 0, 0⟩)
  ∧ reads 0xD800006411010003#64 (.copy ⟨0, 0, 0, 100, 0x11, 1, 3⟩) ∧ reads 0xEB00150000010000#64 (.twaitAny ⟨0, 0, 21, 0, 0, 1, 0⟩)
  ∧ reads 0xEE000A1400CB0000#64 (.spnew ⟨0, 0, 10, 20, 0, 0xCB, 0⟩) ∧ reads 0xEE000A0A00590002#64 (.spnewAttach ⟨0, 0, 10, 10, 0, 0x59, 2⟩)
  ∧ reads 0xF0000B0C00020007#64 (.sealQ ⟨0, 0, 11, 12, 0, 2, 7⟩) ∧ reads 0xF700000500020000#64 (.eretTarget ⟨0, 0, 0, 5, 0, 2, 0⟩)
  ∧ reads 0xFB00000600010000#64 (.umprelKill ⟨0, 0, 0, 6, 0, 1, 0⟩)
  ∧ stops 0x1D00000000000000#64 .illegalLaneOpc ∧ stops 0xFE00000000000000#64 .illegalGenOpc ∧ stops 0xFF00000000000000#64 .illegalGenOpc
  ∧ stops 0xA0040A0B0C000000#64 .illegalType ∧ stops 0xA0D00A0B0C000000#64 .reservedField

/-- R19, R24, R40, R92, R201, R202, R213, R446: a step of a lane core on which no team has a header to decode goes on with a word that has started and
waits no longer; with none it runs, in the first cycle in which the core is free and some team that may issue has served its STALL count, what
decodes from the next word of the team that R202 picks: of a ganged pair whose words share the slot, the even team's with the odd one's slot counted
with it, and of one whose words differ, the team's whose turn it is; of a team on a pair whose both cores have passes of the word to issue, the
first core issues its own and the word runs when the other does. A step of a generator core that one context may use runs what decodes from the word
at that context's PC; a device step runs its meaning. (That the schedule of turns is plain data, and that a turn may let only some lanes of a region
word act, is the model's choice: notes/assumptions/1.) -/
def Obligations.AStepRunsTheDecodedInstruction : Prop :=
  ∀ (s : State) (ts : List Turn) (i : Instr),
    let z : State := { s with schedule := ts }
    let runs (x : Nat × Nat × Squad × Team) (y : State) : Prop :=
      ∀ b, x.2.2.2.buffer.head? = some b → decodeLane b.word = .ok i → step s = exec i { y with cur := some (.team x.1 x.2.1) }
    (s.up = true → s.fatal = false →
      (∀ cl core lim, (lim = none ∧ s.schedule = .lane cl core :: ts) ∨ (∃ n, lim = some n ∧ s.schedule = .lanePart cl core n :: ts) →
        let z := { z with limit := lim }
        let all := z.teamsOn cl core
        let cs := all.filter fun x => x.2.2.2.couldIssue
        let ds := cs.filter fun x => x.2.2.2.dueOn core
        (∀ x ∈ all, x.2.2.2.stopped = false → x.2.2.2.clause ≠ none) →
          (∀ pre x post, cs = pre ++ x :: post → (∀ y ∈ pre, y.2.2.2.started = none) → x.2.2.2.started ≠ none → runs x z)
          ∧ ((∀ x ∈ cs, x.2.2.2.started = none) → ∀ cyc x,
            let free (c : Nat) : Prop := (z.cluster cl).cycle ≤ c ∧ (((z.cluster cl).cores[core]?).map (·.busyUntil)).getD 0 ≤ c ∧ ∃ x ∈ ds, x.2.2.2.nextIssue ≤ c
            let ok := ds.filter fun x => x.2.2.2.nextIssue ≤ cyc
            let slot (t : Nat) (alone : Bool) : State := (z.countSlot core (gang x) t alone ok).modCluster cl fun c => { c with cycle := cyc }
            free cyc → (∀ c, free c → cyc ≤ c) → pickTeam core ok = some x →
              ((ok.filter fun y => gang y = gang x) = [x] →
                (x.2.2.2.halves = false → runs x (slot x.2.1 false))
                ∧ (x.2.2.2.halves = true →
                  let p := x.2.2.2.passesNow core
                  step s = .next (((slot x.2.1 false).modTeam x.1 x.2.1 fun y => { y with half := some (core, cyc + p) }).occupy cl core cyc p true)))
              ∧ (∀ a b, (ok.filter fun y => gang y = gang x) = [a, b] →
                (sameSlot a.2.2.2 b.2.2.2 = true → runs a ((slot a.2.1 false).takeSlot b.1 b.2.1 b.2.2.1 b.2.2.2 (laneInstr b.2.2.2.word)
                  (b.2.2.2.acting (b.2.2.2.word.extractLsb' 53 3))))
                ∧ (sameSlot a.2.2.2 b.2.2.2 = false → a.2.2.2.oddNext = false → runs a (slot a.2.1 true))
                ∧ (sameSlot a.2.2.2 b.2.2.2 = false → a.2.2.2.oddNext = true → runs b (slot b.2.1 true)))))
      ∧ (∀ cl q c sq cx w y, s.schedule = .gen cl :: ts →
        ((z.ctxsOn cl).filter fun x => z.trapDue x.1 x.2.1 || (!x.2.2.2.stopped && x.2.2.2.flagsIdle x.2.2.1.native)) = [(q, c, sq, cx)] →
        z.trapDue q c = false → cx.clause ≠ none →
        (z.modCluster cl fun k => { k with cycle := max k.cycle cx.nextIssue, rr := q * 16 + c }).fetchPc q c sq cx = .ok (w, y) → decodeGen w = .ok i →
          step s = exec i { y with cur := some (.ctx q c) }))
    ∧ (∀ x, s.schedule = .event i x :: ts → isWord i = false → i ≠ .illegalLaneOpc → i ≠ .illegalGenOpc →
        step s = exec i { z with operand := x })

/-- R417: after reset the package is closed until bring-up, with no owner, connection, task or squad, no violation and no fault pending, nothing listed
in memory, which is in canonical form, and 132 clusters on three dies; POWER_ON with an image that is accepted brings it up, and with another the
package fails closed. (What unlisted memory reads as is the model's choice: notes/assumptions/6. R417 says that no memory is mapped and no task
exists; that the other tables are empty, the roots and the registers zero, and the point 5 is notes/assumptions/8. That an image is accepted is a
free value: notes/assumptions/16 and 56.) -/
def Obligations.ResetLeavesTheDeviceClosed : Prop :=
  let s := State.reset
  s.up = false ∧ s.fatal = false ∧ s.mem = [] ∧ Memory.wf s.mem = true ∧ s.owners = [] ∧ s.conns = [] ∧ s.tasks = [] ∧ s.squads = [] ∧ s.copies = []
  ∧ s.dies.length = 3 ∧ s.clusters.length = 132 ∧ (∀ c ∈ s.clusters, c.cycle = 0 ∧ c.cores.length = 4 ∧ c.tlb = [] ∧ c.l1 = [] ∧ c.power.point = 5)
  ∧ (∀ d ∈ s.dies, d.faultQ = [] ∧ d.violQ = [] ∧ d.mailboxes = [] ∧ d.regions = [] ∧ d.roots = [])
  ∧ ∀ (f : HostFrame),
      let accepted : Prop := Config.rsaVerifies f.data = true ∧ Config.slhVerifies f.data = true ∧ Config.fusedVersion ≤ Config.securityVersion f.data
      ∃ z, exec .powerOn { s with operand := { frame := some f } } = .next z ∧ z.mem = [] ∧ z.tasks = []
        ∧ (accepted → z.up = true ∧ z.firmware.state = .active ∧ z.firmware.image = f.data) ∧ (¬ accepted → z.up = false ∧ z.firmware.closed = true)

/-- The memory's canonical form, addresses strictly rising and no byte listed that reads the same unlisted, is kept by every step. -/
def Obligations.EveryStepKeepsMemoryCanonical : Prop :=
  ∀ s s' : State, Memory.wf s.mem = true → step s = .next s' → Memory.wf s'.mem = true

/-- R24, R25, R73, R87, R88, R213, R446, R447: when a settled word retires, beside the effects already made only its own unit's cursor, completion
flags, hazards and wait, the flags and units that it held until then, and the issue times, change: memory, the registers, every other team and every
other context stay. -/
def Obligations.RetiringMovesOnlyTheCursor : Prop :=
  (∀ (s z : State) (q t : Nat) (sq sq' : Squad) (tm new : Team) (i : Instr) (ms : BitVec 3),
    LaneReady s q t sq tm i ms → z.squad q = some sq' → sq'.teams[t]? = some new →
      let r := z.retire q t sq tm i (tm.acting ms)
      r = { z with squads := r.squads, clusters := r.clusters, free := z.free + 1 }
      ∧ (∀ k, (r.cluster k) = { z.cluster k with cores := (r.cluster k).cores })
      ∧ (∀ k j, (k, j) ≠ (q, t) → r.team k j = z.team k j) ∧ (∀ k c, r.ctx k c = z.ctx k c)
      ∧ ∃ y, r.team q t = some y
        ∧ y = { new with hazards := y.hazards, busy := y.busy, buffer := new.buffer.drop 1, pos := new.pos + 1, clause := new.clause.bind Clause.advance
                         fflags := new.fflags ||| new.owedFlags, owedFlags := 0, lostTiles := [], awaits := [], inUnit := false, started := none, half := none, wrote := []
                         wait := none, todo := none, violating := 0, faulted := [], starved := false, nextIssue := y.nextIssue })
  ∧ ∀ (s z : State) (q c : Nat) (sq sq' : Squad) (cx new : Ctx) (i : Instr) (cnd : BitVec 4) (move : Ctx → Ctx),
    GenReady s q c sq cx i cnd → z.squad q = some sq' → sq'.ctxs[c]? = some new →
      (move = Ctx.advance ∨ (∃ pc, move = (·.jump pc)) ∨ ∃ pc k b, move = (·.resumeAt pc k b)) →
      let r := z.genRetire q c sq cx i move
      r = { z with squads := r.squads, free := z.free + 1 }
      ∧ (∀ k j, r.team k j = z.team k j) ∧ (∀ k j, (k, j) ≠ (q, c) → r.ctx k j = z.ctx k j)
      ∧ ∃ y, r.ctx q c = some y ∧ y = { move new with hazards := y.hazards, busy := y.busy, wrote := [], nextIssue := y.nextIssue }

/-- R44, R95, R99 to R118: whatever a lane word of the arithmetic, floating-point, conversion and cross-lane families comes to, whether it retires,
parks or waits, it changes no byte of memory, no other team, no scalar register, no mask, format or window, and of its own team's lane registers at
most the one, or for a 64-bit result the two, that D names. (The context that owns the team is there and has not exited: else a park ends its task,
R221.) -/
def Obligations.RegisterWordsChangeOnlyTheirDestination : Prop :=
  ∀ (s z : State) (q t : Nat) (sq : Squad) (tm : Team) (i : Instr) (d : Nat) (k : NumTy),
    let x (ms : BitVec 3) := laneIn s q t sq tm ms
    (∃ w : LR, d = w.d.toNat ∧ (i, k) ∈
        (([Instr.iadd w, .isub w, .imul w, .imulhi w, .imad w, .iadds w, .iabs w, .idiv w, .irem w, .imin w, .imax w, .andv w, .orv w, .xorv w, .andn w,
            .shl w, .shr w, .sar w, .rot w, .popc w, .clz w, .brev w, .bfx w, .bfi w, .mov w, .sel w, .fadd w, .fsub w, .fmul w, .ffma w, .fdiv w, .fsqrt w,
            .fmin w, .fmax w, .frcp w, .frsq w, .fexp2 w, .flog2 w, .ftanh w, .fsin w, .scaleb w, .shfl w, .lrot w, .lbcast w, .compact w, .lscan w,
            .lred w].map fun i => (i, (x w.ms).ty w.ty))
          ++ [(.imadw w, .i64), (.cvtf w, (x w.ms).cvtDst w), (.cvtif w, (x w.ms).cvtDst w), (.cvtfi w, (x w.ms).cvtDst w), (.fclass w, .n32),
            (.packmx w, .n32), (.packds w, .n32), (.unpkmx w, .f32), (.unpkds w, .f32)]))
    ∨ (∃ w : LI, d = w.d.toNat ∧ (i, k) ∈
        [Instr.ldi w, .iaddi w, .imuli w, .andi w, .ori w, .xori w, .shifti w, .faddi w, .fmuli w].map fun i => (i, (x w.ms).ty w.ty)) →
    s.cur = some (.team q t) → s.squad q = some sq → sq.teams[t]? = some tm →
    (∀ o, tm.owner = some o → ∃ cx, s.ctx o.1 o.2 = some cx ∧ cx.exited = false) →
    exec i s = .next z →
      z.mem = s.mem ∧ (∀ j n, (j, n) ≠ (q, t) → z.team j n = s.team j n)
      ∧ (∀ j c cx, s.ctx j c = some cx → ∃ y, z.ctx j c = some y ∧ y = { cx with pending := y.pending })
      ∧ ∃ new, z.team q t = some new ∧ new.masks = tm.masks ∧ new.fmtr = tm.fmtr ∧ new.stack = tm.stack ∧ new.win = tm.win ∧ new.sstep = tm.sstep
        ∧ (∀ r l, r ≠ d → (k.width = 64 → r ≠ d + 1) → new.V l r = tm.V l r)
end

