-- ==== Sys2Proof/Laws/State.lean ====
section
/-! SUPPORT. What each named update of the state leaves alone, one lemma per update and field. -/

namespace Sys2Proof.Machine


/-! ## setSquad -/

@[simp] theorem State.setSquad_cur (s : State) (q : Nat) (x : Squad) : (s.setSquad q x).cur = s.cur := rfl
@[simp] theorem State.setSquad_operand (s : State) (q : Nat) (x : Squad) : (s.setSquad q x).operand = s.operand := rfl
@[simp] theorem State.setSquad_limit (s : State) (q : Nat) (x : Squad) : (s.setSquad q x).limit = s.limit := rfl
@[simp] theorem State.setSquad_schedule (s : State) (q : Nat) (x : Squad) : (s.setSquad q x).schedule = s.schedule := rfl
@[simp] theorem State.setSquad_free (s : State) (q : Nat) (x : Squad) : (s.setSquad q x).free = s.free := rfl
@[simp] theorem State.setSquad_up (s : State) (q : Nat) (x : Squad) : (s.setSquad q x).up = s.up := rfl
@[simp] theorem State.setSquad_fatal (s : State) (q : Nat) (x : Squad) : (s.setSquad q x).fatal = s.fatal := rfl
@[simp] theorem State.setSquad_now (s : State) (q : Nat) (x : Squad) : (s.setSquad q x).now = s.now := rfl
@[simp] theorem State.setSquad_serial (s : State) (q : Nat) (x : Squad) : (s.setSquad q x).serial = s.serial := rfl
@[simp] theorem State.setSquad_mem (s : State) (q : Nat) (x : Squad) : (s.setSquad q x).mem = s.mem := rfl
@[simp] theorem State.setSquad_tags (s : State) (q : Nat) (x : Squad) : (s.setSquad q x).tags = s.tags := rfl
@[simp] theorem State.setSquad_zorFrames (s : State) (q : Nat) (x : Squad) : (s.setSquad q x).zorFrames = s.zorFrames := rfl
@[simp] theorem State.setSquad_zorWritten (s : State) (q : Nat) (x : Squad) : (s.setSquad q x).zorWritten = s.zorWritten := rfl
@[simp] theorem State.setSquad_badLines (s : State) (q : Nat) (x : Squad) : (s.setSquad q x).badLines = s.badLines := rfl
@[simp] theorem State.setSquad_poison (s : State) (q : Nat) (x : Squad) : (s.setSquad q x).poison = s.poison := rfl
@[simp] theorem State.setSquad_dies (s : State) (q : Nat) (x : Squad) : (s.setSquad q x).dies = s.dies := rfl
@[simp] theorem State.setSquad_clusters (s : State) (q : Nat) (x : Squad) : (s.setSquad q x).clusters = s.clusters := rfl
@[simp] theorem State.setSquad_nextSquad (s : State) (q : Nat) (x : Squad) : (s.setSquad q x).nextSquad = s.nextSquad := rfl
@[simp] theorem State.setSquad_copies (s : State) (q : Nat) (x : Squad) : (s.setSquad q x).copies = s.copies := rfl
@[simp] theorem State.setSquad_nextCopy (s : State) (q : Nat) (x : Squad) : (s.setSquad q x).nextCopy = s.nextCopy := rfl
@[simp] theorem State.setSquad_tasks (s : State) (q : Nat) (x : Squad) : (s.setSquad q x).tasks = s.tasks := rfl
@[simp] theorem State.setSquad_streams (s : State) (q : Nat) (x : Squad) : (s.setSquad q x).streams = s.streams := rfl
@[simp] theorem State.setSquad_versions (s : State) (q : Nat) (x : Squad) : (s.setSquad q x).versions = s.versions := rfl
@[simp] theorem State.setSquad_nextVersion (s : State) (q : Nat) (x : Squad) : (s.setSquad q x).nextVersion = s.nextVersion := rfl
@[simp] theorem State.setSquad_poolNext (s : State) (q : Nat) (x : Squad) : (s.setSquad q x).poolNext = s.poolNext := rfl
@[simp] theorem State.setSquad_seals (s : State) (q : Nat) (x : Squad) : (s.setSquad q x).seals = s.seals := rfl
@[simp] theorem State.setSquad_owners (s : State) (q : Nat) (x : Squad) : (s.setSquad q x).owners = s.owners := rfl
@[simp] theorem State.setSquad_conns (s : State) (q : Nat) (x : Squad) : (s.setSquad q x).conns = s.conns := rfl
@[simp] theorem State.setSquad_outbox (s : State) (q : Nat) (x : Squad) : (s.setSquad q x).outbox = s.outbox := rfl
@[simp] theorem State.setSquad_keyGen (s : State) (q : Nat) (x : Squad) : (s.setSquad q x).keyGen = s.keyGen := rfl
@[simp] theorem State.setSquad_ddr (s : State) (q : Nat) (x : Squad) : (s.setSquad q x).ddr = s.ddr := rfl
@[simp] theorem State.setSquad_tagsNative (s : State) (q : Nat) (x : Squad) : (s.setSquad q x).tagsNative = s.tagsNative := rfl
@[simp] theorem State.setSquad_firmware (s : State) (q : Nat) (x : Squad) : (s.setSquad q x).firmware = s.firmware := rfl
@[simp] theorem State.setSquad_power (s : State) (q : Nat) (x : Squad) : (s.setSquad q x).power = s.power := rfl
@[simp] theorem State.setSquad_fabric (s : State) (q : Nat) (x : Squad) : (s.setSquad q x).fabric = s.fabric := rfl
@[simp] theorem State.setSquad_saves (s : State) (q : Nat) (x : Squad) : (s.setSquad q x).saves = s.saves := rfl
@[simp] theorem State.setSquad_events (s : State) (q : Nat) (x : Squad) : (s.setSquad q x).events = s.events := rfl

/-! ## modSquad -/

@[simp] theorem State.modSquad_cur (s : State) (q : Nat) (f : Squad → Squad) : (s.modSquad q f).cur = s.cur := by
  unfold State.modSquad; split <;> rfl
@[simp] theorem State.modSquad_operand (s : State) (q : Nat) (f : Squad → Squad) : (s.modSquad q f).operand = s.operand := by
  unfold State.modSquad; split <;> rfl
@[simp] theorem State.modSquad_limit (s : State) (q : Nat) (f : Squad → Squad) : (s.modSquad q f).limit = s.limit := by
  unfold State.modSquad; split <;> rfl
@[simp] theorem State.modSquad_schedule (s : State) (q : Nat) (f : Squad → Squad) : (s.modSquad q f).schedule = s.schedule := by
  unfold State.modSquad; split <;> rfl
@[simp] theorem State.modSquad_free (s : State) (q : Nat) (f : Squad → Squad) : (s.modSquad q f).free = s.free := by
  unfold State.modSquad; split <;> rfl
@[simp] theorem State.modSquad_up (s : State) (q : Nat) (f : Squad → Squad) : (s.modSquad q f).up = s.up := by
  unfold State.modSquad; split <;> rfl
@[simp] theorem State.modSquad_fatal (s : State) (q : Nat) (f : Squad → Squad) : (s.modSquad q f).fatal = s.fatal := by
  unfold State.modSquad; split <;> rfl
@[simp] theorem State.modSquad_now (s : State) (q : Nat) (f : Squad → Squad) : (s.modSquad q f).now = s.now := by
  unfold State.modSquad; split <;> rfl
@[simp] theorem State.modSquad_serial (s : State) (q : Nat) (f : Squad → Squad) : (s.modSquad q f).serial = s.serial := by
  unfold State.modSquad; split <;> rfl
@[simp] theorem State.modSquad_mem (s : State) (q : Nat) (f : Squad → Squad) : (s.modSquad q f).mem = s.mem := by
  unfold State.modSquad; split <;> rfl
@[simp] theorem State.modSquad_tags (s : State) (q : Nat) (f : Squad → Squad) : (s.modSquad q f).tags = s.tags := by
  unfold State.modSquad; split <;> rfl
@[simp] theorem State.modSquad_zorFrames (s : State) (q : Nat) (f : Squad → Squad) : (s.modSquad q f).zorFrames = s.zorFrames := by
  unfold State.modSquad; split <;> rfl
@[simp] theorem State.modSquad_zorWritten (s : State) (q : Nat) (f : Squad → Squad) : (s.modSquad q f).zorWritten = s.zorWritten := by
  unfold State.modSquad; split <;> rfl
@[simp] theorem State.modSquad_badLines (s : State) (q : Nat) (f : Squad → Squad) : (s.modSquad q f).badLines = s.badLines := by
  unfold State.modSquad; split <;> rfl
@[simp] theorem State.modSquad_poison (s : State) (q : Nat) (f : Squad → Squad) : (s.modSquad q f).poison = s.poison := by
  unfold State.modSquad; split <;> rfl
@[simp] theorem State.modSquad_dies (s : State) (q : Nat) (f : Squad → Squad) : (s.modSquad q f).dies = s.dies := by
  unfold State.modSquad; split <;> rfl
@[simp] theorem State.modSquad_clusters (s : State) (q : Nat) (f : Squad → Squad) : (s.modSquad q f).clusters = s.clusters := by
  unfold State.modSquad; split <;> rfl
@[simp] theorem State.modSquad_nextSquad (s : State) (q : Nat) (f : Squad → Squad) : (s.modSquad q f).nextSquad = s.nextSquad := by
  unfold State.modSquad; split <;> rfl
@[simp] theorem State.modSquad_copies (s : State) (q : Nat) (f : Squad → Squad) : (s.modSquad q f).copies = s.copies := by
  unfold State.modSquad; split <;> rfl
@[simp] theorem State.modSquad_nextCopy (s : State) (q : Nat) (f : Squad → Squad) : (s.modSquad q f).nextCopy = s.nextCopy := by
  unfold State.modSquad; split <;> rfl
@[simp] theorem State.modSquad_tasks (s : State) (q : Nat) (f : Squad → Squad) : (s.modSquad q f).tasks = s.tasks := by
  unfold State.modSquad; split <;> rfl
@[simp] theorem State.modSquad_streams (s : State) (q : Nat) (f : Squad → Squad) : (s.modSquad q f).streams = s.streams := by
  unfold State.modSquad; split <;> rfl
@[simp] theorem State.modSquad_versions (s : State) (q : Nat) (f : Squad → Squad) : (s.modSquad q f).versions = s.versions := by
  unfold State.modSquad; split <;> rfl
@[simp] theorem State.modSquad_nextVersion (s : State) (q : Nat) (f : Squad → Squad) : (s.modSquad q f).nextVersion = s.nextVersion := by
  unfold State.modSquad; split <;> rfl
@[simp] theorem State.modSquad_poolNext (s : State) (q : Nat) (f : Squad → Squad) : (s.modSquad q f).poolNext = s.poolNext := by
  unfold State.modSquad; split <;> rfl
@[simp] theorem State.modSquad_seals (s : State) (q : Nat) (f : Squad → Squad) : (s.modSquad q f).seals = s.seals := by
  unfold State.modSquad; split <;> rfl
@[simp] theorem State.modSquad_owners (s : State) (q : Nat) (f : Squad → Squad) : (s.modSquad q f).owners = s.owners := by
  unfold State.modSquad; split <;> rfl
@[simp] theorem State.modSquad_conns (s : State) (q : Nat) (f : Squad → Squad) : (s.modSquad q f).conns = s.conns := by
  unfold State.modSquad; split <;> rfl
@[simp] theorem State.modSquad_outbox (s : State) (q : Nat) (f : Squad → Squad) : (s.modSquad q f).outbox = s.outbox := by
  unfold State.modSquad; split <;> rfl
@[simp] theorem State.modSquad_keyGen (s : State) (q : Nat) (f : Squad → Squad) : (s.modSquad q f).keyGen = s.keyGen := by
  unfold State.modSquad; split <;> rfl
@[simp] theorem State.modSquad_ddr (s : State) (q : Nat) (f : Squad → Squad) : (s.modSquad q f).ddr = s.ddr := by
  unfold State.modSquad; split <;> rfl
@[simp] theorem State.modSquad_tagsNative (s : State) (q : Nat) (f : Squad → Squad) : (s.modSquad q f).tagsNative = s.tagsNative := by
  unfold State.modSquad; split <;> rfl
@[simp] theorem State.modSquad_firmware (s : State) (q : Nat) (f : Squad → Squad) : (s.modSquad q f).firmware = s.firmware := by
  unfold State.modSquad; split <;> rfl
@[simp] theorem State.modSquad_power (s : State) (q : Nat) (f : Squad → Squad) : (s.modSquad q f).power = s.power := by
  unfold State.modSquad; split <;> rfl
@[simp] theorem State.modSquad_fabric (s : State) (q : Nat) (f : Squad → Squad) : (s.modSquad q f).fabric = s.fabric := by
  unfold State.modSquad; split <;> rfl
@[simp] theorem State.modSquad_saves (s : State) (q : Nat) (f : Squad → Squad) : (s.modSquad q f).saves = s.saves := by
  unfold State.modSquad; split <;> rfl
@[simp] theorem State.modSquad_events (s : State) (q : Nat) (f : Squad → Squad) : (s.modSquad q f).events = s.events := by
  unfold State.modSquad; split <;> rfl

/-! ## modTeam -/

@[simp] theorem State.modTeam_cur (s : State) (q t : Nat) (f : Team → Team) : (s.modTeam q t f).cur = s.cur := State.modSquad_cur _ _ _
@[simp] theorem State.modTeam_operand (s : State) (q t : Nat) (f : Team → Team) : (s.modTeam q t f).operand = s.operand := State.modSquad_operand _ _ _
@[simp] theorem State.modTeam_limit (s : State) (q t : Nat) (f : Team → Team) : (s.modTeam q t f).limit = s.limit := State.modSquad_limit _ _ _
@[simp] theorem State.modTeam_schedule (s : State) (q t : Nat) (f : Team → Team) : (s.modTeam q t f).schedule = s.schedule := State.modSquad_schedule _ _ _
@[simp] theorem State.modTeam_free (s : State) (q t : Nat) (f : Team → Team) : (s.modTeam q t f).free = s.free := State.modSquad_free _ _ _
@[simp] theorem State.modTeam_up (s : State) (q t : Nat) (f : Team → Team) : (s.modTeam q t f).up = s.up := State.modSquad_up _ _ _
@[simp] theorem State.modTeam_fatal (s : State) (q t : Nat) (f : Team → Team) : (s.modTeam q t f).fatal = s.fatal := State.modSquad_fatal _ _ _
@[simp] theorem State.modTeam_now (s : State) (q t : Nat) (f : Team → Team) : (s.modTeam q t f).now = s.now := State.modSquad_now _ _ _
@[simp] theorem State.modTeam_serial (s : State) (q t : Nat) (f : Team → Team) : (s.modTeam q t f).serial = s.serial := State.modSquad_serial _ _ _
@[simp] theorem State.modTeam_mem (s : State) (q t : Nat) (f : Team → Team) : (s.modTeam q t f).mem = s.mem := State.modSquad_mem _ _ _
@[simp] theorem State.modTeam_tags (s : State) (q t : Nat) (f : Team → Team) : (s.modTeam q t f).tags = s.tags := State.modSquad_tags _ _ _
@[simp] theorem State.modTeam_zorFrames (s : State) (q t : Nat) (f : Team → Team) : (s.modTeam q t f).zorFrames = s.zorFrames := State.modSquad_zorFrames _ _ _
@[simp] theorem State.modTeam_zorWritten (s : State) (q t : Nat) (f : Team → Team) : (s.modTeam q t f).zorWritten = s.zorWritten := State.modSquad_zorWritten _ _ _
@[simp] theorem State.modTeam_badLines (s : State) (q t : Nat) (f : Team → Team) : (s.modTeam q t f).badLines = s.badLines := State.modSquad_badLines _ _ _
@[simp] theorem State.modTeam_poison (s : State) (q t : Nat) (f : Team → Team) : (s.modTeam q t f).poison = s.poison := State.modSquad_poison _ _ _
@[simp] theorem State.modTeam_dies (s : State) (q t : Nat) (f : Team → Team) : (s.modTeam q t f).dies = s.dies := State.modSquad_dies _ _ _
@[simp] theorem State.modTeam_clusters (s : State) (q t : Nat) (f : Team → Team) : (s.modTeam q t f).clusters = s.clusters := State.modSquad_clusters _ _ _
@[simp] theorem State.modTeam_nextSquad (s : State) (q t : Nat) (f : Team → Team) : (s.modTeam q t f).nextSquad = s.nextSquad := State.modSquad_nextSquad _ _ _
@[simp] theorem State.modTeam_copies (s : State) (q t : Nat) (f : Team → Team) : (s.modTeam q t f).copies = s.copies := State.modSquad_copies _ _ _
@[simp] theorem State.modTeam_nextCopy (s : State) (q t : Nat) (f : Team → Team) : (s.modTeam q t f).nextCopy = s.nextCopy := State.modSquad_nextCopy _ _ _
@[simp] theorem State.modTeam_tasks (s : State) (q t : Nat) (f : Team → Team) : (s.modTeam q t f).tasks = s.tasks := State.modSquad_tasks _ _ _
@[simp] theorem State.modTeam_streams (s : State) (q t : Nat) (f : Team → Team) : (s.modTeam q t f).streams = s.streams := State.modSquad_streams _ _ _
@[simp] theorem State.modTeam_versions (s : State) (q t : Nat) (f : Team → Team) : (s.modTeam q t f).versions = s.versions := State.modSquad_versions _ _ _
@[simp] theorem State.modTeam_nextVersion (s : State) (q t : Nat) (f : Team → Team) : (s.modTeam q t f).nextVersion = s.nextVersion := State.modSquad_nextVersion _ _ _
@[simp] theorem State.modTeam_poolNext (s : State) (q t : Nat) (f : Team → Team) : (s.modTeam q t f).poolNext = s.poolNext := State.modSquad_poolNext _ _ _
@[simp] theorem State.modTeam_seals (s : State) (q t : Nat) (f : Team → Team) : (s.modTeam q t f).seals = s.seals := State.modSquad_seals _ _ _
@[simp] theorem State.modTeam_owners (s : State) (q t : Nat) (f : Team → Team) : (s.modTeam q t f).owners = s.owners := State.modSquad_owners _ _ _
@[simp] theorem State.modTeam_conns (s : State) (q t : Nat) (f : Team → Team) : (s.modTeam q t f).conns = s.conns := State.modSquad_conns _ _ _
@[simp] theorem State.modTeam_outbox (s : State) (q t : Nat) (f : Team → Team) : (s.modTeam q t f).outbox = s.outbox := State.modSquad_outbox _ _ _
@[simp] theorem State.modTeam_keyGen (s : State) (q t : Nat) (f : Team → Team) : (s.modTeam q t f).keyGen = s.keyGen := State.modSquad_keyGen _ _ _
@[simp] theorem State.modTeam_ddr (s : State) (q t : Nat) (f : Team → Team) : (s.modTeam q t f).ddr = s.ddr := State.modSquad_ddr _ _ _
@[simp] theorem State.modTeam_tagsNative (s : State) (q t : Nat) (f : Team → Team) : (s.modTeam q t f).tagsNative = s.tagsNative := State.modSquad_tagsNative _ _ _
@[simp] theorem State.modTeam_firmware (s : State) (q t : Nat) (f : Team → Team) : (s.modTeam q t f).firmware = s.firmware := State.modSquad_firmware _ _ _
@[simp] theorem State.modTeam_power (s : State) (q t : Nat) (f : Team → Team) : (s.modTeam q t f).power = s.power := State.modSquad_power _ _ _
@[simp] theorem State.modTeam_fabric (s : State) (q t : Nat) (f : Team → Team) : (s.modTeam q t f).fabric = s.fabric := State.modSquad_fabric _ _ _
@[simp] theorem State.modTeam_saves (s : State) (q t : Nat) (f : Team → Team) : (s.modTeam q t f).saves = s.saves := State.modSquad_saves _ _ _
@[simp] theorem State.modTeam_events (s : State) (q t : Nat) (f : Team → Team) : (s.modTeam q t f).events = s.events := State.modSquad_events _ _ _

/-! ## modCtx -/

@[simp] theorem State.modCtx_cur (s : State) (q c : Nat) (f : Ctx → Ctx) : (s.modCtx q c f).cur = s.cur := State.modSquad_cur _ _ _
@[simp] theorem State.modCtx_operand (s : State) (q c : Nat) (f : Ctx → Ctx) : (s.modCtx q c f).operand = s.operand := State.modSquad_operand _ _ _
@[simp] theorem State.modCtx_limit (s : State) (q c : Nat) (f : Ctx → Ctx) : (s.modCtx q c f).limit = s.limit := State.modSquad_limit _ _ _
@[simp] theorem State.modCtx_schedule (s : State) (q c : Nat) (f : Ctx → Ctx) : (s.modCtx q c f).schedule = s.schedule := State.modSquad_schedule _ _ _
@[simp] theorem State.modCtx_free (s : State) (q c : Nat) (f : Ctx → Ctx) : (s.modCtx q c f).free = s.free := State.modSquad_free _ _ _
@[simp] theorem State.modCtx_up (s : State) (q c : Nat) (f : Ctx → Ctx) : (s.modCtx q c f).up = s.up := State.modSquad_up _ _ _
@[simp] theorem State.modCtx_fatal (s : State) (q c : Nat) (f : Ctx → Ctx) : (s.modCtx q c f).fatal = s.fatal := State.modSquad_fatal _ _ _
@[simp] theorem State.modCtx_now (s : State) (q c : Nat) (f : Ctx → Ctx) : (s.modCtx q c f).now = s.now := State.modSquad_now _ _ _
@[simp] theorem State.modCtx_serial (s : State) (q c : Nat) (f : Ctx → Ctx) : (s.modCtx q c f).serial = s.serial := State.modSquad_serial _ _ _
@[simp] theorem State.modCtx_mem (s : State) (q c : Nat) (f : Ctx → Ctx) : (s.modCtx q c f).mem = s.mem := State.modSquad_mem _ _ _
@[simp] theorem State.modCtx_tags (s : State) (q c : Nat) (f : Ctx → Ctx) : (s.modCtx q c f).tags = s.tags := State.modSquad_tags _ _ _
@[simp] theorem State.modCtx_zorFrames (s : State) (q c : Nat) (f : Ctx → Ctx) : (s.modCtx q c f).zorFrames = s.zorFrames := State.modSquad_zorFrames _ _ _
@[simp] theorem State.modCtx_zorWritten (s : State) (q c : Nat) (f : Ctx → Ctx) : (s.modCtx q c f).zorWritten = s.zorWritten := State.modSquad_zorWritten _ _ _
@[simp] theorem State.modCtx_badLines (s : State) (q c : Nat) (f : Ctx → Ctx) : (s.modCtx q c f).badLines = s.badLines := State.modSquad_badLines _ _ _
@[simp] theorem State.modCtx_poison (s : State) (q c : Nat) (f : Ctx → Ctx) : (s.modCtx q c f).poison = s.poison := State.modSquad_poison _ _ _
@[simp] theorem State.modCtx_dies (s : State) (q c : Nat) (f : Ctx → Ctx) : (s.modCtx q c f).dies = s.dies := State.modSquad_dies _ _ _
@[simp] theorem State.modCtx_clusters (s : State) (q c : Nat) (f : Ctx → Ctx) : (s.modCtx q c f).clusters = s.clusters := State.modSquad_clusters _ _ _
@[simp] theorem State.modCtx_nextSquad (s : State) (q c : Nat) (f : Ctx → Ctx) : (s.modCtx q c f).nextSquad = s.nextSquad := State.modSquad_nextSquad _ _ _
@[simp] theorem State.modCtx_copies (s : State) (q c : Nat) (f : Ctx → Ctx) : (s.modCtx q c f).copies = s.copies := State.modSquad_copies _ _ _
@[simp] theorem State.modCtx_nextCopy (s : State) (q c : Nat) (f : Ctx → Ctx) : (s.modCtx q c f).nextCopy = s.nextCopy := State.modSquad_nextCopy _ _ _
@[simp] theorem State.modCtx_tasks (s : State) (q c : Nat) (f : Ctx → Ctx) : (s.modCtx q c f).tasks = s.tasks := State.modSquad_tasks _ _ _
@[simp] theorem State.modCtx_streams (s : State) (q c : Nat) (f : Ctx → Ctx) : (s.modCtx q c f).streams = s.streams := State.modSquad_streams _ _ _
@[simp] theorem State.modCtx_versions (s : State) (q c : Nat) (f : Ctx → Ctx) : (s.modCtx q c f).versions = s.versions := State.modSquad_versions _ _ _
@[simp] theorem State.modCtx_nextVersion (s : State) (q c : Nat) (f : Ctx → Ctx) : (s.modCtx q c f).nextVersion = s.nextVersion := State.modSquad_nextVersion _ _ _
@[simp] theorem State.modCtx_poolNext (s : State) (q c : Nat) (f : Ctx → Ctx) : (s.modCtx q c f).poolNext = s.poolNext := State.modSquad_poolNext _ _ _
@[simp] theorem State.modCtx_seals (s : State) (q c : Nat) (f : Ctx → Ctx) : (s.modCtx q c f).seals = s.seals := State.modSquad_seals _ _ _
@[simp] theorem State.modCtx_owners (s : State) (q c : Nat) (f : Ctx → Ctx) : (s.modCtx q c f).owners = s.owners := State.modSquad_owners _ _ _
@[simp] theorem State.modCtx_conns (s : State) (q c : Nat) (f : Ctx → Ctx) : (s.modCtx q c f).conns = s.conns := State.modSquad_conns _ _ _
@[simp] theorem State.modCtx_outbox (s : State) (q c : Nat) (f : Ctx → Ctx) : (s.modCtx q c f).outbox = s.outbox := State.modSquad_outbox _ _ _
@[simp] theorem State.modCtx_keyGen (s : State) (q c : Nat) (f : Ctx → Ctx) : (s.modCtx q c f).keyGen = s.keyGen := State.modSquad_keyGen _ _ _
@[simp] theorem State.modCtx_ddr (s : State) (q c : Nat) (f : Ctx → Ctx) : (s.modCtx q c f).ddr = s.ddr := State.modSquad_ddr _ _ _
@[simp] theorem State.modCtx_tagsNative (s : State) (q c : Nat) (f : Ctx → Ctx) : (s.modCtx q c f).tagsNative = s.tagsNative := State.modSquad_tagsNative _ _ _
@[simp] theorem State.modCtx_firmware (s : State) (q c : Nat) (f : Ctx → Ctx) : (s.modCtx q c f).firmware = s.firmware := State.modSquad_firmware _ _ _
@[simp] theorem State.modCtx_power (s : State) (q c : Nat) (f : Ctx → Ctx) : (s.modCtx q c f).power = s.power := State.modSquad_power _ _ _
@[simp] theorem State.modCtx_fabric (s : State) (q c : Nat) (f : Ctx → Ctx) : (s.modCtx q c f).fabric = s.fabric := State.modSquad_fabric _ _ _
@[simp] theorem State.modCtx_saves (s : State) (q c : Nat) (f : Ctx → Ctx) : (s.modCtx q c f).saves = s.saves := State.modSquad_saves _ _ _
@[simp] theorem State.modCtx_events (s : State) (q c : Nat) (f : Ctx → Ctx) : (s.modCtx q c f).events = s.events := State.modSquad_events _ _ _

/-! ## modCluster -/

@[simp] theorem State.modCluster_cur (s : State) (cl : Nat) (f : Cluster → Cluster) : (s.modCluster cl f).cur = s.cur := rfl
@[simp] theorem State.modCluster_operand (s : State) (cl : Nat) (f : Cluster → Cluster) : (s.modCluster cl f).operand = s.operand := rfl
@[simp] theorem State.modCluster_limit (s : State) (cl : Nat) (f : Cluster → Cluster) : (s.modCluster cl f).limit = s.limit := rfl
@[simp] theorem State.modCluster_schedule (s : State) (cl : Nat) (f : Cluster → Cluster) : (s.modCluster cl f).schedule = s.schedule := rfl
@[simp] theorem State.modCluster_free (s : State) (cl : Nat) (f : Cluster → Cluster) : (s.modCluster cl f).free = s.free := rfl
@[simp] theorem State.modCluster_up (s : State) (cl : Nat) (f : Cluster → Cluster) : (s.modCluster cl f).up = s.up := rfl
@[simp] theorem State.modCluster_fatal (s : State) (cl : Nat) (f : Cluster → Cluster) : (s.modCluster cl f).fatal = s.fatal := rfl
@[simp] theorem State.modCluster_now (s : State) (cl : Nat) (f : Cluster → Cluster) : (s.modCluster cl f).now = s.now := rfl
@[simp] theorem State.modCluster_serial (s : State) (cl : Nat) (f : Cluster → Cluster) : (s.modCluster cl f).serial = s.serial := rfl
@[simp] theorem State.modCluster_mem (s : State) (cl : Nat) (f : Cluster → Cluster) : (s.modCluster cl f).mem = s.mem := rfl
@[simp] theorem State.modCluster_tags (s : State) (cl : Nat) (f : Cluster → Cluster) : (s.modCluster cl f).tags = s.tags := rfl
@[simp] theorem State.modCluster_zorFrames (s : State) (cl : Nat) (f : Cluster → Cluster) : (s.modCluster cl f).zorFrames = s.zorFrames := rfl
@[simp] theorem State.modCluster_zorWritten (s : State) (cl : Nat) (f : Cluster → Cluster) : (s.modCluster cl f).zorWritten = s.zorWritten := rfl
@[simp] theorem State.modCluster_badLines (s : State) (cl : Nat) (f : Cluster → Cluster) : (s.modCluster cl f).badLines = s.badLines := rfl
@[simp] theorem State.modCluster_poison (s : State) (cl : Nat) (f : Cluster → Cluster) : (s.modCluster cl f).poison = s.poison := rfl
@[simp] theorem State.modCluster_dies (s : State) (cl : Nat) (f : Cluster → Cluster) : (s.modCluster cl f).dies = s.dies := rfl
@[simp] theorem State.modCluster_squads (s : State) (cl : Nat) (f : Cluster → Cluster) : (s.modCluster cl f).squads = s.squads := rfl
@[simp] theorem State.modCluster_nextSquad (s : State) (cl : Nat) (f : Cluster → Cluster) : (s.modCluster cl f).nextSquad = s.nextSquad := rfl
@[simp] theorem State.modCluster_copies (s : State) (cl : Nat) (f : Cluster → Cluster) : (s.modCluster cl f).copies = s.copies := rfl
@[simp] theorem State.modCluster_nextCopy (s : State) (cl : Nat) (f : Cluster → Cluster) : (s.modCluster cl f).nextCopy = s.nextCopy := rfl
@[simp] theorem State.modCluster_tasks (s : State) (cl : Nat) (f : Cluster → Cluster) : (s.modCluster cl f).tasks = s.tasks := rfl
@[simp] theorem State.modCluster_streams (s : State) (cl : Nat) (f : Cluster → Cluster) : (s.modCluster cl f).streams = s.streams := rfl
@[simp] theorem State.modCluster_versions (s : State) (cl : Nat) (f : Cluster → Cluster) : (s.modCluster cl f).versions = s.versions := rfl
@[simp] theorem State.modCluster_nextVersion (s : State) (cl : Nat) (f : Cluster → Cluster) : (s.modCluster cl f).nextVersion = s.nextVersion := rfl
@[simp] theorem State.modCluster_poolNext (s : State) (cl : Nat) (f : Cluster → Cluster) : (s.modCluster cl f).poolNext = s.poolNext := rfl
@[simp] theorem State.modCluster_seals (s : State) (cl : Nat) (f : Cluster → Cluster) : (s.modCluster cl f).seals = s.seals := rfl
@[simp] theorem State.modCluster_owners (s : State) (cl : Nat) (f : Cluster → Cluster) : (s.modCluster cl f).owners = s.owners := rfl
@[simp] theorem State.modCluster_conns (s : State) (cl : Nat) (f : Cluster → Cluster) : (s.modCluster cl f).conns = s.conns := rfl
@[simp] theorem State.modCluster_outbox (s : State) (cl : Nat) (f : Cluster → Cluster) : (s.modCluster cl f).outbox = s.outbox := rfl
@[simp] theorem State.modCluster_keyGen (s : State) (cl : Nat) (f : Cluster → Cluster) : (s.modCluster cl f).keyGen = s.keyGen := rfl
@[simp] theorem State.modCluster_ddr (s : State) (cl : Nat) (f : Cluster → Cluster) : (s.modCluster cl f).ddr = s.ddr := rfl
@[simp] theorem State.modCluster_tagsNative (s : State) (cl : Nat) (f : Cluster → Cluster) : (s.modCluster cl f).tagsNative = s.tagsNative := rfl
@[simp] theorem State.modCluster_firmware (s : State) (cl : Nat) (f : Cluster → Cluster) : (s.modCluster cl f).firmware = s.firmware := rfl
@[simp] theorem State.modCluster_power (s : State) (cl : Nat) (f : Cluster → Cluster) : (s.modCluster cl f).power = s.power := rfl
@[simp] theorem State.modCluster_fabric (s : State) (cl : Nat) (f : Cluster → Cluster) : (s.modCluster cl f).fabric = s.fabric := rfl
@[simp] theorem State.modCluster_saves (s : State) (cl : Nat) (f : Cluster → Cluster) : (s.modCluster cl f).saves = s.saves := rfl
@[simp] theorem State.modCluster_events (s : State) (cl : Nat) (f : Cluster → Cluster) : (s.modCluster cl f).events = s.events := rfl

/-! ## modCore -/

@[simp] theorem State.modCore_cur (s : State) (cl k : Nat) (f : LaneCore → LaneCore) : (s.modCore cl k f).cur = s.cur := rfl
@[simp] theorem State.modCore_operand (s : State) (cl k : Nat) (f : LaneCore → LaneCore) : (s.modCore cl k f).operand = s.operand := rfl
@[simp] theorem State.modCore_limit (s : State) (cl k : Nat) (f : LaneCore → LaneCore) : (s.modCore cl k f).limit = s.limit := rfl
@[simp] theorem State.modCore_schedule (s : State) (cl k : Nat) (f : LaneCore → LaneCore) : (s.modCore cl k f).schedule = s.schedule := rfl
@[simp] theorem State.modCore_free (s : State) (cl k : Nat) (f : LaneCore → LaneCore) : (s.modCore cl k f).free = s.free := rfl
@[simp] theorem State.modCore_up (s : State) (cl k : Nat) (f : LaneCore → LaneCore) : (s.modCore cl k f).up = s.up := rfl
@[simp] theorem State.modCore_fatal (s : State) (cl k : Nat) (f : LaneCore → LaneCore) : (s.modCore cl k f).fatal = s.fatal := rfl
@[simp] theorem State.modCore_now (s : State) (cl k : Nat) (f : LaneCore → LaneCore) : (s.modCore cl k f).now = s.now := rfl
@[simp] theorem State.modCore_serial (s : State) (cl k : Nat) (f : LaneCore → LaneCore) : (s.modCore cl k f).serial = s.serial := rfl
@[simp] theorem State.modCore_mem (s : State) (cl k : Nat) (f : LaneCore → LaneCore) : (s.modCore cl k f).mem = s.mem := rfl
@[simp] theorem State.modCore_tags (s : State) (cl k : Nat) (f : LaneCore → LaneCore) : (s.modCore cl k f).tags = s.tags := rfl
@[simp] theorem State.modCore_zorFrames (s : State) (cl k : Nat) (f : LaneCore → LaneCore) : (s.modCore cl k f).zorFrames = s.zorFrames := rfl
@[simp] theorem State.modCore_zorWritten (s : State) (cl k : Nat) (f : LaneCore → LaneCore) : (s.modCore cl k f).zorWritten = s.zorWritten := rfl
@[simp] theorem State.modCore_badLines (s : State) (cl k : Nat) (f : LaneCore → LaneCore) : (s.modCore cl k f).badLines = s.badLines := rfl
@[simp] theorem State.modCore_poison (s : State) (cl k : Nat) (f : LaneCore → LaneCore) : (s.modCore cl k f).poison = s.poison := rfl
@[simp] theorem State.modCore_dies (s : State) (cl k : Nat) (f : LaneCore → LaneCore) : (s.modCore cl k f).dies = s.dies := rfl
@[simp] theorem State.modCore_squads (s : State) (cl k : Nat) (f : LaneCore → LaneCore) : (s.modCore cl k f).squads = s.squads := rfl
@[simp] theorem State.modCore_nextSquad (s : State) (cl k : Nat) (f : LaneCore → LaneCore) : (s.modCore cl k f).nextSquad = s.nextSquad := rfl
@[simp] theorem State.modCore_copies (s : State) (cl k : Nat) (f : LaneCore → LaneCore) : (s.modCore cl k f).copies = s.copies := rfl
@[simp] theorem State.modCore_nextCopy (s : State) (cl k : Nat) (f : LaneCore → LaneCore) : (s.modCore cl k f).nextCopy = s.nextCopy := rfl
@[simp] theorem State.modCore_tasks (s : State) (cl k : Nat) (f : LaneCore → LaneCore) : (s.modCore cl k f).tasks = s.tasks := rfl
@[simp] theorem State.modCore_streams (s : State) (cl k : Nat) (f : LaneCore → LaneCore) : (s.modCore cl k f).streams = s.streams := rfl
@[simp] theorem State.modCore_versions (s : State) (cl k : Nat) (f : LaneCore → LaneCore) : (s.modCore cl k f).versions = s.versions := rfl
@[simp] theorem State.modCore_nextVersion (s : State) (cl k : Nat) (f : LaneCore → LaneCore) : (s.modCore cl k f).nextVersion = s.nextVersion := rfl
@[simp] theorem State.modCore_poolNext (s : State) (cl k : Nat) (f : LaneCore → LaneCore) : (s.modCore cl k f).poolNext = s.poolNext := rfl
@[simp] theorem State.modCore_seals (s : State) (cl k : Nat) (f : LaneCore → LaneCore) : (s.modCore cl k f).seals = s.seals := rfl
@[simp] theorem State.modCore_owners (s : State) (cl k : Nat) (f : LaneCore → LaneCore) : (s.modCore cl k f).owners = s.owners := rfl
@[simp] theorem State.modCore_conns (s : State) (cl k : Nat) (f : LaneCore → LaneCore) : (s.modCore cl k f).conns = s.conns := rfl
@[simp] theorem State.modCore_outbox (s : State) (cl k : Nat) (f : LaneCore → LaneCore) : (s.modCore cl k f).outbox = s.outbox := rfl
@[simp] theorem State.modCore_keyGen (s : State) (cl k : Nat) (f : LaneCore → LaneCore) : (s.modCore cl k f).keyGen = s.keyGen := rfl
@[simp] theorem State.modCore_ddr (s : State) (cl k : Nat) (f : LaneCore → LaneCore) : (s.modCore cl k f).ddr = s.ddr := rfl
@[simp] theorem State.modCore_tagsNative (s : State) (cl k : Nat) (f : LaneCore → LaneCore) : (s.modCore cl k f).tagsNative = s.tagsNative := rfl
@[simp] theorem State.modCore_firmware (s : State) (cl k : Nat) (f : LaneCore → LaneCore) : (s.modCore cl k f).firmware = s.firmware := rfl
@[simp] theorem State.modCore_power (s : State) (cl k : Nat) (f : LaneCore → LaneCore) : (s.modCore cl k f).power = s.power := rfl
@[simp] theorem State.modCore_fabric (s : State) (cl k : Nat) (f : LaneCore → LaneCore) : (s.modCore cl k f).fabric = s.fabric := rfl
@[simp] theorem State.modCore_saves (s : State) (cl k : Nat) (f : LaneCore → LaneCore) : (s.modCore cl k f).saves = s.saves := rfl
@[simp] theorem State.modCore_events (s : State) (cl k : Nat) (f : LaneCore → LaneCore) : (s.modCore cl k f).events = s.events := rfl

/-! ## modDie -/

@[simp] theorem State.modDie_cur (s : State) (d : Nat) (f : Die → Die) : (s.modDie d f).cur = s.cur := rfl
@[simp] theorem State.modDie_operand (s : State) (d : Nat) (f : Die → Die) : (s.modDie d f).operand = s.operand := rfl
@[simp] theorem State.modDie_limit (s : State) (d : Nat) (f : Die → Die) : (s.modDie d f).limit = s.limit := rfl
@[simp] theorem State.modDie_schedule (s : State) (d : Nat) (f : Die → Die) : (s.modDie d f).schedule = s.schedule := rfl
@[simp] theorem State.modDie_free (s : State) (d : Nat) (f : Die → Die) : (s.modDie d f).free = s.free := rfl
@[simp] theorem State.modDie_up (s : State) (d : Nat) (f : Die → Die) : (s.modDie d f).up = s.up := rfl
@[simp] theorem State.modDie_fatal (s : State) (d : Nat) (f : Die → Die) : (s.modDie d f).fatal = s.fatal := rfl
@[simp] theorem State.modDie_now (s : State) (d : Nat) (f : Die → Die) : (s.modDie d f).now = s.now := rfl
@[simp] theorem State.modDie_serial (s : State) (d : Nat) (f : Die → Die) : (s.modDie d f).serial = s.serial := rfl
@[simp] theorem State.modDie_mem (s : State) (d : Nat) (f : Die → Die) : (s.modDie d f).mem = s.mem := rfl
@[simp] theorem State.modDie_tags (s : State) (d : Nat) (f : Die → Die) : (s.modDie d f).tags = s.tags := rfl
@[simp] theorem State.modDie_zorFrames (s : State) (d : Nat) (f : Die → Die) : (s.modDie d f).zorFrames = s.zorFrames := rfl
@[simp] theorem State.modDie_zorWritten (s : State) (d : Nat) (f : Die → Die) : (s.modDie d f).zorWritten = s.zorWritten := rfl
@[simp] theorem State.modDie_badLines (s : State) (d : Nat) (f : Die → Die) : (s.modDie d f).badLines = s.badLines := rfl
@[simp] theorem State.modDie_poison (s : State) (d : Nat) (f : Die → Die) : (s.modDie d f).poison = s.poison := rfl
@[simp] theorem State.modDie_clusters (s : State) (d : Nat) (f : Die → Die) : (s.modDie d f).clusters = s.clusters := rfl
@[simp] theorem State.modDie_squads (s : State) (d : Nat) (f : Die → Die) : (s.modDie d f).squads = s.squads := rfl
@[simp] theorem State.modDie_nextSquad (s : State) (d : Nat) (f : Die → Die) : (s.modDie d f).nextSquad = s.nextSquad := rfl
@[simp] theorem State.modDie_copies (s : State) (d : Nat) (f : Die → Die) : (s.modDie d f).copies = s.copies := rfl
@[simp] theorem State.modDie_nextCopy (s : State) (d : Nat) (f : Die → Die) : (s.modDie d f).nextCopy = s.nextCopy := rfl
@[simp] theorem State.modDie_tasks (s : State) (d : Nat) (f : Die → Die) : (s.modDie d f).tasks = s.tasks := rfl
@[simp] theorem State.modDie_streams (s : State) (d : Nat) (f : Die → Die) : (s.modDie d f).streams = s.streams := rfl
@[simp] theorem State.modDie_versions (s : State) (d : Nat) (f : Die → Die) : (s.modDie d f).versions = s.versions := rfl
@[simp] theorem State.modDie_nextVersion (s : State) (d : Nat) (f : Die → Die) : (s.modDie d f).nextVersion = s.nextVersion := rfl
@[simp] theorem State.modDie_poolNext (s : State) (d : Nat) (f : Die → Die) : (s.modDie d f).poolNext = s.poolNext := rfl
@[simp] theorem State.modDie_seals (s : State) (d : Nat) (f : Die → Die) : (s.modDie d f).seals = s.seals := rfl
@[simp] theorem State.modDie_owners (s : State) (d : Nat) (f : Die → Die) : (s.modDie d f).owners = s.owners := rfl
@[simp] theorem State.modDie_conns (s : State) (d : Nat) (f : Die → Die) : (s.modDie d f).conns = s.conns := rfl
@[simp] theorem State.modDie_outbox (s : State) (d : Nat) (f : Die → Die) : (s.modDie d f).outbox = s.outbox := rfl
@[simp] theorem State.modDie_keyGen (s : State) (d : Nat) (f : Die → Die) : (s.modDie d f).keyGen = s.keyGen := rfl
@[simp] theorem State.modDie_ddr (s : State) (d : Nat) (f : Die → Die) : (s.modDie d f).ddr = s.ddr := rfl
@[simp] theorem State.modDie_tagsNative (s : State) (d : Nat) (f : Die → Die) : (s.modDie d f).tagsNative = s.tagsNative := rfl
@[simp] theorem State.modDie_firmware (s : State) (d : Nat) (f : Die → Die) : (s.modDie d f).firmware = s.firmware := rfl
@[simp] theorem State.modDie_power (s : State) (d : Nat) (f : Die → Die) : (s.modDie d f).power = s.power := rfl
@[simp] theorem State.modDie_fabric (s : State) (d : Nat) (f : Die → Die) : (s.modDie d f).fabric = s.fabric := rfl
@[simp] theorem State.modDie_saves (s : State) (d : Nat) (f : Die → Die) : (s.modDie d f).saves = s.saves := rfl
@[simp] theorem State.modDie_events (s : State) (d : Nat) (f : Die → Die) : (s.modDie d f).events = s.events := rfl

/-! ## modTask -/

@[simp] theorem State.modTask_cur (s : State) (k : Nat) (f : Task → Task) : (s.modTask k f).cur = s.cur := by
  unfold State.modTask; split <;> rfl
@[simp] theorem State.modTask_operand (s : State) (k : Nat) (f : Task → Task) : (s.modTask k f).operand = s.operand := by
  unfold State.modTask; split <;> rfl
@[simp] theorem State.modTask_limit (s : State) (k : Nat) (f : Task → Task) : (s.modTask k f).limit = s.limit := by
  unfold State.modTask; split <;> rfl
@[simp] theorem State.modTask_schedule (s : State) (k : Nat) (f : Task → Task) : (s.modTask k f).schedule = s.schedule := by
  unfold State.modTask; split <;> rfl
@[simp] theorem State.modTask_free (s : State) (k : Nat) (f : Task → Task) : (s.modTask k f).free = s.free := by
  unfold State.modTask; split <;> rfl
@[simp] theorem State.modTask_up (s : State) (k : Nat) (f : Task → Task) : (s.modTask k f).up = s.up := by
  unfold State.modTask; split <;> rfl
@[simp] theorem State.modTask_fatal (s : State) (k : Nat) (f : Task → Task) : (s.modTask k f).fatal = s.fatal := by
  unfold State.modTask; split <;> rfl
@[simp] theorem State.modTask_now (s : State) (k : Nat) (f : Task → Task) : (s.modTask k f).now = s.now := by
  unfold State.modTask; split <;> rfl
@[simp] theorem State.modTask_serial (s : State) (k : Nat) (f : Task → Task) : (s.modTask k f).serial = s.serial := by
  unfold State.modTask; split <;> rfl
@[simp] theorem State.modTask_mem (s : State) (k : Nat) (f : Task → Task) : (s.modTask k f).mem = s.mem := by
  unfold State.modTask; split <;> rfl
@[simp] theorem State.modTask_tags (s : State) (k : Nat) (f : Task → Task) : (s.modTask k f).tags = s.tags := by
  unfold State.modTask; split <;> rfl
@[simp] theorem State.modTask_zorFrames (s : State) (k : Nat) (f : Task → Task) : (s.modTask k f).zorFrames = s.zorFrames := by
  unfold State.modTask; split <;> rfl
@[simp] theorem State.modTask_zorWritten (s : State) (k : Nat) (f : Task → Task) : (s.modTask k f).zorWritten = s.zorWritten := by
  unfold State.modTask; split <;> rfl
@[simp] theorem State.modTask_badLines (s : State) (k : Nat) (f : Task → Task) : (s.modTask k f).badLines = s.badLines := by
  unfold State.modTask; split <;> rfl
@[simp] theorem State.modTask_poison (s : State) (k : Nat) (f : Task → Task) : (s.modTask k f).poison = s.poison := by
  unfold State.modTask; split <;> rfl
@[simp] theorem State.modTask_dies (s : State) (k : Nat) (f : Task → Task) : (s.modTask k f).dies = s.dies := by
  unfold State.modTask; split <;> rfl
@[simp] theorem State.modTask_clusters (s : State) (k : Nat) (f : Task → Task) : (s.modTask k f).clusters = s.clusters := by
  unfold State.modTask; split <;> rfl
@[simp] theorem State.modTask_squads (s : State) (k : Nat) (f : Task → Task) : (s.modTask k f).squads = s.squads := by
  unfold State.modTask; split <;> rfl
@[simp] theorem State.modTask_nextSquad (s : State) (k : Nat) (f : Task → Task) : (s.modTask k f).nextSquad = s.nextSquad := by
  unfold State.modTask; split <;> rfl
@[simp] theorem State.modTask_copies (s : State) (k : Nat) (f : Task → Task) : (s.modTask k f).copies = s.copies := by
  unfold State.modTask; split <;> rfl
@[simp] theorem State.modTask_nextCopy (s : State) (k : Nat) (f : Task → Task) : (s.modTask k f).nextCopy = s.nextCopy := by
  unfold State.modTask; split <;> rfl
@[simp] theorem State.modTask_streams (s : State) (k : Nat) (f : Task → Task) : (s.modTask k f).streams = s.streams := by
  unfold State.modTask; split <;> rfl
@[simp] theorem State.modTask_versions (s : State) (k : Nat) (f : Task → Task) : (s.modTask k f).versions = s.versions := by
  unfold State.modTask; split <;> rfl
@[simp] theorem State.modTask_nextVersion (s : State) (k : Nat) (f : Task → Task) : (s.modTask k f).nextVersion = s.nextVersion := by
  unfold State.modTask; split <;> rfl
@[simp] theorem State.modTask_poolNext (s : State) (k : Nat) (f : Task → Task) : (s.modTask k f).poolNext = s.poolNext := by
  unfold State.modTask; split <;> rfl
@[simp] theorem State.modTask_seals (s : State) (k : Nat) (f : Task → Task) : (s.modTask k f).seals = s.seals := by
  unfold State.modTask; split <;> rfl
@[simp] theorem State.modTask_owners (s : State) (k : Nat) (f : Task → Task) : (s.modTask k f).owners = s.owners := by
  unfold State.modTask; split <;> rfl
@[simp] theorem State.modTask_conns (s : State) (k : Nat) (f : Task → Task) : (s.modTask k f).conns = s.conns := by
  unfold State.modTask; split <;> rfl
@[simp] theorem State.modTask_outbox (s : State) (k : Nat) (f : Task → Task) : (s.modTask k f).outbox = s.outbox := by
  unfold State.modTask; split <;> rfl
@[simp] theorem State.modTask_keyGen (s : State) (k : Nat) (f : Task → Task) : (s.modTask k f).keyGen = s.keyGen := by
  unfold State.modTask; split <;> rfl
@[simp] theorem State.modTask_ddr (s : State) (k : Nat) (f : Task → Task) : (s.modTask k f).ddr = s.ddr := by
  unfold State.modTask; split <;> rfl
@[simp] theorem State.modTask_tagsNative (s : State) (k : Nat) (f : Task → Task) : (s.modTask k f).tagsNative = s.tagsNative := by
  unfold State.modTask; split <;> rfl
@[simp] theorem State.modTask_firmware (s : State) (k : Nat) (f : Task → Task) : (s.modTask k f).firmware = s.firmware := by
  unfold State.modTask; split <;> rfl
@[simp] theorem State.modTask_power (s : State) (k : Nat) (f : Task → Task) : (s.modTask k f).power = s.power := by
  unfold State.modTask; split <;> rfl
@[simp] theorem State.modTask_fabric (s : State) (k : Nat) (f : Task → Task) : (s.modTask k f).fabric = s.fabric := by
  unfold State.modTask; split <;> rfl
@[simp] theorem State.modTask_saves (s : State) (k : Nat) (f : Task → Task) : (s.modTask k f).saves = s.saves := by
  unfold State.modTask; split <;> rfl
@[simp] theorem State.modTask_events (s : State) (k : Nat) (f : Task → Task) : (s.modTask k f).events = s.events := by
  unfold State.modTask; split <;> rfl

/-! ## modCopy -/

@[simp] theorem State.modCopy_cur (s : State) (k : Nat) (f : Copy → Copy) : (s.modCopy k f).cur = s.cur := by
  unfold State.modCopy; split <;> rfl
@[simp] theorem State.modCopy_operand (s : State) (k : Nat) (f : Copy → Copy) : (s.modCopy k f).operand = s.operand := by
  unfold State.modCopy; split <;> rfl
@[simp] theorem State.modCopy_limit (s : State) (k : Nat) (f : Copy → Copy) : (s.modCopy k f).limit = s.limit := by
  unfold State.modCopy; split <;> rfl
@[simp] theorem State.modCopy_schedule (s : State) (k : Nat) (f : Copy → Copy) : (s.modCopy k f).schedule = s.schedule := by
  unfold State.modCopy; split <;> rfl
@[simp] theorem State.modCopy_free (s : State) (k : Nat) (f : Copy → Copy) : (s.modCopy k f).free = s.free := by
  unfold State.modCopy; split <;> rfl
@[simp] theorem State.modCopy_up (s : State) (k : Nat) (f : Copy → Copy) : (s.modCopy k f).up = s.up := by
  unfold State.modCopy; split <;> rfl
@[simp] theorem State.modCopy_fatal (s : State) (k : Nat) (f : Copy → Copy) : (s.modCopy k f).fatal = s.fatal := by
  unfold State.modCopy; split <;> rfl
@[simp] theorem State.modCopy_now (s : State) (k : Nat) (f : Copy → Copy) : (s.modCopy k f).now = s.now := by
  unfold State.modCopy; split <;> rfl
@[simp] theorem State.modCopy_serial (s : State) (k : Nat) (f : Copy → Copy) : (s.modCopy k f).serial = s.serial := by
  unfold State.modCopy; split <;> rfl
@[simp] theorem State.modCopy_mem (s : State) (k : Nat) (f : Copy → Copy) : (s.modCopy k f).mem = s.mem := by
  unfold State.modCopy; split <;> rfl
@[simp] theorem State.modCopy_tags (s : State) (k : Nat) (f : Copy → Copy) : (s.modCopy k f).tags = s.tags := by
  unfold State.modCopy; split <;> rfl
@[simp] theorem State.modCopy_zorFrames (s : State) (k : Nat) (f : Copy → Copy) : (s.modCopy k f).zorFrames = s.zorFrames := by
  unfold State.modCopy; split <;> rfl
@[simp] theorem State.modCopy_zorWritten (s : State) (k : Nat) (f : Copy → Copy) : (s.modCopy k f).zorWritten = s.zorWritten := by
  unfold State.modCopy; split <;> rfl
@[simp] theorem State.modCopy_badLines (s : State) (k : Nat) (f : Copy → Copy) : (s.modCopy k f).badLines = s.badLines := by
  unfold State.modCopy; split <;> rfl
@[simp] theorem State.modCopy_poison (s : State) (k : Nat) (f : Copy → Copy) : (s.modCopy k f).poison = s.poison := by
  unfold State.modCopy; split <;> rfl
@[simp] theorem State.modCopy_dies (s : State) (k : Nat) (f : Copy → Copy) : (s.modCopy k f).dies = s.dies := by
  unfold State.modCopy; split <;> rfl
@[simp] theorem State.modCopy_clusters (s : State) (k : Nat) (f : Copy → Copy) : (s.modCopy k f).clusters = s.clusters := by
  unfold State.modCopy; split <;> rfl
@[simp] theorem State.modCopy_squads (s : State) (k : Nat) (f : Copy → Copy) : (s.modCopy k f).squads = s.squads := by
  unfold State.modCopy; split <;> rfl
@[simp] theorem State.modCopy_nextSquad (s : State) (k : Nat) (f : Copy → Copy) : (s.modCopy k f).nextSquad = s.nextSquad := by
  unfold State.modCopy; split <;> rfl
@[simp] theorem State.modCopy_nextCopy (s : State) (k : Nat) (f : Copy → Copy) : (s.modCopy k f).nextCopy = s.nextCopy := by
  unfold State.modCopy; split <;> rfl
@[simp] theorem State.modCopy_tasks (s : State) (k : Nat) (f : Copy → Copy) : (s.modCopy k f).tasks = s.tasks := by
  unfold State.modCopy; split <;> rfl
@[simp] theorem State.modCopy_streams (s : State) (k : Nat) (f : Copy → Copy) : (s.modCopy k f).streams = s.streams := by
  unfold State.modCopy; split <;> rfl
@[simp] theorem State.modCopy_versions (s : State) (k : Nat) (f : Copy → Copy) : (s.modCopy k f).versions = s.versions := by
  unfold State.modCopy; split <;> rfl
@[simp] theorem State.modCopy_nextVersion (s : State) (k : Nat) (f : Copy → Copy) : (s.modCopy k f).nextVersion = s.nextVersion := by
  unfold State.modCopy; split <;> rfl
@[simp] theorem State.modCopy_poolNext (s : State) (k : Nat) (f : Copy → Copy) : (s.modCopy k f).poolNext = s.poolNext := by
  unfold State.modCopy; split <;> rfl
@[simp] theorem State.modCopy_seals (s : State) (k : Nat) (f : Copy → Copy) : (s.modCopy k f).seals = s.seals := by
  unfold State.modCopy; split <;> rfl
@[simp] theorem State.modCopy_owners (s : State) (k : Nat) (f : Copy → Copy) : (s.modCopy k f).owners = s.owners := by
  unfold State.modCopy; split <;> rfl
@[simp] theorem State.modCopy_conns (s : State) (k : Nat) (f : Copy → Copy) : (s.modCopy k f).conns = s.conns := by
  unfold State.modCopy; split <;> rfl
@[simp] theorem State.modCopy_outbox (s : State) (k : Nat) (f : Copy → Copy) : (s.modCopy k f).outbox = s.outbox := by
  unfold State.modCopy; split <;> rfl
@[simp] theorem State.modCopy_keyGen (s : State) (k : Nat) (f : Copy → Copy) : (s.modCopy k f).keyGen = s.keyGen := by
  unfold State.modCopy; split <;> rfl
@[simp] theorem State.modCopy_ddr (s : State) (k : Nat) (f : Copy → Copy) : (s.modCopy k f).ddr = s.ddr := by
  unfold State.modCopy; split <;> rfl
@[simp] theorem State.modCopy_tagsNative (s : State) (k : Nat) (f : Copy → Copy) : (s.modCopy k f).tagsNative = s.tagsNative := by
  unfold State.modCopy; split <;> rfl
@[simp] theorem State.modCopy_firmware (s : State) (k : Nat) (f : Copy → Copy) : (s.modCopy k f).firmware = s.firmware := by
  unfold State.modCopy; split <;> rfl
@[simp] theorem State.modCopy_power (s : State) (k : Nat) (f : Copy → Copy) : (s.modCopy k f).power = s.power := by
  unfold State.modCopy; split <;> rfl
@[simp] theorem State.modCopy_fabric (s : State) (k : Nat) (f : Copy → Copy) : (s.modCopy k f).fabric = s.fabric := by
  unfold State.modCopy; split <;> rfl
@[simp] theorem State.modCopy_saves (s : State) (k : Nat) (f : Copy → Copy) : (s.modCopy k f).saves = s.saves := by
  unfold State.modCopy; split <;> rfl
@[simp] theorem State.modCopy_events (s : State) (k : Nat) (f : Copy → Copy) : (s.modCopy k f).events = s.events := by
  unfold State.modCopy; split <;> rfl

/-! ## Lookups through the other updates -/

@[simp] theorem State.task_setSquad (s : State) (q : Nat) (x : Squad) (k' : Nat) : (s.setSquad q x).task k' = s.task k' := by
  simp [State.task]
@[simp] theorem State.copy_setSquad (s : State) (q : Nat) (x : Squad) (k' : Nat) : (s.setSquad q x).copy k' = s.copy k' := by
  simp [State.copy]
@[simp] theorem State.cluster_setSquad (s : State) (q : Nat) (x : Squad) (cl' : Nat) : (s.setSquad q x).cluster cl' = s.cluster cl' := by
  simp [State.cluster]
@[simp] theorem State.die_setSquad (s : State) (q : Nat) (x : Squad) (d' : Nat) : (s.setSquad q x).die d' = s.die d' := by
  simp [State.die]
@[simp] theorem State.task_modSquad (s : State) (q : Nat) (f : Squad → Squad) (k' : Nat) : (s.modSquad q f).task k' = s.task k' := by
  simp [State.task]
@[simp] theorem State.copy_modSquad (s : State) (q : Nat) (f : Squad → Squad) (k' : Nat) : (s.modSquad q f).copy k' = s.copy k' := by
  simp [State.copy]
@[simp] theorem State.cluster_modSquad (s : State) (q : Nat) (f : Squad → Squad) (cl' : Nat) : (s.modSquad q f).cluster cl' = s.cluster cl' := by
  simp [State.cluster]
@[simp] theorem State.die_modSquad (s : State) (q : Nat) (f : Squad → Squad) (d' : Nat) : (s.modSquad q f).die d' = s.die d' := by
  simp [State.die]
@[simp] theorem State.task_modTeam (s : State) (q t : Nat) (f : Team → Team) (k' : Nat) : (s.modTeam q t f).task k' = s.task k' := by
  simp [State.task]
@[simp] theorem State.copy_modTeam (s : State) (q t : Nat) (f : Team → Team) (k' : Nat) : (s.modTeam q t f).copy k' = s.copy k' := by
  simp [State.copy]
@[simp] theorem State.cluster_modTeam (s : State) (q t : Nat) (f : Team → Team) (cl' : Nat) : (s.modTeam q t f).cluster cl' = s.cluster cl' := by
  simp [State.cluster]
@[simp] theorem State.die_modTeam (s : State) (q t : Nat) (f : Team → Team) (d' : Nat) : (s.modTeam q t f).die d' = s.die d' := by
  simp [State.die]
@[simp] theorem State.task_modCtx (s : State) (q c : Nat) (f : Ctx → Ctx) (k' : Nat) : (s.modCtx q c f).task k' = s.task k' := by
  simp [State.task]
@[simp] theorem State.copy_modCtx (s : State) (q c : Nat) (f : Ctx → Ctx) (k' : Nat) : (s.modCtx q c f).copy k' = s.copy k' := by
  simp [State.copy]
@[simp] theorem State.cluster_modCtx (s : State) (q c : Nat) (f : Ctx → Ctx) (cl' : Nat) : (s.modCtx q c f).cluster cl' = s.cluster cl' := by
  simp [State.cluster]
@[simp] theorem State.die_modCtx (s : State) (q c : Nat) (f : Ctx → Ctx) (d' : Nat) : (s.modCtx q c f).die d' = s.die d' := by
  simp [State.die]
@[simp] theorem State.squad_modCluster (s : State) (cl : Nat) (f : Cluster → Cluster) (q' : Nat) : (s.modCluster cl f).squad q' = s.squad q' := by
  simp [State.squad]
@[simp] theorem State.team_modCluster (s : State) (cl : Nat) (f : Cluster → Cluster) (q' t' : Nat) : (s.modCluster cl f).team q' t' = s.team q' t' := by
  simp [State.team, State.squad]
@[simp] theorem State.ctx_modCluster (s : State) (cl : Nat) (f : Cluster → Cluster) (q' c' : Nat) : (s.modCluster cl f).ctx q' c' = s.ctx q' c' := by
  simp [State.ctx, State.squad]
@[simp] theorem State.task_modCluster (s : State) (cl : Nat) (f : Cluster → Cluster) (k' : Nat) : (s.modCluster cl f).task k' = s.task k' := by
  simp [State.task]
@[simp] theorem State.copy_modCluster (s : State) (cl : Nat) (f : Cluster → Cluster) (k' : Nat) : (s.modCluster cl f).copy k' = s.copy k' := by
  simp [State.copy]
@[simp] theorem State.die_modCluster (s : State) (cl : Nat) (f : Cluster → Cluster) (d' : Nat) : (s.modCluster cl f).die d' = s.die d' := by
  simp [State.die]
@[simp] theorem State.squad_modCore (s : State) (cl k : Nat) (f : LaneCore → LaneCore) (q' : Nat) : (s.modCore cl k f).squad q' = s.squad q' := by
  simp [State.squad]
@[simp] theorem State.team_modCore (s : State) (cl k : Nat) (f : LaneCore → LaneCore) (q' t' : Nat) : (s.modCore cl k f).team q' t' = s.team q' t' := by
  simp [State.team, State.squad]
@[simp] theorem State.ctx_modCore (s : State) (cl k : Nat) (f : LaneCore → LaneCore) (q' c' : Nat) : (s.modCore cl k f).ctx q' c' = s.ctx q' c' := by
  simp [State.ctx, State.squad]
@[simp] theorem State.task_modCore (s : State) (cl k : Nat) (f : LaneCore → LaneCore) (k' : Nat) : (s.modCore cl k f).task k' = s.task k' := by
  simp [State.task]
@[simp] theorem State.copy_modCore (s : State) (cl k : Nat) (f : LaneCore → LaneCore) (k' : Nat) : (s.modCore cl k f).copy k' = s.copy k' := by
  simp [State.copy]
@[simp] theorem State.die_modCore (s : State) (cl k : Nat) (f : LaneCore → LaneCore) (d' : Nat) : (s.modCore cl k f).die d' = s.die d' := by
  simp [State.die]
@[simp] theorem State.squad_modDie (s : State) (d : Nat) (f : Die → Die) (q' : Nat) : (s.modDie d f).squad q' = s.squad q' := by
  simp [State.squad]
@[simp] theorem State.team_modDie (s : State) (d : Nat) (f : Die → Die) (q' t' : Nat) : (s.modDie d f).team q' t' = s.team q' t' := by
  simp [State.team, State.squad]
@[simp] theorem State.ctx_modDie (s : State) (d : Nat) (f : Die → Die) (q' c' : Nat) : (s.modDie d f).ctx q' c' = s.ctx q' c' := by
  simp [State.ctx, State.squad]
@[simp] theorem State.task_modDie (s : State) (d : Nat) (f : Die → Die) (k' : Nat) : (s.modDie d f).task k' = s.task k' := by
  simp [State.task]
@[simp] theorem State.copy_modDie (s : State) (d : Nat) (f : Die → Die) (k' : Nat) : (s.modDie d f).copy k' = s.copy k' := by
  simp [State.copy]
@[simp] theorem State.cluster_modDie (s : State) (d : Nat) (f : Die → Die) (cl' : Nat) : (s.modDie d f).cluster cl' = s.cluster cl' := by
  simp [State.cluster]
@[simp] theorem State.squad_modTask (s : State) (k : Nat) (f : Task → Task) (q' : Nat) : (s.modTask k f).squad q' = s.squad q' := by
  simp [State.squad]
@[simp] theorem State.team_modTask (s : State) (k : Nat) (f : Task → Task) (q' t' : Nat) : (s.modTask k f).team q' t' = s.team q' t' := by
  simp [State.team, State.squad]
@[simp] theorem State.ctx_modTask (s : State) (k : Nat) (f : Task → Task) (q' c' : Nat) : (s.modTask k f).ctx q' c' = s.ctx q' c' := by
  simp [State.ctx, State.squad]
@[simp] theorem State.copy_modTask (s : State) (k : Nat) (f : Task → Task) (k' : Nat) : (s.modTask k f).copy k' = s.copy k' := by
  simp [State.copy]
@[simp] theorem State.cluster_modTask (s : State) (k : Nat) (f : Task → Task) (cl' : Nat) : (s.modTask k f).cluster cl' = s.cluster cl' := by
  simp [State.cluster]
@[simp] theorem State.die_modTask (s : State) (k : Nat) (f : Task → Task) (d' : Nat) : (s.modTask k f).die d' = s.die d' := by
  simp [State.die]
@[simp] theorem State.squad_modCopy (s : State) (k : Nat) (f : Copy → Copy) (q' : Nat) : (s.modCopy k f).squad q' = s.squad q' := by
  simp [State.squad]
@[simp] theorem State.team_modCopy (s : State) (k : Nat) (f : Copy → Copy) (q' t' : Nat) : (s.modCopy k f).team q' t' = s.team q' t' := by
  simp [State.team, State.squad]
@[simp] theorem State.ctx_modCopy (s : State) (k : Nat) (f : Copy → Copy) (q' c' : Nat) : (s.modCopy k f).ctx q' c' = s.ctx q' c' := by
  simp [State.ctx, State.squad]
@[simp] theorem State.task_modCopy (s : State) (k : Nat) (f : Copy → Copy) (k' : Nat) : (s.modCopy k f).task k' = s.task k' := by
  simp [State.task]
@[simp] theorem State.cluster_modCopy (s : State) (k : Nat) (f : Copy → Copy) (cl' : Nat) : (s.modCopy k f).cluster cl' = s.cluster cl' := by
  simp [State.cluster]
@[simp] theorem State.die_modCopy (s : State) (k : Nat) (f : Copy → Copy) (d' : Nat) : (s.modCopy k f).die d' = s.die d' := by
  simp [State.die]

end Sys2Proof.Machine
end

