-- ==== Sys2Proof/Laws/Tables.lean ====
section
/-! SUPPORT. Reading a sparse table after a write. -/

namespace Sys2Proof.Machine

variable {α : Type}

@[simp] theorem aget?_aset_self (l : List (Nat × α)) (i : Nat) (x : α) : aget? (aset l i x) i = some x := by
  induction l with
  | nil => simp [aset, aget?]
  | cons p t ih =>
    obtain ⟨k, v⟩ := p
    simp only [aset]
    split
    · simp [aget?]
    · split
      · simp [aget?]
      · rename_i h; simp [aget?, Ne.symm h, ih]

theorem aget?_aset_ne (l : List (Nat × α)) {i j : Nat} (x : α) (h : j ≠ i) : aget? (aset l i x) j = aget? l j := by
  induction l with
  | nil => simp [aset, aget?, h.symm]
  | cons p t ih =>
    obtain ⟨k, v⟩ := p
    simp only [aset]
    split
    · simp [aget?, h.symm]
    · split
      · rename_i hk; subst hk; simp [aget?, h.symm]
      · simp [aget?, ih]

@[simp] theorem aget_aset_self (d : α) (l : List (Nat × α)) (i : Nat) (x : α) : aget d (aset l i x) i = x := by
  induction l with
  | nil => simp [aset, aget]
  | cons p t ih =>
    obtain ⟨k, v⟩ := p
    simp only [aset]
    split
    · simp [aget]
    · split
      · simp [aget]
      · rename_i h; simp [aget, Ne.symm h, ih]

theorem aget_aset_ne (d : α) (l : List (Nat × α)) {i j : Nat} (x : α) (h : j ≠ i) : aget d (aset l i x) j = aget d l j := by
  induction l with
  | nil => simp [aset, aget, h.symm]
  | cons p t ih =>
    obtain ⟨k, v⟩ := p
    simp only [aset]
    split
    · simp [aget, h.symm]
    · split
      · rename_i hk; subst hk; simp [aget, h.symm]
      · simp [aget, ih]

@[simp] theorem aget_adel_self (d : α) (l : List (Nat × α)) (i : Nat) : aget d (adel l i) i = d := by
  induction l with
  | nil => simp [adel, aget]
  | cons p t ih =>
    obtain ⟨k, v⟩ := p
    by_cases h : k = i
    · subst h; simpa [adel, aget] using ih
    · simpa [adel, aget, h] using ih

theorem aget_adel_ne (d : α) (l : List (Nat × α)) {i j : Nat} (h : j ≠ i) : aget d (adel l i) j = aget d l j := by
  induction l with
  | nil => simp [adel, aget]
  | cons p t ih =>
    obtain ⟨k, v⟩ := p
    by_cases hk : k = i
    · subst hk; simpa [adel, aget, h.symm] using ih
    · by_cases hj : k = j
      · subst hj; simp [adel, aget, hk]
      · simpa [adel, aget, hk, hj] using ih

theorem aget_asetD [DecidableEq α] (d : α) (l : List (Nat × α)) (i j : Nat) (x : α) :
    aget d (asetD d l i x) j = if j = i then x else aget d l j := by
  unfold asetD
  by_cases hj : j = i
  · subst hj; split <;> simp_all
  · simp only [hj, if_false]
    split
    · exact aget_adel_ne d l hj
    · exact aget_aset_ne d l x hj

@[simp] theorem aget?_adel_self (l : List (Nat × α)) (i : Nat) : aget? (adel l i) i = none := by
  induction l with
  | nil => simp [adel, aget?]
  | cons p t ih =>
    obtain ⟨k, v⟩ := p
    by_cases h : k = i
    · subst h; simpa [adel, aget?] using ih
    · simpa [adel, aget?, h] using ih

theorem aget?_adel_ne (l : List (Nat × α)) {i j : Nat} (h : j ≠ i) : aget? (adel l i) j = aget? l j := by
  induction l with
  | nil => simp [adel, aget?]
  | cons p t ih =>
    obtain ⟨k, v⟩ := p
    by_cases hk : k = i
    · subst hk; simpa [adel, aget?, h.symm] using ih
    · by_cases hj : k = j
      · subst hj; simp [adel, aget?, hk]
      · simpa [adel, aget?, hk, hj] using ih

end Sys2Proof.Machine
end

