-- ==== Sys2Proof/Laws/Words.lean ====
section
/-! SUPPORT. How a lane word and a generator word end, once for every word: the step lemmas over the shared shapes `laneRun` and
`genRun`, and the registers of teams and contexts after a write. -/

namespace Sys2Proof.Machine

open Host (Outcome)

/-! ## Settled units read what they hold -/

theorem settle_dead (live : Hazard → Bool) (hs : List Hazard) (h : ∀ z ∈ hs, live z = false) : settle live hs = [] := by
  induction hs with
  | nil => rfl
  | cons z zs ih => simp [settle, h z (List.mem_cons_self ..), ih fun y hy => h y (List.mem_cons_of_mem _ hy)]

theorem Team.reads_settled (tm : Team) (free cyc : Nat) (h : ∀ z ∈ tm.hazards, z.live tm.busy cyc = false) : tm.reads free cyc = tm := by
  have := settle_dead (·.live tm.busy cyc) tm.hazards h
  simp [Team.reads, Team.seen, this]

theorem Ctx.seen_settled (cx : Ctx) (free cyc : Nat) (h : ∀ z ∈ cx.hazards, z.live cx.busy cyc = false) : cx.seen free cyc = cx := by
  have := settle_dead (·.live cx.busy cyc) cx.hazards h
  simp [Ctx.seen, this]

/-! ## What a settled word acts on -/

@[simp] theorem laneIn_s (s : State) (q t : Nat) (sq : Squad) (tm : Team) (ms : BitVec 3) : (laneIn s q t sq tm ms).s = s := rfl
@[simp] theorem laneIn_q (s : State) (q t : Nat) (sq : Squad) (tm : Team) (ms : BitVec 3) : (laneIn s q t sq tm ms).q = q := rfl
@[simp] theorem laneIn_t (s : State) (q t : Nat) (sq : Squad) (tm : Team) (ms : BitVec 3) : (laneIn s q t sq tm ms).t = t := rfl
@[simp] theorem laneIn_sq (s : State) (q t : Nat) (sq : Squad) (tm : Team) (ms : BitVec 3) : (laneIn s q t sq tm ms).sq = sq := rfl
@[simp] theorem laneIn_tm (s : State) (q t : Nat) (sq : Squad) (tm : Team) (ms : BitVec 3) : (laneIn s q t sq tm ms).tm = tm := rfl
@[simp] theorem laneIn_rd (s : State) (q t : Nat) (sq : Squad) (tm : Team) (ms : BitVec 3) : (laneIn s q t sq tm ms).rd = tm := rfl
@[simp] theorem laneIn_m (s : State) (q t : Nat) (sq : Squad) (tm : Team) (ms : BitVec 3) : (laneIn s q t sq tm ms).m = tm.acting ms := rfl
@[simp] theorem genIn_s (s : State) (q c : Nat) (sq : Squad) (cx : Ctx) : (genIn s q c sq cx).s = s := rfl
@[simp] theorem genIn_q (s : State) (q c : Nat) (sq : Squad) (cx : Ctx) : (genIn s q c sq cx).q = q := rfl
@[simp] theorem genIn_c (s : State) (q c : Nat) (sq : Squad) (cx : Ctx) : (genIn s q c sq cx).c = c := rfl
@[simp] theorem genIn_sq (s : State) (q c : Nat) (sq : Squad) (cx : Ctx) : (genIn s q c sq cx).sq = sq := rfl
@[simp] theorem genIn_cx (s : State) (q c : Nat) (sq : Squad) (cx : Ctx) : (genIn s q c sq cx).cx = cx := rfl
@[simp] theorem genIn_rd (s : State) (q c : Nat) (sq : Squad) (cx : Ctx) : (genIn s q c sq cx).rd = cx := rfl

/-! ## Lane words -/

section lane

variable {s s' : State} {q t : Nat} {sq : Squad} {tm : Team} {i : Instr} {ms : BitVec 3} {body : LaneIn → LaneRes}

/-- What a ready lane word comes to, from the end of its meaning. -/
theorem laneRun_ready (h : LaneReady s q t sq tm i ms) :
    laneRun i ms body s = match body (laneIn s q t sq tm ms) with
      | .done s' => .next (s'.retire q t sq tm i (tm.acting ms))
      | .park c info u rec_ s' => .next ((s'.takeSlot q t sq tm i (tm.acting ms)).park q t c info u false rec_)
      | .wait w s' => .next (s'.waits q t sq tm i (tm.acting ms) w)
      | .more u s' => .next ((s'.takeSlot q t sq tm i (tm.acting ms)).modTeam q t fun tm => { tm with todo := some u }) := by
  obtain ⟨hc, hs, ht, hf, hb, hz⟩ := h
  have htm : s.team q t = some tm := by simp [State.team, hs, ht]
  have hseen : tm.reads s.free (s.cluster sq.cluster).cycle = tm := Team.reads_settled tm _ _ hz
  simp only [laneRun, LaneIn.result, hc, hs, htm, hf, hb, hseen, laneIn]
  first | done | rfl

theorem laneRun_done (h : LaneReady s q t sq tm i ms) (hb : body (laneIn s q t sq tm ms) = .done s') :
    laneRun i ms body s = .next (s'.retire q t sq tm i (tm.acting ms)) := by rw [laneRun_ready h, hb]

theorem laneRun_finish {new : Team} (h : LaneReady s q t sq tm i ms)
    (hb : body (laneIn s q t sq tm ms) = (laneIn s q t sq tm ms).finish new) :
    laneRun i ms body s = .next (s.laneEnd q t sq tm i ms new) := by rw [laneRun_ready h, hb]; rfl

theorem laneRun_park {c : Cause} {info : List DWord} {u : Mask} {r : List Byte} (h : LaneReady s q t sq tm i ms)
    (hb : body (laneIn s q t sq tm ms) = .park c info u r s') : laneRun i ms body s = .next ((s'.takeSlot q t sq tm i (tm.acting ms)).park q t c info u false r) := by
  rw [laneRun_ready h, hb]

theorem laneRun_wait {w : TeamWait} (h : LaneReady s q t sq tm i ms) (hb : body (laneIn s q t sq tm ms) = .wait w s') :
    laneRun i ms body s = .next (s'.waits q t sq tm i (tm.acting ms) w) := by rw [laneRun_ready h, hb]

/-- Everything a lane word can do when it answers a next state: from one result of its checks and its meaning, its team retires the word, parks,
waits, or goes on with the lanes still to do. -/
theorem laneRun_cases (h : laneRun i ms body s = .next s') :
    ∃ x : LaneIn, x.s = s ∧ s.cur = some (.team x.q x.t) ∧ s.squad x.q = some x.sq ∧ s.team x.q x.t = some x.tm ∧ x.m = x.tm.acting ms ∧
      ((∃ z, x.result i body = .done z ∧ s' = z.retire x.q x.t x.sq x.tm i x.m)
        ∨ (∃ c info u r z, x.result i body = .park c info u r z ∧ s' = (z.takeSlot x.q x.t x.sq x.tm i x.m).park x.q x.t c info u false r)
        ∨ (∃ w z, x.result i body = .wait w z ∧ s' = z.waits x.q x.t x.sq x.tm i x.m w)
        ∨ ∃ u z, x.result i body = .more u z ∧ s' = (z.takeSlot x.q x.t x.sq x.tm i x.m).modTeam x.q x.t fun tm => { tm with todo := some u }) := by
  unfold laneRun at h
  split at h
  · rename_i q t hc
    split at h
    · rename_i sq tm hs ht
      refine ⟨⟨s, q, t, sq, tm, tm.reads s.free (s.cluster sq.cluster).cycle, tm.acting ms⟩, rfl, hc, hs, ht, rfl, ?_⟩
      dsimp only at h
      split at h <;> rename_i hz <;> injection h with h
      · exact .inl ⟨_, hz, h.symm⟩
      · exact .inr (.inl ⟨_, _, _, _, _, hz, h.symm⟩)
      · exact .inr (.inr (.inl ⟨_, _, hz, h.symm⟩))
      · exact .inr (.inr (.inr ⟨_, _, hz, h.symm⟩))
    · cases h
  · cases h

/-- What the result of a lane word is: a failed decode check, an uncorrectable register, or the result of its meaning. -/
theorem LaneIn.result_cases (x : LaneIn) :
    (∃ c, fieldCheck x.tm.ckEnv i = some c ∧ x.result i body = .park c (x.tm.decodeInfo i) (x.tm.trapMask i x.m) [] x.s)
      ∨ (∃ info, x.result i body = x.uncorrectable (x.tm.trapMask i x.m) info x.s)
      ∨ x.result i body = body x := by
  unfold LaneIn.result
  split
  · exact .inl ⟨_, by assumption, rfl⟩
  · split
    · exact .inr (.inl ⟨_, rfl⟩)
    · exact .inr (.inr rfl)

end lane

/-! ## Generator words -/

section gen

variable {s s' : State} {q c : Nat} {sq : Squad} {cx : Ctx} {i : Instr} {cnd : BitVec 4} {body : GenIn → GenRes}

/-- What a ready generator word comes to, from the end of its meaning. -/
theorem genRun_ready (h : GenReady s q c sq cx i cnd) :
    genRun i cnd body s = match body (genIn s q c sq cx) with
      | .done s' => .next (s'.genRetire q c sq cx i Ctx.advance)
      | .goto pc s' => .next (s'.genRetire q c sq cx i (·.jump pc))
      | .back pc k b s' => .next (s'.genRetire q c sq cx i (·.resumeAt pc k b))
      | .trap cause info s' => .next (s'.ctxTrap q c cause info (cx.gap i))
      | .fault rec_ info s' => .next (s'.ctxFault q c rec_ info (cx.gap i))
      | .wait w s' => .next (s'.modCtx q c fun cx => { cx with wait := some w }) := by
  obtain ⟨hc, hs, ht, hf, hp, hz⟩ := h
  have hcx : s.ctx q c = some cx := by simp [State.ctx, hs, ht]
  have hseen : cx.seen s.free (s.cluster sq.cluster).cycle = cx := Ctx.seen_settled cx _ _ hz
  simp only [genRun, hc, hs, hcx, hf, hp, hseen, genIn, if_true]
  first | done | rfl

theorem genRun_done (h : GenReady s q c sq cx i cnd) (hb : body (genIn s q c sq cx) = .done s') :
    genRun i cnd body s = .next (s'.genRetire q c sq cx i Ctx.advance) := by rw [genRun_ready h, hb]

theorem genRun_finish {new : Ctx} (h : GenReady s q c sq cx i cnd) (hb : body (genIn s q c sq cx) = (genIn s q c sq cx).finish new) :
    genRun i cnd body s = .next (s.genEnd q c sq cx i new) := by rw [genRun_ready h, hb]; rfl

theorem genRun_goto {pc : DWord} (h : GenReady s q c sq cx i cnd) (hb : body (genIn s q c sq cx) = .goto pc s') :
    genRun i cnd body s = .next (s'.genRetire q c sq cx i (·.jump pc)) := by rw [genRun_ready h, hb]

theorem genRun_trap {cause : Cause} {info : List DWord} (h : GenReady s q c sq cx i cnd) (hb : body (genIn s q c sq cx) = .trap cause info s') :
    genRun i cnd body s = .next (s'.ctxTrap q c cause info (cx.gap i)) := by rw [genRun_ready h, hb]

theorem genRun_wait {w : CtxWait} (h : GenReady s q c sq cx i cnd) (hb : body (genIn s q c sq cx) = .wait w s') :
    genRun i cnd body s = .next (s'.modCtx q c fun cx => { cx with wait := some w }) := by rw [genRun_ready h, hb]

end gen

/-! ## Registers -/

/-- s0 reads zero (R44). -/
@[simp] theorem Ctx.S_zero (cx : Ctx) : cx.S 0 = 0 := rfl

/-- A scalar register after a write (R44). -/
theorem Ctx.S_setS (cx : Ctx) (n k : Nat) (x : DWord) : (cx.setS n x).S k = if k = n ∧ n ≠ 0 then x else cx.S k := by
  unfold Ctx.S Ctx.setS
  by_cases hn : n = 0
  · simp [hn]
  · by_cases hk : k = 0
    · have : ¬ k = n := by omega
      simp [hk]; intro h; exact absurd h.symm hn
    · simp [hn, hk, aget_asetD]

/-- A lane register after a write (R95). -/
theorem Team.V_setV (tm : Team) (r k l : Nat) (m : Mask) (f : Nat → Word) (hl : l < tm.lanes) :
    (tm.setV r m f).V l k = if k = r then (if m.getLsbD l then f l else tm.V l r) else tm.V l k := by
  unfold Team.V Team.vreg Team.setV
  by_cases h : k = r
  · subst h; simp [upTo, hl, Team.V, Team.vreg]
  · simp [h, aget_aset_ne _ _ _ h]

end Sys2Proof.Machine
end

