-- ==== Sys2Proof/Laws/Masks.lean ====
section
/-! SUPPORT. The bits of masks (R28, R78, R97). -/

namespace Sys2Proof.Machine

/-- The bits of the mask with bits 0 to n−1 set. -/
@[simp] theorem getLsbD_maskBelow (n l : Nat) : (maskBelow n).getLsbD l = (decide (l < n) && decide (l < 1024)) := by
  unfold maskBelow
  rw [BitVec.getLsbD_ofNat, Nat.testBit_two_pow_sub_one, Bool.and_comm]

/-- The bits of the mask of listed lanes. -/
@[simp] theorem getLsbD_maskOf (ls : List Nat) (l : Nat) : (maskOf ls).getLsbD l = (decide (l ∈ ls) && decide (l < 1024)) := by
  induction ls with
  | nil => simp [maskOf]
  | cons a t ih =>
    simp only [maskOf, BitVec.getLsbD_or, ih, BitVec.getLsbD_shiftLeft, List.mem_cons]
    by_cases h : l < 1024
    · simp only [h, decide_true, Bool.true_and, Bool.and_true]
      by_cases hl : l = a
      · subst hl; simp
      · have hb : (1#1024).getLsbD (l - a) = decide (l - a = 0) := by simp
        by_cases hlt : l < a
        · simp [hlt, hl]
        · have : l - a ≠ 0 := by omega
          simp [hl, hlt, this]
    · simp [h]

/-- The listed lanes of a mask. -/
@[simp] theorem mem_lanesOf (tm : Team) (m : Mask) (l : Nat) : l ∈ tm.lanesOf m ↔ l < tm.lanes ∧ m.getLsbD l = true := by
  simp [Team.lanesOf, maskLanes, upTo]

/-- A mask register after a write: bits of lanes that do not exist stay 0 (R76, R78). -/
theorem Team.m_setM (tm : Team) (k j : Nat) (x : Mask) :
    (tm.setM k x).m j = if j = k ∧ k < tm.masks.length then x &&& maskBelow tm.lanes else tm.m j := by
  unfold Team.m Team.setM
  by_cases h : j = k
  · subst h
    by_cases hk : j < tm.masks.length
    · simp [List.getD, hk]
    · simp [List.getD, hk]
  · simp [List.getD, h, Ne.symm h]

/-- Each bit of a mask register that a word wrote by `maskOut` (R97). -/
theorem maskOut_bit (x : LaneIn) (k l : Nat) (f : Nat → Bool) (hk : k < x.tm.masks.length) (hl : l < x.tm.lanes) (hn : x.tm.lanes ≤ 1024) :
    ((x.tm.setM k ((x.tm.m k &&& ~~~x.m) ||| (maskOf ((x.tm.lanesOf x.m).filter f)))).m k).getLsbD l
      = if x.m.getLsbD l then f l else (x.tm.m k).getLsbD l := by
  have h1 : l < 1024 := by omega
  rw [Team.m_setM]
  simp only [hk, and_self, if_true, BitVec.getLsbD_and, BitVec.getLsbD_or, getLsbD_maskOf, getLsbD_maskBelow, BitVec.getLsbD_not,
    List.mem_filter, mem_lanesOf, hl, h1, decide_true, Bool.and_true, true_and]
  cases x.m.getLsbD l <;> simp

end Sys2Proof.Machine
end

