-- ==== Sys2Proof/Laws/Memory.lean ====
section
/-! SUPPORT. The canonical form of memory: every memory write keeps it, and a byte reads as it was last written. -/

namespace Sys2Proof.Machine

theorem memAbove_mono {lo lo' : Nat} {m : List Host.Cell} (h : lo ≤ lo') (hm : memAbove lo' m = true) : memAbove lo m = true := by
  cases m with
  | nil => rfl
  | cons p t =>
    obtain ⟨k, v⟩ := p
    simp only [memAbove, Bool.and_eq_true, decide_eq_true_eq] at hm ⊢
    exact ⟨⟨by omega, hm.1.2⟩, hm.2⟩

theorem memAbove_memSet {lo a : Nat} {m : List Host.Cell} (b : Byte) (h : lo ≤ a) (hm : memAbove lo m = true) :
    memAbove lo (memSet m a b) = true := by
  induction m generalizing lo with
  | nil => simp only [memSet]; split <;> simp_all [memAbove]
  | cons p t ih =>
    obtain ⟨k, v⟩ := p
    simp only [memAbove, Bool.and_eq_true, decide_eq_true_eq, bne_iff_ne] at hm
    simp only [memSet]
    split
    · split
      · simp only [memAbove, Bool.and_eq_true, decide_eq_true_eq, bne_iff_ne]; exact hm
      · rename_i h1 h2
        simp only [memAbove, Bool.and_eq_true, decide_eq_true_eq, bne_iff_ne]
        exact ⟨⟨h, h2⟩, ⟨by omega, hm.1.2⟩, hm.2⟩
    · split
      · rename_i h1 h2
        subst h2
        split
        · exact memAbove_mono (by omega) hm.2
        · rename_i h3
          simp only [memAbove, Bool.and_eq_true, decide_eq_true_eq, bne_iff_ne]
          exact ⟨⟨h, h3⟩, hm.2⟩
      · rename_i h1 h2
        simp only [memAbove, Bool.and_eq_true, decide_eq_true_eq, bne_iff_ne]
        exact ⟨hm.1, ih (by omega) hm.2⟩

/-- Writing a byte keeps the canonical form. -/
theorem Memory.wf_memSet {m : List Host.Cell} (a : Nat) (b : Byte) (h : Memory.wf m = true) : Memory.wf (memSet m a b) = true :=
  memAbove_memSet b (Nat.zero_le a) h

/-- Writing consecutive bytes keeps the canonical form. -/
theorem Memory.wf_memSets (bs : List Byte) : ∀ {m : List Host.Cell} (a : Nat), Memory.wf m = true → Memory.wf (memSets m a bs) = true := by
  induction bs with
  | nil => intro m a h; exact h
  | cons b bs ih => intro m a h; exact ih (a + 1) (Memory.wf_memSet a b h)

theorem memGet_above {lo a : Nat} {m : List Host.Cell} (hm : memAbove lo m = true) (h : a < lo) : memGet m a = 0 := by
  induction m generalizing lo with
  | nil => rfl
  | cons p t ih =>
    obtain ⟨k, v⟩ := p
    simp only [memAbove, Bool.and_eq_true, decide_eq_true_eq] at hm
    have hk : k ≠ a := by omega
    simp [memGet, hk, ih hm.2 (by omega)]

theorem memGet_memSet_above {lo : Nat} {m : List Host.Cell} (hm : memAbove lo m = true) (a c : Nat) (b : Byte) :
    memGet (memSet m a b) c = if c = a then b else memGet m c := by
  induction m generalizing lo with
  | nil =>
    simp only [memSet]
    split
    · rename_i h; subst h; simp [memGet]
    · by_cases h : c = a
      · subst h; simp [memGet]
      · simp [memGet, h, Ne.symm h]
  | cons p t ih =>
    obtain ⟨k, v⟩ := p
    simp only [memAbove, Bool.and_eq_true, decide_eq_true_eq] at hm
    simp only [memSet]
    split
    · rename_i h1
      split
      · rename_i h2
        subst h2
        by_cases h : c = a
        · subst h
          have : k ≠ c := by omega
          simp [memGet, this]; exact memGet_above hm.2 (by omega)
        · simp [h]
      · by_cases h : c = a
        · subst h; simp [memGet]
        · simp [memGet, h, Ne.symm h]
    · split
      · rename_i h1 h2
        subst h2
        split
        · rename_i h3
          subst h3
          by_cases h : c = a
          · subst h; simp; exact memGet_above hm.2 (by omega)
          · simp [memGet, h, Ne.symm h]
        · by_cases h : c = a
          · subst h; simp [memGet]
          · simp [memGet, h, Ne.symm h]
      · rename_i h1 h2
        simp only [memGet]
        by_cases hk : k = c
        · subst hk
          have h : ¬ k = a := fun e => h2 e.symm
          simp [h]
        · simp [hk, ih hm.2]

/-- A byte reads as it was last written, and every other byte as before. -/
theorem memGet_memSet {m : List Host.Cell} (hm : Memory.wf m = true) (a c : Nat) (b : Byte) :
    memGet (memSet m a b) c = if c = a then b else memGet m c := memGet_memSet_above hm a c b

/-- Consecutive bytes read as they were last written, and every other byte as before. -/
theorem memGet_memSets (bs : List Byte) : ∀ {m : List Host.Cell} (_ : Memory.wf m = true) (a c : Nat),
    memGet (memSets m a bs) c = if a ≤ c ∧ c < a + bs.length then bs.getD (c - a) 0 else memGet m c := by
  induction bs with
  | nil => intro m hm a c; have : ¬ (a ≤ c ∧ c < a) := by omega
           simp [memSets, this]
  | cons b bs ih =>
    intro m hm a c
    rw [memSets, ih (Memory.wf_memSet a b hm) (a + 1) c, memGet_memSet hm]
    by_cases h1 : c = a
    · subst h1; simp
    · by_cases h2 : a + 1 ≤ c ∧ c < a + 1 + bs.length
      · have h3 : a ≤ c ∧ c < a + (b :: bs).length := by simp; omega
        rw [if_pos h2, if_pos h3]
        have : c - a = (c - (a + 1)) + 1 := by omega
        rw [this]; simp
      · have h3 : ¬ (a ≤ c ∧ c < a + (b :: bs).length) := by simp; omega
        rw [if_neg h2, if_neg h3, if_neg h1]

/-- A write within one line keeps the canonical form. -/
theorem State.writeLine_wf (s : State) (slot : Nat) (zor : Bool) (pa : Nat) (bs : List Byte) (h : Memory.wf s.mem = true) :
    Memory.wf (s.writeLine slot zor pa bs).mem = true := by
  simp only [State.writeLine]
  apply Memory.wf_memSets
  split
  · exact h
  · split
    · exact Memory.wf_memSets _ _ h
    · split
      · exact Memory.wf_memSets _ _ h
      · exact h

/-- Every write to memory keeps the canonical form. -/
theorem writeSpan_wf (slot : Nat) (zor : Bool) (f : Nat) : ∀ (s : State) (pa : Nat) (bs : List Byte), Memory.wf s.mem = true →
    Memory.wf (writeSpan slot zor f s pa bs).mem = true := by
  induction f with
  | zero => intro s pa bs h; exact h
  | succ n ih =>
    intro s pa bs h
    simp only [writeSpan]
    split
    · exact h
    · exact ih _ _ _ (State.writeLine_wf s slot zor pa _ h)

theorem State.writeMem_wf (s : State) (slot : Nat) (zor : Bool) (pa : Nat) (bs : List Byte) (h : Memory.wf s.mem = true) :
    Memory.wf (s.writeMem slot zor pa bs).mem = true := writeSpan_wf _ _ _ s pa bs h

theorem State.devWrite_wf (s : State) (slot pa : Nat) (bs : List Byte) (h : Memory.wf s.mem = true) :
    Memory.wf (s.devWrite slot pa bs).mem = true := State.writeMem_wf s _ _ _ _ h

end Sys2Proof.Machine
end

