-- ==== Sys2Proof/Laws/PerInstr.lean ====
section
/-! SUPPORT. Per-instruction laws. Family F: an instruction word has an encoding, and a device step has none. -/

namespace Sys2Proof.Laws

open Sys2Proof.Machine

/-- An instruction has an encoding exactly when it is an instruction word (R28, R35). -/
def F.Statement (i : Instr) : Prop := (encode i).isSome = isWord i

theorem F.lnop (w : LR) : F.Statement (.lnop w) := rfl
theorem F.iadd (w : LR) : F.Statement (.iadd w) := rfl
theorem F.isub (w : LR) : F.Statement (.isub w) := rfl
theorem F.imul (w : LR) : F.Statement (.imul w) := rfl
theorem F.imulhi (w : LR) : F.Statement (.imulhi w) := rfl
theorem F.imad (w : LR) : F.Statement (.imad w) := rfl
theorem F.imadw (w : LR) : F.Statement (.imadw w) := rfl
theorem F.idiv (w : LR) : F.Statement (.idiv w) := rfl
theorem F.irem (w : LR) : F.Statement (.irem w) := rfl
theorem F.imin (w : LR) : F.Statement (.imin w) := rfl
theorem F.imax (w : LR) : F.Statement (.imax w) := rfl
theorem F.iabs (w : LR) : F.Statement (.iabs w) := rfl
theorem F.iadds (w : LR) : F.Statement (.iadds w) := rfl
theorem F.andv (w : LR) : F.Statement (.andv w) := rfl
theorem F.orv (w : LR) : F.Statement (.orv w) := rfl
theorem F.xorv (w : LR) : F.Statement (.xorv w) := rfl
theorem F.andn (w : LR) : F.Statement (.andn w) := rfl
theorem F.shl (w : LR) : F.Statement (.shl w) := rfl
theorem F.shr (w : LR) : F.Statement (.shr w) := rfl
theorem F.sar (w : LR) : F.Statement (.sar w) := rfl
theorem F.rot (w : LR) : F.Statement (.rot w) := rfl
theorem F.popc (w : LR) : F.Statement (.popc w) := rfl
theorem F.clz (w : LR) : F.Statement (.clz w) := rfl
theorem F.brev (w : LR) : F.Statement (.brev w) := rfl
theorem F.bfx (w : LR) : F.Statement (.bfx w) := rfl
theorem F.bfi (w : LR) : F.Statement (.bfi w) := rfl
theorem F.mov (w : LR) : F.Statement (.mov w) := rfl
theorem F.sel (w : LR) : F.Statement (.sel w) := rfl
theorem F.icmp (w : LR) : F.Statement (.icmp w) := rfl
theorem F.ldi (w : LI) : F.Statement (.ldi w) := rfl
theorem F.iaddi (w : LI) : F.Statement (.iaddi w) := rfl
theorem F.imuli (w : LI) : F.Statement (.imuli w) := rfl
theorem F.andi (w : LI) : F.Statement (.andi w) := rfl
theorem F.ori (w : LI) : F.Statement (.ori w) := rfl
theorem F.xori (w : LI) : F.Statement (.xori w) := rfl
theorem F.shifti (w : LI) : F.Statement (.shifti w) := rfl
theorem F.icmpi (w : LI) : F.Statement (.icmpi w) := rfl
theorem F.fadd (w : LR) : F.Statement (.fadd w) := rfl
theorem F.fsub (w : LR) : F.Statement (.fsub w) := rfl
theorem F.fmul (w : LR) : F.Statement (.fmul w) := rfl
theorem F.ffma (w : LR) : F.Statement (.ffma w) := rfl
theorem F.fmin (w : LR) : F.Statement (.fmin w) := rfl
theorem F.fmax (w : LR) : F.Statement (.fmax w) := rfl
theorem F.fdiv (w : LR) : F.Statement (.fdiv w) := rfl
theorem F.fsqrt (w : LR) : F.Statement (.fsqrt w) := rfl
theorem F.frcp (w : LR) : F.Statement (.frcp w) := rfl
theorem F.frsq (w : LR) : F.Statement (.frsq w) := rfl
theorem F.fexp2 (w : LR) : F.Statement (.fexp2 w) := rfl
theorem F.flog2 (w : LR) : F.Statement (.flog2 w) := rfl
theorem F.ftanh (w : LR) : F.Statement (.ftanh w) := rfl
theorem F.fsin (w : LR) : F.Statement (.fsin w) := rfl
theorem F.fcmp (w : LR) : F.Statement (.fcmp w) := rfl
theorem F.fclass (w : LR) : F.Statement (.fclass w) := rfl
theorem F.faddi (w : LI) : F.Statement (.faddi w) := rfl
theorem F.fmuli (w : LI) : F.Statement (.fmuli w) := rfl
theorem F.cvtf (w : LR) : F.Statement (.cvtf w) := rfl
theorem F.cvtfi (w : LR) : F.Statement (.cvtfi w) := rfl
theorem F.cvtif (w : LR) : F.Statement (.cvtif w) := rfl
theorem F.scaleb (w : LR) : F.Statement (.scaleb w) := rfl
theorem F.packmx (w : LR) : F.Statement (.packmx w) := rfl
theorem F.unpkmx (w : LR) : F.Statement (.unpkmx w) := rfl
theorem F.packds (w : LR) : F.Statement (.packds w) := rfl
theorem F.unpkds (w : LR) : F.Statement (.unpkds w) := rfl
theorem F.shfl (w : LR) : F.Statement (.shfl w) := rfl
theorem F.lrot (w : LR) : F.Statement (.lrot w) := rfl
theorem F.lscan (w : LR) : F.Statement (.lscan w) := rfl
theorem F.lred (w : LR) : F.Statement (.lred w) := rfl
theorem F.lbcast (w : LR) : F.Statement (.lbcast w) := rfl
theorem F.compact (w : LR) : F.Statement (.compact w) := rfl
theorem F.mlog (w : LR) : F.Statement (.mlog w) := rfl
theorem F.mset (w : LR) : F.Statement (.mset w) := rfl
theorem F.menter (w : LR) : F.Statement (.menter w) := rfl
theorem F.mflip (w : LR) : F.Statement (.mflip w) := rfl
theorem F.mleave (w : LR) : F.Statement (.mleave w) := rfl
theorem F.mfirst (w : LR) : F.Statement (.mfirst w) := rfl
theorem F.mtov (w : LR) : F.Statement (.mtov w) := rfl
theorem F.vtom (w : LR) : F.Statement (.vtom w) := rfl
theorem F.vote (w : LI) : F.Statement (.vote w) := rfl
theorem F.setfmt (w : LI) : F.Statement (.setfmt w) := rfl
theorem F.claim (w : LI) : F.Statement (.claim w) := rfl
theorem F.give (w : LI) : F.Statement (.give w) := rfl
theorem F.trapw (w : LI) : F.Statement (.trapw w) := rfl
theorem F.lbrk (w : LI) : F.Statement (.lbrk w) := rfl
theorem F.wset (w : LI) : F.Statement (.wset w) := rfl
theorem F.lfence (w : LM) : F.Statement (.lfence w) := rfl
theorem F.ldw (w : LM) : F.Statement (.ldw w) := rfl
theorem F.stw (w : LM) : F.Statement (.stw w) := rfl
theorem F.ldg (w : LM) : F.Statement (.ldg w) := rfl
theorem F.stg (w : LM) : F.Statement (.stg w) := rfl
theorem F.atom (w : LM) : F.Statement (.atom w) := rfl
theorem F.atomn (w : LM) : F.Statement (.atomn w) := rfl
theorem F.cas (w : LM) : F.Statement (.cas w) := rfl
theorem F.prefw (w : LM) : F.Statement (.prefw w) := rfl
theorem F.ldt (w : LR) : F.Statement (.ldt w) := rfl
theorem F.stt (w : LR) : F.Statement (.stt w) := rfl
theorem F.tempty (w : LR) : F.Statement (.tempty w) := rfl
theorem F.tfull (w : LR) : F.Statement (.tfull w) := rfl
theorem F.harrive (w : LI) : F.Statement (.harrive w) := rfl
theorem F.hsync (w : LI) : F.Statement (.hsync w) := rfl
theorem F.hwait (w : LI) : F.Statement (.hwait w) := rfl
theorem F.hexpect (w : LI) : F.Statement (.hexpect w) := rfl
theorem F.spld (w : LM) : F.Statement (.spld w) := rfl
theorem F.spst (w : LM) : F.Statement (.spst w) := rfl
theorem F.spnext (w : LM) : F.Statement (.spnext w) := rfl
theorem F.spadd (w : LM) : F.Statement (.spadd w) := rfl
theorem F.mma (w : LR) : F.Statement (.mma w) := rfl
theorem F.mmaz (w : LR) : F.Statement (.mmaz w) := rfl
theorem F.had (w : LR) : F.Statement (.had w) := rfl
theorem F.tcvt (w : LR) : F.Statement (.tcvt w) := rfl
theorem F.tepi (w : LR) : F.Statement (.tepi w) := rfl
theorem F.tepiMem (w : LR) : F.Statement (.tepiMem w) := rfl
theorem F.tnew (w : LR) : F.Statement (.tnew w) := rfl
theorem F.tfree (w : LR) : F.Statement (.tfree w) := rfl
theorem F.tzero (w : LR) : F.Statement (.tzero w) := rfl
theorem F.tfromv (w : LR) : F.Statement (.tfromv w) := rfl
theorem F.ttov (w : LR) : F.Statement (.ttov w) := rfl
theorem F.ttrans (w : LR) : F.Statement (.ttrans w) := rfl
theorem F.tred (w : LR) : F.Statement (.tred w) := rfl
theorem F.descend (w : LR) : F.Statement (.descend w) := rfl
theorem F.dregroup (w : LR) : F.Statement (.dregroup w) := rfl
theorem F.dtrace (w : LR) : F.Statement (.dtrace w) := rfl
theorem F.dgrad (w : LR) : F.Statement (.dgrad w) := rfl
theorem F.dleaf (w : LR) : F.Statement (.dleaf w) := rfl
theorem F.sadd (w : GR) : F.Statement (.sadd w) := rfl
theorem F.ssub (w : GR) : F.Statement (.ssub w) := rfl
theorem F.smul (w : GR) : F.Statement (.smul w) := rfl
theorem F.smulhi (w : GR) : F.Statement (.smulhi w) := rfl
theorem F.sdiv (w : GR) : F.Statement (.sdiv w) := rfl
theorem F.srem (w : GR) : F.Statement (.srem w) := rfl
theorem F.smin (w : GR) : F.Statement (.smin w) := rfl
theorem F.smax (w : GR) : F.Statement (.smax w) := rfl
theorem F.sand (w : GR) : F.Statement (.sand w) := rfl
theorem F.sor (w : GR) : F.Statement (.sor w) := rfl
theorem F.sxor (w : GR) : F.Statement (.sxor w) := rfl
theorem F.sshl (w : GR) : F.Statement (.sshl w) := rfl
theorem F.sshr (w : GR) : F.Statement (.sshr w) := rfl
theorem F.ssar (w : GR) : F.Statement (.ssar w) := rfl
theorem F.spopc (w : GR) : F.Statement (.spopc w) := rfl
theorem F.sclz (w : GR) : F.Statement (.sclz w) := rfl
theorem F.sbfx (w : GR) : F.Statement (.sbfx w) := rfl
theorem F.sbfi (w : GR) : F.Statement (.sbfi w) := rfl
theorem F.smov (w : GR) : F.Statement (.smov w) := rfl
theorem F.ssel (w : GR) : F.Statement (.ssel w) := rfl
theorem F.scmp (w : GR) : F.Statement (.scmp w) := rfl
theorem F.sldi (w : GI) : F.Statement (.sldi w) := rfl
theorem F.sldih (w : GI) : F.Statement (.sldih w) := rfl
theorem F.saddi (w : GI) : F.Statement (.saddi w) := rfl
theorem F.sandi (w : GI) : F.Statement (.sandi w) := rfl
theorem F.sshli (w : GI) : F.Statement (.sshli w) := rfl
theorem F.scmpi (w : GI) : F.Statement (.scmpi w) := rfl
theorem F.sfadd (w : GR) : F.Statement (.sfadd w) := rfl
theorem F.sfmul (w : GR) : F.Statement (.sfmul w) := rfl
theorem F.sffma (w : GR) : F.Statement (.sffma w) := rfl
theorem F.sfcvt (w : GR) : F.Statement (.sfcvt w) := rfl
theorem F.br (w : GB) : F.Statement (.br w) := rfl
theorem F.brz (w : GB) : F.Statement (.brz w) := rfl
theorem F.loop (w : GB) : F.Statement (.loop w) := rfl
theorem F.call (w : GB) : F.Statement (.call w) := rfl
theorem F.ret (w : GR) : F.Statement (.ret w) := rfl
theorem F.jmpr (w : GR) : F.Statement (.jmpr w) := rfl
theorem F.exitw (w : GR) : F.Statement (.exitw w) := rfl
theorem F.yield (w : GB) : F.Statement (.yield w) := rfl
theorem F.yieldTag (w : GB) : F.Statement (.yieldTag w) := rfl
theorem F.emit (w : GE) : F.Statement (.emit w) := rfl
theorem F.recw (w : GE) : F.Statement (.recw w) := rfl
theorem F.replay (w : GE) : F.Statement (.replay w) := rfl
theorem F.pbdrop (w : GR) : F.Statement (.pbdrop w) := rfl
theorem F.vread (w : GR) : F.Statement (.vread w) := rfl
theorem F.vpeek (w : GR) : F.Statement (.vpeek w) := rfl
theorem F.sdrain (w : GR) : F.Statement (.sdrain w) := rfl
theorem F.trans (w : GR) : F.Statement (.trans w) := rfl
theorem F.sld (w : GM) : F.Statement (.sld w) := rfl
theorem F.sst (w : GM) : F.Statement (.sst w) := rfl
theorem F.satom (w : GM) : F.Statement (.satom w) := rfl
theorem F.scas (w : GM) : F.Statement (.scas w) := rfl
theorem F.sfence (w : GM) : F.Statement (.sfence w) := rfl
theorem F.mwait (w : GM) : F.Statement (.mwait w) := rfl
theorem F.spref (w : GM) : F.Statement (.spref w) := rfl
theorem F.copy (w : GR) : F.Statement (.copy w) := rfl
theorem F.copywait (w : GR) : F.Statement (.copywait w) := rfl
theorem F.copyq (w : GR) : F.Statement (.copyq w) := rfl
theorem F.copyqResume (w : GR) : F.Statement (.copyqResume w) := rfl
theorem F.copycan (w : GR) : F.Statement (.copycan w) := rfl
theorem F.gwin (w : GR) : F.Statement (.gwin w) := rfl
theorem F.gunwin (w : GR) : F.Statement (.gunwin w) := rfl
theorem F.gharrive (w : GR) : F.Statement (.gharrive w) := rfl
theorem F.ghsync (w : GR) : F.Statement (.ghsync w) := rfl
theorem F.chsend (w : GR) : F.Statement (.chsend w) := rfl
theorem F.chrecv (w : GR) : F.Statement (.chrecv w) := rfl
theorem F.chset (w : GR) : F.Statement (.chset w) := rfl
theorem F.tspawn (w : GR) : F.Statement (.tspawn w) := rfl
theorem F.tretire (w : GR) : F.Statement (.tretire w) := rfl
theorem F.tretireAt (w : GR) : F.Statement (.tretireAt w) := rfl
theorem F.tscore (w : GR) : F.Statement (.tscore w) := rfl
theorem F.tscoreFree (w : GR) : F.Statement (.tscoreFree w) := rfl
theorem F.twait (w : GR) : F.Statement (.twait w) := rfl
theorem F.twaitAny (w : GR) : F.Statement (.twaitAny w) := rfl
theorem F.specq (w : GR) : F.Statement (.specq w) := rfl
theorem F.spechold (w : GR) : F.Statement (.spechold w) := rfl
theorem F.spnew (w : GR) : F.Statement (.spnew w) := rfl
theorem F.spnewAttach (w : GR) : F.Statement (.spnewAttach w) := rfl
theorem F.spfree (w : GR) : F.Statement (.spfree w) := rfl
theorem F.spfreeStat (w : GR) : F.Statement (.spfreeStat w) := rfl
theorem F.seal (w : GR) : F.Statement (.seal w) := rfl
theorem F.sealFree (w : GR) : F.Statement (.sealFree w) := rfl
theorem F.sealQ (w : GR) : F.Statement (.sealQ w) := rfl
theorem F.digest (w : GR) : F.Statement (.digest w) := rfl
theorem F.dtset (w : GR) : F.Statement (.dtset w) := rfl
theorem F.gtrap (w : GR) : F.Statement (.gtrap w) := rfl
theorem F.sread (w : GR) : F.Statement (.sread w) := rfl
theorem F.swrite (w : GR) : F.Statement (.swrite w) := rfl
theorem F.eret (w : GR) : F.Statement (.eret w) := rfl
theorem F.eretSkip (w : GR) : F.Statement (.eretSkip w) := rfl
theorem F.eretTarget (w : GR) : F.Statement (.eretTarget w) := rfl
theorem F.ctxsaveRec (w : GR) : F.Statement (.ctxsaveRec w) := rfl
theorem F.ctxloadRec (w : GR) : F.Statement (.ctxloadRec w) := rfl
theorem F.ctxsaveSquad (w : GR) : F.Statement (.ctxsaveSquad w) := rfl
theorem F.ctxloadSquad (w : GR) : F.Statement (.ctxloadSquad w) := rfl
theorem F.tmask (w : GR) : F.Statement (.tmask w) := rfl
theorem F.umprel (w : GR) : F.Statement (.umprel w) := rfl
theorem F.umprelKill (w : GR) : F.Statement (.umprelKill w) := rfl
theorem F.gnop (w : GR) : F.Statement (.gnop w) := rfl
theorem F.tresume (w : GR) : F.Statement (.tresume w) := rfl
theorem F.clauseHeaderDecode : F.Statement .clauseHeaderDecode := rfl
theorem F.stretchDeliver : F.Statement .stretchDeliver := rfl
theorem F.replayIteration : F.Statement .replayIteration := rfl
theorem F.playbookFill : F.Statement .playbookFill := rfl
theorem F.flagIdle : F.Statement .flagIdle := rfl
theorem F.lineWaitResume : F.Statement .lineWaitResume := rfl
theorem F.tileStarvedTimeout : F.Statement .tileStarvedTimeout := rfl
theorem F.huddleWaitEnd : F.Statement .huddleWaitEnd := rfl
theorem F.matrixUnitStart : F.Statement .matrixUnitStart := rfl
theorem F.claimGrant : F.Statement .claimGrant := rfl
theorem F.giveReturn : F.Statement .giveReturn := rfl
theorem F.tfreeEffect : F.Statement .tfreeEffect := rfl
theorem F.teamEvict : F.Statement .teamEvict := rfl
theorem F.teamReturn : F.Statement .teamReturn := rfl
theorem F.teamEnd : F.Statement .teamEnd := rfl
theorem F.squadExit : F.Statement .squadExit := rfl
theorem F.voteReadable : F.Statement .voteReadable := rfl
theorem F.trapEntry : F.Statement .trapEntry := rfl
theorem F.contextWaitResume : F.Statement .contextWaitResume := rfl
theorem F.mwaitReread : F.Statement .mwaitReread := rfl
theorem F.preemptContext : F.Statement .preemptContext := rfl
theorem F.preemptDeferTimeout : F.Statement .preemptDeferTimeout := rfl
theorem F.contextRestore : F.Statement .contextRestore := rfl
theorem F.copyStart : F.Statement .copyStart := rfl
theorem F.copyLineWrite : F.Statement .copyLineWrite := rfl
theorem F.copyComplete : F.Statement .copyComplete := rfl
theorem F.l1Fill : F.Statement .l1Fill := rfl
theorem F.faultRecord : F.Statement .faultRecord := rfl
theorem F.fdoneWrite : F.Statement .fdoneWrite := rfl
theorem F.firstTouchService : F.Statement .firstTouchService := rfl
theorem F.bullpenRefill : F.Statement .bullpenRefill := rfl
theorem F.shootdownStart : F.Statement .shootdownStart := rfl
theorem F.shootdownComplete : F.Statement .shootdownComplete := rfl
theorem F.mailboxCreate : F.Statement .mailboxCreate := rfl
theorem F.mailboxDestroy : F.Statement .mailboxDestroy := rfl
theorem F.configRegWrite : F.Statement .configRegWrite := rfl
theorem F.patrolScrub : F.Statement .patrolScrub := rfl
theorem F.taskReady : F.Statement .taskReady := rfl
theorem F.lineupRise : F.Statement .lineupRise := rfl
theorem F.taskPlace : F.Statement .taskPlace := rfl
theorem F.quantumExpiry : F.Statement .quantumExpiry := rfl
theorem F.exclLoad : F.Statement .exclLoad := rfl
theorem F.taskRetire : F.Statement .taskRetire := rfl
theorem F.versionFold : F.Statement .versionFold := rfl
theorem F.specReady : F.Statement .specReady := rfl
theorem F.specValidate : F.Statement .specValidate := rfl
theorem F.specCommit : F.Statement .specCommit := rfl
theorem F.hostRead : F.Statement .hostRead := rfl
theorem F.hostWrite : F.Statement .hostWrite := rfl
theorem F.launchFrame : F.Statement .launchFrame := rfl
theorem F.hostAck : F.Statement .hostAck := rfl
theorem F.messageResend : F.Statement .messageResend := rfl
theorem F.managementMessage : F.Statement .managementMessage := rfl
theorem F.spdmGetMeasurements : F.Statement .spdmGetMeasurements := rfl
theorem F.ownerCreate : F.Statement .ownerCreate := rfl
theorem F.ownerRetire : F.Statement .ownerRetire := rfl
theorem F.logConsumeAdvance : F.Statement .logConsumeAdvance := rfl
theorem F.powerOn : F.Statement .powerOn := rfl
theorem F.hostReset : F.Statement .hostReset := rfl
theorem F.flitCrcRetry : F.Statement .flitCrcRetry := rfl
theorem F.linkFailure : F.Statement .linkFailure := rfl
theorem F.opEntryWrite : F.Statement .opEntryWrite := rfl
theorem F.opointRecompute : F.Statement .opointRecompute := rfl
theorem F.governorInterval : F.Statement .governorInterval := rfl
theorem F.energyUpdate : F.Statement .energyUpdate := rfl
theorem F.sensorSample : F.Statement .sensorSample := rfl
theorem F.clampLift : F.Statement .clampLift := rfl
theorem F.undervoltStep : F.Statement .undervoltStep := rfl
theorem F.powerEvent : F.Statement .powerEvent := rfl
theorem F.undervoltLockoutEnd : F.Statement .undervoltLockoutEnd := rfl
theorem F.violationRecord : F.Statement .violationRecord := rfl
theorem F.sealHashDone : F.Statement .sealHashDone := rfl
theorem F.firmwareUpdate : F.Statement .firmwareUpdate := rfl
theorem F.firmwareHeartbeat : F.Statement .firmwareHeartbeat := rfl
theorem F.probationTimeout : F.Statement .probationTimeout := rfl
theorem F.remoteRequest : F.Statement .remoteRequest := rfl
theorem F.remoteResponse : F.Statement .remoteResponse := rfl
theorem F.remoteTimeout : F.Statement .remoteTimeout := rfl
theorem F.shootdownNotice : F.Statement .shootdownNotice := rfl
theorem F.illegalLaneOpc : F.Statement .illegalLaneOpc := rfl
theorem F.illegalGenOpc : F.Statement .illegalGenOpc := rfl

end Sys2Proof.Laws
end

