-- ==== Sys2Proof/Laws/Spans.lean ====
section
/-! SUPPORT. Reads and writes of consecutive virtual bytes, of any length, where every page is at hand: the write is allowed as a whole,
and the read gives every byte in order. -/

namespace Sys2Proof.Machine

/-- A write over pages that all translate and that nothing guards by no uncommitted speculative task passes its test and changes nothing by
it. -/
theorem State.spanTest_ok {s : State} {a : Access} {va0 lo hi : Nat} {x : Nat → Xl}
    (ha : a.spec = false) (ht : ∀ v, lo ≤ v → v < hi → s.translate a v { wr := true } = (.ok (x v), s))
    (hg : ∀ v bs, lo ≤ v → v + bs.length ≤ hi → s.writeGuard a v (x v).pa bs = none) :
    ∀ (f va : Nat) (bs : List Byte) (seen : List (Nat × Nat)), lo ≤ va → va + bs.length ≤ hi → State.spanTest a va0 f s va bs seen = (.ok (), s) := by
  intro f
  induction f with
  | zero => intro va bs seen _ _; rfl
  | succ f ih =>
    intro va bs seen h1 h2
    unfold State.spanTest
    by_cases hb : bs = []
    · simp [hb]
    · have hl : 0 < bs.length := List.length_pos_iff.mpr hb
      have hk : min bs.length (2 ^ 16 - va % 2 ^ 16) ≤ bs.length := Nat.min_le_left _ _
      rw [if_neg (by simp [hb])]
      simp only [State.translateFor, ht va h1 (by omega), MR.at, LR2.andThen]
      rw [hg va _ h1 (by simp only [List.length_take]; omega)]
      simp only [State.overTogether, ha, Bool.false_and, Bool.false_eq_true, if_false]
      exact ih _ _ _ (by omega) (by simp only [List.length_drop]; omega)

/-- A read over pages that all translate and whose bytes read without a stop gives every byte in order and leaves the state as it is. -/
theorem State.spanRead_ok {s : State} {a : Access} {va0 lo hi : Nat} {x : Nat → Xl} {g : Nat → Byte}
    (ht : ∀ v, lo ≤ v → v < hi → s.translate a v { rd := true } = (.ok (x v), s))
    (hr : ∀ v k, lo ≤ v → v + k ≤ hi → s.pread a v (x v).pa (pteZor (x v).leaf) k false = (.ok ((upTo k).map fun i => g (v + i)), s)) :
    ∀ (f va n : Nat), lo ≤ va → va + n ≤ hi → (0 < n → n + va % 2 ^ 16 ≤ f * 2 ^ 16) →
      State.spanRead a va0 f s va n = (.ok ((upTo n).map fun i => g (va + i)), s) := by
  intro f
  induction f with
  | zero => intro va n _ _ h; obtain rfl : n = 0 := by omega
            rfl
  | succ f ih =>
    intro va n h1 h2 h3
    unfold State.spanRead
    by_cases hn : n = 0
    · subst hn; rfl
    · rw [if_neg hn]
      have hm : va % 2 ^ 16 < 2 ^ 16 := Nat.mod_lt _ (by omega)
      generalize hk : min n (2 ^ 16 - va % 2 ^ 16) = k
      have hkn : k ≤ n := by omega
      have hf : 0 < n - k → n - k + (va + k) % 2 ^ 16 ≤ f * 2 ^ 16 := by
        intro hp
        have : (va + k) % 2 ^ 16 = 0 := by omega
        omega
      simp only [State.translateFor, ht va h1 (by omega), MR.at, LR2.andThen, MR.atPage]
      rw [hr va k h1 (by omega)]
      simp only
      rw [ih (va + k) (n - k) (by omega) (by omega) hf]
      simp only [Prod.mk.injEq, Except.ok.injEq, and_true]
      obtain ⟨j, rfl⟩ : ∃ j, n = k + j := ⟨n - k, by omega⟩
      simp only [upTo, List.range_add, List.map_append, List.map_map, Nat.add_sub_cancel_left]
      congr 1
      apply List.map_congr_left
      intro i _
      simp [Function.comp, Nat.add_assoc]

end Sys2Proof.Machine
end

