-- ==== Sys2Proof/Tests/Slice0.lean ====
section
/-! SUPPORT. Tests: well-formedness, decoding of words that the spec writes out, one-step results worked out by hand from the spec, and for
each statement about states a state and operands that meet its hypotheses. -/

namespace Sys2Proof.Tests

open Sys2Proof.Machine

/-! ## States to test on -/

/-- The package after reset with word i in the stream buffer of a 16-lane team, which is the current unit. -/
def laneSt (i : Instr) (f : Team → Team := id) : State :=
  { (State.reset.withFetchWord 64 ((encode i).getD 0).toNat).modTeam 1 0 f with cur := some (.team 1 0) }

/-- The package after reset with word i at the PC of a context, which is the current unit. -/
def genSt (i : Instr) (f : Ctx → Ctx := id) : State :=
  { (State.reset.withFetchWord 64 ((encode i).getD 0).toNat).modCtx 1 0 f with cur := some (.ctx 1 0) }

/-- The check behind `LaneReady`, with a further condition on what the word acts on. -/
def laneIs (s : State) (i : Instr) (ms : BitVec 3) (p : LaneIn → Bool) : Bool :=
  match s.cur with
  | some (.team q t) => match s.squad q with
    | some sq => match sq.teams[t]? with
      | some tm => fieldCheck tm.ckEnv i == none && tm.badRead i (tm.acting ms) == none
          && tm.hazards.all (fun h => !h.live tm.busy (s.cycleAt sq)) && p (laneIn s q t sq tm ms)
      | none => false
    | none => false
  | _ => false

/-- The check behind `GenReady`, with a further condition on what the word acts on. -/
def genIs (s : State) (i : Instr) (cnd : BitVec 4) (p : GenIn → Bool) : Bool :=
  match s.cur with
  | some (.ctx q c) => match s.squad q with
    | some sq => match sq.ctxs[c]? with
      | some cx => fieldCheck {} i == none && cx.cc.holds cnd.toNat
          && cx.hazards.all (fun h => !h.live cx.busy (s.cycleAt sq)) && p (genIn s q c sq cx)
      | none => false
    | none => false
  | _ => false

theorem laneIs_ready {s : State} {i : Instr} {ms : BitVec 3} {p : LaneIn → Bool} (h : laneIs s i ms p = true) :
    ∃ q t sq tm, LaneReady s q t sq tm i ms ∧ p (laneIn s q t sq tm ms) = true := by
  unfold laneIs at h
  split at h <;> try contradiction
  rename_i q t hc
  split at h <;> try contradiction
  rename_i sq hs
  split at h <;> try contradiction
  rename_i tm ht
  simp only [Bool.and_eq_true, List.all_eq_true, Bool.not_eq_true', beq_iff_eq] at h
  exact ⟨q, t, sq, tm, ⟨hc, hs, ht, h.1.1.1, h.1.1.2, h.1.2⟩, h.2⟩

theorem genIs_ready {s : State} {i : Instr} {cnd : BitVec 4} {p : GenIn → Bool} (h : genIs s i cnd p = true) :
    ∃ q c sq cx, GenReady s q c sq cx i cnd ∧ p (genIn s q c sq cx) = true := by
  unfold genIs at h
  split at h <;> try contradiction
  rename_i q c hc
  split at h <;> try contradiction
  rename_i sq hs
  split at h <;> try contradiction
  rename_i cx ht
  simp only [Bool.and_eq_true, List.all_eq_true, Bool.not_eq_true', beq_iff_eq] at h
  exact ⟨q, c, sq, cx, ⟨hc, hs, ht, h.1.1.1, h.1.1.2, h.1.2⟩, h.2⟩

/-- A word is ready at a state, as one of a team, and the condition holds of what it acts on. -/
def LaneWitness (s : State) (i : Instr) (p : LaneIn → Bool) : Prop :=
  ∃ q t sq tm, LaneReady s q t sq tm i 0 ∧ p (laneIn s q t sq tm 0) = true

/-- A word is ready at a state, as one of a context, and the condition holds of what it acts on. -/
def GenWitness (s : State) (i : Instr) (p : GenIn → Bool) : Prop :=
  ∃ q c sq cx, GenReady s q c sq cx i 0 ∧ p (genIn s q c sq cx) = true

theorem laneWitness {l : List (State × Instr × (LaneIn → Bool))} (h : l.all (fun x => laneIs x.1 x.2.1 0 x.2.2) = true) :
    ∀ x ∈ l, LaneWitness x.1 x.2.1 x.2.2 := fun x hx => laneIs_ready (List.all_eq_true.mp h x hx)

theorem genWitness {l : List (State × Instr × (GenIn → Bool))} (h : l.all (fun x => genIs x.1 x.2.1 0 x.2.2) = true) :
    ∀ x ∈ l, GenWitness x.1 x.2.1 x.2.2 := fun x hx => genIs_ready (List.all_eq_true.mp h x hx)

/-- Each word of a list at its state, with no further condition. -/
def laneAt (l : List Instr) : List (State × Instr × (LaneIn → Bool)) := l.map fun i => (laneSt i, i, fun _ => true)

/-- Each word of a list at its state, with no further condition. -/
def genAt (l : List Instr) : List (State × Instr × (GenIn → Bool)) := l.map fun i => (genSt i, i, fun _ => true)

/-! ## Well-formedness: one ill-formed term for each check -/

/-- A word of another row of its opcode (R254). -/
theorem test_wf_row : (Instr.copyq ⟨0, 0, 0, 0, 0, 1, 0⟩).wf = false := by decide
/-- A device step is no word. -/
theorem test_wf_step : Instr.powerOn.wf = false := by decide
/-- A nonzero unused field (R30). -/
theorem test_wf_unused : (Instr.iadd ⟨0, 4, 3, 1, 2, 9, 0, 0⟩).wf = false := by decide
/-- A nonzero bit outside FN's (R30). -/
theorem test_wf_fn : (Instr.iadd ⟨0, 4, 3, 1, 2, 0, 1, 0⟩).wf = false := by decide
/-- A nonzero bit outside EX's (R30). -/
theorem test_wf_ex : (Instr.iadd ⟨0, 4, 3, 1, 2, 0, 0, 0x80⟩).wf = false := by decide
/-- A special operand as a destination (R31). -/
theorem test_wf_destination : (Instr.iadd ⟨0, 4, 0x80, 1, 2, 0, 0, 0⟩).wf = false := by decide
/-- An odd pair (R32). -/
theorem test_wf_pair : (Instr.iadd ⟨0, 6, 3, 2, 4, 0, 0, 0⟩).wf = false := by decide
/-- A mask destination m0 (R97). -/
theorem test_wf_mask : (Instr.icmp ⟨0, 4, 0, 1, 2, 0, 0, 0⟩).wf = false := by decide
/-- A type that the word does not take (R34). -/
theorem test_wf_type : (Instr.iadd ⟨0, 10, 3, 1, 2, 0, 0, 0⟩).wf = false := by decide
/-- A scope on a plain load (R136). -/
theorem test_wf_scope : (Instr.ldw ⟨0, 5, 7, 2, 1, 0, 1, 0⟩).wf = false := by decide
/-- An immediate outside a word's bits (R103). -/
theorem test_wf_imm : (Instr.shifti ⟨0, 4, 3, 1, 0x100⟩).wf = false := by decide
/-- A condition code 0xD to 0xF (R37). -/
theorem test_wf_condition : (Instr.sadd ⟨13, 0, 1, 2, 3, 0, 0⟩).wf = false := by decide
/-- A size code outside the list (R36). -/
theorem test_wf_size : (Instr.sadd ⟨0, 4, 1, 2, 3, 0, 0⟩).wf = false := by decide
/-- A nonzero GB field [51:48] (R35). -/
theorem test_wf_gb : (Instr.br ⟨0, 1, 0, 0, 2⟩).wf = false := by decide
/-- Nine holes (R35). -/
theorem test_wf_holes : (Instr.emit ⟨9, 0, 0, 0, 2, 0⟩).wf = false := by decide
/-- An emission block of no words (R35). -/
theorem test_wf_length : (Instr.emit ⟨0, 0, 0, 0, 0, 0⟩).wf = false := by decide
/-- A size code of a scalar access (R35). -/
theorem test_wf_access : (Instr.sld ⟨0, 0, 4, 1, 2, 0⟩).wf = false := by decide

/-! ## Words that the spec writes out -/

/-- 09_cluster_generator.md R216's example. -/
theorem test_decode_saddi : decodeWord 0xB700202000000004#64 = .ok (.saddi ⟨0, 0, 32, 32, 4⟩) := by decide +kernel
/-- 06_lane_memory.md, the faulting load of its example. -/
theorem test_decode_ldw : decodeWord 0x6805070440000000#64 = .ok (.ldw ⟨0, 5, 7, 2, 1, 0, 0, 0⟩) := by decide +kernel
/-- 14_prog_handoff_votes.md, its table of words. -/
theorem test_decode_icmpi : decodeWord 0x2705018300000000#64 = .ok (.icmpi ⟨0, 5, 1, 0x83, 0⟩) := by decide +kernel
/-- 14_prog_handoff_votes.md. -/
theorem test_decode_hsync : decodeWord 0x7500000000020002#64 = .ok (.hsync ⟨0, 0, 0, 0, 0x20002⟩) := by decide +kernel
/-- 07_core_matrix.md R172's example under REUSE. -/
theorem test_decode_mma_reuse : decodeWord 0x8008031014120080#64 = .ok (.mma ⟨0, 8, 3, 16, 20, 0x12, 0, 0x80⟩) := by decide +kernel
/-- 13_prog_replay.md. -/
theorem test_decode_replay : decodeWord 0xCA002000000F0001#64 = .ok (.replay ⟨0, 0, 0x20, 0, 15, 1⟩) := by decide +kernel
/-- 15_die_memory.md R323's example. -/
theorem test_decode_gwin : decodeWord 0xDC00022800C30000#64 = .ok (.gwin ⟨0, 0, 2, 40, 0, 0xC3, 0⟩) := by decide +kernel
/-- 16_die_consistency.md, its table of fences. -/
theorem test_decode_lfence : decodeWord 0x6700000038000000#64 = .ok (.lfence ⟨0, 0, 0, 0, 0, 3, 4, 0⟩) := by decide +kernel
/-- 17_die_sparse.md R353's example. -/
theorem test_decode_spld : decodeWord 0x780A0808C0000000#64 = .ok (.spld ⟨0, 10, 8, 4, 3, 0, 0, 0⟩) := by decide +kernel
/-- 20_prog_tasks.md, its table of words. -/
theorem test_decode_tretire_at : decodeWord 0xE900000A00010000#64 = .ok (.tretireAt ⟨0, 0, 0, 10, 0, 1, 0⟩) := by decide +kernel
/-- 24_prog_forest.md. -/
theorem test_decode_dleaf : decodeWord 0x942A140A00030000#64 = .ok (.dleaf ⟨1, 10, 20, 10, 0, 3, 0, 0⟩) := by decide +kernel
/-- 12_cluster_failures.md, TRESUME.SKIP of team 1. -/
theorem test_decode_tresume : decodeWord 0xFD00000000010001#64 = .ok (.tresume ⟨0, 0, 0, 0, 0, 1, 1⟩) := by decide +kernel
/-- Lane and generator opcodes that no row has are rejected by name (R40). -/
theorem test_decode_reserved : decodeWord 0x2800000000000000#64 = .error .illegalLaneOpc ∧ decodeWord 0xBB00000000000000#64 = .error .illegalGenOpc := by
  decide +kernel

/-! ## States and operands that meet the statements' hypotheses: lane words -/

theorem test_witness_IntegerArithmetic :
    ∀ x ∈ laneAt [Instr.iadd ⟨0, 4, 3, 1, 2, 0, 0, 4⟩, .isub ⟨0, 5, 127, 1, 2, 0, 0, 0⟩, .imul ⟨0, 6, 126, 0, 2, 0, 0, 0⟩, .imad ⟨0, 4, 3, 1, 2, 3, 0, 0⟩,
      .iadds ⟨0, 4, 3, 1, 2, 0, 31, 0⟩, .iabs ⟨0, 4, 3, 0x80, 0, 0, 0, 0⟩, .imadw ⟨0, 4, 4, 1, 2, 4, 0, 0⟩],
      LaneWitness x.1 x.2.1 x.2.2 := laneWitness (by decide +kernel)

theorem test_witness_Division :
    ∀ x ∈ laneAt [Instr.idiv ⟨0, 4, 3, 1, 2, 0, 0, 0⟩, .irem ⟨0, 7, 4, 0, 2, 0, 0, 0⟩],
      LaneWitness x.1 x.2.1 x.2.2 := laneWitness (by decide +kernel)

theorem test_witness_Division_scalar :
    ∀ x ∈ genAt [Instr.sdiv ⟨0, 0, 1, 2, 3, 4, 0⟩, .srem ⟨0, 3, 255, 2, 3, 2, 0⟩],
      GenWitness x.1 x.2.1 x.2.2 := genWitness (by decide +kernel)

theorem test_witness_LogicalShiftFieldAndImmediate :
    ∀ x ∈ laneAt [Instr.imulhi ⟨0, 4, 3, 1, 2, 0, 0, 0⟩, .imin ⟨0, 5, 3, 1, 2, 0, 0, 0⟩, .imax ⟨0, 4, 3, 1, 2, 0, 0, 0⟩, .andv ⟨0, 4, 3, 1, 2, 0, 0, 0⟩,
      .orv ⟨0, 4, 3, 1, 2, 0, 0, 0⟩, .xorv ⟨0, 4, 3, 1, 2, 0, 0, 0⟩, .andn ⟨0, 4, 3, 1, 2, 0, 0, 0⟩, .shl ⟨0, 4, 3, 1, 2, 0, 0, 0⟩,
      .shr ⟨0, 5, 3, 1, 2, 0, 0, 0⟩, .sar ⟨0, 4, 3, 1, 2, 0, 0, 0⟩, .rot ⟨0, 6, 4, 0, 2, 0, 0, 0⟩, .popc ⟨0, 4, 3, 1, 0, 0, 0, 0⟩,
      .clz ⟨0, 4, 3, 1, 0, 0, 0, 0⟩, .brev ⟨0, 4, 3, 1, 0, 0, 0, 0⟩, .bfx ⟨0, 4, 3, 1, 2, 0, 0, 0⟩, .bfi ⟨0, 4, 3, 1, 2, 3, 0, 0⟩,
      .mov ⟨0, 10, 3, 0x86, 0, 0, 0, 0⟩, .sel ⟨0, 4, 3, 1, 2, 0, 7, 0⟩, .ldi ⟨0, 4, 3, 0, 0xFFFFFFFF⟩, .iaddi ⟨0, 4, 3, 1, 7⟩, .imuli ⟨0, 7, 4, 0, 7⟩,
      .andi ⟨0, 4, 3, 1, 7⟩, .ori ⟨0, 4, 3, 1, 7⟩, .xori ⟨0, 4, 3, 1, 7⟩, .shifti ⟨0, 4, 3, 1, 0x1F⟩, .shifti ⟨0, 4, 3, 1, 0x41⟩,
      .shifti ⟨0, 4, 3, 1, 0x9F⟩, .shifti ⟨0, 4, 3, 1, 0xC0⟩],
      LaneWitness x.1 x.2.1 x.2.2 := laneWitness (by decide +kernel)

theorem test_witness_MaskWriting :
    ∀ x ∈ ([Instr.icmp ⟨0, 4, 1, 1, 2, 0, 5, 0⟩, .mlog ⟨0, 0, 7, 0, 1, 0, 15, 0⟩, .mset ⟨0, 0, 1, 0, 0, 0, 1, 0⟩, .vtom ⟨0, 0, 2, 1, 0, 0, 0, 0⟩,
      .fcmp ⟨0, 10, 1, 1, 0x84, 0, 2, 0⟩, .icmpi ⟨0, 5, 0x29, 0x83, 0⟩].map fun i => (laneSt i, i, fun x : LaneIn => decide (x.tm.lanes ≤ 1024))),
      LaneWitness x.1 x.2.1 x.2.2 := laneWitness (by decide +kernel)

theorem test_witness_Rounded :
    ∀ x ∈ laneAt [Instr.fadd ⟨0, 10, 3, 1, 2, 0, 0, 0⟩, .fsub ⟨0, 8, 3, 1, 2, 0, 0, 0x18⟩, .fmul ⟨0, 9, 3, 1, 2, 0, 0, 0⟩, .ffma ⟨0, 10, 3, 1, 2, 3, 0, 0⟩,
      .fdiv ⟨0, 10, 3, 1, 2, 0, 0, 0⟩, .fsqrt ⟨0, 10, 3, 1, 0, 0, 0, 0⟩, .fmin ⟨0, 10, 3, 1, 2, 0, 0, 0⟩, .fmax ⟨0, 10, 3, 1, 2, 0, 0, 0⟩,
      .frcp ⟨0, 10, 3, 1, 0, 0, 0, 0⟩, .frsq ⟨0, 10, 3, 1, 0, 0, 0, 0⟩, .fexp2 ⟨0, 10, 3, 1, 0, 0, 0, 0⟩, .flog2 ⟨0, 10, 3, 1, 0, 0, 0, 0⟩,
      .ftanh ⟨0, 10, 3, 1, 0, 0, 0, 0⟩, .fsin ⟨0, 10, 3, 1, 0, 0, 1, 0⟩, .cvtf ⟨0, 8, 3, 1, 0, 0, 10, 0⟩, .cvtif ⟨0, 10, 3, 1, 0, 0, 4, 0⟩,
      .cvtfi ⟨0, 4, 3, 1, 0, 0, 10, 0⟩, .scaleb ⟨0, 10, 3, 1, 2, 0, 0, 0⟩, .unpkmx ⟨0, 14, 3, 1, 0, 0, 0, 0⟩, .unpkds ⟨0, 20, 3, 1, 0, 0, 0, 0⟩,
      .faddi ⟨0, 10, 3, 1, 0x3F800000⟩, .fmuli ⟨0, 10, 3, 1, 0x40000000⟩],
      LaneWitness x.1 x.2.1 x.2.2 := laneWitness (by decide +kernel)

theorem test_witness_PackAndCrossLane :
    ∀ x ∈ laneAt [Instr.fclass ⟨0, 10, 3, 1, 0, 0, 0, 0⟩, .packmx ⟨0, 14, 3, 1, 0, 0, 0, 0⟩, .packds ⟨0, 20, 3, 1, 0, 0, 0, 0⟩, .shfl ⟨0, 4, 3, 1, 2, 0, 0, 0⟩,
      .shfl ⟨0, 4, 3, 1, 2, 0, 1, 0⟩, .shfl ⟨0, 4, 3, 1, 2, 0, 2, 0⟩, .shfl ⟨0, 4, 3, 1, 2, 0, 3, 0⟩, .lrot ⟨0, 4, 3, 1, 0, 0, 63, 0⟩,
      .lbcast ⟨0, 4, 3, 1, 0, 0, 15, 0⟩, .lbcast ⟨0, 4, 3, 1, 0, 0, 0x40, 0⟩, .compact ⟨0, 4, 3, 1, 0, 0, 0, 0⟩],
      LaneWitness x.1 x.2.1 x.2.2 := laneWitness (by decide +kernel)

/-- A source lane of a pass outside M that is marked bad, with its cluster at its safe voltage. -/
theorem test_witness_CrossLane_bad :
    ∀ x ∈ [(Instr.shfl ⟨0, 4, 3, 1, 2, 0, 0, 0⟩, 0, 40), (.shfl ⟨0, 4, 3, 1, 2, 0, 1, 0⟩, 41, 1), (.shfl ⟨0, 4, 3, 1, 2, 0, 2, 0⟩, 1, 41),
        (.shfl ⟨0, 4, 3, 1, 2, 0, 3, 0⟩, 1, 41), (.lrot ⟨0, 4, 3, 1, 0, 0, 40, 0⟩, 0, 40), (.lbcast ⟨0, 4, 3, 1, 0, 0, 40, 0⟩, 0, 40)].map fun (y : Instr × Nat × Nat) =>
          (laneSt y.1 fun tm => { tm with lanes := 64, gw := 64, masks := tm.masks.set 0 (maskOf [y.2.1]), bad := [(1, y.2.2)]
                                          v := [(2, List.replicate 64 40#32)] }, y.1, fun x : LaneIn =>
            x.tm.lanesOf x.m == [y.2.1] && x.tm.badIn (srcRegs (wideTy x.tm.ckEnv 4) 1) (maskOf [y.2.2]) == some (1, y.2.2)
              && !(x.s.cluster x.sq.cluster).undervolted),
      LaneWitness x.1 x.2.1 x.2.2 := laneWitness (by decide +kernel)

theorem test_witness_ScansAndReductions :
    ∀ x ∈ laneAt [Instr.lscan ⟨0, 4, 3, 1, 0, 0, 0, 0⟩, .lscan ⟨0, 4, 3, 1, 0, 0, 4, 0⟩, .lred ⟨0, 10, 3, 1, 0, 0, 1, 0⟩],
      LaneWitness x.1 x.2.1 x.2.2 := laneWitness (by decide +kernel)

/-- A stack of n entries. -/
def stacked (n : Nat) (tm : Team) : Team := { tm with stack := List.replicate n (tm.m 0, 0) }

/-- The states and words of the witnesses of `MaskStack`. -/
def maskStackStates : List (State × Instr × (LaneIn → Bool)) :=
    [(laneSt (.menter ⟨0, 0, 0, 1, 0, 0, 0, 0⟩) (stacked 15), Instr.menter ⟨0, 0, 0, 1, 0, 0, 0, 0⟩, fun x : LaneIn => decide (x.tm.stack.length < 16)),
      (laneSt (.menter ⟨0, 0, 0, 1, 0, 0, 0, 0⟩) (stacked 16), .menter ⟨0, 0, 0, 1, 0, 0, 0, 0⟩, fun x => decide (16 ≤ x.tm.stack.length)),
      (laneSt (.mflip ⟨0, 0, 0, 0, 0, 0, 0, 0⟩) (stacked 1), .mflip ⟨0, 0, 0, 0, 0, 0, 0, 0⟩, fun x => decide (x.tm.stack.length = 1)),
      (laneSt (.mflip ⟨0, 0, 0, 0, 0, 0, 0, 0⟩), .mflip ⟨0, 0, 0, 0, 0, 0, 0, 0⟩, fun x => x.tm.stack.isEmpty),
      (laneSt (.mleave ⟨0, 0, 0, 0, 0, 0, 0, 0⟩) (stacked 16), .mleave ⟨0, 0, 0, 0, 0, 0, 0, 0⟩, fun x => decide (x.tm.stack.length = 16)),
      (laneSt (.mleave ⟨0, 0, 0, 0, 0, 0, 0, 0⟩), .mleave ⟨0, 0, 0, 0, 0, 0, 0, 0⟩, fun x => x.tm.stack.isEmpty),
      (laneSt (.mfirst ⟨0, 0, 1, 0, 0, 0, 0, 0⟩), .mfirst ⟨0, 0, 1, 0, 0, 0, 0, 0⟩, fun x => decide (x.tm.lanes ≤ 1024)),
      (laneSt (.mtov ⟨0, 0, 3, 0, 0, 0, 1, 0⟩), .mtov ⟨0, 0, 3, 0, 0, 0, 1, 0⟩, fun _ => true)]

theorem test_witness_MaskStack : ∀ x ∈ maskStackStates, LaneWitness x.1 x.2.1 x.2.2 := laneWitness (by decide +kernel)

/-! ## State builders -/

/-- The state with a change made to its only squad. -/
def onSquad (s : State) (f : Squad → Squad) : State := s.modSquad 1 f

/-- A team whose register r holds f l in lane l. -/
def withReg (r : Nat) (f : Nat → Nat) (tm : Team) : Team := { tm with v := aset tm.v r ((upTo tm.lanes).map fun l => BitVec.ofNat 32 (f l)) }

/-- A MEM window of 256 bytes at virtual and physical address 0x10000, readable and writable (R313). -/
def memWin : Window := { w0 := 0x1600000000010000#64, w1 := 0x10000#64, w2 := 256#64 }

/-- A team with `memWin` in w1 and four times the lane number in v2. -/
def windowed (tm : Team) : Team := withReg 2 (fun l => 4 * l) { tm with win := [(1, memWin)] }

/-- The leaf of a 64 KiB page at 0x10000, readable, writable, accessed and dirty (R310). -/
def pageLeaf : TlbEnt := { owner := 1, base := 0x10000, size := 0x10000, leaf := BitVec.ofNat 64 (2 ^ 52 + 0x10000 + 0xC33) }

/-- The state with that page in every TLB of cluster 0. -/
def withTlb (s : State) : State :=
  s.modCluster 0 fun c => { c with tlb := [pageLeaf], cores := c.cores.map fun k => { k with tlb := [pageLeaf] } }

/-- The check behind `Reaches`, of a state whose L1 does not hold the line. -/
def reachesB (s : State) (cl owner va pa n : Nat) (wr : Bool) : Bool :=
  decide (n ∈ [1, 2, 4, 8]) && decide (pa % n = 0) && decide (pa + n ≤ cfgBase) && (s.guardPa pa n wr).isNone && (s.lockHit owner va n wr).isNone
    && decide (pa / 128 ∉ s.badLines) && decide (pa / 128 ∉ s.poison) && !s.foreignTag owner (pa / 128) && !s.unwritten (pa / 128)
    && (aget? (s.cluster cl).l1 (l1Key owner (pa / 128))).isNone && (s.cluster cl).miss.all (·.line != l1Key owner (pa / 128))

theorem reaches_of {s : State} {cl owner va pa n : Nat} {wr : Bool} (h : reachesB s cl owner va pa n wr = true) : Reaches s cl owner va pa n wr := by
  simp only [reachesB, Bool.and_eq_true, decide_eq_true_eq, Option.isNone_iff_eq_none, Bool.not_eq_true', List.all_eq_true, bne_iff_ne, ne_eq] at h
  obtain ⟨⟨⟨⟨⟨⟨⟨⟨⟨⟨h1, h2⟩, h3⟩, h4⟩, h5⟩, h6⟩, h7⟩, h8⟩, h9⟩, h10⟩, h11⟩ := h
  exact ⟨h1, h2, h3, h4, h5, h6, h7, h8, h9, fun b hb => by simp [h10] at hb, fun e he hk => absurd hk (h11 e he)⟩

/-- The check behind `InWindow`. -/
def inWindowB (x : LaneIn) (w : LM) (dw n : Nat) (rd wr : Bool) (l : Nat) : Bool :=
  decide ((x.tm.window w.w.toNat).kind = 1) && (!rd || (x.tm.window w.w.toNat).rd) && (!wr || (x.tm.window w.w.toNat).wr) && decide (0 ≤ x.off w dw l)
    && decide (x.off w dw l % (n : Int) = 0) && decide (x.off w dw l + n ≤ (x.tm.window w.w.toNat).limit)

theorem inWindow_of {x : LaneIn} {w : LM} {dw n : Nat} {rd wr : Bool} {l : Nat} (h : inWindowB x w dw n rd wr l = true) : InWindow x w dw n rd wr l := by
  simp only [inWindowB, Bool.and_eq_true, decide_eq_true_eq, Bool.or_eq_true, Bool.not_eq_true'] at h
  obtain ⟨⟨⟨⟨⟨h1, h2⟩, h3⟩, h4⟩, h5⟩, h6⟩ := h
  exact ⟨h1, fun hr => by simpa [hr] using h2, fun hw => by simpa [hw] using h3, h4, h5, h6⟩

/-- The check behind `InTlb`. -/
def inTlbB (s : State) (x : LaneIn) (w : LM) (n : Nat) (wr : Bool) (l : Nat) (e : TlbEnt) : Bool :=
  decide (rawVa x w l % n = 0) && decide (rawVa x w l < 2 ^ 56)
    && decide ((((s.cluster x.sq.cluster).cores[x.tm.coreOf l]?).bind fun c => tlbFind c.tlb (s.ownerOf x.sq) (rawVa x w l)) = some e)
    && (if wr then ({ wr := true } : Need) else { rd := true }).allowed e.leaf && e.leaf.getLsbD 11
    && s.backed (xlOf (rawVa x w l) e.size e.leaf).pa

theorem inTlb_of {s : State} {x : LaneIn} {w : LM} {n : Nat} {wr : Bool} {l : Nat} {e : TlbEnt} (h : inTlbB s x w n wr l e = true) :
    InTlb s x w n wr l e := by
  simp only [inTlbB, Bool.and_eq_true, decide_eq_true_eq] at h
  exact ⟨h.1.1.1.1.1, h.1.1.1.1.2, h.1.1.1.2, h.1.1.2, fun _ => h.1.2, h.2⟩

/-- The check behind `GenTlb`. -/
def genTlbB (s : State) (sq : Squad) (va n : Nat) (need : Need) (e : TlbEnt) : Bool :=
  decide (va % n = 0) && decide (va < 2 ^ 56) && decide (tlbFind (s.cluster sq.cluster).tlb (s.ownerOf sq) va = some e) && need.allowed e.leaf
    && e.leaf.getLsbD 11 && s.backed (xlOf va e.size e.leaf).pa

theorem genTlb_of {s : State} {sq : Squad} {va n : Nat} {need : Need} {e : TlbEnt} (h : genTlbB s sq va n need e = true) : GenTlb s sq va n need e := by
  simp only [genTlbB, Bool.and_eq_true, decide_eq_true_eq] at h
  exact ⟨h.1.1.1.1.1, h.1.1.1.1.2, h.1.1.1.2, h.1.1.2, fun _ => h.1.2, h.2⟩

/-- The state whose task is an uncommitted speculative one. -/
def speculating (s : State) : State := s.modTask 0 fun t => { t with spec := true, specPhase := .pending }

/-- A team with no lane in m0. -/
def noLanes (tm : Team) : Team := { tm with masks := tm.masks.set 0 0 }

/-- The check behind `unitFree`. -/
def freeUnit (x : LaneIn) (core : Nat) : Bool :=
  (((x.s.cluster x.sq.cluster).cores[core]?).getD {}).holder.isNone && (((x.s.cluster x.sq.cluster).cores[core]?).getD {}).queue.isEmpty

/-- A task of id 5 in a phase. -/
def otherTask (p : TaskPhase) : Task := { id := 5, die := 0, record := [0, 0, 0xF00000000#64, 0x100#64], phase := p }

/-! ## Team words -/

/-- A buffer whose word carries the side band of a WSET. -/
def sideBand (tm : Team) : Team := { tm with buffer := tm.buffer.map fun b => { b with sys := some memWin } }

/-- The state in which the owner has designated its ring of n records at connection 5, holding k. -/
def withRing (n k : Nat) (s : State) : State :=
  { s with owners := [(1, { num := 1, keyGen := 1, ringConn := some 5, ringCap := n, ringUsed := k })], conns := [(5, { num := 5, owner := 1 })] }

/-- The states and words of the witnesses of `FormatWindowFenceAndTrap`. -/
def formatWindowFenceAndTrapStates : List (State × Instr × (LaneIn → Bool)) :=
    laneAt [.lnop ⟨0, 0, 0, 0, 0, 0, 0, 0⟩, .setfmt ⟨0, 0, 0, 0, 0xC0A⟩, .lfence ⟨0, 0, 0, 0, 0, 1, 2, 0⟩, .lfence ⟨0, 0, 0, 0, 0, 1, 3, 0⟩]
      ++ [(laneSt (.wset ⟨0, 0, 1, 0, 0⟩) sideBand, Instr.wset ⟨0, 0, 1, 0, 0⟩, fun x : LaneIn => x.tm.buffer.head?.any (·.sys == some memWin)),
        (laneSt (.wset ⟨0, 0, 1, 0, 0⟩), .wset ⟨0, 0, 1, 0, 0⟩, fun x => x.tm.buffer.head?.any (·.sys == none)),
        (laneSt (.lbrk ⟨0, 0, 0, 0, 5⟩), .lbrk ⟨0, 0, 0, 0, 5⟩, fun x => x.m != 0),
        (laneSt (.lbrk ⟨0, 0, 0, 0, 5⟩) noLanes, .lbrk ⟨0, 0, 0, 0, 5⟩, fun x => x.m == 0),
        (laneSt (.trapw ⟨0, 0, 0, 0, 5⟩) noLanes, .trapw ⟨0, 0, 0, 0, 5⟩, fun x => lowLane x.m == none),
        (laneSt (.trapw ⟨0, 0, 0, 0, 5⟩), .trapw ⟨0, 0, 0, 0, 5⟩, fun x => lowLane x.m == some 0 && !x.s.speculative x.sq
          && ((aget? x.s.owners (x.s.ownerOf x.sq)).map (·.ringConn)) == some none),
        (speculating (laneSt (.trapw ⟨0, 0, 0, 0, 5⟩)), .trapw ⟨0, 0, 0, 0, 5⟩, fun x => lowLane x.m == some 0 && x.s.speculative x.sq),
        (withRing 4 3 (laneSt (.trapw ⟨0, 0, 0, 0, 5⟩)), .trapw ⟨0, 0, 0, 0, 5⟩, fun x => lowLane x.m == some 0 && !x.s.speculative x.sq
          && ((aget? x.s.owners (x.s.ownerOf x.sq)).any fun o => o.ringConn == some 5 && decide (o.ringUsed < o.ringCap))),
        (withRing 4 4 (laneSt (.trapw ⟨0, 0, 0, 0, 5⟩)), .trapw ⟨0, 0, 0, 0, 5⟩, fun x => lowLane x.m == some 0 && !x.s.speculative x.sq
          && ((aget? x.s.owners (x.s.ownerOf x.sq)).any fun o => o.ringConn == some 5 && decide (o.ringCap ≤ o.ringUsed)))]

theorem test_witness_FormatWindowFenceAndTrap : ∀ x ∈ formatWindowFenceAndTrapStates, LaneWitness x.1 x.2.1 x.2.2 := laneWitness (by decide +kernel)

/-- A context with n votes in its queue. -/
def voted (n : Nat) (s : State) : State := s.modCtx 1 0 fun cx => { cx with votes := List.replicate n { rec_ := 0, lower := 0, upper := 0 } }

/-- The states and words of the witnesses of `VoteClaimAndGive`. -/
def voteClaimAndGiveStates : List (State × Instr × (LaneIn → Bool)) :=
    [(voted 63 (laneSt (.vote ⟨0, 0, 0, 1, 0x20007⟩)), Instr.vote ⟨0, 0, 0, 1, 0x20007⟩, fun x : LaneIn => x.tm.owner == some (1, 0)
          && (x.s.ctx 1 0).any (fun cx => !cx.exited && decide (cx.voteEntries < 64)) && (x.tm.buffer.head?.bind (·.merge)).isNone),
        (voted 64 (laneSt (.vote ⟨0, 0, 0, 1, 0x20007⟩)), .vote ⟨0, 0, 0, 1, 0x20007⟩, fun x => x.tm.owner == some (1, 0)
          && (x.s.ctx 1 0).any (fun cx => !cx.exited && decide (64 ≤ cx.voteEntries)) && (x.tm.buffer.head?.bind (·.merge)).isNone),
        (laneSt (.claim ⟨0, 0, 0, 0, 8⟩) fun tm => { tm with n := 120 }, .claim ⟨0, 0, 0, 0, 8⟩, fun x => x.tm.cores.all fun k =>
          ((((x.s.cluster x.sq.cluster).cores[k]?).map (·.claims)).getD []).isEmpty && decide (x.s.granules x.sq.cluster k + x.tm.passesOn k * 8 / 8 ≤ 512)),
        ((laneSt (.claim ⟨0, 0, 0, 0, 8⟩) fun tm => { tm with n := 120 }).modCore 0 0 fun c => { c with claims := [(9, 9)] }, .claim ⟨0, 0, 0, 0, 8⟩, fun x => x.tm.cores.any fun k =>
          !((((x.s.cluster x.sq.cluster).cores[k]?).map (·.claims)).getD []).isEmpty),
        (laneSt (.give ⟨0, 0, 0, 0, 120⟩), .give ⟨0, 0, 0, 0, 120⟩, fun x => x.tm.busy == 0),
        (laneSt (.give ⟨0, 0, 0, 0, 8⟩) (fun tm => { tm with busy := 1 }), .give ⟨0, 0, 0, 0, 8⟩, fun x => x.tm.busy != 0)]

theorem test_witness_VoteClaimAndGive : ∀ x ∈ voteClaimAndGiveStates, LaneWitness x.1 x.2.1 x.2.2 := laneWitness (by decide +kernel)

/-- A team whose oldest word contributes to vote 5. -/
def merging (tm : Team) : Team := { tm with buffer := tm.buffer.map fun b => { b with merge := some 5 } }

/-- A context with n votes in its queue and vote 5 open for these teams. -/
def opened (n : Nat) (e : Bool) (ds : List (Nat × Nat)) (s : State) : State :=
  (voted n s).modCtx 1 0 fun cx => { cx with partials := [{ serial := 5, dests := ds, parts := [], first := false, entry := e }] }

/-- A vote's first contribution with the queue full, one with room or with its entry, of two teams and of one. -/
theorem test_witness_Vote_merged :
    ∀ x ∈ [(64, false, [(1, 0)]), (63, false, [(1, 0), (1, 1)]), (64, true, [(1, 0), (1, 1)]), (63, false, [(1, 0)]), (64, true, [(1, 0)])].map fun
          (y : Nat × Bool × List (Nat × Nat)) => (opened y.1 y.2.1 y.2.2 (laneSt (.vote ⟨0, 0, 0, 1, 0x20007⟩) merging), Instr.vote ⟨0, 0, 0, 1, 0x20007⟩, fun x : LaneIn =>
        x.tm.owner == some (1, 0) && (x.tm.buffer.head?.bind (·.merge)) == some 5 && (x.s.ctx 1 0).any fun cx => !cx.exited
          && decide (y.1 = 64) == decide (64 ≤ cx.voteEntries) && (cx.partials.find? fun p => p.serial == 5).any fun p => p.entry == y.2.1 && p.dests == y.2.2),
      LaneWitness x.1 x.2.1 x.2.2 := laneWitness (by decide +kernel)

/-! ## Memory words -/

/-- Every lane of a windowed word reaches ordinary memory. -/
def windowReach (w : LM) (dw n : Nat) (rd wr : Bool) (x : LaneIn) : Bool :=
  !x.s.speculative x.sq && !x.tm.starved && decide (x.tm.lanes ≤ 1024) && Memory.wf x.s.mem && x.tm.faulted.isEmpty && !(x.tm.lanesOf x.m).isEmpty
    && (x.tm.lanesOf x.m).all fun l => inWindowB x w dw n rd wr l && reachesB x.s x.sq.cluster (x.s.ownerOf x.sq) (winVa x w dw l) (winPa x w dw l) n wr

theorem windowReach_ok {w : LM} {dw n : Nat} {rd wr : Bool} {x : LaneIn} (h : windowReach w dw n rd wr x = true) :
    x.s.speculative x.sq = false ∧ x.tm.starved = false ∧ x.tm.lanes ≤ 1024 ∧ Memory.wf x.s.mem = true
      ∧ ∀ l ∈ x.tm.lanesOf x.m, InWindow x w dw n rd wr l ∧ Reaches x.s x.sq.cluster (x.s.ownerOf x.sq) (winVa x w dw l) (winPa x w dw l) n wr := by
  simp only [windowReach, Bool.and_eq_true, Bool.not_eq_true', decide_eq_true_eq, List.all_eq_true] at h
  exact ⟨h.1.1.1.1.1.1, h.1.1.1.1.1.2, h.1.1.1.1.2, h.1.1.1.2, fun l hl => ⟨inWindow_of (h.2 l hl).1, reaches_of (h.2 l hl).2⟩⟩

/-- Every lane of a raw word reaches ordinary memory through the TLB of its core. -/
def rawReach (w : LM) (n : Nat) (wr : Bool) (x : LaneIn) : Bool :=
  !x.s.speculative x.sq && !x.tm.starved && decide (x.tm.lanes ≤ 1024) && Memory.wf x.s.mem && x.tm.faulted.isEmpty && !(x.tm.lanesOf x.m).isEmpty
    && (x.tm.lanesOf x.m).all fun l => inTlbB x.s x w n wr l pageLeaf && reachesB x.s x.sq.cluster (x.s.ownerOf x.sq) (rawVa x w l)
      (xlOf (rawVa x w l) pageLeaf.size pageLeaf.leaf).pa n wr

theorem rawReach_ok {w : LM} {n : Nat} {wr : Bool} {x : LaneIn} (h : rawReach w n wr x = true) :
    x.s.speculative x.sq = false ∧ x.tm.starved = false ∧ x.tm.lanes ≤ 1024 ∧ Memory.wf x.s.mem = true
      ∧ ∀ l ∈ x.tm.lanesOf x.m, InTlb x.s x w n wr l pageLeaf
        ∧ Reaches x.s x.sq.cluster (x.s.ownerOf x.sq) (rawVa x w l) (xlOf (rawVa x w l) pageLeaf.size pageLeaf.leaf).pa n wr := by
  simp only [rawReach, Bool.and_eq_true, Bool.not_eq_true', decide_eq_true_eq, List.all_eq_true] at h
  exact ⟨h.1.1.1.1.1.1, h.1.1.1.1.1.2, h.1.1.1.1.2, h.1.1.1.2, fun l hl => ⟨inTlb_of (h.2 l hl).1, reaches_of (h.2 l hl).2⟩⟩

/-- A team with addresses in 0x10000 on, 8 bytes apart, in the pairs at v2. -/
def rawRegs (tm : Team) : Team := withReg 3 (fun _ => 0) (withReg 2 (fun l => 0x10000 + 8 * l) tm)

/-- A team with lane 0 alone in m0, v2 of lane 0 holding n, and a window in w1. -/
def oneLane (n : Nat) (tm : Team) (win : Window := memWin) : Team :=
  withReg 2 (fun _ => n) { tm with masks := tm.masks.set 0 1, win := [(1, win)] }

/-- A GATHER window of 256 bytes on entry 3 of generation 5, readable and writable. -/
def gatherWin : Window := { w0 := 0x2600000000000000#64, w2 := 0x300500000100#64 }
/-- A REMOTE window of 256 bytes of device 3 at 0x10000, readable and writable. -/
def remoteWin : Window := { w0 := 0x4600000000010000#64, w2 := 0x000C000000000100#64 }

/-- The state with that gather entry, whose indices are at 0x10000 and whose elements, of 4 bytes, from va on. -/
def withGather (va : Nat) (s : State) : State :=
  s.modDie 0 fun d => { d with gathers := [(67, { bound := true, gen := 5, idxVa := 0x10000, srcVa := va, size := 4, limit := 16 })] }

/-- The package with a route to device 3, and a request of team 0's lane 0 answered with 4 bytes, or n of it outstanding. -/
def withRoute (answered : Bool) (n : Nat) (s : State) : State :=
  let r (k : Nat) : RemoteReq := ⟨k, 0, .team 1 0, if answered then 0 else 1, 0, 3, 0x10000, 4, [], 0, false⟩
  { s with fabric := { devid := 2, routes := [3], nextReq := n, out := (upTo n).map r, results := if answered then [(0, 0, [1, 2, 3, 4])] else [] } }

/-- The only lane, 0, of a word finds ordinary memory, and a condition on the state and the address found. -/
def oneLoc (r : LR2 Tgt) (x : LaneIn) (wr : Bool) (p : State → Nat → Bool := fun _ _ => true) : Bool :=
  x.tm.lanesOf x.m == [0] && x.tm.faulted.isEmpty && match r with
    | (.ok (.loc va pa _), z) => reachesB z x.sq.cluster (x.s.ownerOf x.sq) va pa 4 wr && Memory.wf z.mem && p z pa
    | _ => false

/-- The only lane, 0, of a word finds device 3, whose request has been answered or not made. -/
def oneRem (r : LR2 Tgt) (x : LaneIn) (answered : Bool) : Bool :=
  x.tm.lanesOf x.m == [0] && x.tm.faulted.isEmpty && x.s.reachable 3 && decide (x.s.remoteOut x.sq.cluster < 1024) && !x.s.speculative x.sq
    && (x.s.fabric.out.any fun r => r.src == .team x.q x.t && r.lane == 0 && x.s.fabric.results.any fun z => z.1 == r.id && z.2.1 == 0) == answered
    && match r with
      | (.ok (.rem _ dev _), z) => dev == 3 && decide (z = x.s)
      | _ => false

/-- The only lane's target of a load or a store through w1 at v2. -/
def target (x : LaneIn) (dw : Nat) (d : Dir) (gather : Bool) : LR2 Tgt := x.winTgt ⟨0, 5, 7, 2, 1, 0, 0, 0⟩ dw 4 d gather x.s 0

/-- One lane whose access goes through a gather window, one beyond LIMIT, one whose page is in no TLB, and ones through a REMOTE window, before the request
and after its answer. -/
def oneLaneStates (i : Instr) : List State :=
  [withGather 0x10100 (withTlb (laneSt i (oneLane 4 · gatherWin))), withTlb (laneSt i (oneLane 8 · { memWin with w2 := 4#64 })),
    (laneSt i (oneLane 8 · { memWin with w2 := 4#64 })).withIdentityPage]

/-- The states and words of the witnesses of `Loads_one`. -/
def loadsOneStates : List (State × Instr × (LaneIn → Bool)) :=
    ((oneLaneStates (.ldw ⟨0, 5, 7, 2, 1, 0, 0, 0⟩)).map fun s => (s, Instr.ldw ⟨0, 5, 7, 2, 1, 0, 0, 0⟩, fun x : LaneIn => oneLoc (target x 25 { rd := true } true) x false))
        ++ [((laneSt (.ldg ⟨0, 5, 7, 2, 0, 0, 0, 0⟩) fun tm => withReg 3 (fun _ => 0) (oneLane 0x10000 tm)).withIdentityPage, .ldg ⟨0, 5, 7, 2, 0, 0, 0, 0⟩,
          fun x => oneLoc (x.rawTgt ⟨0, 5, 7, 2, 0, 0, 0, 0⟩ 4 { rd := true } x.s 0) x false)]
        ++ ([false, true].map fun b => (withRoute b (b2n b) (laneSt (.ldw ⟨0, 5, 7, 2, 1, 0, 0, 0⟩) (oneLane 4 · remoteWin)), .ldw ⟨0, 5, 7, 2, 1, 0, 0, 0⟩,
          fun x => oneRem (target x 25 { rd := true } true) x b))
        ++ [(withRoute false 5 (laneSt (.prefw ⟨0, 0, 1, 2, 1, 0, 0, 0⟩) (oneLane 4 · remoteWin)), .prefw ⟨0, 0, 1, 2, 1, 0, 0, 0⟩, fun x =>
            (x.tm.window 1).kind == 4 && decide (x.s.remoteOut x.sq.cluster + (x.tm.lanesOf x.m).length ≤ 1024)),
          (withRoute false 1024 (laneSt (.prefw ⟨0, 0, 1, 2, 1, 0, 0, 0⟩) (oneLane 4 · remoteWin)), .prefw ⟨0, 0, 1, 2, 1, 0, 0, 0⟩, fun x =>
            (x.tm.window 1).kind == 4 && decide (1024 ≤ x.s.remoteOut x.sq.cluster))]

theorem test_witness_Loads_one : ∀ x ∈ loadsOneStates, LaneWitness x.1 x.2.1 x.2.2 := laneWitness (by decide +kernel)

theorem test_witness_LoadsAndPrefetches :
    ∀ x ∈ [(laneSt (.ldw ⟨0, 5, 7, 2, 1, 0, 0, 0⟩) windowed, Instr.ldw ⟨0, 5, 7, 2, 1, 0, 0, 0⟩, windowReach ⟨0, 5, 7, 2, 1, 0, 0, 0⟩ 25 4 true false),
        (laneSt (.ldw ⟨0, 5, 7, 2, 1, 0, 0, 192⟩) windowed, .ldw ⟨0, 5, 7, 2, 1, 0, 0, 192⟩, windowReach ⟨0, 5, 7, 2, 1, 0, 0, 192⟩ 25 4 true false),
        (withTlb (laneSt (.ldg ⟨0, 5, 7, 2, 0, 0, 0, 0⟩) rawRegs), .ldg ⟨0, 5, 7, 2, 0, 0, 0, 0⟩, rawReach ⟨0, 5, 7, 2, 0, 0, 0, 0⟩ 4 false),
        (laneSt (.prefw ⟨0, 0, 0, 2, 1, 0, 0, 0⟩), .prefw ⟨0, 0, 0, 2, 1, 0, 0, 0⟩, fun _ => true),
        (laneSt (.prefw ⟨0, 0, 1, 2, 1, 0, 0, 0⟩), .prefw ⟨0, 0, 1, 2, 1, 0, 0, 0⟩, fun _ => true)],
      LaneWitness x.1 x.2.1 x.2.2 := laneWitness (by decide +kernel)

/-- No lane's value overflows. -/
def datumOk (w : LM) (ty : NumTy) (x : LaneIn) : Bool := (x.tm.lanesOf x.m).all fun l => !(narrowStore x.tm.fmtr ty (x.datum ty w.d.toNat l)).trap

theorem test_witness_Stores :
    ∀ x ∈ [(laneSt (.stw ⟨0, 5, 7, 2, 1, 0, 0, 0⟩) windowed, Instr.stw ⟨0, 5, 7, 2, 1, 0, 0, 0⟩,
          fun x => windowReach ⟨0, 5, 7, 2, 1, 0, 0, 0⟩ 25 4 false true x && datumOk ⟨0, 5, 7, 2, 1, 0, 0, 0⟩ .n32 x),
        (withTlb (laneSt (.stg ⟨0, 7, 8, 2, 0, 0, 0, 0⟩) rawRegs), .stg ⟨0, 7, 8, 2, 0, 0, 0, 0⟩,
          fun x => rawReach ⟨0, 7, 8, 2, 0, 0, 0, 0⟩ 8 true x && datumOk ⟨0, 7, 8, 2, 0, 0, 0, 0⟩ .n64 x)],
      LaneWitness x.1 x.2.1 x.2.2 := laneWitness (by decide +kernel)

/-- The states and words of the witnesses of `Stores_one`. -/
def storesOneStates : List (State × Instr × (LaneIn → Bool)) :=
    ([id, speculating].flatMap fun f => (oneLaneStates (.stw ⟨0, 5, 7, 2, 1, 0, 0, 0⟩)).map fun s => (f s, Instr.stw ⟨0, 5, 7, 2, 1, 0, 0, 0⟩,
          fun x : LaneIn => datumOk ⟨0, 5, 7, 2, 1, 0, 0, 0⟩ .n32 x && oneLoc (target x 25 { wr := true } true) x true fun z pa =>
            !z.overAllowance (x.acc z 0) pa 4 && z.buffers (x.acc z 0) pa == x.s.speculative x.sq))
        ++ [((laneSt (.stg ⟨0, 5, 7, 2, 0, 0, 0, 0⟩) fun tm => withReg 3 (fun _ => 0) (oneLane 0x10000 tm)).withIdentityPage, .stg ⟨0, 5, 7, 2, 0, 0, 0, 0⟩,
          fun x => datumOk ⟨0, 5, 7, 2, 0, 0, 0, 0⟩ .n32 x && oneLoc (x.rawTgt ⟨0, 5, 7, 2, 0, 0, 0, 0⟩ 4 { wr := true } x.s 0) x true fun z pa =>
            !z.overAllowance (x.acc z 0) pa 4 && !z.buffers (x.acc z 0) pa)]
        ++ ([false, true].map fun b => (withRoute b (b2n b) (laneSt (.stw ⟨0, 5, 7, 2, 1, 0, 0, 0⟩) (oneLane 4 · remoteWin)), .stw ⟨0, 5, 7, 2, 1, 0, 0, 0⟩,
          fun x => datumOk ⟨0, 5, 7, 2, 1, 0, 0, 0⟩ .n32 x && oneRem (target x 25 { wr := true } true) x b))

theorem test_witness_Stores_one : ∀ x ∈ storesOneStates, LaneWitness x.1 x.2.1 x.2.2 := laneWitness (by decide +kernel)

/-- No two lanes of a windowed word name one location. -/
def apart (w : LM) (x : LaneIn) : Bool :=
  (x.tm.lanesOf x.m).all fun l => (x.tm.lanesOf x.m).all fun k => l == k || decide (winPa x w 21 l ≠ winPa x w 21 k)

theorem test_witness_Atomics :
    ∀ x ∈ ([LM.mk 0 5 4 2 1 3 2 0x400010, ⟨0, 4, 4, 2, 1, 0, 0, 0⟩].flatMap fun w => [Instr.atom w, .atomn w].map fun i =>
          (laneSt i windowed, i, fun x : LaneIn => windowReach w 21 4 true true x && apart w x))
        ++ [(laneSt (.cas ⟨0, 5, 4, 2, 1, 0, 0, 0⟩) windowed, Instr.cas ⟨0, 5, 4, 2, 1, 0, 0, 0⟩, fun x =>
          windowReach ⟨0, 5, 4, 2, 1, 0, 0, 0⟩ 21 4 true true x && apart ⟨0, 5, 4, 2, 1, 0, 0, 0⟩ x)],
      LaneWitness x.1 x.2.1 x.2.2 := laneWitness (by decide +kernel)

/-- Atomics whose lanes all name one location; one lane of an uncommitted speculative task; and one through a REMOTE window, before its request and after its
answer. -/
theorem test_witness_Atomics_one :
    ∀ x ∈ [Instr.atom ⟨0, 5, 7, 2, 1, 0, 0, 0⟩, .atomn ⟨0, 5, 7, 2, 1, 0, 0, 0⟩, .cas ⟨0, 5, 7, 2, 1, 0, 0, 0⟩].flatMap fun i =>
        [(laneSt i fun tm => withReg 2 (fun _ => 8) (windowed tm), i, fun x : LaneIn => windowReach ⟨0, 5, 7, 2, 1, 0, 0, 0⟩ 21 4 true true x
            && (x.tm.lanesOf x.m).all fun l => winPa x ⟨0, 5, 7, 2, 1, 0, 0, 0⟩ 21 l == 0x10008),
          (speculating (laneSt i (oneLane 8)), i, fun x => oneLoc (target x 21 { rd := true, wr := true } false) x true fun z pa => z.buffers (x.acc z 0) pa)]
        ++ [false, true].map fun b => (withRoute b (b2n b) (laneSt i (oneLane 4 · remoteWin)), i, fun x => oneRem (target x 21 { rd := true, wr := true } false) x b),
      LaneWitness x.1 x.2.1 x.2.2 := laneWitness (by decide +kernel)

/-- The target of a lane's access is a failure that p accepts, found in no changed state. -/
def oneFail (i : Instr) (x : LaneIn) (p : MemFail → Bool) : Bool :=
  x.tm.lanesOf x.m == [0] && x.tm.faulted.isEmpty && datumOk ⟨0, 5, 7, 2, 1, 0, 0, 0⟩ .n32 x
    && match target x 25 (if i = .stw ⟨0, 5, 7, 2, 1, 0, 0, 0⟩ then { wr := true } else { rd := true }) true with
      | (.error (e, _), z) => p e && decide (z = x.s)
      | _ => false

/-- Loads and stores through a gather window of another generation, and beyond LIMIT on a page that no table maps; ones whose gather index lies on such a page; and
ones through a REMOTE window of a device without a route. -/
theorem test_witness_FaultingWindowAccesses_other :
    ∀ x ∈ [Instr.ldw ⟨0, 5, 7, 2, 1, 0, 0, 0⟩, .stw ⟨0, 5, 7, 2, 1, 0, 0, 0⟩].flatMap fun i =>
        [(laneSt i (oneLane 4 · gatherWin), i, fun x : LaneIn => oneFail i x fun | .cause .windowInvalid _ => true | _ => false),
          (laneSt i (oneLane 8 · { memWin with w2 := 4#64 }), i, fun x => oneFail i x fun | .page _ _ => true | _ => false),
          (withGather 0x10100 (laneSt i (oneLane 4 · gatherWin)), i, fun x => oneFail i x fun | .indexPage _ _ => true | _ => false),
          (laneSt i (oneLane 4 · remoteWin), i, fun x => !x.s.reachable 3 && !x.s.speculative x.sq && x.s.fabric.out.isEmpty && x.tm.lanesOf x.m == [0]
            && match target x 25 (if i = .stw ⟨0, 5, 7, 2, 1, 0, 0, 0⟩ then { wr := true } else { rd := true }) true with
              | (.ok (.rem _ dev _), z) => dev == 3 && decide (z = x.s)
              | _ => false)],
      LaneWitness x.1 x.2.1 x.2.2 := laneWitness (by decide +kernel)

/-- The states and words of the witnesses of `FaultingWindowAccesses`. -/
def faultingWindowAccessesStates : List (State × Instr × (LaneIn → Bool)) :=
    ([Instr.ldw ⟨0, 5, 7, 2, 1, 0, 0, 0⟩, .stw ⟨0, 5, 7, 2, 1, 0, 0, 0⟩].flatMap fun i =>
          [(laneSt i fun tm => { oneLane 0 tm with win := [] }, i, fun x : LaneIn => x.tm.lanesOf x.m == [0] && datumOk ⟨0, 5, 7, 2, 1, 0, 0, 0⟩ .n32 x && (x.tm.window 1).kind == 0),
            (laneSt i (oneLane 1), i, fun x => x.tm.lanesOf x.m == [0] && datumOk ⟨0, 5, 7, 2, 1, 0, 0, 0⟩ .n32 x && (x.tm.window 1).kind == 1
              && decide (x.off ⟨0, 5, 7, 2, 1, 0, 0, 0⟩ 25 0 % 4 ≠ 0)),
            (laneSt i fun tm => { oneLane 0 tm with win := [(1, { memWin with w0 := 0x1000000000010000#64 })] }, i, fun x =>
              x.tm.lanesOf x.m == [0] && datumOk ⟨0, 5, 7, 2, 1, 0, 0, 0⟩ .n32 x && (x.tm.window 1).kind == 1 && !(x.tm.window 1).rd && !(x.tm.window 1).wr)])
        ++ [(laneSt (.ldw ⟨0, 5, 7, 2, 1, 0, 0, 0x1FFFFFC⟩) (oneLane 0), .ldw ⟨0, 5, 7, 2, 1, 0, 0, 0x1FFFFFC⟩, fun x =>
          x.tm.lanesOf x.m == [0] && (x.tm.window 1).kind == 1 && decide (x.off ⟨0, 5, 7, 2, 1, 0, 0, 0x1FFFFFC⟩ 25 0 < 0))]

theorem test_witness_FaultingWindowAccesses : ∀ x ∈ faultingWindowAccessesStates, LaneWitness x.1 x.2.1 x.2.2 := laneWitness (by decide +kernel)

/-! ## Tile, huddle and region words -/

/-- A tile with every line FULL. -/
def filled (k : Tile) : Tile := k.setFull (upTo k.lineCount)

/-- The state whose squad has these tiles and a claim of 65,536 lines. -/
def withTiles (l : List (Nat × Tile)) (s : State) : State := onSquad s fun q => { q with tiles := l, claim := 65536 }

/-- A 4 × 4 tile of N32 in TS with every line FULL. -/
def square : Tile := filled { level := 1, ty := .n32, rows := 4, cols := 4, core := 0 }

/-- A team whose lanes name the elements of a 4 × 4 tile: rows in v2, columns in v3. -/
def rowCols (tm : Team) : Team := withReg 3 (fun l => l % 4) (withReg 2 (fun l => l / 4) tm)

/-- Each lane of a tile word names an element of tile h, whose lines are FULL and under no lock. -/
def tileReach (h : Nat) (k : Tile) (w : LR) (x : LaneIn) : Bool :=
  decide (x.s.tile x.q h = some k) && decide (k.level ≠ 0) && !x.tm.starved && decide (x.tm.lanes ≤ 1024) && !(x.tm.lanesOf x.m).isEmpty
    && decide (k.ty = x.ty w.ty ∨ w.ty = 0)
    && (x.tm.lanesOf x.m).all fun l => decide (x.op 1 l w.a.toNat < k.rows) && decide (x.op 1 l w.c.toNat < k.cols)
      && (k.elemLines (x.op 1 l w.a.toNat) (x.op 1 l w.c.toNat)).all fun j => k.full j && (x.s.tileLockHit x.q h j).isNone

theorem test_witness_TileLaneWords :
    ∀ x ∈ ([Instr.ldt ⟨0, 5, 7, 2, 4, 3, 0, 0⟩, .stt ⟨0, 5, 7, 2, 4, 3, 0, 0⟩].map fun i =>
        (withTiles [(4, square)] (laneSt i rowCols), i, tileReach 4 square ⟨0, 5, 7, 2, 4, 3, 0, 0⟩))
      ++ ([Instr.tempty ⟨0, 0, 0, 2, 4, 3, 0, 0⟩, .tfull ⟨0, 0, 0, 2, 4, 3, 0, 0⟩].map fun i =>
        (withTiles [(4, square)] (laneSt i rowCols), i, tileReach 4 square ⟨0, 0, 0, 2, 4, 3, 0, 0⟩)),
      LaneWitness x.1 x.2.1 x.2.2 := laneWitness (by decide +kernel)

/-- No lane in M, a handle that is unallocated, and an ACC tile's. -/
theorem test_witness_TileLaneWords_other :
    ∀ x ∈ ([Instr.ldt ⟨0, 5, 7, 2, 4, 3, 0, 0⟩, .stt ⟨0, 5, 7, 2, 4, 3, 0, 0⟩, .tempty ⟨0, 0, 0, 2, 4, 3, 0, 0⟩, .tfull ⟨0, 0, 0, 2, 4, 3, 0, 0⟩].flatMap fun i =>
        [(withTiles [(4, square)] (laneSt i noLanes), i, fun x : LaneIn => (x.tm.lanesOf x.m).isEmpty),
          (withTiles [] (laneSt i rowCols), i, fun x => x.m != 0 && decide (x.tm.lanes ≤ 1024) && (x.s.tile x.q 4).isNone && datumOk ⟨0, 5, 7, 2, 4, 3, 0, 0⟩ .n32 x),
          (withTiles [(4, { square with level := 0 })] (laneSt i rowCols), i, fun x => x.m != 0 && (x.s.tile x.q 4).any (·.level == 0)
            && datumOk ⟨0, 5, 7, 2, 4, 3, 0, 0⟩ .n32 x)]),
      LaneWitness x.1 x.2.1 x.2.2 := laneWitness (by decide +kernel)

/-- The states and words of the witnesses of `TileTableWords`. -/
def tileTableWordsStates : List (State × Instr × (LaneIn → Bool)) :=
    [(withTiles [] (laneSt (.tnew ⟨0, 5, 20, 8, 0, 0, 5, 0⟩) (withReg 8 fun _ => 0x00040004)), Instr.tnew ⟨0, 5, 20, 8, 0, 0, 5, 0⟩,
          fun x : LaneIn => lowLane x.m == some 0 && (x.s.tile x.q 20).isNone && x.s.room x.sq 1 (x.tm.coreOf 0) (spaceOf 1 .n32 4 4)),
        (withTiles [] (laneSt (.tnew ⟨0, 4, 3, 8, 0, 0, 0, 0⟩) (withReg 8 fun _ => 0x00400040)), .tnew ⟨0, 4, 3, 8, 0, 0, 0, 0⟩,
          fun x => lowLane x.m == some 0 && (x.s.tile x.q 3).isNone && x.s.room x.sq 0 (x.tm.coreOf 0) (spaceOf 0 .i32 64 64)),
        (withTiles [(4, square)] (laneSt (.tfree ⟨0, 0, 4, 0, 0, 0, 0, 0⟩)), .tfree ⟨0, 0, 4, 0, 0, 0, 0, 0⟩,
          fun x => lowLane x.m == some 0 && (x.s.tile x.q 4).isSome && (x.s.tileLocked x.q 4).isNone && !x.s.tileInUse x.q 4),
        (withTiles [(4, square)] (laneSt (.tzero ⟨0, 0, 4, 0, 0, 0, 0, 0⟩)), .tzero ⟨0, 0, 4, 0, 0, 0, 0, 0⟩,
          fun x => lowLane x.m == some 0 && x.s.tile x.q 4 == some square && (x.s.tileLocked x.q 4).isNone),
        (withTiles [(4, square)] (laneSt (.tzero ⟨0, 0, 4, 0, 0, 0, 1, 0⟩)), .tzero ⟨0, 0, 4, 0, 0, 0, 1, 0⟩,
          fun x => lowLane x.m == some 0 && x.s.tile x.q 4 == some square && (x.s.tileLocked x.q 4).isNone)]

theorem test_witness_TileTableWords : ∀ x ∈ tileTableWordsStates, LaneWitness x.1 x.2.1 x.2.2 := laneWitness (by decide +kernel)

/-- The state with a range-lock entry 5 of a copy over line 0 of tile 4. -/
def withTileLock (s : State) : State := s.modDie 0 fun d => { d with locks := [(5, { copy := 9, slice := 0, range := .tile 1 4 [0] })] }

/-- The state with a second team whose DESCEND reads tile 4 as its rows and holds the descent unit. -/
def withReader (s : State) : State :=
  let w := (encode (.descend ⟨0, 10, 7, 8, 4, 1, 0, 0⟩)).getD 0
  let z : State := onSquad s fun q => { q with teams := q.teams ++ q.teams.map fun tm => { tm with buffer := [{ word := w, last := true }] } }
  z.modCluster 0 fun c => { c with descent := [(1, 1)] }

/-- No lane in M; a handle that is allocated already, a shape of no rows and one too large for the level, and a level without space; an unallocated
handle, one with a locked line, one that a DESCEND reads, and an accumulator's. -/
def tileTableStates : List (State × Instr × (LaneIn → Bool)) :=
  ([Instr.tnew ⟨0, 5, 4, 8, 0, 0, 5, 0⟩, .tfree ⟨0, 0, 4, 0, 0, 0, 0, 0⟩, .tzero ⟨0, 0, 4, 0, 0, 0, 0, 0⟩].map fun i =>
          (withTiles [(4, square)] (laneSt i noLanes), i, fun x : LaneIn => x.m == 0))
        ++ [(withTiles [(4, square)] (laneSt (.tnew ⟨0, 5, 4, 8, 0, 0, 5, 0⟩) (withReg 8 fun _ => 0x00040004)), .tnew ⟨0, 5, 4, 8, 0, 0, 5, 0⟩,
            fun x => lowLane x.m == some 0 && (x.s.tile x.q 4).isSome),
          (withTiles [] (laneSt (.tnew ⟨0, 5, 4, 8, 0, 0, 5, 0⟩) (withReg 8 fun _ => 0x00040000)), .tnew ⟨0, 5, 4, 8, 0, 0, 5, 0⟩,
            fun x => lowLane x.m == some 0 && (x.tm.V 0 8).toNat % 2 ^ 16 == 0),
          (withTiles [] (laneSt (.tnew ⟨0, 4, 4, 8, 0, 0, 0, 0⟩) (withReg 8 fun _ => 0x00040041)), .tnew ⟨0, 4, 4, 8, 0, 0, 0, 0⟩,
            fun x => lowLane x.m == some 0 && (x.tm.V 0 8).toNat % 2 ^ 16 == 65),
          (withTiles [] (laneSt (.tnew ⟨0, 5, 4, 8, 0, 0, 1, 0⟩) (withReg 8 fun _ => 0x10001000)), .tnew ⟨0, 5, 4, 8, 0, 0, 1, 0⟩,
            fun x => lowLane x.m == some 0 && (x.s.tile x.q 4).isNone && !x.s.room x.sq 1 (x.tm.coreOf 0) (spaceOf 1 .n32 4096 4096)),
          (withTiles [(4, square)] (laneSt (.tfree ⟨0, 0, 4, 0, 0, 0, 0, 0⟩) fun tm => { tm with lostTiles := [4] }), .tfree ⟨0, 0, 4, 0, 0, 0, 0, 0⟩,
            fun x => x.m != 0 && x.tm.lostTiles.contains 4),
          (withReader (withTiles [(4, square)] (laneSt (.tfree ⟨0, 0, 4, 0, 0, 0, 0, 0⟩))), .tfree ⟨0, 0, 4, 0, 0, 0, 0, 0⟩,
            fun x => x.m != 0 && (x.s.tile x.q 4).isSome && (x.s.tileLocked x.q 4).isNone && x.s.tileInUse x.q 4)]
        ++ ([Instr.tfree ⟨0, 0, 4, 0, 0, 0, 0, 0⟩, .tzero ⟨0, 0, 4, 0, 0, 0, 0, 0⟩].flatMap fun i =>
          [(withTiles [] (laneSt i), i, fun x => x.m != 0 && (x.s.tile x.q 4).isNone),
            (withTileLock (withTiles [(4, square)] (laneSt i)), i, fun x => x.m != 0 && (x.s.tile x.q 4).isSome && x.s.tileLocked x.q 4 == some 5)])
        ++ ([0, 1].map fun n => (withTiles [(4, { square with level := 0 })] (laneSt (.tzero ⟨0, 0, 4, 0, 0, 0, n, 0⟩)), .tzero ⟨0, 0, 4, 0, 0, 0, n, 0⟩,
            fun x => x.m != 0 && (x.s.tile x.q 4).any (·.level == 0) && (x.s.tileLocked x.q 4).isNone && freeUnit x 0))

theorem test_witness_TileTableWords_other : ∀ x ∈ tileTableStates, LaneWitness x.1 x.2.1 x.2.2 := laneWitness (by decide +kernel)

/-- The state whose squad has huddle 1 as given. -/
def withHuddle (h : Huddle) (s : State) : State := onSquad s fun q => { q with huddles := [(1, h)] }

/-- HARRIVE, HSYNC, HWAIT and HEXPECT of huddle 1: a count that is allowed and one that is not, a phase that completes and one that does not, a
phase that has moved on and one that has not, and the ends of the range of owed completions. -/
def huddleStates : List (State × Instr × (LaneIn → Bool)) :=
    [(laneSt (.harrive ⟨0, 0, 0, 0, 0x40001⟩), Instr.harrive ⟨0, 0, 0, 0, 0x40001⟩, fun x : LaneIn => ((x.sq.huddle 1).arrive 4).isSome),
        (laneSt (.harrive ⟨0, 0, 0, 0, 1⟩), .harrive ⟨0, 0, 0, 0, 1⟩, fun x => ((x.sq.huddle 1).arrive 0).isNone),
        (laneSt (.hsync ⟨0, 0, 0, 0, 0x10001⟩), .hsync ⟨0, 0, 0, 0, 0x10001⟩, fun x => ((x.sq.huddle 1).arrive 1).any (·.ph == 1)),
        (laneSt (.hsync ⟨0, 0, 0, 0, 0x20001⟩), .hsync ⟨0, 0, 0, 0, 0x20001⟩, fun x => ((x.sq.huddle 1).arrive 2).any (·.ph == 0)),
        (withHuddle { exp := 2, arr := 1 } (laneSt (.hsync ⟨0, 0, 0, 0, 0x30001⟩)), .hsync ⟨0, 0, 0, 0, 0x30001⟩, fun x => ((x.sq.huddle 1).arrive 3).isNone),
        (withHuddle { ph := 1 } (laneSt (.hwait ⟨0, 0, 0, 0, 1⟩)), .hwait ⟨0, 0, 0, 0, 1⟩, fun x => (x.sq.huddle 1).ph != aget 0 x.tm.tp 1),
        (laneSt (.hwait ⟨0, 0, 0, 0, 1⟩), .hwait ⟨0, 0, 0, 0, 1⟩, fun x => (x.sq.huddle 1).ph == aget 0 x.tm.tp 1),
        (withHuddle { owed := 32766 } (laneSt (.hexpect ⟨0, 0, 0, 0, 0x10001⟩)), .hexpect ⟨0, 0, 0, 0, 0x10001⟩, fun x => ((x.sq.huddle 1).expect 1).isSome),
        (withHuddle { owed := 32767 } (laneSt (.hexpect ⟨0, 0, 0, 0, 0x10001⟩)), .hexpect ⟨0, 0, 0, 0, 0x10001⟩, fun x => ((x.sq.huddle 1).expect 1).isNone)]

theorem test_witness_Huddle : ∀ x ∈ huddleStates, LaneWitness x.1 x.2.1 x.2.2 := laneWitness (by decide +kernel)

/-- The states and words of the witnesses of `Huddle_context`. -/
def huddleContextStates : List (State × Instr × (GenIn → Bool)) :=
    [(genSt (.gharrive ⟨0, 0, 0, 0, 0, 1, 4⟩), Instr.gharrive ⟨0, 0, 0, 0, 0, 1, 4⟩, fun x : GenIn => ((x.sq.huddle 1).arrive 4).isSome),
        (genSt (.gharrive ⟨0, 0, 0, 0, 0, 1, 0⟩), .gharrive ⟨0, 0, 0, 0, 0, 1, 0⟩, fun x => ((x.sq.huddle 1).arrive 0).isNone),
        (genSt (.ghsync ⟨0, 0, 0, 0, 0, 1, 1⟩), .ghsync ⟨0, 0, 0, 0, 0, 1, 1⟩, fun x => x.cx.arrived.isNone && ((x.sq.huddle 1).arrive 1).any (·.ph == 1)),
        (genSt (.ghsync ⟨0, 0, 0, 0, 0, 1, 2⟩), .ghsync ⟨0, 0, 0, 0, 0, 1, 2⟩, fun x => x.cx.arrived.isNone && ((x.sq.huddle 1).arrive 2).any (·.ph == 0)),
        (withHuddle { ph := 1 } (genSt (.ghsync ⟨0, 0, 0, 0, 0, 1, 2⟩) fun cx => { cx with arrived := some cx.pc.toNat }), .ghsync ⟨0, 0, 0, 0, 0, 1, 2⟩,
          fun x => x.cx.arrived == some x.cx.pc.toNat && (x.sq.huddle 1).ph != aget 0 x.cx.tp 1),
        (genSt (.ghsync ⟨0, 0, 0, 0, 0, 1, 2⟩) (fun cx => { cx with arrived := some cx.pc.toNat }), .ghsync ⟨0, 0, 0, 0, 0, 1, 2⟩,
          fun x => x.cx.arrived == some x.cx.pc.toNat && (x.sq.huddle 1).ph == aget 0 x.cx.tp 1),
        (genSt (.ghsync ⟨0, 0, 0, 0, 0, 1, 0⟩), .ghsync ⟨0, 0, 0, 0, 0, 1, 0⟩, fun x => x.cx.arrived.isNone && ((x.sq.huddle 1).arrive 0).isNone)]

theorem test_witness_Huddle_context : ∀ x ∈ huddleContextStates, GenWitness x.1 x.2.1 x.2.2 := genWitness (by decide +kernel)

/-- A live F32 region of owner 1, of rank 2 with two 32-bit dimensions, that holds 1.0 at (2, 7). -/
def region : Region :=
  { live := true, gen := 1, owner := 1, shape := 64490, base := 0x100000, count := 16, frames := [(0x100000, 0x100000, 0x10000)]
    nodes := [(0, { leaf := true, keys := [2 * 2 ^ 32 + 7], vals := [0x3F800000#64] })] }

/-- The state with that region as entry 3 of die 0's table. -/
def withRegion (s : State) : State := s.modDie 0 fun d => { d with regions := [(3, region)] }

/-- A team with a COORD window on that region in w3, readable and writable, and the coordinates (l, 7) in v2 and v3. -/
def coordTeam (tm : Team) : Team :=
  withReg 3 (fun _ => 7) (withReg 2 (fun l => l) { tm with win := [(3, { w0 := 0x3600000000000000#64, w1 := 0x0010000000000000#64, w2 := 0x30100000000#64 })] })

/-- The key of a lane's coordinates. -/
def laneKey (x : LaneIn) (w : LM) (l : Nat) : Nat :=
  match keyOf region.shape (x.coords w region.shape l) with
  | .ok k => k
  | .error _ => 0

/-- What the region words share: the window, the type, no error, and a key for each lane. -/
def regionReach (w : LM) (next : Bool) (x : LaneIn) : Bool :=
  decide (x.s.windowRegion (x.tm.window w.w.toNat) = some (0, 3, region)) && decide (x.ty w.ty = shapeTy region.shape) && decide (0 < x.s.dies.length)
    && decide (x.tm.lanes ≤ 1024) && !x.tm.starved && x.s.badLines.isEmpty && x.s.poison.isEmpty && !x.s.speculative x.sq
    && !wideAcq w.ord.toNat w.scope.toNat && !x.regionRegs w region.shape (x.ty w.ty) next && (x.tm.window w.w.toNat).rd && (x.tm.window w.w.toNat).wr
    && (x.tm.lanesOf x.m).all fun l => !x.startMark w region.shape l
      && match keyOf region.shape (x.coords w region.shape l) with
        | .ok k => k == laneKey x w l
        | .error _ => false

/-- The states and words of the witnesses of `Region`. -/
def regionStates : List (State × Instr × (LaneIn → Bool)) :=
    [(withRegion (laneSt (.spld ⟨0, 10, 8, 2, 3, 0, 0, 0⟩) coordTeam), Instr.spld ⟨0, 10, 8, 2, 3, 0, 0, 0⟩, regionReach ⟨0, 10, 8, 2, 3, 0, 0, 0⟩ false),
        (withRegion (laneSt (.spnext ⟨0, 10, 8, 2, 3, 0, 0, 0⟩) coordTeam), .spnext ⟨0, 10, 8, 2, 3, 0, 0, 0⟩, regionReach ⟨0, 10, 8, 2, 3, 0, 0, 0⟩ true),
        (withRegion (laneSt (.spst ⟨0, 10, 8, 2, 3, 0, 0, 0⟩) coordTeam), .spst ⟨0, 10, 8, 2, 3, 0, 0, 0⟩, fun x =>
          regionReach ⟨0, 10, 8, 2, 3, 0, 0, 0⟩ false x
            && (x.tm.lanesOf x.m).all (fun l => !(narrowStore x.tm.fmtr (x.ty 10) ((x.tm.V l 8).toNat)).trap)
            && (regionStores (x.ty 10) (laneKey x ⟨0, 10, 8, 2, 3, 0, 0, 0⟩) (fun _ l => (narrowStore x.tm.fmtr (x.ty 10) ((x.tm.V l 8).toNat)).code)
              (x.tm.lanesOf x.m) region).isSome),
        (withRegion (laneSt (.spadd ⟨0, 10, 8, 2, 3, 0, 0, 0⟩) coordTeam), .spadd ⟨0, 10, 8, 2, 3, 0, 0, 0⟩, fun x =>
          regionReach ⟨0, 10, 8, 2, 3, 0, 0, 0⟩ false x
            && (let key := laneKey x ⟨0, 10, 8, 2, 3, 0, 0, 0⟩
              let ls := x.tm.lanesOf x.m
              let add (old l : Nat) : Nat := (roundX .f32 .ne .inf (xadd .ne (NumTy.f32.decode old) (NumTy.f32.decode ((x.tm.V l 8).toNat % 2 ^ 32)))).code
              regionStores (x.ty 10) key (fun r l => (ls.filter fun j => key j == key l).foldl add ((r.find (key l)).getD 0).toNat)
                (ls.filter fun l => ls.all fun j => key j != key l || decide (j ≤ l)) region).isSome)]

theorem test_witness_Region : ∀ x ∈ regionStates, LaneWitness x.1 x.2.1 x.2.2 := laneWitness (by decide +kernel)

/-- A team with lane n alone in m0. -/
def onlyLane (n : Nat) (tm : Team) : Team := { tm with masks := tm.masks.set 0 (maskOf [n]) }

/-- The state of a step that performs n + 1 lanes of a region word. -/
def inPart (n : Nat) (s : State) : State := { s with limit := some n }

/-- The state with that region of another shape. -/
def withShape (k : Nat) (s : State) : State := (withRegion s).modDie 0 fun d => { d with regions := [(3, { region with shape := k })] }

/-- A part of an SPST's lanes. -/
theorem test_witness_Region_part :
    ∀ x ∈ [(inPart 3 (withRegion (laneSt (.spst ⟨0, 10, 8, 2, 3, 0, 0, 0⟩) coordTeam)), Instr.spst ⟨0, 10, 8, 2, 3, 0, 0, 0⟩, fun x : LaneIn =>
      regionReach ⟨0, 10, 8, 2, 3, 0, 0, 0⟩ false x && x.s.limit == some 3 && decide (4 < (x.tm.lanesOf x.m).length)
        && (x.tm.lanesOf x.m).all (fun l => !(narrowStore x.tm.fmtr (x.ty 10) ((x.tm.V l 8).toNat)).trap)
        && (regionStores (x.ty 10) (laneKey x ⟨0, 10, 8, 2, 3, 0, 0, 0⟩) (fun _ l => (narrowStore x.tm.fmtr (x.ty 10) ((x.tm.V l 8).toNat)).code)
          ((x.tm.lanesOf x.m).take 4) region).isSome)],
      LaneWitness x.1 x.2.1 x.2.2 := laneWitness (by decide +kernel)

/-- The fields of a region word of F32 at v8 with coordinates in v2 and v3. -/
def spWord : LM := ⟨0, 10, 8, 2, 3, 0, 0, 0⟩

/-- Each region word on no region, on one of another type, with registers beyond the team's, on a coordinate out of range, and in a window without permission. -/
def regionFaultsStates : List (State × Instr × (LaneIn → Bool)) :=
    [Instr.spld spWord, .spst spWord, .spnext spWord, .spadd spWord].flatMap fun i =>
        [(laneSt i coordTeam, i, fun x : LaneIn => !(x.tm.lanesOf x.m).isEmpty && (x.s.windowRegion (x.tm.window 3)).isNone),
          (withShape 64488 (laneSt i coordTeam), i, fun x =>
            (x.s.windowRegion (x.tm.window 3)).any fun y => decide (x.ty 10 ≠ shapeTy y.2.2.shape)),
          (withRegion (laneSt i fun tm => { coordTeam tm with n := 3 }), i, fun x => (x.s.windowRegion (x.tm.window 3)).any fun y =>
            decide (x.ty 10 = shapeTy y.2.2.shape) && x.regionRegs spWord y.2.2.shape (x.ty 10) (decide (i = .spnext spWord))),
          (withShape 32234 (laneSt i fun tm => withReg 4 (fun _ => 2 ^ 16) (onlyLane 5 (coordTeam tm))), i, fun x => x.tm.lanesOf x.m == [5] && x.s.limit.isNone
            && (x.tm.window 3).rd && (x.tm.window 3).wr && (x.s.windowRegion (x.tm.window 3)).any fun y =>
              !x.regionRegs spWord y.2.2.shape (x.ty 10) (decide (i = .spnext spWord)) && !x.startMark spWord y.2.2.shape 5
                && (match keyOf y.2.2.shape (x.coords spWord y.2.2.shape 5) with | .error _ => true | .ok _ => false)),
          (withRegion (laneSt i fun tm => { coordTeam tm with win := [(3, { w0 := 0x3000000000000000#64, w1 := 0x0010000000000000#64, w2 := 0x30100000000#64 })] }), i,
            fun x => !(x.tm.window 3).rd && !(x.tm.window 3).wr && !x.s.speculative x.sq && (x.s.windowRegion (x.tm.window 3)).any fun y =>
              decide (x.ty 10 = shapeTy y.2.2.shape) && !x.regionRegs spWord y.2.2.shape (x.ty 10) (decide (i = .spnext spWord)))]

theorem test_witness_Region_faults : ∀ x ∈ regionFaultsStates, LaneWitness x.1 x.2.1 x.2.2 := laneWitness (by decide +kernel)

/-! ## The matrix unit -/

/-- A 2 × 2 accumulator of I32, and an 8 × 2 tile of I8 in TS with every line FULL. -/
def accTile : Tile := { level := 0, ty := .i32, rows := 2, cols := 2, core := 0 }
/-- The B operand. -/
def bTile : Tile := filled { level := 1, ty := .i8, rows := 8, cols := 2, core := 0 }

/-- What a multiply of `accTile` by `bTile` needs beyond its tiles: its lines there and good, no bad register, and no overflow. -/
def mmaReach (w : LR) (zero : Bool) (x : LaneIn) : Bool :=
  x.tm.todo.isNone && decide (x.m &&& x.rbMask 0 = x.rbMask 0) && decide (x.rbMask 0 ≠ 0) && freeUnit x (x.tm.coreOf 0)
    && (match x.mmaTiles w (x.tm.coreOf 0) (x.ty w.ty) with
      | .ok (d, b, m) =>
        let p := x.mmaOf w zero (x.ty w.ty) d b m
        d == accTile && b == bTile && m.isNone && (upTo p.kn).all (fun k => (x.missing (p.need k)).isNone && (x.badNeed (p.need k)).isNone)
          && (x.badA (if zero then .mmaz w else .mma w) w p).isNone && d.bad.isEmpty && (p.run p.kn).all fun r => !r.2.trap
      | .error _ => false)

/-- Both words with the latch and without; no lane of the row block in M, some of them, and a B operand that is no tile. -/
def multiplyStates : List (State × Instr × (LaneIn → Bool)) :=
    ([false, true].flatMap fun zero =>
        let w (ex : BitVec 8) : LR := ⟨0, 0, 3, 16, 20, 0, 0, ex⟩
        let i (ex : BitVec 8) : Instr := if zero then .mmaz (w ex) else .mma (w ex)
        ([0, 0x80].map fun ex => (withTiles [(3, accTile), (20, bTile)] (laneSt (i ex)), i ex, mmaReach (w ex) zero))
          ++ [(withTiles [(3, accTile), (20, bTile)] (laneSt (i 0) noLanes), i 0, fun x => decide (x.m &&& x.rbMask 0 = 0)),
            (withTiles [(3, accTile), (20, bTile)] (laneSt (i 0) fun tm => { tm with masks := tm.masks.set 0 1 }), i 0,
              fun x => decide (x.m &&& x.rbMask 0 ≠ 0) && decide (x.m &&& x.rbMask 0 ≠ x.rbMask 0)),
            (withTiles [(3, accTile)] (laneSt (i 0)), i 0, fun x => decide (x.rbMask 0 ≠ 0) && decide (x.m &&& x.rbMask 0 = x.rbMask 0) && freeUnit x 0
              && match x.mmaTiles (w 0) 0 (x.ty (w 0).ty) with | .ok _ => false | .error c => c == .tileHandle)])

theorem test_witness_Multiply : ∀ x ∈ multiplyStates, LaneWitness x.1 x.2.1 x.2.2 := laneWitness (by decide +kernel)

/-- What the whole-tile words share, for destination d in handle 4 and source b in handle 5. -/
def wholeTile (d b : Tile) (x : LaneIn) : Bool :=
  lowLane x.m == some 0 && freeUnit x (x.tm.coreOf 0) && x.handle (x.tm.coreOf 0) 4 == some d && x.handle (x.tm.coreOf 0) 5 == some b
    && (d.level == 0 || (x.lockedLine 4 (upTo d.lineCount)).isNone)
    && (let ls := (upTo b.rows).flatMap fun r => (upTo b.cols).flatMap fun c => needOf 5 b r c
      (x.missing ls).isNone && (x.badNeed ls).isNone) && (b.level != 0 || b.bad.isEmpty)

/-- A tile of F32 or of another type in TS, full. -/
def tsTile (ty : NumTy) (rows cols : Nat) : Tile := filled { level := 1, ty := ty, rows := rows, cols := cols, core := 0 }

theorem test_witness_WholeTile :
    ∀ x ∈ [(Instr.had ⟨0, 10, 4, 0, 5, 0, 0, 0⟩, tsTile .f32 16 1, tsTile .f32 16 1), (.tcvt ⟨0, 8, 4, 0, 5, 0, 0, 0⟩, tsTile .f16 2 2, tsTile .f32 2 2),
          (.tcvt ⟨0, 4, 4, 0, 5, 0, 0, 0⟩, tsTile .i32 2 2, tsTile .i8 2 2),
          (.tcvt ⟨0, 4, 4, 0, 5, 0, 0, 1⟩, tsTile .i32 16 1, tsTile .i8 16 1), (.tcvt ⟨0, 0xE, 4, 0, 5, 0, 0x10, 0⟩, tsTile .mxe4m3 32 1, tsTile .f32 32 1),
          (.ttrans ⟨0, 5, 4, 0, 5, 0, 0, 0⟩, tsTile .n32 2 3, tsTile .n32 3 2),
          (.tred ⟨0, 4, 4, 0, 5, 0, 0, 0⟩, tsTile .i32 2 1, tsTile .i32 2 2), (.tred ⟨0, 10, 4, 0, 5, 0, 0x10, 0⟩, tsTile .f32 1 2, tsTile .f32 2 2)].map fun y =>
        (withTiles [(4, y.2.1), (5, y.2.2)] (laneSt y.1 fun tm => { tm with fmtr := 0x8000 }), y.1, wholeTile y.2.1 y.2.2),
      LaneWitness x.1 x.2.1 x.2.2 := laneWitness (by decide +kernel)

/-- No lane in M; a handle that is unallocated, and a destination of another shape. -/
theorem test_witness_WholeTile_other :
    ∀ x ∈ ([Instr.had ⟨0, 10, 4, 0, 5, 0, 0, 0⟩, .tcvt ⟨0, 8, 4, 0, 5, 0, 0, 0⟩, .ttrans ⟨0, 5, 4, 0, 5, 0, 0, 0⟩, .tred ⟨0, 4, 4, 0, 5, 0, 0, 0⟩].flatMap fun i =>
        [(withTiles [] (laneSt i fun tm => { noLanes tm with fmtr := 0x8000 }), i, fun x : LaneIn => lowLane x.m == none),
          (withTiles [] (laneSt i fun tm => { tm with fmtr := 0x8000 }), i, fun x => lowLane x.m == some 0 && freeUnit x 0 && (x.handle 0 4).isNone),
          (withTiles [(4, tsTile .f32 2 2), (5, tsTile .f32 1 3)] (laneSt i fun tm => { tm with fmtr := 0x8000 }), i, fun x => lowLane x.m == some 0 && freeUnit x 0
            && x.handle 0 4 == some (tsTile .f32 2 2) && x.handle 0 5 == some (tsTile .f32 1 3))]),
      LaneWitness x.1 x.2.1 x.2.2 := laneWitness (by decide +kernel)

/-- What TFROMV and TTOV share, for tile k of row block 0. -/
def moveReach (k : Tile) (h : Nat) (x : LaneIn) : Bool :=
  decide (x.tm.lanes ≤ 1024) && !x.tm.starved && !(x.rbLanes 0).isEmpty && freeUnit x (x.tm.coreOf 0) && x.handle (x.tm.coreOf 0) h == some k && k.bad.isEmpty
    && (x.rbLanes 0).all fun l => decide (l < k.rows)
      && (k.level == 0 || ((x.lockedLine h (bitLines (segBit k l 0) 64)).isNone && (k.badLine (bitLines (segBit k l 0) 64)).isNone
          && (bitLines (segBit k l 0) 64).all fun j => k.full j))

theorem test_witness_TileMoves :
    ∀ x ∈ [(Instr.tfromv ⟨0, 5, 4, 16, 0, 0, 1, 0⟩, tsTile .n32 16 2), (.ttov ⟨0, 5, 16, 0, 4, 0, 1, 0⟩, tsTile .n32 16 2),
          (.tfromv ⟨0, 4, 4, 16, 0, 0, 1, 0⟩, { accTile with rows := 16 }), (.ttov ⟨0, 4, 16, 0, 4, 0, 1, 0⟩, { accTile with rows := 16 })].map fun y =>
        (withTiles [(4, y.2)] (laneSt y.1), y.1, moveReach y.2 4),
      LaneWitness x.1 x.2.1 x.2.2 := laneWitness (by decide +kernel)

/-- No lane of the row block in M. -/
theorem test_witness_TileMoves_none :
    ∀ x ∈ [Instr.tfromv ⟨0, 5, 4, 16, 0, 0, 1, 0⟩, .ttov ⟨0, 5, 16, 0, 4, 0, 1, 0⟩].map fun i => (laneSt i noLanes, i, fun x : LaneIn => (x.rbLanes 0).isEmpty),
      LaneWitness x.1 x.2.1 x.2.2 := laneWitness (by decide +kernel)

/-- What TEPI and TEPI.MEM share, for accumulator d in handle 3. -/
def epiReach (w : LR) (d : Tile) (x : LaneIn) : Bool :=
  decide (x.tm.lanes ≤ 1024) && !x.tm.starved && x.tm.wait.isNone && decide (x.m &&& x.rbMask 0 ≠ 0) && freeUnit x (x.tm.coreOf 0)
    && x.handle (x.tm.coreOf 0) 3 == some d && d.bad.isEmpty && x.tm.bad.isEmpty
    && (upTo d.rows).all fun i => (upTo d.cols).all fun j => !(x.epiElem w (x.ty w.ty) d 0 i j).trap

/-- An accumulator of F32 with the element 2.0 in each place. -/
def fAcc (rows cols : Nat) : Tile :=
  (cells rows cols).foldl (fun k rc => k.setCode rc.1 rc.2 0x40000000) { level := 0, ty := .f32, rows := rows, cols := cols, core := 0 }

/-- TEPI to a tile of elements, and one of blocks whose rows' lanes are all in M; TEPI.MEM; and no lane of the row block in M. -/
def epiloguesStates : List (State × Instr × (LaneIn → Bool)) :=
    [(withTiles [(3, accTile), (4, tsTile .i32 2 2)] (laneSt (.tepi ⟨0, 4, 3, 0, 4, 0, 0x40, 0⟩)), Instr.tepi ⟨0, 4, 3, 0, 4, 0, 0x40, 0⟩, fun x : LaneIn =>
          epiReach ⟨0, 4, 3, 0, 4, 0, 0x40, 0⟩ accTile x && x.s.tile x.q 4 == some (tsTile .i32 2 2)
            && (x.lockedLine 4 ((tsTile .i32 2 2).elemLines 0 0)).isNone),
        (withTiles [(3, fAcc 2 1), (4, tsTile .mxe4m3 32 1)] (laneSt (.tepi ⟨0, 0xE, 3, 0, 4, 0, 0, 0⟩)), .tepi ⟨0, 0xE, 3, 0, 4, 0, 0, 0⟩, fun x =>
          epiReach ⟨0, 0xE, 3, 0, 4, 0, 0, 0⟩ (fAcc 2 1) x && x.s.tile x.q 4 == some (tsTile .mxe4m3 32 1) && x.m.getLsbD 0 && x.m.getLsbD 1
            && !(encodeBlock .mxe4m3 ((upTo 32).map fun i => if i < 2 then (x.epiValue ⟨0, 0xE, 3, 0, 4, 0, 0, 0⟩ .ne (fAcc 2 1) 0 i 0).1 else .zero false) .ne
              (x.ovf 0xE 0) x.tm.zblk).trap
            && (x.lockedLine 4 (upTo (tsTile .mxe4m3 32 1).lineCount)).isNone),
        (laneSt (.tepi ⟨0, 4, 3, 0, 4, 0, 0x40, 0⟩) noLanes, .tepi ⟨0, 4, 3, 0, 4, 0, 0x40, 0⟩, fun x => decide (x.m &&& x.rbMask 0 = 0)),
        (laneSt (.tepiMem ⟨0, 4, 3, 2, 1, 0, 0x80, 0⟩) noLanes, .tepiMem ⟨0, 4, 3, 2, 1, 0, 0x80, 0⟩, fun x => decide (x.m &&& x.rbMask 0 = 0)),
        (withTiles [(3, accTile)] (laneSt (.tepiMem ⟨0, 4, 3, 2, 1, 0, 0x80, 0⟩) fun tm => withReg 2 (fun l => 8 * l) { tm with win := [(1, memWin)] }),
          .tepiMem ⟨0, 4, 3, 2, 1, 0, 0x80, 0⟩, fun x => epiReach ⟨0, 4, 3, 2, 1, 0, 0x80, 0⟩ accTile x && (x.tm.window 1).kind == 1 && (x.tm.window 1).wr
            && !x.s.speculative x.sq && Memory.wf x.s.mem && (upTo 2).all fun i => (upTo 2).all fun j =>
              decide (8 * i + 4 * j + 4 ≤ (x.tm.window 1).limit)
                && reachesB x.s x.sq.cluster (x.s.ownerOf x.sq) (0x10000 + 8 * i + 4 * j) (0x10000 + 8 * i + 4 * j) 4 true)]

theorem test_witness_Epilogues : ∀ x ∈ epiloguesStates, LaneWitness x.1 x.2.1 x.2.2 := laneWitness (by decide +kernel)

/-! ## The descent unit -/

/-- A HEAP tree of three nodes of 64 bytes at 0x10000: one feature, depth 1, digest (R268). -/
def smallTree : List DWord := [0x10000#64, 0x4000010204#64, 0x100000003#64, 0]

/-- A TREE window over it. -/
def treeWin : Window := { memWin with w0 := 0x5600000000010000#64, tree := smallTree }

/-- A state whose memory holds the tree: a threshold node that tests feature 0 against 0.5, and leaves of one value, 2 and 3 (R269). -/
def withTree (s : State) : State :=
  let leaf (v : Nat) : List Byte := toBytes 4 4 ++ List.replicate 12 0 ++ toBytes 4 v ++ List.replicate 44 0
  { s with mem := memSets s.mem 0x10000 (toBytes 4 2 ++ List.replicate 12 0 ++ toBytes 4 0x3F000000 ++ List.replicate 44 0 ++ leaf 0x40000000 ++ leaf 0x40400000) }

/-- The rows of the lanes: row l holds 1 for odd l and 0 for even l. -/
def rowsTile : Tile :=
  (upTo 16).foldl (fun k r => k.setCode r 0 (if r % 2 = 1 then 0x3F800000 else 0)) (filled { level := 1, ty := .f32, rows := 16, cols := 1, core := 0 })

/-- A state for the descent words: the tree in w1, the row tile in handle 5, each lane's number in v8, and a path of depth 1 in path-trace
register 0, its bit that of the row. -/
def treeSt (i : Instr) (f : Team → Team := id) : State :=
  withTree (withTiles [(5, rowsTile)] (laneSt i fun tm => f (withReg 8 (fun l => l)
    { tm with win := [(1, treeWin)], pt := [(0, (upTo 16).map fun l => (BitVec.ofNat 32 (l % 2), 1))] })))

/-- Each lane of a list, from the state that the lane before left, gives a result and moves no team. -/
def eachOk {α : Type} (f : State → Nat → DR α) : List Nat → State → Bool
  | [], _ => true
  | l :: ls, s =>
    match f s l with
    | (.ok _, s') => s'.squads == s.squads && eachOk f ls s'
    | (.error _, _) => false

/-- What the descent words share. -/
def unitReach (x : LaneIn) : Bool :=
  decide (x.tm.lanes ≤ 1024) && !x.tm.starved && x.m != 0 && (x.s.cluster x.sq.cluster).descent.isEmpty

/-- A threshold node of threshold 0.5 that sends a NaN to the right (R269). -/
def threshold : List Byte := toBytes 4 0x12 ++ List.replicate 12 0 ++ toBytes 4 0x3F000000 ++ List.replicate 44 0
/-- A category node of the set 3, 200. -/
def categories : List Byte := toBytes 4 3 ++ List.replicate 12 0 ++ toBytes 4 8 ++ List.replicate 20 0 ++ toBytes 4 256 ++ List.replicate 20 0

/-- A NaN, a feature below the threshold, one at it, a category inside the set, one outside, and a value that is no category. -/
theorem test_witness_Branches :
    nodeTy threshold = 2 ∧ nodeTy categories = 3
      ∧ branchOf threshold (.nan false) = true ∧ branchOf threshold (NumTy.f32.decode 0x3EFFFFFF) = false
      ∧ branchOf threshold (NumTy.f32.decode 0x3F000000) = true
      ∧ category (NumTy.f32.decode 0x43480000) = some 200 ∧ branchOf categories (NumTy.f32.decode 0x43480000) = true
      ∧ branchOf categories (NumTy.f32.decode 0x40400000) = true ∧ branchOf categories (NumTy.f32.decode 0x40800000) = false
      ∧ category (NumTy.f32.decode 0x43800000) = none ∧ category (NumTy.f32.decode 0x3F000000) = none := by decide +kernel

/-- Whether a fetch gives a node of the type, whose branch goes on. -/
def fetches (x : LaneIn) (n ty : Nat) : Bool :=
  match x.fetchNode treeWin smallTree 1 0 n 0 x.s with
  | (.ok b, _) => nodeTy b == ty && (ty == 4 || (match takeBranch smallTree 5 rowsTile 0 0 b with | .ok (bit, _, _) => !bit | .error _ => false))
  | (.error _, _) => false

/-- A leaf, and a threshold node whose branch names node 1. -/
theorem test_witness_DescentSteps :
    ∀ x ∈ [1, 0].map fun n => (treeSt (.descend ⟨0, 10, 7, 8, 5, 1, 0, 0⟩), Instr.descend ⟨0, 10, 7, 8, 5, 1, 0, 0⟩, fun x : LaneIn => fetches x n (if n = 1 then 4 else 2)),
      LaneWitness x.1 x.2.1 x.2.2 := laneWitness (by decide +kernel)

/-- The same tree LINKED. -/
def linkedTree : Window := { treeWin with tree := smallTree.set 1 (smallTree.getD 1 0 ||| 1) }

/-- The states and words of the witnesses of `DescendAndLeaf`. -/
def descendAndLeafStates : List (State × Instr × (LaneIn → Bool)) :=
    [(treeSt (.descend ⟨0, 10, 7, 8, 5, 1, 0, 0⟩), Instr.descend ⟨0, 10, 7, 8, 5, 1, 0, 0⟩, fun x : LaneIn =>
          unitReach x && !treeLinked (x.tm.window 1).tree && eachOk (x.descendLane ⟨0, 10, 7, 8, 5, 1, 0, 0⟩ x.tm.inUnit) (x.tm.lanesOf x.m) x.s),
        (treeSt (.dleaf ⟨0, 10, 7, 9, 0, 1, 0, 0⟩) (withReg 9 fun l => 1 + l % 2), .dleaf ⟨0, 10, 7, 9, 0, 1, 0, 0⟩, fun x =>
          unitReach x && eachOk (x.leafLane ⟨0, 10, 7, 9, 0, 1, 0, 0⟩ x.tm.inUnit) (x.tm.lanesOf x.m) x.s),
        (treeSt (.descend ⟨0, 10, 7, 127, 5, 1, 0, 0⟩) (fun tm => { tm with win := [(1, linkedTree)] }), .descend ⟨0, 10, 7, 127, 5, 1, 0, 0⟩, fun x =>
          unitReach x && (x.tm.window 1).kind == 5 && treeLinked (x.tm.window 1).tree && decide (x.tm.n ≤ 128)),
        (treeSt (.dregroup ⟨0, 0, 10, 8, 0, 0, 0, 0⟩), .dregroup ⟨0, 0, 10, 8, 0, 0, 0, 0⟩, unitReach),
        (treeSt (.dtrace ⟨0, 0, 10, 0, 0, 0, 0, 0⟩), .dtrace ⟨0, 0, 10, 0, 0, 0, 0, 0⟩, unitReach)]
      ++ ([Instr.descend ⟨0, 10, 7, 8, 5, 1, 0, 0⟩, .dleaf ⟨0, 10, 7, 9, 0, 1, 0, 0⟩, .dregroup ⟨0, 0, 10, 8, 0, 0, 0, 0⟩, .dtrace ⟨0, 0, 10, 0, 0, 0, 0, 0⟩,
          .dgrad ⟨0, 10, 2, 10, 5, 1, 0, 0⟩].map fun i => (treeSt i noLanes, i, fun x => x.m == 0))

theorem test_witness_DescendAndLeaf : ∀ x ∈ descendAndLeafStates, LaneWitness x.1 x.2.1 x.2.2 := laneWitness (by decide +kernel)

/-- Each word on no TREE window, a DESCEND on a tile that is not allocated, and a DLEAF of a node that is none. -/
theorem test_witness_Descent_faults :
    ∀ x ∈ ([Instr.descend ⟨0, 10, 7, 8, 5, 1, 0, 0⟩, .dleaf ⟨0, 10, 7, 9, 0, 1, 0, 0⟩, .dgrad ⟨0, 10, 2, 10, 5, 1, 0, 0⟩].map fun i =>
          (treeSt i (fun tm => { tm with win := [(1, memWin)] }), i, fun x : LaneIn => unitReach x && x.tm.faulted.isEmpty && (x.tm.window 1).kind != 5))
        ++ [(treeSt (.descend ⟨0, 10, 7, 8, 6, 1, 0, 0⟩), .descend ⟨0, 10, 7, 8, 6, 1, 0, 0⟩, fun x => unitReach x && (x.tm.window 1).kind == 5
            && !treeLinked (x.tm.window 1).tree && (x.tile 6).isNone),
          (treeSt (.dleaf ⟨0, 10, 7, 9, 0, 1, 0, 0⟩) (withReg 9 fun _ => 3), .dleaf ⟨0, 10, 7, 9, 0, 1, 0, 0⟩, fun x => unitReach x && (x.tm.window 1).kind == 5
            && !x.s.sealGone (x.tm.window 1).tree && (x.tm.lanesOf x.m).all fun l => decide (treeNodes (x.tm.window 1).tree ≤ x.op 1 l 9))],
      LaneWitness x.1 x.2.1 x.2.2 := laneWitness (by decide +kernel)

/-- A team with one lane, the gradient 2 in v10, its row 1 in v11, and a window over 0x20000 in w2. -/
def gradTeam (tm : Team) : Team :=
  withReg 11 (fun _ => 1) (withReg 10 (fun _ => 0x40000000)
    { tm with masks := tm.masks.set 0 1, win := (2, { memWin with w0 := 0x1600000000020000#64, w1 := 0x20000#64 }) :: tm.win })


/-- A path of depth 1 that passes level 0, and one that does not pass level 1. -/
def gradientStates : List (State × Instr × (LaneIn → Bool)) :=
    [(treeSt (.dgrad ⟨0, 10, 2, 10, 5, 1, 1, 0⟩) gradTeam, Instr.dgrad ⟨0, 10, 2, 10, 5, 1, 1, 0⟩, fun x : LaneIn =>
        x.tm.lanesOf x.m == [0] && unitReach x && (x.tm.window 1).kind == 5 && (x.tm.window 2).kind == 1 && !treeLinked (x.tm.window 1).tree
          && decide ((x.tm.ptOf 0 0).2 ≤ 1) && (match x.rowTile (x.tm.window 1).tree 5 0 1 with | .ok k => k == rowsTile | .error _ => false)),
      (treeSt (.dgrad ⟨0, 10, 2, 10, 5, 1, 0, 0⟩) gradTeam, .dgrad ⟨0, 10, 2, 10, 5, 1, 0, 0⟩, fun x =>
        x.tm.lanesOf x.m == [0] && unitReach x && (x.tm.window 1).kind == 5 && (x.tm.window 2).kind == 1 && (x.tm.window 2).rd && (x.tm.window 2).wr
          && !treeLinked (x.tm.window 1).tree && decide (0 < (x.tm.ptOf 0 0).2)
          && (match x.rowTile (x.tm.window 1).tree 5 0 1 with | .ok k => k == rowsTile | .error _ => false)
          && (match rowFeatures 5 rowsTile 0 1 (upTo 1) with | .ok xs => xs == [NumTy.f32.decode 0x3F800000] | .error _ => false)
          && !x.s.speculative x.sq && Memory.wf x.s.mem
          && (upTo 2).all fun f => decide (4 * f + 4 ≤ (x.tm.window 2).limit)
            && reachesB x.s x.sq.cluster (x.s.ownerOf x.sq) (0x20000 + 4 * f) (0x20000 + 4 * f) 4 true)]

theorem test_witness_Gradient : ∀ x ∈ gradientStates, LaneWitness x.1 x.2.1 x.2.2 := laneWitness (by decide +kernel)

/-! ## Generator words -/

/-- A context with values in its scalar registers. -/
def withS (l : List (Nat × DWord)) (cx : Ctx) : Ctx := { cx with s := l }

/-- Every scalar integer word with immediate 5, then every scalar integer word of format GI. -/
def scalarWords : List Instr :=
  let r : GR := ⟨0, 0, 1, 2, 0, 1, 5⟩
  let m : GR := ⟨0, 0, 1, 0, 0, 1, 5⟩
  let i : GI := ⟨0, 0, 1, 2, 5⟩
  let k : GI := ⟨0, 0, 1, 0, 5⟩
  [Instr.sadd r, .ssub r, .smul r, .smulhi r, .smin r, .smax r, .sand r, .sor r, .sxor r, .sshl r, .sshr r, .ssar r, .sbfx r, .sbfi r, .smov m,
    .ssel ⟨0, 0, 1, 2, 0, 0x11, 5⟩, .spopc ⟨0, 0, 1, 2, 0, 0, 0⟩, .sclz ⟨0, 0, 1, 2, 0, 0, 0⟩, .scmp ⟨0, 0, 0, 2, 0, 1, 5⟩,
    .sldi k, .sldih k, .saddi i, .sandi i, .sshli i, .scmpi ⟨0, 0, 0, 2, 5⟩]

theorem test_witness_ScalarIntegers : ∀ x ∈ genAt scalarWords, GenWitness x.1 x.2.1 x.2.2 := genWitness (by decide +kernel)

/-- A result in range, an overflow under OVF 11, a conversion to a float and one to an integer, and a comparison. -/
theorem test_witness_ScalarFloats :
    ∀ x ∈ genAt [.sfadd ⟨0, 8, 1, 2, 3, 0, 0⟩, .sfmul ⟨0, 9, 1, 2, 3, 0, 0⟩, .sffma ⟨0, 8, 1, 2, 3, 0, 0⟩, .sfcvt ⟨0, 8, 1, 2, 0, 0, 0⟩,
          .sfcvt ⟨0, 0, 1, 2, 0, 0x80, 0⟩, .scmp ⟨0, 8, 0, 2, 3, 0, 0⟩]
        ++ [(genSt (.sfmul ⟨0, 8, 1, 2, 2, 0xC, 0⟩) (withS [(2, 0x7F000000#64)]), Instr.sfmul ⟨0, 8, 1, 2, 2, 0xC, 0⟩, fun x : GenIn =>
          let v := NumTy.f32.decode ((x.cx.S 2).toNat % 2 ^ 32)
          (roundX .f32 .ne (Ovf.ofCode 3) (xmul v v)).trap)],
      GenWitness x.1 x.2.1 x.2.2 := genWitness (by decide +kernel)

/-- A word whose predicate is false: its context's Z is clear, and the word asks for it. -/
theorem test_witness_PredicateFalse :
    ([Instr.br ⟨1, 0, 0, 0, 2⟩, .brz ⟨1, 0, 2, 0, 2⟩, .loop ⟨1, 0, 2, 0, 2⟩, .call ⟨1, 0, 2, 0, 2⟩, .yield ⟨1, 0, 0, 0, 2⟩, .yieldTag ⟨1, 0, 2, 0, 2⟩, .ret ⟨1, 0, 0, 2, 0, 0, 0⟩,
        .jmpr ⟨1, 0, 0, 2, 0, 0, 0⟩, .exitw ⟨1, 0, 0, 0, 0, 0, 0⟩].all fun i =>
      (genSt i).cur == some (.ctx 1 0) && ((genSt i).squad 1).any fun sq => (sq.ctxs[0]?).any fun cx => fieldCheck {} i == none && !cx.cc.holds 1) = true := by
  decide +kernel

/-- A context in the last word of its clause, with a counter of 1 and of 0, an aligned and a misaligned address, a copy outstanding and none. -/
def controlStates : List (State × Instr × (GenIn → Bool)) :=
    genAt [.br ⟨0, 0, 0, 0, 2⟩, .brz ⟨0, 0, 2, 0, 2⟩, .brz ⟨0, 0, 2, 1, 2⟩, .loop ⟨0, 0, 2, 0, 0xFFFFFFFE⟩, .yield ⟨0, 0, 0, 0, 2⟩,
          .yieldTag ⟨0, 0, 2, 0, 2⟩, .ret ⟨0, 0, 0, 2, 0, 0, 0⟩, .jmpr ⟨0, 0, 0, 2, 0, 0, 0⟩, .gnop ⟨0, 0, 0, 0, 0, 0, 0⟩]
        ++ [(genSt (.loop ⟨0, 0, 2, 0, 2⟩) (withS [(2, 1)]), Instr.loop ⟨0, 0, 2, 0, 2⟩, fun x : GenIn => x.cx.S 2 == 1),
          (genSt (.call ⟨0, 0, 2, 0, 2⟩), .call ⟨0, 0, 2, 0, 2⟩, fun x => x.cx.clause.isSome),
          ({ genSt (.yieldTag ⟨0, 0, 2, 0, 2⟩) with copies := [(0, { q := 1, tag := 0, count := 1, huddle := none })] },
            .yieldTag ⟨0, 0, 2, 0, 2⟩, fun x => x.s.copies.any fun p => p.2.q == x.q && p.2.tag == (x.cx.S 2).toNat),
          (genSt (.ret ⟨0, 0, 0, 2, 0, 0, 0⟩) (withS [(2, 4)]), .ret ⟨0, 0, 0, 2, 0, 0, 0⟩, fun x => (x.cx.S 2).toNat % 8 != 0),
          (genSt (.exitw ⟨0, 0, 0, 0, 0, 0, 0⟩), .exitw ⟨0, 0, 0, 0, 0, 0, 0⟩, fun x => x.cx.pending == [])]

theorem test_witness_Control : ∀ x ∈ controlStates, GenWitness x.1 x.2.1 x.2.2 := genWitness (by decide +kernel)

/-- The state whose context owns, as its team 16, the team of task 5's squad, which is not resident. -/
def withAway (s : State) : State :=
  let e : Nat × List DWord := (1, [BitVec.ofNat 64 (1 + 2 ^ 5 + 2 ^ 20), 5, 0, 0])
  let z : State := s.modCtx 1 0 fun cx => { cx with chans := [e] }
  { z with tasks := (5, otherTask .running) :: z.tasks, streams := [(0, [e])] }

/-- SREAD of each number, and of FFLAGS and SSTEP of a team owned, of one not owned and of one not resident; SWRITE likewise. -/
theorem test_witness_SpecialRegisters :
    ∀ x ∈ genAt ([0x00, 0x01, 0x02, 0x03, 0x04, 0x05, 0x06, 0x07, 0x08, 0x09, 0x0A, 0x0B, 0x0C, 0x0D, 0x20, 0x21, 0x22, 0x25, 0x26, 0x30, 0x31].map fun n => .sread ⟨0, 0, 1, 0, 0, 0, n⟩)
        ++ (([0x10, 0x11].flatMap fun n => [Instr.sread ⟨0, 0, 1, 0, 0, 0, n⟩, .swrite ⟨0, 0, 0, 2, 0, 0, n⟩]).map fun i =>
            (genSt i, i, fun x : GenIn => x.s.ownedTeam x.q x.c 0 == .team 1 0))
        ++ (([0x10, 0x11].flatMap fun n => [Instr.sread ⟨0, 0, 1, 0, 0, 5, n⟩, .swrite ⟨0, 0, 0, 2, 0, 5, n⟩]).map fun i =>
            (genSt i, i, fun x : GenIn => x.s.ownedTeam x.q x.c 5 == .no))
        ++ (([0x10, 0x11].flatMap fun n => [Instr.sread ⟨0, 0, 1, 0, 0, 16, n⟩, .swrite ⟨0, 0, 0, 2, 0, 16, n⟩]).map fun i =>
            (withAway (genSt i), i, fun x : GenIn => x.s.ownedTeam x.q x.c 16 == .away))
        ++ genAt [.swrite ⟨0, 0, 0, 2, 0, 0, 0x26⟩, .swrite ⟨0, 0, 0, 2, 0, 0, 0x31⟩],
      GenWitness x.1 x.2.1 x.2.2 := genWitness (by decide +kernel)

/-- The check that a scalar access reaches ordinary memory through the cluster's TLB. -/
def scalarReach (va n : Nat) (need : Need) (x : GenIn) : Bool :=
  genTlbB x.s x.sq va n need pageLeaf && reachesB x.s x.sq.cluster (x.s.ownerOf x.sq) va (xlOf va pageLeaf.size pageLeaf.leaf).pa n need.wr
    && !x.s.speculative x.sq && Memory.wf x.s.mem

/-- Accesses of 8 and of 1 byte, a watched location that differs and one that does not, and addresses that are too high and misaligned. -/
def scalarMemoryStates : List (State × Instr × (GenIn → Bool)) :=
    (([(Instr.sld ⟨0, 0, 0, 1, 2, 8⟩, ({ rd := true } : Need)), (.sst ⟨0, 0, 0, 1, 2, 8⟩, { wr := true }),
            (.satom ⟨0, 2, 0, 1, 2, 8⟩, { rd := true, wr := true }), (.scas ⟨0, 2, 0, 4, 2, 8⟩, { rd := true, wr := true }),
            (.mwait ⟨0, 0, 0, 1, 2, 8⟩, { rd := true })]).map fun y =>
          (withTlb (genSt y.1 (withS [(2, 0x10000#64)])), y.1, scalarReach 0x10008 8 y.2))
        ++ [(withTlb (genSt (.sld ⟨0, 0, 3, 1, 2, 8⟩) (withS [(2, 0x10000#64)])), Instr.sld ⟨0, 0, 3, 1, 2, 8⟩, scalarReach 0x10008 1 { rd := true }),
          (withTlb (genSt (.mwait ⟨0, 0, 0, 1, 2, 8⟩) (withS [(1, 5), (2, 0x10000#64)])), .mwait ⟨0, 0, 0, 1, 2, 8⟩, fun x =>
            scalarReach 0x10008 8 { rd := true } x && memNat x.s 0x10008 8 != (x.cx.S 1).toNat)]
        ++ [(speculating (genSt (.mwait ⟨0, 0, 0, 1, 2, 8⟩)), .mwait ⟨0, 0, 0, 1, 2, 8⟩, fun x => x.s.speculative x.sq)]
        ++ ([0x100000000000000#64, 0x10001#64].flatMap fun a => [Instr.sld ⟨0, 0, 0, 1, 2, 0⟩, .sst ⟨0, 0, 0, 1, 2, 0⟩, .satom ⟨0, 2, 0, 1, 2, 0⟩,
            .scas ⟨0, 2, 0, 4, 2, 0⟩, .mwait ⟨0, 0, 0, 1, 2, 0⟩].map fun i => (genSt i (withS [(2, a)]), i, fun x : GenIn => !x.s.speculative x.sq))
        ++ genAt [.sfence ⟨2, 3, 0, 0, 0, 0⟩, .sfence ⟨2, 1, 0, 0, 0, 0⟩, .spref ⟨0, 0, 0, 0, 2, 0⟩]

theorem test_witness_ScalarMemory : ∀ x ∈ scalarMemoryStates, GenWitness x.1 x.2.1 x.2.2 := genWitness (by decide +kernel)

/-! ## Emission, votes and channels -/

/-- An LNOP as a word. -/
def nopWord : DWord := (encode (.lnop ⟨0, 0, 0, 0, 0, 0, 0, 0⟩)).getD 0
/-- IADDI of v1 with a hole's value, as a word. -/
def addiWord : DWord := (encode (.iaddi ⟨0, 4, 3, 1, 0⟩)).getD 0

/-- A state with words behind the word that is to be executed. -/
def blockAt (ws : List DWord) (s : State) : State := s.devWrite 1 (codeAddr + 8) (ws.flatMap fun w => toBytes 8 w.toNat)

/-- What EMIT and REC share, for a block that reads as it stands. -/
def emitReach (w : GE) (fits : Bool) (x : GenIn) : Bool :=
  x.cx.clause.any (fun k => k.idx + 1 == k.len) && decide (x.cx.seq.length < 2) && x.s.streamUse x.q x.c x.sq x.cx w.ch.toNat == .ok
    && match x.readBlock w with
      | .ok (hs, b, _, s) => (firstMisfit b 0 hs ((upTo w.nh.toNat).map fun i => (x.cx.S (w.sb.toNat + i)).toInt)).isNone == fits
          && (s.squad x.q).any fun sq => (aget? sq.playbook w.id.toNat).isNone
            && decide (({ sq with playbook := aset sq.playbook w.id.toNat { serial := s.serial, block := b, holes := hs } } : Squad).playWords ≤ 262144)
      | .error _ => false

/-- A sequencer with both places taken. -/
def seqFull (cx : Ctx) : Ctx := { cx with seq := List.replicate 2 (.block 0 [plainHeader, nopWord] none) }

/-- A recording of id 5, of one IADDI with a hole. -/
def withRecording (s : State) : State := onSquad s fun q => { q with playbook := [(5, { serial := 0, block := [plainHeader, addiWord], holes := [1] })] }

/-- A block without holes, one with a hole whose value fits, and one whose value does not; a full sequencer; replays of ids recorded and not
recorded, of values that fit and one that does not; a drop of an id recorded and of one not recorded. -/
def emissionStates : List (State × Instr × (GenIn → Bool)) :=
    ([Instr.emit ⟨0, 0, 0, 0, 2, 0⟩, .recw ⟨0, 0, 0, 0, 2, 7⟩].map fun i => (blockAt [plainHeader, nopWord] (genSt i), i, emitReach
            (if i = .emit ⟨0, 0, 0, 0, 2, 0⟩ then ⟨0, 0, 0, 0, 2, 0⟩ else ⟨0, 0, 0, 0, 2, 7⟩) true))
        ++ ([0, 0x100000000#64].map fun v => (blockAt [0xFFFFFFFFFFFFFF01#64, plainHeader, addiWord] (genSt (.emit ⟨1, 0, 4, 0, 2, 0⟩) (withS [(4, v)])),
            Instr.emit ⟨1, 0, 4, 0, 2, 0⟩, emitReach ⟨1, 0, 4, 0, 2, 0⟩ (v == 0)))
        ++ ([Instr.emit ⟨0, 0, 0, 0, 2, 0⟩, .recw ⟨0, 0, 0, 0, 2, 7⟩, .replay ⟨0, 0, 0, 0, 1, 5⟩].map fun i =>
            (genSt i seqFull, i, fun x : GenIn => decide (2 ≤ x.cx.seq.length)))
        ++ [(genSt (.replay ⟨0, 0, 0, 0, 1, 5⟩), .replay ⟨0, 0, 0, 0, 1, 5⟩, fun x => (aget? x.sq.playbook 5).isNone && decide (x.cx.seq.length < 2))]
        ++ ([0, 0x100000000#64].map fun v => (withRecording (genSt (.replay ⟨0, 0, 4, 0, 1, 5⟩) (withS [(4, v)])), Instr.replay ⟨0, 0, 4, 0, 1, 5⟩,
            fun x : GenIn => x.s.streamUse x.q x.c x.sq x.cx 0 == .ok && decide (x.cx.seq.length < 2) && (aget? x.sq.playbook 5).any fun r =>
              (firstMisfit r.block 0 r.holes [(x.cx.S 4).toInt]).isNone == (v == 0)))
        ++ [(withRecording (genSt (.pbdrop ⟨0, 0, 0, 0, 0, 0, 5⟩)), .pbdrop ⟨0, 0, 0, 0, 0, 0, 5⟩, fun x => (aget? x.sq.playbook 5).isSome),
          (withRecording (genSt (.pbdrop ⟨0, 0, 0, 0, 0, 0, 6⟩)), .pbdrop ⟨0, 0, 0, 0, 0, 0, 6⟩, fun x => (aget? x.sq.playbook 6).isNone)]

theorem test_witness_Emission : ∀ x ∈ emissionStates, GenWitness x.1 x.2.1 x.2.2 := genWitness (by decide +kernel)

/-- The state whose context has a vote at the head of its queue, readable or not before cycle n. -/
def withVote (r : Bool) (n : Nat) (s : State) : State :=
  s.modCtx 1 0 fun cx => { cx with votes := [{ rec_ := 0x30001#64, lower := 0, upper := n, readable := r }] }

/-- A record that is readable at once, one readable by its time, one not yet readable with a vote outstanding, and an empty queue; a drained channel and one
that is not. -/
def voteReadsAndDrainsStates : List (State × Instr × (GenIn → Bool)) :=
    ([Instr.vread ⟨0, 0, 1, 0, 0, 0, 0⟩, .vpeek ⟨0, 0, 1, 0, 0, 0, 0⟩].flatMap fun i =>
          [(withVote true 9 (genSt i), i, fun x : GenIn => x.cx.votes.any (·.readable)),
            (withVote false 0 (genSt i), i, fun x => x.cx.votes.any fun v => decide (v.upper ≤ (x.s.cluster x.sq.cluster).cycle)),
            (withVote false 9 (genSt i), i, fun x => x.s.voteOutstanding x.q x.c x.cx && !x.cx.votes.any fun v => v.readable || decide (v.upper ≤ (x.s.cluster x.sq.cluster).cycle)),
            (genSt i, i, fun x => x.cx.votes.head? == none && !x.s.voteOutstanding x.q x.c x.cx)])
        ++ [(genSt (.sdrain ⟨0, 0, 0, 0, 0, 0, 0⟩), Instr.sdrain ⟨0, 0, 0, 0, 0, 0, 0⟩, fun x : GenIn => x.s.drained x.q x.c (some 0)),
          (genSt (.sdrain ⟨0, 0, 0, 0, 0, 0, 0x40⟩), .sdrain ⟨0, 0, 0, 0, 0, 0, 0x40⟩, fun x => x.s.drained x.q x.c none),
          (genSt (.sdrain ⟨0, 0, 0, 0, 0, 0, 0⟩) seqFull, .sdrain ⟨0, 0, 0, 0, 0, 0, 0⟩, fun x => !x.s.drained x.q x.c (some 0))]

theorem test_witness_VoteReadsAndDrains : ∀ x ∈ voteReadsAndDrainsStates, GenWitness x.1 x.2.1 x.2.2 := genWitness (by decide +kernel)

/-- A word that does not end its clause; a REC of an id that stands, with and without its R bit; a replay whose last iteration's value does not fit. -/
def emissionOtherStates : List (State × Instr × (GenIn → Bool)) :=
    ([Instr.emit ⟨0, 0, 0, 0, 2, 0⟩, .recw ⟨0, 0, 0, 0, 2, 7⟩].map fun i => (genSt i (fun cx => { cx with clause := some { header := plainHeader ||| 2 ^ 61, idx := 0 } }), i,
            fun x : GenIn => x.cx.clause.any fun k => k.idx + 1 != k.len))
        ++ ([0, 1].map fun (fl : BitVec 4) => (withRecording (blockAt [plainHeader, nopWord] (genSt (.recw ⟨0, fl, 0, 0, 2, 5⟩))), Instr.recw ⟨0, fl, 0, 0, 2, 5⟩, fun x : GenIn =>
            x.cx.clause.any (fun k => k.idx + 1 == k.len) && decide (x.cx.seq.length < 2) && x.s.streamUse x.q x.c x.sq x.cx 0 == .ok
              && match x.readBlock ⟨0, fl, 0, 0, 2, 5⟩ with
                | .ok (hs, b, _, s) => (firstMisfit b 0 hs []).isNone && (s.squad x.q).any fun sq => (aget? sq.playbook 5).isSome
                    && decide (({ sq with playbook := aset sq.playbook 5 { serial := s.serial, block := b, holes := hs } } : Squad).playWords ≤ 262144)
                | .error _ => false))
        ++ [(withRecording (genSt (.replay ⟨0, 0, 4, 0, 2, 5⟩) (withS [(4, 0), (12, 0x100000000#64)])), .replay ⟨0, 0, 4, 0, 2, 5⟩, fun x =>
            x.s.streamUse x.q x.c x.sq x.cx 0 == .ok && decide (x.cx.seq.length < 2) && (aget? x.sq.playbook 5).any fun r =>
              (firstMisfit r.block 0 r.holes [(x.cx.S 4).toInt]).isNone && (firstMisfit r.block 0 r.holes [(x.cx.S 4).toInt + (x.cx.S 12).toInt]).isSome)]

theorem test_witness_Emission_other : ∀ x ∈ emissionOtherStates, GenWitness x.1 x.2.1 x.2.2 := genWitness (by decide +kernel)

/-- The package with a route to device 3, and a request to it of the context, answered with bytes or not yet sent. -/
def withFabric (sent : Bool) (s : State) : State :=
  { s with fabric := if sent then { devid := 2, routes := [3], out := [⟨4, 0, .ctx 1 0, 0, 13, 3, 0x10000, 0, [], 0, false⟩]
                                    results := [(4, 0, toBytes 8 0x30000 ++ toBytes 8 256 ++ [3])] }
                     else { devid := 2, routes := [3] } }

/-- A TRANS of 0x10000 for 256 bytes, one of device 3's before its request and with its answer, and the gather words with a record that is allowed, on an entry bound and one not bound. -/
def transAndGatherStates : List (State × Instr × (GenIn → Bool)) :=
    [(withTlb (genSt (.trans ⟨0, 0, 2, 2, 3, 6, 0⟩) (withS [(2, 0x10000#64), (3, 256)])), Instr.trans ⟨0, 0, 2, 2, 3, 6, 0⟩, fun x : GenIn =>
          decide (x.cx.seq.length < 2) && x.s.streamUse x.q x.c x.sq x.cx 0 == .ok && genTlbB x.s x.sq 0x10000 128 {} pageLeaf
            && [2 ^ 16, 2 ^ 21, 2 ^ 30].contains pageLeaf.size && decide ((xlOf 0x10000 pageLeaf.size pageLeaf.leaf).pa < 2 ^ 52) && decide (x.s.ownerOf x.sq < 4096)
            && (x.s.task x.sq.task).all fun t => (t.spanRoom 0x10000).isNone),
        (withFabric false (genSt (.trans ⟨0, 0, 2, 2, 3, 7, 0⟩) (withS [(2, 0x10000#64), (3, 0x3000000000100#64)])), .trans ⟨0, 0, 2, 2, 3, 7, 0⟩, fun x =>
          decide (x.cx.seq.length < 2) && x.s.streamUse x.q x.c x.sq x.cx 0 == .ok && decide (x.s.ownerOf x.sq < 4096) && x.s.fabric.out.isEmpty && x.s.reachable 3
            && decide (x.s.remoteOut x.sq.cluster < 1024)),
        (withFabric true (genSt (.trans ⟨0, 0, 2, 2, 3, 7, 0⟩) (withS [(2, 0x10000#64), (3, 0x3000000000100#64)])), .trans ⟨0, 0, 2, 2, 3, 7, 0⟩, fun x =>
          decide (x.cx.seq.length < 2) && x.s.streamUse x.q x.c x.sq x.cx 0 == .ok && decide (x.s.ownerOf x.sq < 4096)
            && (x.s.fabric.out.find? fun r => r.src == .ctx x.q x.c).any fun r => x.s.fabric.results.any fun z => z.1 == r.id && z.2.1 == 0
              && ofBytes (z.2.2.take 8) == 0x30000 && ofBytes ((z.2.2.drop 8).take 8) == 256),
        (speculating (genSt (.gwin ⟨0, 0, 2, 4, 0, 0xC3, 0⟩)), .gwin ⟨0, 0, 2, 4, 0, 0xC3, 0⟩, fun x => x.s.speculative x.sq),
        (speculating (genSt (.gunwin ⟨0, 0, 0, 0, 0, 3, 0⟩)), .gunwin ⟨0, 0, 0, 0, 0, 3, 0⟩, fun x => x.s.speculative x.sq),
        (genSt (.gwin ⟨0, 0, 2, 4, 0, 0xC3, 0⟩) (withS [(4, 0x10000#64), (5, 0x20000#64), (6, 0x2000000002#64), (7, 64)]), .gwin ⟨0, 0, 2, 4, 0, 0xC3, 0⟩, fun x =>
          !x.s.speculative x.sq && decide (x.cx.seq.length < 2) && x.s.streamUse x.q x.c x.sq x.cx 0 == .ok && decide (x.s.ownerOf x.sq < 4096)
            && (x.cx.S 6).toNat / 4 % 2 ^ 30 == 0 && (x.cx.S 7).toNat == 64),
        (genSt (.gunwin ⟨0, 0, 0, 0, 0, 3, 0⟩), .gunwin ⟨0, 0, 0, 0, 0, 3, 0⟩, fun x => !x.s.speculative x.sq && !(aget {} (x.s.die 0).gathers 67).bound),
        ((genSt (.gunwin ⟨0, 0, 0, 0, 0, 3, 0⟩)).modDie 0 fun d => { d with gathers := [(67, { bound := true })] }, .gunwin ⟨0, 0, 0, 0, 0, 3, 0⟩, fun x =>
          !x.s.speculative x.sq && (aget {} (x.s.die 0).gathers 67).bound)]

theorem test_witness_TransAndGather : ∀ x ∈ transAndGatherStates, GenWitness x.1 x.2.1 x.2.2 := genWitness (by decide +kernel)

/-- A context with a MAILBOX entry at channel 1 for mailbox 3 with key 9, with the permission bits p of R262. -/
def mailEntry (p : DWord) (cx : Ctx) : Ctx := { cx with chans := [(1, [2 ||| p, 3, 9, 0])] }

/-- The state in which mailbox 3 of die 0 holds n messages. -/
def withMail (n : Nat) (s : State) : State := s.modDie 0 fun d => { d with mailboxes := [(3, { live := true, key := 9, msgs := List.replicate n 7 })] }

/-- A mailbox with room and with none, with a message and with none, an entry without the permission, a channel without an entry, and a squad with
privilege. -/
def mailboxAndChannelStates : List (State × Instr × (GenIn → Bool)) :=
    ([15, 16].map fun n => (withMail n (genSt (.chsend ⟨0, 0, 0, 2, 0, 0, 1⟩) (mailEntry 0x18)), Instr.chsend ⟨0, 0, 0, 2, 0, 0, 1⟩, fun x : GenIn =>
          !x.s.speculative x.sq && x.s.mailUse x.cx 1 3 == .ok 0 3 { live := true, key := 9, msgs := List.replicate n 7 }))
        ++ ([(1, 0), (0, 0), (0, 1)].map fun (y : Nat × Nat) => (withMail y.1 (genSt (.chrecv ⟨0, 0, 2, 0, 0, BitVec.ofNat 8 y.2, 1⟩) (mailEntry 0x18)),
          Instr.chrecv ⟨0, 0, 2, 0, 0, BitVec.ofNat 8 y.2, 1⟩, fun x : GenIn => x.s.mailUse x.cx 1 4 == .ok 0 3 { live := true, key := 9, msgs := List.replicate y.1 7 }))
        ++ [(withMail 0 (genSt (.chsend ⟨0, 0, 0, 2, 0, 0, 1⟩) (mailEntry 0x10)), .chsend ⟨0, 0, 0, 2, 0, 0, 1⟩, fun x => !x.s.speculative x.sq && x.s.mailUse x.cx 1 3 == .perm),
          (withMail 0 (genSt (.chrecv ⟨0, 0, 2, 0, 0, 0, 1⟩) (mailEntry 8)), .chrecv ⟨0, 0, 2, 0, 0, 0, 1⟩, fun x => x.s.mailUse x.cx 1 4 == .perm),
          (genSt (.chsend ⟨0, 0, 0, 2, 0, 0, 1⟩), .chsend ⟨0, 0, 0, 2, 0, 0, 1⟩, fun x => !x.s.speculative x.sq && x.s.mailUse x.cx 1 3 == .invalid),
          (genSt (.chrecv ⟨0, 0, 2, 0, 0, 0, 1⟩), .chrecv ⟨0, 0, 2, 0, 0, 0, 1⟩, fun x => x.s.mailUse x.cx 1 4 == .invalid),
          (speculating (genSt (.chsend ⟨0, 0, 0, 2, 0, 0, 1⟩)), .chsend ⟨0, 0, 0, 2, 0, 0, 1⟩, fun x => x.s.speculative x.sq),
          (onSquad (genSt (.chset ⟨0, 0, 0, 4, 8, 0, 1⟩)) fun q => { q with priv := true }, .chset ⟨0, 0, 0, 4, 8, 0, 1⟩, fun x => x.sq.priv)]

theorem test_witness_MailboxAndChannel : ∀ x ∈ mailboxAndChannelStates, GenWitness x.1 x.2.1 x.2.2 := genWitness (by decide +kernel)

/-- The registers of a COPY of four words from 0x10000 to memory at 0x20000 (R241 to R243). -/
def copyRegs : List (Nat × DWord) := [(8, 0x10000#64), (9, BitVec.ofNat 64 (5 + 5 * 2 ^ 5 + 2 ^ 10 + 2 ^ 24)), (10, BitVec.ofNat 64 (4 + 4 * 2 ^ 24)), (15, 0x20000#64)]

/-- A record of a copy to memory from memory that passes its checks. -/
theorem recChecks_passes {x : GenIn} {r : List DWord} (h : (!recCtlBad r && (recDimBad r).isNone && !recCsource r && recMem r && !recTypeBad r none) = true) (f : GenRes) :
    x.recChecks r f = f := by
  simp only [Bool.and_eq_true, Bool.not_eq_true', Option.isNone_iff_eq_none] at h
  obtain ⟨⟨⟨⟨h1, h2⟩, h3⟩, h4⟩, h5⟩ := h
  simp [GenIn.recChecks, h1, h2, h3, h4, h5]

/-- The state with n copies outstanding, the first under tag t with k of its slices given. -/
def withCopies (n t k : Nat) (s : State) : State :=
  { s with
    copies := (upTo n).map fun i => (i, { q := 1, tag := t + i, count := 2, huddle := none, slices := List.replicate k { ctx := 0, rec_ := [], idx := [], done := false, zblk := false } })
    nextCopy := n }

/-- The state of a COPY of tag 0 with two slices, with n copies outstanding as `withCopies` gives them. -/
def copySt (n t k : Nat) (i : Instr) : State := withCopies n t k (withTlb (genSt i (withS copyRegs)))

/-- What the COPY of `copyRegs` needs of its record and its index vector, which it has none of. -/
def copyReach (x : GenIn) : Bool :=
  let r := (upTo 8).map fun k => x.cx.S (8 + k)
  !recCtlBad r && (recDimBad r).isNone && !recCsource r && recMem r && !recTypeBad r none && !recRowg r

/-- A tag with no copy, with a copy that lacks a slice, with a full copy, with a copy of another count; 32 copies outstanding; a full range-lock table. -/
def copyWordStates : List (State × Instr × (GenIn → Bool)) :=
    ([(0, 0, 0), (1, 0, 1), (1, 0, 2), (32, 1, 0)].map fun (y : Nat × Nat × Nat) =>
          (copySt y.1 y.2.1 y.2.2 (.copy ⟨0, 0, 0, 8, 0, 1, 0⟩), Instr.copy ⟨0, 0, 0, 8, 0, 1, 0⟩, fun x : GenIn => copyReach x && decide (2 ≤ (x.s.die 0).freeLocks.length)
            && match x.s.copyOfTag x.q 0 with
              | some (_, cp) => y.2.1 == 0 && decide (cp.slices.length = y.2.2) && cp.count == 2
              | none => y.1 == 0 || decide (32 ≤ (x.s.copies.filter fun p => (x.s.squad p.2.q).map (·.cluster) == some x.sq.cluster).length)))
        ++ [(copySt 1 0 1 (.copy ⟨0, 0, 0, 8, 0, 3, 0⟩), .copy ⟨0, 0, 0, 8, 0, 3, 0⟩, fun x => copyReach x
            && (x.s.copyOfTag x.q 0).any fun p => decide (p.2.slices.length ≠ p.2.count) && p.2.count != 4),
          ((copySt 1 0 1 (.copy ⟨0, 0, 0, 8, 0, 1, 0⟩)).modDie 0 fun d =>
              { d with locks := (upTo (d.freeLocks.length - 1)).map fun i => (i, { copy := 9, slice := 0, range := .mem 9 [] false }) },
            .copy ⟨0, 0, 0, 8, 0, 1, 0⟩, fun x => copyReach x && decide ((x.s.die 0).freeLocks.length < 2)
            && (x.s.copyOfTag x.q 0).any fun p => decide (p.2.slices.length ≠ p.2.count) && p.2.count == 2)]

theorem test_witness_CopyWord : ∀ x ∈ copyWordStates, GenWitness x.1 x.2.1 x.2.2 := genWitness (by decide +kernel)

theorem test_witness_CopyWord_record (x : GenIn) (h : copyReach x = true) (f : GenRes) : x.recChecks ((upTo 8).map fun k => x.cx.S (8 + k)) f = f :=
  recChecks_passes (by simp only [copyReach, Bool.and_eq_true] at h ⊢; exact h.1) f

/-- No copy of the tag, one that runs and one that has failed. -/
theorem test_witness_CopyStatus :
    ∀ x ∈ ([Instr.copyq ⟨0, 0, 1, 0, 0, 0, 0⟩, .copywait ⟨0, 0, 1, 0, 0, 0, 0⟩, .copyqResume ⟨0, 0, 1, 0, 0, 1, 0⟩, .copycan ⟨0, 0, 0, 0, 0, 0, 0⟩].flatMap fun i =>
          (genSt i, i, fun x : GenIn => (x.s.copyOfTag x.q 0).isNone)
            :: [CopyState.running, .failed].map fun k =>
              ({ genSt i with copies := [(0, { q := 1, tag := 0, count := 1, huddle := none, state := k })] }, i, fun x : GenIn =>
                (x.s.copyOfTag x.q 0).any fun p => p.2.state == k)),
      GenWitness x.1 x.2.1 x.2.2 := genWitness (by decide +kernel)

/-! ## Task, region, seal and Umpire words of a context -/

/-- The state whose 256-byte page holds a record of owner 1 at 0x20000: one instance of one team of 16 lanes (R361). -/
def withRecord (s : State) : State := s.devWrite 1 0x20000 (toBytes 8 codeAddr ++ toBytes 8 0 ++ toBytes 8 0xF00000000 ++ toBytes 8 0x100)

/-- What TSPAWN of S(2) needs. -/
def spawnReach (x : GenIn) : Bool :=
  !x.s.speculative x.sq && (x.cx.S 2).toNat == 0x20000 && match State.spanRead (x.s.genAccess x.sq) 0x20000 2 x.s 0x20000 256 with
    | (.ok bs, s) =>
      let t := s.draft (x.sq.cluster / 44) (recordWords bs)
      t.owner == s.ownerOf x.sq && (recordBad t).isNone && !s.scoreBad t && !t.spec && decide (x.cx.tasks.length < 64) && decide (s.tableUsed t.die < 8192)
    | (.error _, _) => false

/-- The state with that task, which the context spawned. -/
def withOther (p : TaskPhase) (s : State) : State :=
  let z : State := s.modCtx 1 0 fun cx => { cx with tasks := [5] }
  { z with tasks := (5, otherTask p) :: z.tasks }

/-- The state with a 4 × 2 scoreboard 3 of owner 1 on die 0, whose one offset is (-1, 0). -/
def withBoard (s : State) : State := s.modDie 0 fun d => { d with boards := [(3, { owner := 1, width := 4, height := 2, mask := 1 })] }

/-- Words of an uncommitted speculative task; a record that is admitted; a task of the set that has retired and one that has not, one that is not of the
set, and an empty set; a scoreboard made, freed and retired at. -/
def taskWordsStates : List (State × Instr × (GenIn → Bool)) :=
    ([Instr.tspawn ⟨0, 0, 1, 2, 0, 0, 0⟩, .tscore ⟨0, 0, 0, 2, 0, 0, 3⟩, .tscoreFree ⟨0, 0, 0, 0, 0, 1, 3⟩, .tretire ⟨0, 0, 0, 0, 0, 0, 0⟩,
          .tretireAt ⟨0, 0, 0, 2, 0, 1, 3⟩, .spechold ⟨0, 0, 0, 0, 0, 0, 0⟩].map fun i => (speculating (genSt i), i, fun x : GenIn => x.s.speculative x.sq))
        ++ [(withRecord (genSt (.tspawn ⟨0, 0, 1, 2, 0, 0, 0⟩) (withS [(2, 0x20000#64)])), Instr.tspawn ⟨0, 0, 1, 2, 0, 0, 0⟩, spawnReach)]
        ++ ([Instr.twait ⟨0, 0, 1, 2, 0, 0, 0⟩, .twait ⟨0, 0, 1, 2, 0, 2, 0⟩, .twaitAny ⟨0, 0, 1, 0, 0, 1, 0⟩, .twaitAny ⟨0, 0, 1, 0, 0, 3, 0⟩].flatMap fun i =>
          [(withOther .retired (genSt i (withS [(2, 5)])), i, fun x : GenIn => x.cx.tasks == [5] && (x.s.task 5).any fun t => t.phase == .retired),
            (withOther .running (genSt i (withS [(2, 5)])), i, fun x => x.cx.tasks == [5] && (x.s.task 5).any fun t => t.phase != .retired),
            (genSt i, i, fun x => x.cx.tasks == [])])
        ++ [(genSt (.tscore ⟨0, 0, 0, 2, 0, 0, 3⟩) (withS [(2, 0x100010003#64)]), .tscore ⟨0, 0, 0, 2, 0, 0, 3⟩, fun x =>
            !x.s.speculative x.sq && (aget? (x.s.die 0).boards 3).isNone && !x.s.boardNamed 0 3 fun _ => true),
          (withBoard (genSt (.tscoreFree ⟨0, 0, 0, 0, 0, 1, 3⟩)), .tscoreFree ⟨0, 0, 0, 0, 0, 1, 3⟩, fun x =>
            !x.s.speculative x.sq && (aget? (x.s.die 0).boards 3).any (·.owner == x.s.ownerOf x.sq) && !x.s.boardNamed 0 3 fun _ => true),
          (withBoard ((genSt (.tretire ⟨0, 0, 0, 0, 0, 0, 0⟩)).modTask 0 fun t => { t with record := [BitVec.ofNat 64 codeAddr, 0, 0xF00000000#64, 0x30000000180#64] }),
            .tretire ⟨0, 0, 0, 0, 0, 0, 0⟩, fun x => !x.s.speculative x.sq && (x.s.task x.sq.task).any (·.score)),
          (withBoard (genSt (.tretireAt ⟨0, 0, 0, 2, 0, 1, 3⟩) (withS [(2, 0x10003#64)])), .tretireAt ⟨0, 0, 0, 2, 0, 1, 3⟩, fun x =>
            !x.s.speculative x.sq && (aget? (x.s.die 0).boards 3).any fun b => b.owner == x.s.ownerOf x.sq && b.width == 4 && b.height == 2),
          (genSt (.specq ⟨0, 0, 1, 0, 0, 0, 0⟩), .specq ⟨0, 0, 1, 0, 0, 0, 0⟩, fun x => (x.s.task x.sq.task).isSome),
          (genSt (.spechold ⟨0, 0, 0, 0, 0, 0, 0⟩), .spechold ⟨0, 0, 0, 0, 0, 0, 0⟩, fun x => !x.s.speculative x.sq)]

theorem test_witness_TaskWords : ∀ x ∈ taskWordsStates, GenWitness x.1 x.2.1 x.2.2 := genWitness (by decide +kernel)

/-- A record of owner 1 with a word w3 and with words from the ninth on, as a context keeps it that waits for admission. -/
def keptRecord (w0 w3 : DWord) (spans : List DWord) : List DWord := [w0, 0, 0xF00000000#64, w3, 0, 0, 0, 0] ++ spans

/-- A context that keeps such a record, with n tasks in its set. -/
def spawner (r : List DWord) (n : Nat) (cx : Ctx) : Ctx := { cx with spawning := some r, tasks := List.replicate n 7 }

/-- What TSPAWN finds of the record that its context keeps. -/
def spawnKept (p : State → Task → Bool) (x : GenIn) : Bool :=
  !x.s.speculative x.sq && x.cx.spawning.any fun r =>
    let s : State := x.s.modCtx x.q x.c fun y => { y with spawning := none }
    let t := s.draft 0 r
    t.owner == s.ownerOf x.sq && p s t

/-- The state with a SPEC task of potential depth 4 that writes 256 bytes at 0x30000. -/
def withDeep (s : State) : State :=
  { s with tasks := (5, { id := 5, die := 0, spec := true, potDepth := 4, record := keptRecord (BitVec.ofNat 64 codeAddr) 0x110 (List.replicate 12 0 ++ [0x30000#64, 256]) }) :: s.tasks }

/-- A record that breaks R361, one that names no scoreboard, one whose potential depth is 5, a full task set, and a record kept that is admitted. -/
def spawningStates : List (State × Instr × (GenIn → Bool)) :=
    [(genSt (.tspawn ⟨0, 0, 1, 2, 0, 0, 0⟩) (spawner (keptRecord 1 0x100 []) 0), Instr.tspawn ⟨0, 0, 1, 2, 0, 0, 0⟩, spawnKept fun _ t => recordBad t == some 0),
        (genSt (.tspawn ⟨0, 0, 1, 2, 0, 0, 0⟩) (spawner (keptRecord 0 0x30000000180 []) 0), .tspawn ⟨0, 0, 1, 2, 0, 0, 0⟩, spawnKept fun s t => (recordBad t).isNone && s.scoreBad t),
        (withDeep (genSt (.tspawn ⟨0, 0, 1, 2, 0, 0, 0⟩) (spawner (keptRecord 0 0x110 [0x30000#64, 256]) 0)), .tspawn ⟨0, 0, 1, 2, 0, 0, 0⟩, spawnKept fun s t =>
          (recordBad t).isNone && !s.scoreBad t && t.spec && s.potential (s.draftDeps t) == 5),
        (genSt (.tspawn ⟨0, 0, 1, 2, 0, 0, 0⟩) (spawner (keptRecord 0 0x100 []) 64), .tspawn ⟨0, 0, 1, 2, 0, 0, 0⟩, spawnKept fun s t =>
          (recordBad t).isNone && !s.scoreBad t && !t.spec),
        (genSt (.tspawn ⟨0, 0, 1, 2, 0, 0, 0⟩) (spawner (keptRecord 0 0x100 []) 63), .tspawn ⟨0, 0, 1, 2, 0, 0, 0⟩, spawnKept fun s t =>
          (recordBad t).isNone && !s.scoreBad t && !t.spec && decide (s.tableUsed t.die < 8192))]

theorem test_witness_Spawning : ∀ x ∈ spawningStates, GenWitness x.1 x.2.1 x.2.2 := genWitness (by decide +kernel)

/-- A die's dependence table with n entries taken: 8,192 fill it. -/
theorem test_witness_FullTable (n : Nat) (t : Task) (h : t.phase ≠ .retired) :
    ({ State.reset with tasks := List.replicate n (9, { t with die := 0 }) } : State).tableUsed 0 = n := by
  simp [State.tableUsed, h]

/-- The registers of an SPNEW of 16 nodes at 0x100000 of the shape of `region`. -/
def regionRegs : List (Nat × DWord) := [(4, 0x100000#64), (5, 16), (6, 64490)]

/-- A region table with every index live. -/
def allLive : List (Nat × Region) := (upTo 1024).map fun k => (k, { live := true })

theorem aget?_map_some {α : Type} (x : α) {l : List Nat} {k : Nat} (h : k ∈ l) : aget? (l.map fun i => (i, x)) k = some x := by
  induction l with
  | nil => cases h
  | cons i t ih =>
    by_cases hi : i = k
    · simp [aget?, hi]
    · simp [aget?, hi, ih ((List.mem_cons.mp h).resolve_left (Ne.symm hi))]

theorem test_all_regions_live (k : Nat) (h : k < 1024) : ((aget? allLive k).map (·.live)).getD false = true := by
  simp [allLive, aget?_map_some (l := upTo 1024) _ (List.mem_range.mpr h)]

/-- What SPNEW of `regionRegs` needs, with the lowest free index k, or none free. -/
def newReach (k : Option Nat) (x : GenIn) : Bool :=
  !x.s.speculative x.sq && decide (x.cx.seq.length < 2) && x.s.streamUse x.q x.c x.sq x.cx 0 == .ok && shapeOk (x.cx.S 6).toNat
    && match State.poolWalk (x.s.genAccess x.sq) 0x100000 0x101000 2 x.s 0x100000 [] with
      | (.ok _, s) => match k with
        | some j => (upTo 1024).find? (fun j => !((aget? (s.die 0).regions j).map (·.live)).getD false) == some j
        | none => (s.die 0).regions == allLive
      | (.error _, _) => false

/-- A free index, with and without BIND, and none; a live region for the other words. -/
def regionContextWordsStates : List (State × Instr × (GenIn → Bool)) :=
    ([Instr.spnew ⟨0, 0, 1, 4, 0, 0, 0⟩, .spnew ⟨0, 0, 1, 4, 0, 0xC8, 0⟩].map fun i => (genSt i (withS regionRegs), i, newReach (some 0)))
        ++ [((genSt (.spnew ⟨0, 0, 1, 4, 0, 0, 0⟩) (withS regionRegs)).modDie 0 fun d => { d with regions := allLive }, Instr.spnew ⟨0, 0, 1, 4, 0, 0, 0⟩, newReach none)]
        ++ ([Instr.spnewAttach ⟨0, 0, 1, 4, 0, 0xD8, 0⟩, .spfree ⟨0, 0, 0, 4, 0, 0, 0⟩, .spfreeStat ⟨0, 0, 1, 4, 0, 1, 0⟩].map fun i =>
          (withRegion (genSt i (withS [(4, 0x41003#64)])), i, fun x : GenIn => !x.s.speculative x.sq && x.s.regionAt (x.s.ownerOf x.sq) 1 0 3 == some region
            && (x.cx.S 4).toNat / 2 ^ 18 == x.s.ownerOf x.sq && (x.cx.S 4).toNat / 2 ^ 12 % 2 ^ 6 == 1 && (x.cx.S 4).toNat / 2 ^ 10 % 4 == 0 && (x.cx.S 4).toNat % 2 ^ 10 == 3
            && decide (x.cx.seq.length < 2) && x.s.streamUse x.q x.c x.sq x.cx 0 == .ok && !x.s.regionCopied 0x41003))
        ++ [(({ withRegion (genSt (.spfree ⟨0, 0, 0, 4, 0, 0, 0⟩) (withS [(4, 0x41003#64)])) with
              copies := [(0, { q := 1, tag := 0, count := 2, huddle := none, slices := [{ ctx := 0, rec_ := [0x41003#64, 0x8000#64], idx := [], done := false, zblk := false }] })] }
              : State), .spfree ⟨0, 0, 0, 4, 0, 0, 0⟩, fun x => !x.s.speculative x.sq && x.s.regionAt (x.s.ownerOf x.sq) 1 0 3 == some region && x.s.regionCopied 0x41003)]
        ++ ([Instr.spnew ⟨0, 0, 1, 4, 0, 0, 0⟩, .spnewAttach ⟨0, 0, 1, 4, 0, 0xD8, 0⟩, .spfree ⟨0, 0, 0, 4, 0, 0, 0⟩, .spfreeStat ⟨0, 0, 1, 4, 0, 1, 0⟩].map fun i =>
          (speculating (genSt i), i, fun x => x.s.speculative x.sq))

theorem test_witness_RegionContextWords : ∀ x ∈ regionContextWordsStates, GenWitness x.1 x.2.1 x.2.2 := genWitness (by decide +kernel)

/-- A seal of 64 KiB at 0x10000 of owner 1. -/
def sealEnt : SealEnt := { owner := 1, base := 0x10000, len := 0x10000, frames := [(0x10000, 0x10000)] }

/-- What SEAL of S(4) and S(5) needs, with the lowest free entry k, or none free. -/
def sealReach (k : Option Nat) (x : GenIn) : Bool :=
  !x.s.speculative x.sq && (sealFieldBad (x.cx.S 4).toNat (x.cx.S 5).toNat).isNone && match State.pinFrames (x.s.genAccess x.sq) 2 x.s 0x20000 0x10000 with
    | (.ok _, s) => (s.seals.all fun e => e.2.owner != x.s.ownerOf x.sq || !overlaps 0x20000 0x10000 e.2.base e.2.len)
        && (s.lockHit (x.s.ownerOf x.sq) 0x20000 0x10000 true).isNone && (upTo 256).find? (fun j => (aget? s.seals j).isNone) == k
    | (.error _, _) => false

/-- The state with a hashed seal 0, the owner's log, and a digest of lane 3 in the team of the context. -/
def withDigest (s : State) : State :=
  let z : State := s.modTeam 1 0 fun tm => { tm with digests := [(3, { sealId := 0, tree := 0, leaf := 1, depth := 1, digest := [] })] }
  { z with seals := [(0, { sealEnt with hashed := true })] }

/-- A violation of the context itself. -/
def violation : Violation := { code := 4, master := .ctx 1 0, die := 0, cluster := 0, owner := 1, target := 0, va := 0, pa := 0, ident := 0, lanes := 0 }

/-- A descriptor that is allowed; a seal entry free and none; an entry owned and one not; digests under a hashed seal; a live violation record. -/
def treeSealDigestAndUmpireStates : List (State × Instr × (GenIn → Bool)) :=
    [(withTlb (genSt (.dtset ⟨0, 0, 2, 4, 0, 0, 0⟩) (withS (smallTree.zipIdx.map fun y => (4 + y.2, y.1)))), Instr.dtset ⟨0, 0, 2, 4, 0, 0, 0⟩, fun x : GenIn =>
          let d := (upTo 4).map fun k => x.cx.S (4 + k)
          decide (x.cx.seq.length < 2) && (treeBad d).isNone && !treeAudit d && x.s.streamUse x.q x.c x.sq x.cx 0 == .ok && genTlbB x.s x.sq 0x10000 128 {} pageLeaf),
        (genSt (.seal ⟨0, 0, 1, 4, 0, 0, 0⟩) (withS [(4, 0x20000#64), (5, 0x10000#64)]), .seal ⟨0, 0, 1, 4, 0, 0, 0⟩, sealReach (some 0)),
        ({ genSt (.seal ⟨0, 0, 1, 4, 0, 0, 0⟩) (withS [(4, 0x20000#64), (5, 0x10000#64)]) with seals := (upTo 256).map fun k => (k, sealEnt) },
          .seal ⟨0, 0, 1, 4, 0, 0, 0⟩, sealReach none),
        ({ genSt (.sealFree ⟨0, 0, 0, 0, 0, 1, 0⟩) with seals := [(0, sealEnt)] }, .sealFree ⟨0, 0, 0, 0, 0, 1, 0⟩, fun x =>
          !x.s.speculative x.sq && (aget? x.s.seals 0).any (·.owner == x.s.ownerOf x.sq) && !x.s.sealBusy 0),
        ({ genSt (.sealQ ⟨0, 0, 1, 0, 0, 2, 0⟩) with seals := [(0, sealEnt)] }, .sealQ ⟨0, 0, 1, 0, 0, 2, 0⟩, fun x =>
          !x.s.speculative x.sq && (aget? x.s.seals 0).any fun e => e.owner == x.s.ownerOf x.sq && !e.hashed),
        (genSt (.sealQ ⟨0, 0, 1, 0, 0, 2, 0⟩), .sealQ ⟨0, 0, 1, 0, 0, 2, 0⟩, fun x => !x.s.speculative x.sq && (aget? x.s.seals 0).isNone),
        (withDigest (genSt (.digest ⟨0, 0, 0, 0, 0, 0, 0⟩)), .digest ⟨0, 0, 0, 0, 0, 0, 0⟩, fun x => !x.s.speculative x.sq && x.s.ownedTeam x.q x.c 0 == .team 1 0
          && (x.s.team 1 0).any (fun tm => decide (0 < tm.n) && !x.s.bound x.q x.c 1 0 && tm.digests.all fun g => (aget? x.s.seals g.2.sealId).any (·.hashed))
          && (aget? x.s.owners (x.s.ownerOf x.sq)).any fun o => decide (o.logWrite + 1 ≤ o.logRead + o.logCap))]
      ++ ([Instr.umprel ⟨0, 0, 0, 2, 0, 0, 0⟩, .umprelKill ⟨0, 0, 0, 2, 0, 1, 0⟩].map fun i =>
          ((onSquad (genSt i) fun q => { q with priv := true }).modDie 0 fun d => { d with viol := [(0, violation)] }, i, fun x : GenIn =>
            x.sq.priv && (x.cx.S 2).toNat == 0 && (aget? (x.s.die 0).viol 0).isSome))

theorem test_witness_TreeSealDigestAndUmpire : ∀ x ∈ treeSealDigestAndUmpireStates, GenWitness x.1 x.2.1 x.2.2 := genWitness (by decide +kernel)

/-- The registers of a DTSET whose descriptor has another second word. -/
def treeRegs (w1 : DWord) : List (Nat × DWord) := (smallTree.set 1 w1).zipIdx.map fun y => (4 + y.2, y.1)

/-- The state whose descent unit runs a DESCEND with AUDIT under seal 0, which waits. -/
def withAuditor (s : State) : State :=
  let w := (encode (.descend ⟨0, 10, 7, 8, 5, 1, 0, 0⟩)).getD 0
  let win : Window := { treeWin with tree := smallTree.set 1 (smallTree.getD 1 0 ||| 0x100) }
  let z : State := s.modTeam 1 0 fun tm => { tm with buffer := [{ word := w, last := true }], wait := some .descent, inUnit := true, win := [(1, win)] }
  z.modCluster 0 fun c => { c with descent := [(1, 0)] }

/-- A descriptor that breaks R268 and one that no seal covers; each word that a speculative task waits with; a seal of another owner and one in use; a hashed
one; a digest whose seal is not hashed; a master that another record names still. -/
def treeSealDigestAndUmpireOtherStates : List (State × Instr × (GenIn → Bool)) :=
    [(genSt (.dtset ⟨0, 0, 2, 4, 0, 0, 0⟩) (withS (treeRegs 0)), Instr.dtset ⟨0, 0, 2, 4, 0, 0, 0⟩, fun x : GenIn => decide (x.cx.seq.length < 2)
          && treeBad ((upTo 4).map fun k => x.cx.S (4 + k)) == some 1),
        (genSt (.dtset ⟨0, 0, 2, 4, 0, 0, 0⟩) (withS (treeRegs (smallTree.getD 1 0 ||| 0x100))), .dtset ⟨0, 0, 2, 4, 0, 0, 0⟩, fun x =>
          let d := (upTo 4).map fun k => x.cx.S (4 + k)
          decide (x.cx.seq.length < 2) && (treeBad d).isNone && treeAudit d && !x.s.sealCovers (x.s.ownerOf x.sq) (treeSeal d) 0x10000 (treeNodes d * treeStride d)),
        ({ genSt (.sealFree ⟨0, 0, 0, 0, 0, 1, 0⟩) with seals := [(0, { sealEnt with owner := 2 })] }, .sealFree ⟨0, 0, 0, 0, 0, 1, 0⟩, fun x =>
          !x.s.speculative x.sq && (aget? x.s.seals 0).any (·.owner != x.s.ownerOf x.sq)),
        (withAuditor { genSt (.sealFree ⟨0, 0, 0, 0, 0, 1, 0⟩) with seals := [(0, sealEnt)] }, .sealFree ⟨0, 0, 0, 0, 0, 1, 0⟩, fun x =>
          !x.s.speculative x.sq && (aget? x.s.seals 0).any (·.owner == x.s.ownerOf x.sq) && x.s.sealBusy 0),
        ({ withTlb (genSt (.sealQ ⟨0, 0, 1, 4, 0, 2, 0⟩) (withS [(4, 0x10000#64)])) with seals := [(0, { sealEnt with base := 0x20000, frames := [], hashed := true, hash := List.replicate 32 1 })] },
          .sealQ ⟨0, 0, 1, 4, 0, 2, 0⟩, fun x => !x.s.speculative x.sq && (x.cx.S 4).toNat == 0x10000 && (aget? x.s.seals 0).any fun e => e.owner == x.s.ownerOf x.sq && e.hashed
            && match x.s.spanWrite (x.s.genAccess x.sq) 0x10000 e.hash with | (.ok _, _) => true | (.error _, _) => false),
        ({ withDigest (genSt (.digest ⟨0, 0, 0, 0, 0, 0, 0⟩)) with seals := [(0, sealEnt)] }, .digest ⟨0, 0, 0, 0, 0, 0, 0⟩, fun x => !x.s.speculative x.sq
          && x.s.ownedTeam x.q x.c 0 == .team 1 0 && (aget? x.s.seals 0).any (!·.hashed) && (aget? x.s.owners (x.s.ownerOf x.sq)).isSome),
        ((onSquad (genSt (.umprel ⟨0, 0, 0, 2, 0, 0, 0⟩)) fun q => { q with priv := true }).modDie 0 fun d => { d with viol := [(0, violation), (1, violation)] },
          .umprel ⟨0, 0, 0, 2, 0, 0, 0⟩, fun x => x.sq.priv && (x.cx.S 2).toNat == 0 && (aget? (x.s.die 0).viol 1).any fun v => v.master == violation.master)]
      ++ ([Instr.seal ⟨0, 0, 1, 4, 0, 0, 0⟩, .sealFree ⟨0, 0, 0, 0, 0, 1, 0⟩, .sealQ ⟨0, 0, 1, 0, 0, 2, 0⟩, .digest ⟨0, 0, 0, 0, 0, 0, 0⟩].map fun i =>
          (speculating (genSt i), i, fun x => x.s.speculative x.sq))

theorem test_witness_TreeSealDigestAndUmpire_other : ∀ x ∈ treeSealDigestAndUmpireOtherStates, GenWitness x.1 x.2.1 x.2.2 := genWitness (by decide +kernel)

/-! ## Traps -/

/-- The state of context 0 of squad 1 with a pending trap, and the operand of a step naming it. -/
def trapSt (f : Ctx → Ctx := id) : State :=
  let z : State := genSt (.gnop ⟨0, 0, 0, 0, 0, 0, 0⟩) f
  { z with operand := { a := 1, b := 0 } }

/-- A context with a trap of its own pending. -/
def trapped (cx : Ctx) : Ctx := { cx with pending := [{ kind := .word, cause := .genTrap, causeBits := Cause.genTrap.code, pc := 0x4000#64, info := [7, 0, 0, 0] }] }

/-- Whether a squad and its context 0 exist and meet a condition. -/
def ctxIs (s : State) (p : Squad → Ctx → Bool) : Bool := (s.squad 1).any fun sq => (sq.ctxs[0]?).any (p sq)

/-- A pending trap of cycle n. -/
def trapOf (k : TrapKind) (n : Nat) : Pending := ⟨k, .genTrap, 0, 0, [], 0, n, none, 0, false⟩

/-- The state whose context 0 has a trap of an earlier cycle pending and vector v. -/
def dueSt (v : DWord) : State := (trapSt fun cx => { trapped cx with trapvec := v }).modCluster 0 fun c => { c with cycle := 5 }

/-- A context outside a handler and one inside; traps of one cycle and of two; a due trap with a handler and with none. -/
theorem test_witness_TrapsPendAndEnter :
    (ctxIs trapSt (fun sq cx => !trapSt.speculative sq && !cx.tmask && !cx.exited)
      && [0, 1].all (fun n => pendInsert (trapOf (.team 3) n) [trapOf .word 1, trapOf (.copy 2) 1]
        == [trapOf .word 1] ++ (if n = 1 then [trapOf (.team 3) n, trapOf (.copy 2) 1] else [trapOf (.copy 2) 1, trapOf (.team 3) n]))
      && ctxIs (trapSt fun cx => { cx with tmask := true }) (fun sq cx => !trapSt.speculative sq && cx.tmask)
      && [0x9000#64, 0].all fun v => (dueSt v).operand == { a := 1, b := 0 } && (dueSt v).trapDue 1 0
        && ctxIs (dueSt v) fun _ cx => (cx.pending.find? fun p => !(dueSt v).held p).isSome && cx.trapvec == v) = true := by decide +kernel

/-- The state of a lane word whose team's owning context meets f. -/
def parkSt (f : Ctx → Ctx := id) : State := (laneSt (.lnop ⟨0, 0, 0, 0, 0, 0, 0, 0⟩)).modCtx 1 0 f

/-- A team whose owning context has not exited, one whose has, and one whose owner's squad is gone. -/
theorem test_witness_Parking :
    (ctxIs parkSt (fun sq cx => (sq.teams[0]?).any fun tm => tm.owner == some (1, 0) && !cx.exited)
      && ctxIs (parkSt fun cx => { cx with exited := true }) (fun sq cx => cx.exited && !((parkSt).task sq.task).any Task.uncommitted)
      && ((parkSt.modTeam 1 0 fun tm => { tm with owner := some (7, 0) }).squad 1).any fun sq => (sq.teams[0]?).any fun tm =>
        tm.owner == some (7, 0) && parkSt.squad 7 == none) = true := by
  decide +kernel

/-- A parking record of team 0 with two unfinished lanes. -/
def parkRec (header emptied : Bool) : Park := { cause := .userTrap, pos := 0, mask := 3, origin := .direct, info := [5], header := header, emptied := emptied }

/-- A word left and a stretch behind it, for a record of each kind. -/
theorem test_witness_Restarting :
    ∀ h ∈ [false, true], ∀ e ∈ [false, true], ∃ tm : Team, tm.park = some (parkRec h e)
      ∧ tm.buffer = [{ word := nopWord, last := false }, { word := nopWord, last := true }] := by
  intro h _ e _
  exact ⟨{ freshTeam 16 16 128 0 false none 0 with
    park := some (parkRec h e), buffer := [{ word := nopWord, last := false }, { word := nopWord, last := true }] }, rfl, rfl⟩

/-- The state whose team 0 has parked. -/
def withPark (s : State) : State := s.modTeam 1 0 fun tm => { tm with park := some (parkRec false false) }

/-- A context inside a handler of its own trap, and of a team's. -/
def inHandler (kind : Nat) (cx : Ctx) : Ctx :=
  { cx with tmask := true, trappc := 0x4100#64, trapcause := BitVec.ofNat 64 (Cause.genTrap.code + kind * 2 ^ 12), ret := some (0x4200#64, none, none) }

/-- The states and words of the witnesses of `HandlerWords`. -/
def handlerWordsStates : List (State × Instr × (GenIn → Bool)) :=
    genAt [.gtrap ⟨0, 0, 0, 0, 0, 0, 7⟩, .tmask ⟨0, 0, 0, 0, 0, 0, 1⟩, .eret ⟨0, 0, 0, 0, 0, 0, 0⟩, .eretSkip ⟨0, 0, 0, 0, 0, 1, 0⟩,
          .eretTarget ⟨0, 0, 0, 2, 0, 2, 0⟩, .tresume ⟨0, 0, 0, 0, 0, 0, 5⟩, .tresume ⟨0, 0, 0, 0, 0, 0, 0⟩]
        ++ ([0, 1].flatMap fun k => [Instr.eret ⟨0, 0, 0, 0, 0, 0, 0⟩, .eretSkip ⟨0, 0, 0, 0, 0, 1, 0⟩].map fun i =>
          (genSt i (fun cx => { inHandler k cx with trapGap := 6 }), i, fun x : GenIn => x.cx.tmask && x.cx.ret.isSome && x.cx.trapcause.toNat / 2 ^ 12 % 4 == k))
        ++ ([Instr.eret ⟨0, 0, 0, 0, 0, 0, 0⟩, .eretSkip ⟨0, 0, 0, 0, 0, 1, 0⟩].map fun i =>
          (genSt i (fun cx => { cx with tmask := true }), i, fun x : GenIn => x.cx.tmask && x.cx.ret == none))
        ++ ([0x5000#64, 0x5001#64].map fun v => (genSt (.eretTarget ⟨0, 0, 0, 2, 0, 2, 0⟩) (fun cx => withS [(2, v)] (inHandler 0 cx)),
            Instr.eretTarget ⟨0, 0, 0, 2, 0, 2, 0⟩, fun x : GenIn => x.cx.tmask && decide ((x.cx.S 2).toNat % 8 = 0) == (v == 0x5000#64)))
        ++ [(withAway (genSt (.tresume ⟨0, 0, 0, 0, 0, 0, 16⟩)), .tresume ⟨0, 0, 0, 0, 0, 0, 16⟩, fun x => x.s.ownedTeam x.q x.c 16 == .away),
          (genSt (.exitw ⟨0, 0, 0, 0, 0, 0, 0⟩) trapped, .exitw ⟨0, 0, 0, 0, 0, 0, 0⟩, fun x => x.cx.pending.any fun p => !x.s.held p),
          (speculating (genSt (.exitw ⟨0, 0, 0, 0, 0, 0, 0⟩) trapped), .exitw ⟨0, 0, 0, 0, 0, 0, 0⟩, fun x => x.cx.pending.all fun p => x.s.held p),
          (withPark (genSt (.tresume ⟨0, 0, 0, 0, 0, 0, 0⟩)), .tresume ⟨0, 0, 0, 0, 0, 0, 0⟩, fun x =>
          x.s.ownedTeam x.q x.c 0 == .team 1 0 && (x.s.team 1 0).any fun tm => tm.park.isSome)]

theorem test_witness_HandlerWords : ∀ x ∈ handlerWordsStates, GenWitness x.1 x.2.1 x.2.2 := genWitness (by decide +kernel)

/-! ## Saving and loading contexts -/

/-- A leaf that maps the 1 GiB from 0x40000000 to itself. -/
def bigLeaf : TlbEnt := { owner := 1, base := 0x40000000, size := 0x40000000, leaf := BitVec.ofNat 64 (2 ^ 52 + 0x40000000 + 0xC33) }

/-- The state of a privileged handler squad to which squad 2 has been named, with that page in its cluster's TLB and its address in s2. -/
def saverSt (i : Instr) : State :=
  let s : State := onSquad (genSt i (withS [(2, 0x40000000#64)])) fun q => { q with priv := true, named := 3 }
  let z : State := s.modCluster 0 fun c => { c with tlb := [bigLeaf] }
  { z with squads := aset z.squads 2 (wordSquad 2 none) }

/-- The copies of the lines from 0x40000000 on that n bytes of a memory lie in. -/
def l1Lines (m : List Host.Cell) (n : Nat) : List (Nat × List Byte) :=
  (upTo (n / 128 + 1)).map fun i => (l1Key 1 (0x800000 + i), (upTo 128).map fun j => memGet m ((0x800000 + i) * 128 + j))

/-- A state whose memory holds the area of save 0 at 0x40000000, with its lines in the L1 of cluster 0, and the saves sv. -/
def withArea (s : State) (sv : List (Nat × Squad)) : State :=
  let m := memSets s.mem 0x40000000 (saveArea 0)
  State.modCluster { s with mem := m, saves := sv } 0 fun c => { c with l1 := l1Lines m Config.saveAreaBytes.val }

/-- The loader's state before its memory holds the area. -/
def loaderBase : State := saverSt (.ctxloadSquad ⟨0, 0, 0, 2, 0, 1, 0⟩)

/-- The same state whose memory holds the area of save 0, of squad 2. -/
def loaderSt : State := withArea loaderBase [(0, { wordSquad 2 none with teams := [] })]

/-- What makes every byte of that page reachable by a plain access of the owner. -/
def openPage (s : State) (a : Access) : Bool :=
  a.core == none && a.owner == 1 && !a.spec && (s.cluster a.cl).tlb == [bigLeaf] && s.seals.isEmpty && s.badLines.isEmpty && s.poison.isEmpty
    && s.zorFrames.isEmpty && s.dies.all (fun d => d.regions.isEmpty && d.locks.isEmpty) && s.owners.all (fun o => !o.2.logged)

theorem bigLeaf_translate {s : State} {a : Access} (h : openPage s a = true) (n : Need) (hn : n.ex = false) (v : Nat) (h1 : 0x40000000 ≤ v) (h2 : v < 0x80000000) :
    s.translate a v n = (.ok ⟨v, 0x40000000, 0x40000000, bigLeaf.leaf⟩, s) := by
  simp only [openPage, Bool.and_eq_true, beq_iff_eq, Bool.not_eq_true'] at h
  have ha : n.allowed bigLeaf.leaf = true := by
    simp only [Need.allowed, hn]
    have h4 : bigLeaf.leaf.getLsbD 4 = true := by decide
    have h5 : bigLeaf.leaf.getLsbD 5 = true := by decide
    simp [h4, h5]
  have hb : bigLeaf.leaf.getLsbD 11 = true := by decide
  have hx : xlOf v bigLeaf.size bigLeaf.leaf = ⟨v, 0x40000000, 0x40000000, bigLeaf.leaf⟩ := by
    have hf : field64 bigLeaf.leaf 16 36 * 2 ^ 16 = 0x40000000 := by decide
    have hs : bigLeaf.size = 0x40000000 := rfl
    simp only [xlOf, hf, hs, Xl.mk.injEq, and_true]
    omega
  have hl : tlbFind [bigLeaf] 1 v = some bigLeaf := by
    have : bigLeaf.base = 0x40000000 ∧ bigLeaf.size = 0x40000000 ∧ bigLeaf.owner = 1 := ⟨rfl, rfl, rfl⟩
    simp [tlbFind, this.1, this.2.1, this.2.2, h1]; omega
  obtain ⟨⟨⟨⟨⟨⟨⟨⟨⟨hc, ho⟩, _⟩, ht⟩, _⟩, _⟩, _⟩, _⟩, _⟩, _⟩ := h
  have hk : s.backed v = true := by
    simp only [State.backed, Bool.or_eq_true, Bool.and_eq_true, decide_eq_true_eq]
    omega
  simp [State.translate, State.translate.onlyBacked, hc, ho, ht, hl, ha, hb, hx, hk]

theorem openPage_guard {s : State} {a : Access} (h : openPage s a = true) (pa n : Nat) (wr : Bool) : s.guardPa pa n wr = none := by
  simp only [openPage, Bool.and_eq_true, beq_iff_eq, Bool.not_eq_true', List.isEmpty_iff, List.all_eq_true] at h
  obtain ⟨⟨⟨⟨_, hse⟩, _⟩, _⟩, hd⟩ := (⟨⟨⟨⟨h.1.1.1.1.1.1, h.1.1.1.1.1.2⟩, h.1.1.1.1.2⟩, h.1.1.1.2⟩, h.1.2⟩ : ((((_ ∧ _) ∧ _) ∧ _) ∧ _))
  have hp : s.inPool pa n = false := by
    simp only [State.inPool, List.any_eq_false]
    intro d hd'
    simp [(hd d hd').1]
  have hs : s.sealedAt pa n = false := by
    simp only [State.sealedAt, hse, Bool.or_eq_false_iff, List.any_eq_false, Bool.and_eq_true]
    refine ⟨by simp, fun o ho hx => ?_⟩
    have := h.2 o ho
    simp [this] at hx
  simp [State.guardPa, hp, hs]

theorem openPage_lock {s : State} {a : Access} (h : openPage s a = true) (o va n : Nat) (wr : Bool) : s.lockCheck o va n wr = none := by
  simp only [openPage, Bool.and_eq_true, List.all_eq_true, List.isEmpty_iff] at h
  have : s.lockHit o va n wr = none := by
    simp only [State.lockHit, List.head?_eq_none_iff, List.flatMap_eq_nil_iff]
    intro d hd
    simp [(h.1.2 d hd).2]
  simp [State.lockCheck, this]

theorem openPage_write {s : State} {a : Access} (h : openPage s a = true) (va : Nat) (bs : List Byte) (h1 : 0x40000000 ≤ va) (h2 : va + bs.length ≤ 0x80000000) :
    ∃ s', s.spanWrite a va bs = (.ok (), s') := by
  have hs : a.spec = false := by
    simp only [openPage, Bool.and_eq_true, Bool.not_eq_true'] at h
    exact h.1.1.1.1.1.1.1.2
  have ht := State.spanTest_ok (va0 := va) hs (fun v g1 g2 => bigLeaf_translate h { wr := true } rfl v g1 g2)
    (fun v bs' g1 g2 => by
      have hc : ¬ cfgBase ≤ v := by simp only [cfgBase]; omega
      simp [State.writeGuard, hc, openPage_guard h, openPage_lock h, State.overAllowance, State.buffers, hs]) (bs.length / 2 ^ 16 + 2) va bs [] h1 h2
  exact ⟨_, by rw [State.spanWrite, ht]; rfl⟩

theorem aget?_mapKey {α : Type} (f : Nat → Nat) (g : Nat → α) (hf : ∀ i j, f i = f j → i = j) {j : Nat} :
    ∀ l : List Nat, j ∈ l → aget? (l.map fun i => (f i, g i)) (f j) = some (g j) := by
  intro l
  induction l with
  | nil => simp
  | cons x l ih =>
    intro h
    by_cases hx : x = j
    · simp [hx, aget?]
    · have h1 : f x ≠ f j := fun e => hx (hf _ _ e)
      have h2 : j ∈ l := by simpa [Ne.symm hx] using h
      simp [aget?, h1, ih h2]

/-- The L1 of an access's cluster holds the lines of n bytes from 0x40000000 on. -/
def areaAtHand (s : State) (a : Access) (n : Nat) : Prop :=
  ∀ i, i ≤ n / 128 → aget? (s.cluster a.cl).l1 (l1Key 1 (0x800000 + i)) = some ((upTo 128).map fun j => memGet s.mem ((0x800000 + i) * 128 + j))

theorem withArea_atHand (s : State) (sv : List (Nat × Squad)) {a : Access} (ha : a.cl = 0) (hc : s.clusters ≠ []) :
    areaAtHand (withArea s sv) a Config.saveAreaBytes.val := by
  intro i hi
  obtain ⟨c, cs, hs⟩ : ∃ c cs, s.clusters = c :: cs := by
    cases h : s.clusters with
    | nil => exact absurd h hc
    | cons c cs => exact ⟨c, cs, rfl⟩
  simp only [withArea, State.modCluster, State.cluster, ha, hs, List.modify_zero_cons, List.getD_cons_zero]
  exact aget?_mapKey (fun i => l1Key 1 (0x800000 + i)) _ (fun i j h => by simp only [l1Key] at h; omega) _ (by simp [upTo]; omega)

/-- A read of that area within a line. -/
theorem readL1_area {s : State} {a : Access} {n pa k : Nat} (zor : Bool) (hl : areaAtHand s a n) (hs : a.spec = false) (ho : a.owner = 1)
    (h1 : 0x40000000 ≤ pa) (h2 : pa ≤ 0x40000000 + n) (h3 : pa % 128 + k ≤ 128) :
    s.readL1 a zor pa k = (.ok ((upTo k).map fun i => memGet s.mem (pa + i)), s) := by
  have hx := hl (pa / 128 - 0x800000) (by omega)
  have hp : 0x800000 + (pa / 128 - 0x800000) = pa / 128 := by omega
  rw [hp] at hx
  simp only [State.readL1, ho, hx, State.overlaid, hs, Option.orElse_some, Bool.false_eq_true, if_false, Prod.mk.injEq, Except.ok.injEq, and_true, upTo]
  apply List.ext_getElem
  · simp; omega
  · intro i h1 h2
    simp only [List.getElem_take, List.getElem_drop, List.getElem_map, List.getElem_range]
    exact congrArg (memGet s.mem) (by omega)

theorem readSpanL1_area {s : State} {a : Access} {n : Nat} (zor : Bool) (hl : areaAtHand s a n) (hs : a.spec = false) (ho : a.owner = 1) :
    ∀ (f pa k : Nat), 0x40000000 ≤ pa → pa + k ≤ 0x40000000 + n → (0 < k → k + pa % 128 ≤ f * 128) →
      readSpanL1 a zor f s pa k = (.ok ((upTo k).map fun i => memGet s.mem (pa + i)), s) := by
  intro f
  induction f with
  | zero => intro pa k _ _ h; obtain rfl : k = 0 := by omega
            rfl
  | succ f ih =>
    intro pa k h1 h2 h3
    unfold readSpanL1
    by_cases hk : k = 0
    · simp [hk, upTo]
    · rw [if_neg hk]
      have hm : pa % 128 < 128 := Nat.mod_lt _ (by omega)
      generalize hg : min k (128 - pa % 128) = g
      have hj : 0 < k - g → k - g + (pa + g) % 128 ≤ f * 128 := by
        intro hp
        have : (pa + g) % 128 = 0 := by omega
        omega
      simp only [readL1_area zor hl hs ho h1 (by omega) (show pa % 128 + g ≤ 128 by omega), MR.andThen, ih (pa + g) (k - g) (by omega) (by omega) hj,
        Prod.mk.injEq, Except.ok.injEq, and_true]
      obtain ⟨j, rfl⟩ : ∃ j, k = g + j := ⟨k - g, by omega⟩
      simp only [upTo, List.range_add, List.map_append, List.map_map, Nat.add_sub_cancel_left]
      congr 1
      apply List.map_congr_left
      intro i _
      simp [Function.comp, Nat.add_assoc]

theorem openPage_read {s : State} {a : Access} (h : openPage s a = true) (n : Nat) (hl : areaAtHand s a n) (hn : n < 2 ^ 30) :
    State.spanRead a 0x40000000 (n / 2 ^ 16 + 2) s 0x40000000 n = (.ok ((upTo n).map fun i => memGet s.mem (0x40000000 + i)), s) := by
  have h' := h
  simp only [openPage, Bool.and_eq_true, Bool.not_eq_true', beq_iff_eq] at h'
  obtain ⟨⟨⟨⟨⟨⟨⟨⟨⟨_, ho⟩, hs⟩, _⟩, _⟩, _⟩, _⟩, _⟩, _⟩, _⟩ := h'
  refine State.spanRead_ok (lo := 0x40000000) (hi := 0x40000000 + n) (fun v g1 g2 => bigLeaf_translate h { rd := true } rfl v g1 (by omega))
    (fun v k g1 g2 => ?_) (n / 2 ^ 16 + 2) 0x40000000 n (by omega) (by omega) (fun _ => by omega)
  have hcf : ¬ cfgBase ≤ v := by simp only [cfgBase]; omega
  simp [State.pread, hcf, openPage_guard h, openPage_lock h, readSpanL1_area _ hl hs ho (k / 128 + 2) v k g1 g2 (fun _ => by omega)]

/-- The check of the loader's word. -/
def loaderReach (x : GenIn) : Bool :=
  x.sq.priv && x.sq.named == 3 && (x.cx.S 2).toNat == 0x40000000 && x.s.squad 2 == some (wordSquad 2 none)
    && x.s.genAccess x.sq == { owner := 1, task := 0, cl := 0, priv := true }

theorem genWitness_one {s : State} {i : Instr} {p : GenIn → Bool} (h : genIs s i 0 p = true) : GenWitness s i p := genIs_ready h

/-- A privileged handler squad with a squad named to it and an open page for the area. -/
theorem test_witness_SaveSquad :
    GenWitness (saverSt (.ctxsaveSquad ⟨0, 0, 0, 2, 0, 1, 0⟩)) (.ctxsaveSquad ⟨0, 0, 0, 2, 0, 1, 0⟩) (fun x => x.sq.priv && x.sq.named == 3
        && (x.cx.S 2).toNat == 0x40000000 && x.s.squad 2 == some (wordSquad 2 none) && openPage x.s (x.s.genAccess x.sq))
      ∧ ∀ (s : State) (a : Access), openPage s a = true → 0x40000000 + Config.saveAreaBytes.val ≤ 2 ^ 56
          ∧ ∃ s', s.spanWrite a 0x40000000 (saveArea s.serial) = (.ok (), s') := by
  have hb := Config.saveAreaBytes.isLt
  exact ⟨genWitness_one (by decide +kernel), fun s a h => ⟨by omega, openPage_write h _ _ (by omega) (by simp [saveArea, upTo]; omega)⟩⟩

/-- The area reads back from memory that holds it. -/
theorem openPage_area {b : State} {a : Access} {sv : List (Nat × Squad)} (h : openPage (withArea b sv) a = true) (ha : a.cl = 0) (hc : b.clusters ≠ [])
    (hw : Memory.wf b.mem = true) :
    State.spanRead a 0x40000000 (Config.saveAreaBytes.val / 2 ^ 16 + 2) (withArea b sv) 0x40000000 Config.saveAreaBytes.val = (.ok (saveArea 0), withArea b sv) := by
  rw [openPage_read h _ (withArea_atHand b sv ha hc) Config.saveAreaBytes.isLt]
  simp only [Prod.mk.injEq, Except.ok.injEq, and_true]
  have hb := Config.saveAreaBytes.isLt
  have hl : (saveArea 0).length = Config.saveAreaBytes.val := by simp [saveArea, upTo]
  conv_rhs => rw [saveArea]
  apply List.map_congr_left
  intro i hi
  have hi' : i < Config.saveAreaBytes.val := by simpa [upTo] using hi
  have hm : (withArea b sv).mem = memSets b.mem 0x40000000 (saveArea 0) := rfl
  rw [hm, memGet_memSets _ hw, if_pos (by omega)]
  simp [saveArea, upTo, hi']

/-- The same, with the bytes of an area that was saved from that squad. -/
theorem test_witness_LoadSquad :
    GenWitness loaderSt (.ctxloadSquad ⟨0, 0, 0, 2, 0, 1, 0⟩) loaderReach
      ∧ State.spanRead { owner := 1, task := 0, cl := 0, priv := true } 0x40000000 (Config.saveAreaBytes.val / 2 ^ 16 + 2) loaderSt 0x40000000 Config.saveAreaBytes.val
          = (.ok (saveArea 0), loaderSt)
      ∧ (loaderSt.saves.find? fun p => p.2.task == (wordSquad 2 none).task && p.2.instance_ == (wordSquad 2 none).instance_ && saveArea p.1 == saveArea 0)
          = some (0, { wordSquad 2 none with teams := [] }) :=
  ⟨genWitness_one (by decide +kernel), openPage_area (by decide +kernel) rfl (by decide +kernel) (by decide +kernel),
    by simp [loaderSt, withArea, State.modCluster]⟩

/-- A team that has parked and one that has not, read and written within a page at hand; and squad words without a squad named. -/
theorem test_witness_SaveRecords :
    ∀ x ∈ ([Instr.ctxsaveRec ⟨0, 0, 0, 2, 0, 0, 0⟩, .ctxloadRec ⟨0, 0, 0, 2, 0, 0, 0⟩].flatMap fun i => [id, withPark].map fun f =>
          (f (saverSt i), i, fun x : GenIn => (x.cx.S 2).toNat == 0x40000000 && x.s.ownedTeam x.q x.c 0 == .team 1 0
            && (match x.s.spanWrite (x.s.genAccess x.sq) 0x40000000 (List.replicate 192 0) with | (.ok _, _) => true | (.error _, _) => false)
            && match State.spanRead (x.s.genAccess x.sq) 0x40000030 2 x.s 0x40000030 128 with | (.ok _, _) => true | (.error _, _) => false))
        ++ ([Instr.ctxsaveSquad ⟨0, 0, 0, 2, 0, 1, 0⟩, .ctxloadSquad ⟨0, 0, 0, 2, 0, 1, 0⟩].map fun i => (genSt i, i, fun x : GenIn => !x.sq.priv)),
      GenWitness x.1 x.2.1 x.2.2 := genWitness (by decide +kernel)

/-- A squad named that has a busy flag; and bytes that no save of the squad wrote. -/
theorem test_witness_SaveSquad_other :
    GenWitness ((saverSt (.ctxsaveSquad ⟨0, 0, 0, 2, 0, 1, 0⟩)).modCtx 2 0 fun cx => { cx with busy := 1 }) (.ctxsaveSquad ⟨0, 0, 0, 2, 0, 1, 0⟩) (fun x => x.sq.priv
        && x.sq.named == 3 && (x.s.squad 2).any fun y => y.ctxs.any fun k => !k.exited && k.busy != 0)
      ∧ State.spanRead { owner := 1, task := 0, cl := 0, priv := true } 0x40000000 (Config.saveAreaBytes.val / 2 ^ 16 + 2)
          (withArea loaderBase []) 0x40000000 Config.saveAreaBytes.val = (.ok (saveArea 0), withArea loaderBase []) :=
  ⟨genWitness_one (by decide +kernel), openPage_area (by decide +kernel) rfl (by decide +kernel) (by decide +kernel)⟩

/-! ## Steps of teams and contexts -/

/-- A team of a squad after a step's choice of it. -/
def teamSt (f : Team → Team) : State :=
  let s : State := laneSt (.lnop ⟨0, 0, 0, 0, 0, 0, 0, 0⟩) f
  { s with operand := { a := 1, b := 0, unit := some (.team 1 0) } }

/-- A context of a squad after a step's choice of it. -/
def contextSt (f : Ctx → Ctx) : State :=
  let s : State := genSt (.gnop ⟨0, 0, 0, 0, 0, 0, 0⟩) f
  { s with operand := { a := 1, b := 0, unit := some (.ctx 1 0) } }

/-- The state with another third operand. -/
def opC (n : Nat) (s : State) : State := { s with operand := { s.operand with c := n } }
/-- The state with another word operand. -/
def opW (w : DWord) (s : State) : State := { s with operand := { s.operand with w := w } }

/-- The state with cluster 0 undervolted. -/
def undervolt (s : State) : State := s.modCluster 0 fun c => { c with power := { c.power with under := 5 } }

/-- Whether team 0 of squad 1 exists and meets a condition. -/
def teamIs (s : State) (p : Team → Bool) : Bool := (s.team 1 0).any p

/-- A stretch of a header h and one word. -/
def stretch (h : DWord) : List BufWord := [{ word := h, last := false }, { word := nopWord, last := true }]

/-- Team 0 with nothing to do. -/
def idleTeam (tm : Team) : Team := { tm with clause := none, buffer := [] }

/-- The states of the steps of a team: a good header and a bad one, a busy flag, a huddle that has moved on, a line that has filled and one starved, a
free matrix unit, registers to give back, a handle out of use, an eviction asked for and due, an evicted team with room, an owner that has gone, a claim of
one core and of two, and an illegal word. -/
def teamStates : List (State × (State → Bool)) :=
  [(teamSt fun tm => { tm with clause := none, buffer := stretch plainHeader }, fun s => teamIs s fun tm => tm.clause.isNone && tm.buffer.length == 2),
    (teamSt fun tm => { tm with clause := none, buffer := stretch 0 }, fun s => teamIs s fun tm => tm.clause.isNone && tm.buffer.length == 2),
    (opC 2 (teamSt fun tm => { tm with busy := 4, hazards := [] }), fun s => teamIs s fun tm => tm.busy.getLsbD s.operand.c),
    (withHuddle { ph := 1 } (teamSt fun tm => { tm with wait := some (.huddle 1) }), fun s => teamIs s fun tm => tm.wait == some (.huddle 1) && !tm.evicted
      && ctxIs s fun sq _ => (sq.huddle 1).ph != aget 0 tm.tp 1),
    (withTiles [(4, square)] (teamSt fun tm => { tm with wait := some (.lines [(4, 0)] 0) }), fun s => teamIs s fun tm => tm.wait == some (.lines [(4, 0)] 0)
      && (s.tile 1 4).any (·.full 0)),
    ((teamSt fun tm => { tm with wait := some (.lines [(4, 0)] 0) }).modCluster 0 (fun c => { c with cycle := 2 ^ 24 }), fun s => teamIs s fun tm =>
      tm.wait == some (.lines [(4, 0)] 0) && !tm.evicted && decide (2 ^ 24 ≤ (s.cluster 0).cycle)),
    (withTiles [(4, { square with rows := 16, lines := [] })] (teamSt fun tm => { tm with wait := some (.lines [(4, 0), (4, 1)] 0) }), fun s => teamIs s fun tm =>
      tm.wait == some (.lines [(4, 0), (4, 1)] 0) && (s.tile 1 4).any fun k => !k.full 0 && !k.full 1 && decide (1 < k.lineCount)),
    ((teamSt fun tm => { tm with wait := some .descent }).modCluster 0 (fun c => { c with descent := [(1, 0)] }), fun s => teamIs s fun tm =>
      tm.wait == some .descent && (s.cluster 0).descent.head? == some (1, 0)),
    ((teamSt fun tm => { tm with wait := some .matrix }).modCore 0 0 (fun k => { k with queue := [(1, 0)] }), fun s => teamIs s fun tm =>
      tm.wait == some .matrix && ((s.cluster 0).cores[0]?).any fun k => k.queue.head? == some (1, 0) && k.holder.isNone),
    (teamSt fun tm => { tm with wait := some .give, buffer := [{ word := (encode (.give ⟨0, 0, 0, 0, 8⟩)).getD 0, last := true }] }, fun s => teamIs s fun tm =>
      tm.wait == some .give && tm.busy == 0),
    (withTiles [(4, square)] (teamSt fun tm => { tm with wait := some (.tfree 4) }), fun s => teamIs s fun tm => tm.wait == some (.tfree 4) && !s.tileInUse 1 4
      && s.tileLocked 1 4 == none),
    ((withTiles [(4, square)] (teamSt fun tm => { tm with wait := some (.tfree 4) })).modDie 0 (fun d => { d with locks := [(3, { copy := 0, slice := 0, range := .tile 1 4 [0] })] }),
      fun s => teamIs s fun tm => tm.wait == some (.tfree 4) && s.tileLocked 1 4 == some 3),
    (({ teamSt id with tasks := [(5, { otherTask .running with placed := 1, killed := true, keyBase := 1 })] } : State), fun s => teamIs s fun tm =>
      tm.owner.any fun o => s.ownerKilled o.1),
    (opW 1 (teamSt id), fun s => teamIs s fun tm => s.operand.w == 1 && !tm.evicted && !tm.ended),
    (teamSt fun tm => { tm with evictReq := true }, fun s => teamIs s fun tm => s.operand.w != 1 && s.operand.c == 0 && tm.evictReq && tm.busy == 0 && tm.wait.all (·.suspends)),
    (opC 1 (teamSt fun tm => { tm with evictReq := true }), fun s => teamIs s fun tm => s.operand.w != 1 && s.operand.c == 1 && tm.evictReq && tm.busy == 0
      && !(s.cluster 0).undervolted),
    (opC 2 (teamSt fun tm => { tm with evictReq := true }), fun s => teamIs s fun tm => s.operand.w != 1 && s.operand.c == 2 && tm.evictReq && tm.busy == 0
      && !(s.cluster 0).undervolted),
    (undervolt (opC 1 (teamSt fun tm => { tm with evictReq := true })), fun s => teamIs s fun tm => s.operand.w != 1 && s.operand.c == 1 && tm.evictReq && tm.busy == 0
      && (s.cluster 0).undervolted),
    (teamSt fun tm => { tm with evicted := true, wait := some .claim }, fun s => teamIs s fun tm => tm.evicted && tm.wait == some .claim && !s.exclOther 1 0
      && ctxIs s (fun sq _ => !sq.off) && tm.cores.all fun k => decide (s.granules 0 k + tm.passesOn k * tm.n / 8 ≤ 512) && decide (s.placesUsed 0 k < 32)),
    (teamSt fun tm => { tm with evicted := true }, fun s => teamIs s fun tm => tm.evicted && tm.wait != some .claim && !s.exclOther 1 0
      && ctxIs s (fun sq _ => !sq.off) && tm.cores.all fun k => decide (s.granules 0 k + tm.passesOn k * tm.n / 8 ≤ 512) && decide (s.placesUsed 0 k < 32)),
    ((teamSt idleTeam).modCtx 1 0 (fun cx => { cx with exited := true }), fun s => teamIs s fun tm => tm.owner.any (fun o => s.ownerGone o.1 o.2) && !tm.ended && tm.buffer.isEmpty && tm.busy == 0 && tm.park.isNone
      && tm.wait.isNone && !tm.frozen)]

theorem test_witness_TeamSteps : (teamStates.all fun x => x.2 x.1) = true := by decide +kernel

/-- A team of one core and one that spans two, whose CLAIM is first in line at core 0. -/
def claimSt (two : Bool) : State :=
  let s : State := (teamSt fun tm => { tm with pair := two, wait := some .claim, n := 120, buffer := [{ word := (encode (.claim ⟨0, 0, 0, 0, 8⟩)).getD 0, last := true }] }).modCore
    0 0 fun k => { k with claims := [(1, 0)] }
  let z : State := if two then s.modCore 0 1 fun k => { k with claims := [(1, 0)] } else s
  { z with operand := { a := 0, b := 0 } }

theorem test_witness_ClaimGrant :
    ([false, true].all fun two => teamIs (claimSt two) fun tm => ((((claimSt two).cluster 0).cores[0]?).map (·.claims)).getD [] == [(1, 0)]
      && decide ((claimSt two).granules 0 0 + tm.passesOn 0 * tm.claimAmount / 8 ≤ 512)
      && (tm.cores.any fun j => j != 0 && (((((claimSt two).cluster 0).cores[j]?).map (·.claims)).getD []).contains (1, 0)) == two) = true := by decide +kernel

theorem test_witness_IllegalWords :
    LaneWitness (laneSt .illegalLaneOpc) .illegalLaneOpc (fun _ => true) ∧ GenWitness (genSt .illegalGenOpc) .illegalGenOpc fun _ => true :=
  ⟨laneIs_ready (ms := 0) (i := .illegalLaneOpc) (p := fun _ => true) (by decide +kernel), genWitness_one (by decide +kernel)⟩

/-- A block for the context's own team in the sequencer, and a replay of the recording r with n iterations left. -/
def queued (r : Recording) (n : Nat) : List SeqItem := [.replay 0 5 r [] [] n 0]
/-- A recording without holes. -/
def plainRec : Recording := { serial := 7, block := [plainHeader, nopWord], holes := [] }

/-- The states of the steps of a context: a header at the PC, good and bad; a busy flag; a huddle that has moved on; a block, a replay with one and with
two iterations left, and one whose recording is not on chip; a vote whose earliest time has come; a wait that is over; a watched location that has changed;
a pre-emption asked for, due, and overdue in a handler; a pre-empted context with room. -/
def ctxStates : List (State × (State → Bool)) :=
  ([plainHeader, 0].map fun h => ((contextSt fun cx => { cx with clause := none, pc := 0x4008#64 }).devWrite 1 0x4008 (toBytes 8 h.toNat), fun (s : State) => ctxIs s fun sq cx =>
      cx.clause.isNone && match s.fetch (s.genAccess sq) cx.pc.toNat with | (.ok w, _) => w == h | (.error _, _) => false))
  ++ [(opC 2 (contextSt fun cx => { cx with busy := 4 }), fun s => ctxIs s fun _ cx => cx.busy.getLsbD s.operand.c),
    (withHuddle { ph := 1 } (contextSt fun cx => { cx with wait := some (.huddle 1) }), fun s => ctxIs s fun sq cx => cx.wait == some (.huddle 1) && !cx.preempted
      && (sq.huddle 1).ph != aget 0 cx.tp 1),
    (contextSt fun cx => { cx with seq := [.block 0 [plainHeader, nopWord] none] }, fun s => ctxIs s fun sq cx => cx.seq.length == 1 && !cx.seqStopped
      && s.roomFor (s.chanDests sq 1 0 cx 0) 2)]
  ++ ([1, 2].map fun n => ((contextSt fun cx => { cx with seq := queued plainRec n }).modCluster 0 (fun c => { c with onchip := [7] }), fun (s : State) => ctxIs s fun sq cx =>
      (s.cluster 0).onchip.contains 7 && !cx.seqStopped && s.roomFor (s.chanDests sq 1 0 cx 0) 2 && cx.seq == queued plainRec n))
  ++ [(contextSt fun cx => { cx with seq := queued plainRec 1 }, fun s => !(s.cluster 0).onchip.contains 7 && decide (s.recWords 0 7 ≤ 32768)),
    (contextSt fun cx => { cx with votes := [{ rec_ := 1, lower := 0, upper := 9 }] }, fun s => ctxIs s fun _ cx => cx.votes.all fun v =>
      !v.readable && decide (v.lower ≤ (s.cluster 0).cycle)),
    (contextSt fun cx => { cx with wait := some (.sdrain (some 0)) }, fun s => ctxIs s fun sq cx => s.waitOver 1 0 sq cx (.sdrain (some 0))),
    (contextSt fun cx => { cx with wait := some (.admission 0 [1]) }, fun s => ctxIs s fun sq cx => cx.wait == some (.admission 0 [1]) && s.waitOver 1 0 sq cx (.admission 0 [1])),
    (withTlb (contextSt fun cx => { cx with wait := some (.mwait 0x10008 8 1 false), s := [(1, 5)] }), fun s => ctxIs s fun sq cx =>
      cx.wait == some (.mwait 0x10008 8 1 false) && match s.freshRead (s.genAccess sq) 0x10008 8 false with
        | (.ok bs, _) => ofBytes bs != (cx.S 1).toNat % 2 ^ 64
        | (.error _, _) => false),
    (opW 1 (contextSt id), fun s => ctxIs s fun _ cx => s.operand.w == 1 && cx.preemptReq.isNone && !cx.preempted && !cx.exited),
    (contextSt fun cx => { cx with preemptReq := some 0 }, fun s => ctxIs s fun _ cx => s.operand.c == 0 && cx.preemptReq.isSome && !cx.tmask && !s.trapNext 1 0 && cx.saveable),
    (opC 1 (contextSt fun cx => { cx with preemptReq := some 0 }), fun s => ctxIs s fun _ cx => s.operand.c == 1 && cx.preemptReq.isSome && !cx.tmask && !s.trapNext 1 0
      && cx.saveable && !(s.cluster 0).undervolted),
    (opC 2 (contextSt fun cx => { cx with preemptReq := some 0 }), fun s => ctxIs s fun _ cx => s.operand.c == 2 && cx.preemptReq.isSome && !cx.tmask && !s.trapNext 1 0
      && cx.saveable && !(s.cluster 0).undervolted),
    (undervolt (opC 1 (contextSt fun cx => { cx with preemptReq := some 0 })), fun s => ctxIs s fun _ cx => s.operand.c == 1 && cx.preemptReq.isSome && !cx.tmask
      && !s.trapNext 1 0 && cx.saveable && (s.cluster 0).undervolted),
    ((contextSt fun cx => { cx with preemptReq := some 0, tmask := true }).modCluster 0 (fun c => { c with cycle := 65536 }), fun s => ctxIs s fun _ cx =>
      cx.preemptReq == some 0 && cx.tmask && cx.saveable && decide (65536 ≤ (s.cluster 0).cycle)),
    (contextSt fun cx => { cx with preempted := true }, fun s => ctxIs s fun sq cx => cx.preempted && !sq.off && !s.exclOther 1 0 && s.ctxRoom 0 sq.priv 1)]

theorem test_witness_ContextSteps : (ctxStates.all fun x => x.2 x.1) = true := by decide +kernel

/-! ## Steps of memory, copies and security -/

/-- The package after reset, with a change of die 0 and an operand. -/
def dieSt (x : Operand) (f : Die → Die := id) : State :=
  let s : State := State.reset.modDie 0 f
  { s with operand := x }

/-- A first touch of owner 1 at 0x20000, whose entry is at 0x3000 (R320). -/
def touch : Touch := { owner := 1, va := 0x20000, size := 0x10000, entry := 0x3000, value := 0x40000#64 }

/-- A fault of team 0 of squad 1 with an empty record. -/
def faultReq : FaultReq := { src := .team 1 0, record := List.replicate 64 0 }

/-- The states of the steps of memory: an outstanding fill; a fault with a mailbox that has room and a slot; a recorded fault that is done; a first
touch with a frame and with none; a list of frames with an entry; a shootdown with none under way and with one, and its end; a mailbox made, made twice,
destroyed, and destroyed when absent; a bad line. -/
def memoryStates : List (State × (State → Bool)) :=
  [((dieSt { b := 77 }).modCluster 0 (fun c => { c with miss := [⟨77, List.replicate 128 1, 0⟩], cycle := 16 }), fun s => (s.cluster 0).miss.any fun m =>
      m.line == s.operand.b && decide (m.since + 16 ≤ (s.cluster 0).cycle)),
    ((dieSt { b := 77 }).modCluster 0 (fun c => { c with miss := [⟨77, List.replicate 128 1, 0⟩], cycle := 15 }), fun s => (s.cluster 0).miss.all fun m =>
      decide ((s.cluster 0).cycle < m.since + 16)),
    (dieSt {} (fun d => { d with faultQ := [faultReq], fring := 0x50003#64, mailboxes := [(3, { live := true })] }), fun s =>
      (s.die 0).ringSlot == some 0 && s.faultBox 0 == some (0, 3, { live := true })),
    (dieSt { w := 0x10005 } (fun d => { d with ring := [(5, faultReq)] }), fun s => (aget? (s.die 0).ring 5).isSome && s.firmware.state == .active),
    ((dieSt { b := 1, c := 0x20000 } fun d => { d with touches := [touch], bullpen := [⟨1, 0x10000, 0x80000⟩] }).devWrite 1 0x3000 (toBytes 8 0x40000), fun s =>
      s.devRead 1 0x3000 == touch.value && s.guardPa 0x3000 8 true == none && (s.die 0).bullpen == [⟨1, 0x10000, 0x80000⟩]),
    (dieSt { b := 1, c := 0x20000 } (fun d => { d with touches := [touch] }), fun s => (s.die 0).bullpen.isEmpty),
    (((dieSt { b := 1 } fun d => { d with flist0 := [(1, 0x7000#64)] }).devWrite 1 0x7000 (toBytes 8 0x90003)).devWrite 1 0x90000 (toBytes 8 0xA0000), fun s =>
      (s.die 0).listHead 1 false == 0x7000 && (s.devRead 1 0x7000).toNat / 2 ^ 16 % 2 ^ 36 != 0
        && (s.die 0).bullpen.isEmpty),
    (dieSt { w := 0x20000 } (fun d => { d with shootOwn := 1 }), fun s => shootLenOk s.operand.w && !s.sealedRange 1 0 0x20000 && s.firmware.writes
      && (s.die 0).shooting.isNone),
    (dieSt { w := 0x20000 } (fun d => { d with shootOwn := 1, shooting := some (2, 0, 0x10000) }), fun s => shootLenOk s.operand.w && !s.sealedRange 1 0 0x20000
      && (s.die 0).shooting.isSome),
    (withTlb (dieSt {} (fun d => { d with shooting := some (1, 0x10000, 0x10000), shootQueue := [(2, 0, 0x10000)] })), fun s => s.fabric.routes.isEmpty
      && (s.remoteUse s.fabric.devid 1 0x10000 0x10000).isEmpty),
    ({ dieSt {} (fun d => { d with shooting := some (1, 0x10000, 0x10000) }) with fabric := { routes := [3] } }, fun s => !s.fabric.routes.isEmpty && s.operand.c != 1),
    (dieSt { b := 0x30080, w := 0x90009 }, fun s => s.firmware.writes && s.operand.b == 0x30080),
    (dieSt { b := 0x10010, w := 7 }, fun s => s.firmware.writes && decide (0x10000 ≤ s.operand.b ∧ s.operand.b < 0x20000 ∧ s.operand.b % 16 = 0)),
    (dieSt { b := 0x10018, w := 7 }, fun s => s.firmware.writes && decide (0x10000 ≤ s.operand.b ∧ s.operand.b < 0x20000 ∧ s.operand.b % 16 ≠ 0)),
    (dieSt { b := 0x7FF8, w := 0x12801 }, fun s => s.firmware.writes && decide (s.operand.b < 0x8000)),
    ({ dieSt {} with firmware := { state := .probation } }, fun s => s.firmware.state == .probation),
    (dieSt {} (fun d => { d with mbsel := 4, mbkey := 9 }), fun s => (aget? (s.die 0).mailboxes 4).isNone),
    (dieSt {} (fun d => { d with mbsel := 4, mailboxes := [(4, { live := true })] }), fun s => (aget? (s.die 0).mailboxes 4).isSome),
    ({ dieSt { a := 5 } with badLines := [4, 5] }, fun s => s.badLines.contains s.operand.a),
    ({ dieSt { a := 6 } with badLines := [4, 5] }, fun s => !s.badLines.contains s.operand.a)]

theorem test_witness_MemorySteps : (memoryStates.all fun x => x.2 x.1) = true := by decide +kernel

/-- A copy of squad 1 in a state, whose slice is in a state. -/
def copyIn (k : CopyState) (started done : Bool) (h : Option Nat) (s : State) : State :=
  let sl : Slice := { ctx := 0, rec_ := copyRegs.map (·.2) ++ List.replicate 4 0, idx := [], done := done, started := started }
  { s with copies := [(0, { q := 1, tag := 0, count := 1, huddle := h, slices := [sl], state := k })], operand := {} }

/-- A queued copy; a running one whose slice has begun and has not, and whose slices are done, with no huddle and with one. -/
theorem test_witness_CopySteps :
    (copyIn .queued true false none (laneSt (.lnop ⟨0, 0, 0, 0, 0, 0, 0, 0⟩))).nextQueued 0 = some 0
      ∧ ∀ y ∈ [(true, false, none), (false, false, none), (true, true, none), (true, true, some 1)],
        ((copyIn .running y.1 y.2.1 y.2.2 (withHuddle { owed := 1 } (laneSt (.lnop ⟨0, 0, 0, 0, 0, 0, 0, 0⟩)))).copy 0).any (fun c => c.state == .running && !c.fault
          && !c.frozen) = true ∧ (({ owed := 1 } : Huddle).expect (-1)).isSome = true ∧ (({ owed := -32768 } : Huddle).expect (-1)).isNone = true := by decide +kernel

/-- The states of the steps of security: a waiting violation with a free record; a seal that has not been hashed; a log whose reader moves on; the states
of a firmware update. -/
def securityStates : List (State × (State → Bool)) :=
  [(dieSt {} (fun d => { d with violQ := [violation] }), fun s => (s.die 0).violSlot == some 0 && s.operand.w == 0),
    (dieSt { w := 1 } (fun d => { d with viol := [(0, violation)] }), fun s => (aget? (s.die 0).viol 0).isSome && s.firmware.state == .active),
    (dieSt { w := 2 } (fun d => { d with viol := [(0, violation)] }), fun s => (aget? (s.die 0).viol 0).isSome && s.firmware.state == .active),
    ({ dieSt {} with seals := [(0, { sealEnt with len := 0 })] }, fun s => (aget? s.seals 0).any fun e => !e.hashed && !e.freeing),
    ({ dieSt { a := 1, w := 2 } with owners := [(1, { num := 1, keyGen := 1, logWrite := 3 })] }, fun s => (aget? s.owners 1).any fun o =>
      decide (o.logRead ≤ s.operand.w.toNat) && decide (s.operand.w.toNat ≤ o.logWrite))]
  ++ ([FwState.active, .quiesce, .check, .handover].map fun k => (({ dieSt { frame := some { conn := 0, seq := 0, owner := 1, addr := 0, len := 0, kind := 0, data := [1, 2] } } with up := true, firmware := { state := k } } : State), fun (s : State) =>
      s.up && s.firmware.state == k))
  ++ [({ dieSt {} with firmware := { state := .probation, since := 5 }, now := 50000005 }, fun s => decide (s.now ≤ s.firmware.since + 50000000)),
    ({ dieSt {} with firmware := { state := .probation, since := 5 }, now := 50000006 }, fun s => decide (s.firmware.since + 50000000 < s.now))]

theorem test_witness_SecuritySteps : (securityStates.all fun x => x.2 x.1) = true := by decide +kernel

/-! ## Steps of tasks -/

/-- A task of id 6 of owner 1, of one instance of one team of 16 lanes at priority 2. -/
def taskOf (f : Task → Task) : Task := f { id := 6, die := 0, record := [BitVec.ofNat 64 codeAddr, 0, 0xF00000000#64, 0x102#64], phase := .waiting, keyBase := 7 }

/-- An active package with that task, which a step names. -/
def taskSt (f : Task → Task) : State :=
  { State.reset with up := true, tasks := [(6, taskOf f)], owners := [(1, { num := 1, keyGen := 1 })], operand := { a := 6 } }

/-- The same, for a step of die 0 or of cluster 0. -/
def lineSt (f : Task → Task) : State := { taskSt (fun t => f { t with phase := .ready, image0 := some [] }) with operand := {} }

/-- Cluster 0 is the only one of die 0 that is not held for another squad. -/
def oneCluster (s : State) : State := { s with clusters := s.clusters.zipIdx.map fun y => if y.2 = 0 then y.1 else { y.1 with excl := some 99 } }

/-- Every cluster is held for another squad. -/
def noCluster (s : State) : State := { s with clusters := s.clusters.map fun c => { c with excl := some 99 } }

/-- The head task of die 0, its package active, and a condition. -/
def headIs (s : State) (p : Task → Bool) : Bool := (s.lineHead 0).any fun t => s.firmware.state == .active && !s.fatal && p t

/-- A squad of that task, with its team evicted and its context pre-empted or not. -/
def squadOf (away : Bool) (f : Squad → Squad) : Squad :=
  let q := wordSquad 7 none
  f { q with task := 6, teams := q.teams.map fun tm => { tm with evicted := away, owner := some (7, 0) }, ctxs := q.ctxs.map fun cx => { cx with preempted := away } }

/-- The state in which that squad is resident under key 7, which a step names. -/
def squadSt (away : Bool) (f : Squad → Squad) : State :=
  { taskSt (fun t => { t with phase := .running, placed := 1 }) with squads := [(7, squadOf away f)], operand := { a := 7 } }

/-- A squad of task 8 whose team takes every granule of core 0. -/
def wideSquad : Squad := squadOf false fun q => { q with task := 8, teams := q.teams.map fun tm => { tm with n := 4096 } }

/-- The state in which that task's squad 7, pre-empted, stands in the Lineup again, beside other squads of task 8 at priority 0. -/
def backSt (q : Squad) (others : List (Nat × Squad)) : State :=
  { lineSt (fun t => { t with phase := .running, placed := 1, requeue := [0], level := 2 }) with
    squads := (7, q) :: others
    tasks := [(6, taskOf fun t => { t with phase := .running, placed := 1, requeue := [0], level := 2, image0 := some [] }),
      (8, { taskOf (fun t => { t with phase := .running, placed := 1, keyBase := 8, record := [0, 0, 0xF00000000#64, 0x100#64] }) with id := 8 })] }

/-- The same with task 8 at priority 7. -/
def higher (s : State) : State := s.modTask 8 fun t => { t with level := 7, record := [0, 0, 0xF00000000#64, 0x107#64] }

/-- A version of line 0x400 of owner 1. -/
def version (st : Bool) : Version := { key := 6, owner := 1, die := 0, lo := 0x400, hi := 0x401, pa := poolBase, writers := [], readers := [], after := [], started := st }

/-- An active package whose owner 1 maps its first 1 GiB, with that version, which a step names. -/
def foldSt (f : State → State) : State :=
  f { State.withIdentityPage { State.reset with owners := [(1, { num := 1, keyGen := 1 })] } with up := true, versions := [(6, version true)], operand := { a := 6 } }

/-- A started version that may go home. -/
def foldable (s : State) : Bool := (aget? s.versions 6).any fun v => v.started && !v.predicted && v.key == 6 && (s.versionsOf 0 1).all fun u => !(decide (u.key < 6))

/-- The states of the steps of the Lineup and the distributor: a task whose dependences have retired, one that has waited 2 ms, one that has completed; a
head task with a cluster, before and after its first instance, and with none, an EXCL one, and a pre-empted instance that fits again; a squad whose quantum
has run out, and one that a waiting task of its level displaces; an EXCL squad whose cluster is clear; a squad that has exited; a version never written and one
written, whose lines are good, bad, and sealed at home. -/
def taskStates : List (State × (State → Bool)) :=
  [(taskSt id, fun s => (s.task 6).any fun t => t.id == 6 && t.phase == .waiting && t.deps.isEmpty && s.scoreReady t),
    ({ taskSt (fun t => { t with phase := .ready, level := 2 }) with now := 2000000 }, fun s => (s.task 6).any fun t => t.phase == .ready && decide (t.level < 7)
      && decide (t.entered + 2000000 ≤ s.now)),
    (taskSt (fun t => { t with phase := .completed }), fun s => (s.task 6).any fun t => t.phase == .completed && !t.uncommitted),
    (oneCluster (lineSt id), fun s => headIs s fun t => !t.excl && t.requeue.isEmpty && (s.preferred t (s.fitting t (s.operand.b == 1))).isSome && t.image0.isSome && t.placed == 0),
    (oneCluster (lineSt fun t => { t with placed := 1, record := [BitVec.ofNat 64 codeAddr, 0, 0xF00000001#64, 0x102#64] }), fun s => headIs s fun t => !t.excl
      && t.requeue.isEmpty && (s.preferred t (s.fitting t (s.operand.b == 1))).isSome && t.image0.isSome && t.placed == 1),
    (noCluster (lineSt id), fun s => headIs s fun t => !t.excl && t.requeue.isEmpty && (s.preferred t (s.fitting t (s.operand.b == 1))).isNone),
    (lineSt fun t => { t with record := [BitVec.ofNat 64 codeAddr, 0, 0xF00000000#64, 0x122#64] }, fun s => headIs s fun t => t.excl && t.requeue.isEmpty),
    (backSt (squadOf true fun q => { q with off := true }) [], fun s => headIs s fun t => t.requeue == [0] && (s.squad 7).any fun q => s.fitsAgain 7 q),
    ((backSt (squadOf true fun q => { q with off := true }) []).modCluster 0 (fun c => { c with excl := some 99 }), fun s => headIs s fun t => t.requeue == [0]
      && (s.squad 7).any (fun q => !s.fitsAgain 7 q) && s.exclOther 7 0),
    (backSt (squadOf true fun q => { q with off := true }) [(8, wideSquad)], fun s => headIs s fun t => t.requeue == [0]
      && (s.squad 7).any (fun q => !s.fitsAgain 7 q && (s.makeRoom [0] t.level (·.fitsAgain 7 q)).isSome) && !s.exclOther 7 0),
    (higher (backSt (squadOf true fun q => { q with off := true }) [(8, wideSquad)]), fun s => headIs s fun t => t.requeue == [0]
      && (s.squad 7).any (fun q => !s.fitsAgain 7 q && (s.makeRoom [0] t.level (·.fitsAgain 7 q)).isNone) && !s.exclOther 7 0),
    (squadSt false fun q => { q with expired := true }, fun s => (s.squad 7).any fun q => !q.off && q.expired && q.teams.any (!·.evicted)),
    ({ squadSt false (fun q => { q with quantum := 20 }) with now := 9, tasks := [(6, taskOf fun t => { t with phase := .running, placed := 1, level := 2 }),
      (8, { taskOf (fun t => { t with phase := .ready, level := 2 }) with id := 8 })] }, fun s => (s.lineHead 0).isSome && (s.squad 7).any fun q => !q.off && !q.expired
      && decide (s.now < q.placed + q.quantum)),
    (squadSt true fun q => { q with expired := true }, fun s => (s.squad 7).any fun q => !q.off && q.expired && q.teams.all (·.evicted) && q.ctxs.all (·.preempted)),
    (let z : State := squadSt false fun q => { q with quantum := 5 }
     { z with now := 9, tasks := [(6, taskOf fun t => { t with phase := .running, placed := 1, level := 2 }),
        (8, { taskOf (fun t => { t with phase := .ready, level := 2, record := [0, 0, 0x20000F00000000#64, 0x102#64] }) with id := 8 })],
              clusters := z.clusters.map fun c => { c with excl := some 99 } }, fun s => (s.squad 7).any fun q => !q.off && !q.expired && decide (q.placed + q.quantum ≤ s.now)
      && (s.lineHead 0).any fun h => h.level == s.prioOf q && (s.requeued h).isNone && !h.excl && (s.fitting h false).isEmpty),
    ((lineSt fun t => { t with record := [BitVec.ofNat 64 codeAddr, 0, 0xF00000000#64, 0x122#64] }).modCluster 0 (fun c => { c with excl := some 7 }), fun s =>
      (s.cluster 0).excl == some 7 && (s.squad 7).isNone && s.firmware.state == .active && !s.fatal && (s.task 6).any fun t => (s.fits t 0 false).isSome && t.keyBase + t.placed == 7 && t.excl && t.phase == .ready),
    ({ lineSt id with tasks := [], clusters := State.reset.clusters.map fun c => { c with excl := some 7 } }, fun s => (s.cluster 0).excl == some 7 && s.squads.isEmpty && s.tasks.isEmpty
      && s.firmware.state == .active && !s.fatal),
    ({ (squadSt false id).modCluster 0 (fun c => { c with excl := some 9 }) with operand := {} }, fun s => s.operand.a == 0 && (s.cluster 0).excl == some 9 && (s.squad 7).any fun q => q.cluster == 0 && !q.off),
    (squadSt false fun q => { q with ctxs := q.ctxs.map (fun cx => { cx with exited := true }), teams := q.teams.map fun tm => { tm with ended := true } }, fun s =>
      (s.squad 7).any fun q => q.ctxs.all (fun cx => cx.exited && cx.pending.isEmpty && cx.seq.isEmpty) && q.teams.all (·.ended) && s.copies.isEmpty),
    ({ taskSt id with versions := [(6, version false)] }, fun s => (aget? s.versions 6).any fun v => !v.started && !v.predicted && v.key == 6 && (s.versionsOf 0 1).all fun u => !(decide (u.key < 6))),
    (foldSt id, fun s => foldable s && (s.homeLine 0 1 0x400).1.any fun x => (s.guardPa x.1 128 true).isNone && (s.linesCheck 1 false [poolBase / 128]).1 == .ok ()),
    (foldSt fun s => { s with badLines := [poolBase / 128] }, fun s => foldable s && (s.homeLine 0 1 0x400).1.any fun x => (s.guardPa x.1 128 true).isNone
      && (s.linesCheck 1 false [poolBase / 128]).1 != .ok ()),
    (foldSt fun s => { s with seals := [(0, { sealEnt with frames := [(0x20000, 0x10000)] })] }, fun s => foldable s && (s.homeLine 0 1 0x400).1.any fun x =>
      (match s.guardPa x.1 128 true with | some (.violation ..) => true | _ => false))]

theorem test_witness_TaskSteps : (taskStates.all fun x => x.2 x.1) = true := by decide +kernel

/-- An uncommitted speculative task that waits on task 5. -/
def mayStart (p : Option Nat) (t : Task) : Task := { t with spec := true, deps := [5], producer := p, pspan := some (0, 0) }

/-- The state of a speculative task and its producer, task 5, in phase p. -/
def specSt (p : TaskPhase) (f : Task → Task) : State :=
  let s : State := taskSt f
  { s with tasks := (5, { taskOf (fun t => { t with phase := p, spec := true, specPhase := .passed }) with id := 5 }) :: s.tasks }

/-- A task with a predicted version of four bytes at 0x20000 of type F32 (R381). -/
def predicted (t : Task) : Task :=
  { t with spec := true, specPhase := .pending, producer := some 9, predicted := some 6
           record := [BitVec.ofNat 64 codeAddr, 0, 0xF00000000#64, 0x112#64, 0, 0, 0xA00#64, 0, 0x20000#64, 4] }

/-- A task that may start early without a producer and with one that has a history; one whose prediction fails, one whose sources have settled, with a producer that
has gone and without one; one that commits. -/
theorem test_witness_SpeculationSteps :
    ([(specSt .completed (mayStart none), fun s : State => (s.task 6).any fun t => s.canSpeculate t && t.producer.isNone),
      ((specSt .running (mayStart (some 5))).modDie 0 (fun d => { d with predictor := [{ owner := 1, base := 0, len := 0, a := some [] }] }), fun s => (s.task 6).any fun t =>
        s.canSpeculate t && t.producer == some 5 && (s.historyOf t).isSome),
      ({ taskSt predicted with versions := [(6, { version true with predicted := true, hi := 0x401 })], mem := memSets [] poolBase (toBytes 4 0x7FC00000) }, fun s => (s.task 6).any fun t =>
        t.uncommitted && t.specPhase == .pending && !t.killed && t.producer == some 9 && s.gone 9 && !s.predictionOk t),
      (taskSt (fun t => { t with spec := true, specPhase := .pending, producer := some 9 }), fun s => (s.task 6).any fun t => t.uncommitted && t.specPhase == .pending && !t.killed
        && s.gone 9 && s.predictionOk t && t.deps.all s.settled && (s.specSources t).isEmpty),
      (taskSt (fun t => { t with spec := true, specPhase := .pending }), fun s => (s.task 6).any fun t => t.uncommitted && t.specPhase == .pending && !t.killed
        && t.producer.isNone && t.deps.all s.settled && (s.specSources t).isEmpty),
      (taskSt (fun t => { t with spec := true, specPhase := .passed, phase := .completed }), fun s => (s.task 6).any fun t => t.uncommitted && t.specPhase == .passed
        && t.phase == .completed && !t.killed),
      (speculating (laneSt (.lnop ⟨0, 0, 0, 0, 0, 0, 0, 0⟩) fun tm => { tm with wait := some .spec }), fun s => (s.task 0).any fun t => t.uncommitted && s.atEffect t && t.phase != .completed),
      (taskSt (fun t => { t with spec := true, specPhase := .passed, phase := .running }), fun s => (s.task 6).any fun t => t.uncommitted && t.specPhase == .passed && !t.killed
        && t.phase != .completed && !s.atEffect t),
      (taskSt (fun t => { t with spec := true, specPhase := .passed, phase := .completed, killed := true }), fun s => (s.task 6).any (·.killed))].all fun x => x.2 x.1) = true := by decide +kernel

/-- A resident squad with a copy outstanding. -/
theorem test_witness_Reclaim :
    let s : State := { squadSt false id with copies := [(0, { q := 7, tag := 0, count := 1, huddle := none })] }
    (s.squad 7).isSome = true ∧ s.copiesOf 7 = [0] := by decide +kernel

/-! ## Steps of the host, the owners, the fabric and the power controllers -/

/-- A message of the host, as the frame that carries it. -/
def frameOf (m : Message) : HostFrame := { conn := m.conn, kind := m.kind, seq := m.seq, addr := m.addr, len := m.len, owner := 0, data := m.encode }

/-- The package brought up with owner 1 on connection 5, which has taken two messages, and the message that arrives. The first 1 GiB of owner 1 is mapped. -/
def hostSt (m : Message) : State :=
  let s : State := State.withIdentityPage { State.reset with owners := [(1, { num := 1, keyGen := 1 })] }
  { s with up := true, operand := { frame := some (frameOf m) }
           conns := [(5, { num := 5, owner := 1, nextRx := 2, replies := [{ kind := 2, status := 0, conn := 5, seq := 1 }] })] }

/-- A read of 4 bytes at 0x10000, and a write there. -/
def readMsg : Message := { kind := 1, status := 0, conn := 5, seq := 2, addr := 0x10000#64, len := 4 }
/-- A write of 4 bytes at 0x10000. -/
def writeMsg : Message := { readMsg with kind := 3, payload := [1, 2, 3, 4] }
/-- A launch frame for die 0 of owner o. -/
def launchMsg (o : Nat) : Message :=
  { kind := 5, status := 0, conn := 5, seq := 2, payload := toBytes 8 codeAddr ++ toBytes 8 0 ++ toBytes 8 0xF00000000 ++ toBytes 8 (o * 256) ++ List.replicate 224 0 }

/-- The message as the package reads it, its connection, and a condition on both. -/
def messageIs (s : State) (p : Message → Conn → Bool) : Bool :=
  match s.operand.frame with
  | some f => decide (32 ≤ f.data.length) && (aget? s.conns (Message.parse f.data).conn).any fun c => !c.frozen && p (Message.parse f.data) c
  | none => false

/-- A message in its turn whose parts are consistent, on a connection that is not frozen, and a condition on it. -/
def inTurn (s : State) (p : Message → Bool) : Bool :=
  messageIs s fun m c => m.seq == c.nextRx && m.consistent ((s.operand.frame.map (·.data)).getD []) && p m

/-- The package while a copy's lock covers its whole memory. -/
def withMemLock (s : State) : State := s.modDie 0 fun d => { d with locks := [(5, { copy := 9, slice := 0, range := .mem 1 [(0, 2 ^ 40)] true })] }

/-- The stop of a 4-byte access of the host at va. -/
def hostStopAt (s : State) (wr : Bool) (va : Nat) : Nat :=
  match hostParts 1 { rd := !wr, wr := wr } 3 s va 4 with
  | (.error _, _) => 1
  | (.ok ps, s) => if (s.hostGuard 1 wr ps).isSome then 2 else match hostBytes 1 s ps with | (.error _, _) => 3 | (.ok _, _) => 0

/-- A part of a host access that no guard stops. -/
def partsOk (s : State) (wr : Bool) : Bool :=
  match hostParts 1 { rd := !wr, wr := wr } 3 s 0x10000 4 with
  | (.ok ps, s) => (s.hostGuard 1 wr ps).isNone && (wr || (match hostBytes 1 s ps with | (.ok _, _) => true | (.error _, _) => false))
  | (.error _, _) => false

/-- Messages on no connection, before bring-up and after it; one on a frozen connection; one performed before, with a reply and without one, one ahead of its turn,
one before bring-up, a malformed one, and one of each kind in its turn; accesses that end unmapped, locked and poisoned; a launch frame for no die, of another owner,
and held back; an acknowledgement of a plain message and of a system call; a message to send again. -/
def hostStates : List (State × (State → Bool)) :=
  [({ hostSt { readMsg with conn := 6 } with up := false }, fun s => !s.up && (aget? s.conns 6).isNone && s.operand.frame.any fun f => Message.parse f.data == { readMsg with conn := 6 }),
    (hostSt { readMsg with conn := 6 }, fun s => s.up && (aget? s.conns 6).isNone && s.operand.frame.any fun f => Message.parse f.data == { readMsg with conn := 6 }),
    ({ hostSt readMsg with conns := [(5, { num := 5, owner := 1, frozen := true })] }, fun s => (aget? s.conns 5).any (·.frozen) && s.operand.frame.any fun f => Message.parse f.data == readMsg),
    (hostSt { readMsg with addr := 0x10000000000#64 }, fun s => s.up && inTurn s (·.kind == 1) && hostStopAt s false 0x10000000000 == 1),
    (hostSt { writeMsg with addr := 0x10000000000#64 }, fun s => s.up && inTurn s (·.kind == 3) && hostStopAt s true 0x10000000000 == 1),
    (withMemLock (hostSt readMsg), fun s => s.up && inTurn s (·.kind == 1) && hostStopAt s false 0x10000 == 2),
    (withMemLock (hostSt writeMsg), fun s => s.up && inTurn s (·.kind == 3) && hostStopAt s true 0x10000 == 2),
    ({ hostSt readMsg with poison := [0x200] }, fun s => s.up && inTurn s (·.kind == 1) && hostStopAt s false 0x10000 == 3),
    (hostSt { launchMsg 1 with addr := 3#64 }, fun s => s.up && inTurn s fun m => m.kind == 5 && m.addr.toNat % 4 == 3),
    ({ hostSt (launchMsg 1) with firmware := { (hostSt readMsg).firmware with state := .quiesce } }, fun s => s.up && inTurn s (· == launchMsg 1) && s.firmware.state != .active),
    ((hostSt (launchMsg 1)).modDie 0 fun d => { d with inbound := List.replicate 64 { conn := 5, seq := 0, record := [] } },
      fun s => s.up && inTurn s (· == launchMsg 1) && decide (64 ≤ (s.die 0).inbound.length)),
    (hostSt { readMsg with seq := 1 }, fun s => messageIs s fun m c => decide (m.seq < c.nextRx) && c.replies.any (·.seq == m.seq)),
    (hostSt { readMsg with seq := 0 }, fun s => messageIs s fun m c => decide (m.seq < c.nextRx) && c.replies.all (·.seq != m.seq)),
    (hostSt { readMsg with seq := 3 }, fun s => messageIs s fun m c => decide (c.nextRx < m.seq)),
    ({ hostSt readMsg with up := false }, fun s => !s.up && messageIs s fun m c => m.seq == c.nextRx && m.kind != 9),
    (hostSt { readMsg with len := 0 }, fun s => s.up && messageIs s fun m c => m.seq == c.nextRx && !m.consistent ((s.operand.frame.map (·.data)).getD [])),
    (hostSt { kind := 9, status := 0, conn := 5, seq := 2 }, fun s => messageIs s fun m c => m.seq == c.nextRx && m.kind == 9 && m.consistent ((s.operand.frame.map (·.data)).getD [])),
    (hostSt readMsg, fun s => s.up && partsOk s false && messageIs s fun m c => m == readMsg && m.seq == c.nextRx && m.consistent ((s.operand.frame.map (·.data)).getD [])),
    (hostSt writeMsg, fun s => s.up && partsOk s true && messageIs s fun m c => m == writeMsg && m.seq == c.nextRx && m.consistent ((s.operand.frame.map (·.data)).getD [])),
    (hostSt (launchMsg 1), fun s => s.up && decide ((s.die 0).inbound.length < 64) && s.firmware.state == .active && messageIs s fun m c => m == launchMsg 1
      && m.seq == c.nextRx && m.consistent ((s.operand.frame.map (·.data)).getD [])),
    (hostSt (launchMsg 2), fun s => s.up && messageIs s fun m c => m == launchMsg 2 && m.seq == c.nextRx && m.consistent ((s.operand.frame.map (·.data)).getD [])),
    ({ hostSt { kind := 10, status := 0, conn := 5, seq := 3 } with conns := [(5, { num := 5, owner := 1, unacked := [{ kind := 8, status := 0, conn := 5, seq := 3 }] })] },
      fun s => messageIs s fun m c => m.kind == 10 && m.consistent ((s.operand.frame.map (·.data)).getD []) && c.unacked.any fun u => u.seq == m.seq && u.kind != 7),
    ({ hostSt { kind := 10, status := 0, conn := 5, seq := 3 } with conns := [(5, { num := 5, owner := 1, unacked := [{ kind := 7, status := 0, conn := 5, seq := 3 }] })] },
      fun s => messageIs s fun m c => m.kind == 10 && m.consistent ((s.operand.frame.map (·.data)).getD []) && c.unacked.any fun u => u.seq == m.seq && u.kind == 7),
    ({ hostSt readMsg with conns := [(5, { num := 5, owner := 1, unacked := [{ kind := 8, status := 0, conn := 5, seq := 3 }] })], operand := { a := 5, w := 3 } },
      fun s => (aget? s.conns 5).any fun c => !c.frozen && c.unacked.any (·.seq == s.operand.w))]

theorem test_witness_HostMessages : (hostStates.all fun x => x.2 x.1) = true := by decide +kernel

/-- The package with a launch frame of owner 1 in die 0's admission, its record good or bad. -/
def inboundSt (word : Nat) (flags : Nat := 0x100) : State :=
  { hostSt readMsg with operand := {}, dies := (hostSt readMsg).dies.zipIdx.map fun y => if y.2 = 0 then { y.1 with
      inbound := [{ conn := 5, seq := 1, record := toBytes 8 word ++ toBytes 8 0 ++ toBytes 8 0xF00000000 ++ toBytes 8 flags ++ List.replicate 224 0 }] } else y.1 }

/-- The task that this launch frame would be. -/
def inboundTask (s : State) : Task :=
  { s.draft 0 (recordWords (((s.die 0).inbound.head?.map (·.record)).getD [])) with conn := some 5 }

/-- A good record and a bad one, one of a connection that is gone, and the table full; management without a message; an owner made and retired; bring-up and reset; a
link failure, and one after another. -/
theorem test_witness_DeviceManagement :
    ([(inboundSt codeAddr, fun s : State => s.operand.frame.isNone && s.firmware.state == .active && !s.fatal && (aget? s.conns 5).isSome && (recordBad (inboundTask s)).isNone
          && !s.scoreBad (inboundTask s) && decide (s.tableUsed 0 < 8192) && decide (s.potential (s.draftDeps (inboundTask s)) < 4)),
      ({ inboundSt codeAddr with conns := [] }, fun s => s.operand.frame.isNone && s.firmware.state == .active && !s.fatal && (aget? s.conns 5).isNone),
      ({ State.reset with fatal := true }, fun s => s.fatal),
      (inboundSt 1, fun s => s.operand.frame.isNone && (recordBad (inboundTask s)).isSome),
      (inboundSt codeAddr 0x180, fun s => s.operand.frame.isNone && (recordBad (inboundTask s)).isNone && s.scoreBad (inboundTask s)),
      ({ State.reset with up := true, operand := { a := 1, b := 0x7000, c := 0x9000 * 64 + 12, w := 0x1001 } }, fun s => (aget? s.owners 1).isNone && s.up
          && decide (10 ≤ s.operand.c % 64)),
      ({ hostSt readMsg with operand := { a := 1 } }, fun s => (aget? s.owners 1).isSome && s.firmware.writes),
      ({ hostSt readMsg with firmware := { state := .probation } }, fun s => !s.firmware.writes),
      (State.reset, fun s => !s.up && !s.firmware.closed && !s.fatal && s.operand.frame.isNone),
      ({ State.reset with firmware := { closed := true } }, fun s => !s.up && s.firmware.closed)].all fun x => x.2 x.1) = true := by decide +kernel

/-- The package with a request of device 3 of owner 1 at 0x20000: operation op, 8 bytes, operands. -/
def fabricSt (op : Nat) (ws : List Nat) : State :=
  { State.reset with up := true, owners := [(1, { num := 1, keyGen := 1 })], fabric := { devid := 2, routes := [3] }
                     operand := { frame := some { conn := 3, kind := op, seq := 9, addr := 0x20000#64, len := 8, owner := 1, data := ws.flatMap (toBytes 8) } } }

/-- An outstanding request of this package to device d. -/
def outSt (d now : Nat) (x : Operand) : State :=
  { State.reset with up := true, now := now, operand := x
                     fabric := { devid := 2, routes := [3], out := [⟨4, 0, .ctx 1 0, 0, 0, d, 0x20000, 8, [], 0, false⟩], answers := [(4, 0, [1])] } }

/-- The package whose own request of owner 1 through a window stores 7 at 0x20000, for a step that names it. -/
def ownSt : State :=
  let s : State := { outSt 2 0 { a := 4 } with owners := [(1, { num := 1, keyGen := 1 })], squads := [(1, wordSquad 1 none)], tasks := [(0, wordTask 1)] }
  { s with fabric := { s.fabric with answers := [], out := s.fabric.out.map fun r => { r with op := 1, data := [7] } } }

/-- A package's notice of a shootdown of owner 1 at 0x10000, with a window of owner 1 at pages from 0x10000 there, used by the request outstanding or not. -/
def noticeSt (used : Bool) : State :=
  let s : State := { outSt 3 0 { frame := some { conn := 3, kind := 8, seq := 77, addr := 0x10000#64, len := 0x10000, owner := 1, data := [] } } with
    squads := [(1, wordSquad 1 (some nopWord))], tasks := [(0, wordTask 1)] }
  let z : State := { s with fabric := { s.fabric with answers := [], out := if used then s.fabric.out.map fun r => { r with src := .team 1 0 } else [] } }
  z.modTeam 1 0 fun tm => { tm with win := [(2, { w0 := 0x4600000000010000#64, w1 := 0x0010000000010000#64, w2 := 0x000C000000000100#64, pgBase := 0x10000, pgSize := 0x10000 })] }

/-- A request of the package's own that is performed here; an answer that the mapping awaits; notices of a range in use and not. -/
theorem test_witness_FabricOwn :
    (ownSt.operand.frame.isNone && (ownSt.fabric.out.find? fun r => r.id == ownSt.operand.a).any fun r => r.dev == ownSt.fabric.devid && r.op == 1
        && !ownSt.reqSettled r.id && !ownSt.srcFrozen r.dev (ownSt.reqDie (ownSt.reqOwner r) r.op r.addr) && (ownSt.fabGuard { src := r.dev, num := r.id, owner := ownSt.reqOwner r, op := r.op, addr := r.addr, size := r.size, data := r.data } true).isNone) = true
      ∧ ([false, true].all fun u => (noticeSt u).operand.frame.any fun f => f.conn != (noticeSt u).fabric.devid && (noticeSt u).fabric.notices.isEmpty
        && ((noticeSt u).remoteUse f.conn f.owner f.addr.toNat f.len).isEmpty == !u) = true := by decide +kernel

/-- Requests of each kind, a compare that holds and one that fails; a response of another device and of this one; a request that is 1 ms old and one that is not. -/
theorem test_witness_Fabric :
    (([(0, []), (1, [7]), (2, [4, 7]), (10, [4, 0, 7]), (10, [4, 1, 7])].all fun (y : Nat × List Nat) =>
        let s := fabricSt y.1 y.2
        s.operand.frame.any fun f => f.conn != s.fabric.devid && s.fabric.owed.isEmpty && !s.srcFrozen 3 (s.reqDie 1 y.1 0x20000) && (s.fabGuard (fabReqOf f) (y.1 != 0)).isNone
          && (match s.fabRead (fabReqOf f) with | (.ok bs, _) => (y.1 != 10) || decide (ofBytes bs = (fabReqOf f).data.getD 1 0) == (y.2 == [4, 0, 7]) | (.error _, _) => false))
      && [outSt 3 0 { a := 4, frame := some { conn := 3, kind := 0, seq := 4, addr := 0, len := 0, owner := 1, data := [] } }, outSt 2 0 { a := 4 }, outSt 3 1000000 { a := 4 },
          outSt 3 999999 { a := 4 }, outSt 3 0 { a := 4, frame := some { conn := 3, kind := 8, seq := 4, addr := 0, len := 0, owner := 1, data := [] } }].all fun s => (s.fabric.out.find? fun r => r.id == s.operand.a).isSome && s.fabric.results.isEmpty && s.fabric.waitingIn.isEmpty)
      = true := by decide +kernel

/-- The package, and cluster 0's part of the power controllers, with an operand. -/
def powerSt (x : Operand) (f : ClusterPower → ClusterPower) (g : Power → Power) : State :=
  let s : State := State.reset.modCluster 0 fun c => { c with power := f c.power }
  { s with operand := x, now := 2000000000, power := g s.power }

/-- The package with squad 7 of task 6, whose hint was written at time 5. -/
def energySt (now : Nat) : State :=
  let z : State := squadSt false fun q => { q with hintAt := some 5 }
  { z with now := now }

/-- Each of a governor's cases at the ends of its ranges; entries in range and out of it; a squad and none; an energy update; samples of a cluster and of a die; a
clamp that is over; an undervolting step up, down and none; a power event with one task on the cluster and with none; a lockout that is over. -/
def powerStates : List (State × (State → Bool)) :=
  [(powerSt { b := 5, w := 0x303C } id id, fun s : State => s.operand.b == (s.cluster 0).power.point),
      (powerSt { w := 0x303C } id id, fun s : State => decide (s.operand.w.toNat / 2 ^ 8 % 2 ^ 6 = 48) && decide (s.operand.w.toNat % 2 ^ 6 = 60)),
      (powerSt { w := 0x313C } id id, fun s => decide (s.operand.w.toNat / 2 ^ 8 % 2 ^ 6 = 49)),
      (powerSt { w := 0x303D } id id, fun s => decide (s.operand.w.toNat % 2 ^ 6 = 61)),
      ({ squadSt false id with operand := { a := 7 } }, fun s => (s.squad 7).isSome && (s.task 6).isSome),
      (powerSt { a := 7 } id id, fun s => (s.squad 7).isNone),
      (powerSt {} id fun p => { p with governAt := 2000000000 }, fun s => decide (s.now < s.power.governAt + 1000000))]
    ++ ([(2601, 0, 5, 7), (2601, 0, 4, 7), (2600, 2469, 16, 6), (2600, 2469, 12, 7), (2600, 2470, 16, 7)].map fun (y : Nat × Nat × Nat × Nat) =>
        (powerSt { a := y.1, b := y.2.1 } id fun p => { p with ration := y.2.2.1, cap := y.2.2.2 }, fun s : State => decide (s.power.governAt + 1000000 ≤ s.now)
          && s.power.ration == y.2.2.1 && s.power.cap == y.2.2.2))
    ++ [(energySt 1000000, fun s : State => (s.task 6).isSome && (s.residences 6 == [0]) && decide (s.power.energyAt < s.now / 1000000)
          && s.squads.any fun q => q.2.hintAt == some 5 && decide (5 + 10000 ≤ s.now)),
      (energySt 999999, fun s : State => (s.task 6).isSome && decide (s.now / 1000000 ≤ s.power.energyAt) && decide ((s.now + 3) % 1000000 < 3)
          && decide (1 ≤ (s.now + 1000000) % 1000000)),
      ({ powerSt {} id id with firmware := { state := .probation } }, fun s => !s.firmware.writes),
      (powerSt { a := 2, w := 0x3200000032 } id id, fun s => s.failedOf [0, 1, 2] == 0),
      (powerSt { a := 0, w := 0x6000000060 } id id, fun s => ({ s with power := { s.power with sensors := aset s.power.sensors 0 (({} : Sensor).sample 0x60 0 false (some 0x60)) } } : State).temperature
        0 0x60 == some 0x60),
      (powerSt { a := 400 } id fun p => { p with halved := [1] }, fun s => s.power.halved.contains ((s.operand.a - 396) / 4)),
      (powerSt { b := 95 } (fun k => { k with hot := [(95, some 1990000000)] }) id, fun s => aget? (s.cluster 0).power.hot 95 == some (some 1990000000)),
      (powerSt {} (fun k => { k with errors := 4, under := 5 }) id, fun s => decide (4 ≤ (s.cluster 0).power.errors)),
      (powerSt {} (fun k => { k with event := true }) id, fun s => (s.cluster 0).power.event && s.squads.isEmpty),
      (let z : State := (squadSt false id).modCluster 0 fun c => { c with power := { c.power with event := true } }; { z with operand := {} }, fun s => (s.cluster s.operand.a).power.event && s.squads.map (fun q => q.2.task) == [6]),
      (powerSt {} (fun k => { k with lockout := some 5 }) id, fun s => (s.cluster 0).power.lockout == some 5)]

theorem test_witness_Power : (powerStates.all fun x => x.2 x.1) = true := by decide +kernel

/-- Cluster 0 at its safe set point, whatever minimum is fused for it, and 505 mV or more; and at no voltage above 504 mV. -/
theorem test_witness_UndervoltRoom :
    (let s := powerSt {} id id
     505 ≤ (s.cluster 0).mv ∧ (s.cluster 0).power.errors < 4 ∧ (s.cluster 0).power.lockout = none)
      ∧ let s := powerSt {} (fun k => { k with under := (State.reset.cluster 0).safeMv }) id
        (s.cluster 0).safeMv = (State.reset.cluster 0).safeMv ∧ (s.cluster 0).mv < 505 ∧ (s.cluster 0).power.errors < 4 ∧ (s.cluster 0).power.lockout = none := by
  have h1 : ((powerSt {} id id).cluster 0).power.points.getD ((powerSt {} id id).cluster 0).power.point (400, 500) = (1200, 700) := by decide +kernel
  have h2 : ((powerSt {} id id).cluster 0).power.under = 0 := by decide +kernel
  have h3 (n : Nat) : ((powerSt {} (fun k => { k with under := n }) id).cluster 0).safeMv = (State.reset.cluster 0).safeMv := rfl
  have h4 (n : Nat) : ((powerSt {} (fun k => { k with under := n }) id).cluster 0).power.under = n := rfl
  refine ⟨⟨?_, by decide +kernel, by decide +kernel⟩, h3 _, ?_, (by decide : 0 < 4), rfl⟩
  · rw [Cluster.mv, Cluster.safeMv, h1, h2]
    exact Nat.le_trans (by decide) (Nat.le_max_left 700 _)
  · rw [Cluster.mv, h3, h4]
    omega

/-! ## Decoding, stepping and frames -/

/-- A word as `withFetchWord` places it, and its encoding, for the statements about decoding, retiring and frames. -/
theorem test_witness_Encoding : (Instr.iadd ⟨0, 4, 3, 1, 2, 0, 0, 0⟩).wf = true ∧ decodeWord addiWord = .ok (.iaddi ⟨0, 4, 3, 1, 0⟩) := by decide +kernel

/-- The package with a lane word next, and the team changed. -/
def nextLane (f : Team → Team) : State := (State.reset.withFetchWord 64 addiWord.toNat).modTeam 1 0 f

/-- The package with a ganged pair next, the odd team with a word of its own and the even one with its turn flag. -/
def nextPair (w : DWord) (odd : Bool) : State :=
  (nextLane fun tm => { tm with legacy := true, oddNext := odd }).modSquad 1 fun q =>
    { q with teams := q.teams ++ q.teams.map fun tm => { tm with buffer := tm.buffer.map fun b => { b with word := w } } }

/-- Core 0 of cluster 0 may start a word: no header waits and no word is under way, and teams of the first core may issue, `pickTeam` one of them; a condition on
the teams that share its slot. -/
def freshSlot (s : State) (p : List Team → Bool) : Bool :=
  let cs := (s.teamsOn 0 0).filter fun x => x.2.2.2.couldIssue && x.2.2.2.dueOn 0 && decide (x.2.2.2.nextIssue ≤ (s.cluster 0).cycle)
  s.up && !s.fatal && (s.schedule == [.lane 0 0] || s.schedule == [.lanePart 0 0 3]) && (((s.cluster 0).cores[0]?).map (·.busyUntil)).getD 0 == 0
    && (s.teamsOn 0 0).all (fun x => x.2.2.2.clause.isSome && x.2.2.2.started.isNone && x.2.2.2.couldIssue
      && x.2.2.2.buffer.head?.any fun b => decide (decodeLane b.word = .ok (.iaddi ⟨0, 4, 3, 1, 0⟩) ∨ decodeLane b.word = .ok (.isub ⟨0, 4, 3, 1, 2, 0, 0, 0⟩)))
    && (pickTeam 0 cs).any fun x => x.1 == 1 && p ((cs.filter fun y => gang y == gang x).map (·.2.2.2))

/-- A pair that shares the slot, when `same`, with the even team's turn flag. -/
def pairIs (same odd : Bool) (l : List Team) : Bool :=
  match l with
  | [a, b] => sameSlot a b == same && a.oddNext == odd
  | _ => false

/-- A lane core whose team has started its word; one whose one team may issue, all at once, in part, and on one core of its pair; ganged pairs whose words share the slot and differ, each team's turn; a generator
core with one runnable context mid-clause; and a device step next. -/
theorem test_witness_Step :
    (let s := nextLane fun tm => { tm with started := some 0 }
     s.up && !s.fatal && s.schedule == [.lane 0 0] && (s.teamsOn 0 0).all fun x => x.2.2.2.couldIssue && x.2.2.2.clause.isSome && x.2.2.2.started.isSome) = true
    ∧ freshSlot (nextLane id) (fun l => l.length == 1 && l.all (!·.halves)) = true
    ∧ freshSlot { nextLane id with schedule := [.lanePart 0 0 3] } (fun l => l.length == 1 && l.all (!·.halves)) = true
    ∧ freshSlot (nextLane fun tm => { tm with pair := true, lanes := 1024, masks := tm.masks.set 0 (-1) }) (fun l => l.length == 1 && l.all (·.halves)) = true
    ∧ freshSlot (nextPair addiWord false) (pairIs true false) = true
    ∧ ([false, true].all fun o => freshSlot (nextPair ((encode (.isub ⟨0, 4, 3, 1, 2, 0, 0, 0⟩)).getD 0) o) (pairIs false o)) = true
    ∧ (let s := State.reset.withFetchWord 64 0xB700202000000004
       s.up && !s.fatal && s.schedule == [.gen 0] && ((s.ctxsOn 0).filter fun x => s.trapDue x.1 x.2.1 || (!x.2.2.2.stopped && x.2.2.2.flagsIdle x.2.2.1.native)).length == 1
        && !s.trapDue 1 0 && ctxIs s fun sq cx => cx.clause.isSome && match (s.modCluster 0 fun k => { k with cycle := max k.cycle cx.nextIssue, rr := 16 }).fetchPc 1 0 sq cx with
          | .ok (w, _) => decide (decodeGen w = .ok (.saddi ⟨0, 0, 32, 32, 4⟩))
          | .error _ => false) = true
    ∧ isWord .powerOn = false := by decide +kernel

/-- The two first words placed after reset run as the next step. -/
theorem test_step_iaddi : (match step (State.reset.withFetchWord 64 ((encode (.iaddi ⟨0, 4, 3, 1, 9⟩)).getD 0).toNat) with
    | .next s => (s.team 1 0).map fun tm => (tm.V 0 3, tm.V 15 3, tm.pos)
    | _ => none) = some (9, 9, 1) := by decide +kernel

theorem test_step_saddi : (match step (State.reset.withFetchWord 64 0xB700202000000004) with
    | .next s => (s.ctx 1 0).map fun cx => (cx.S 32, cx.pc)
    | _ => none) = some (4, BitVec.ofNat 64 (codeAddr + 8)) := by decide +kernel

/-- A state that lists memory in its canonical form and steps on. -/
theorem test_witness_CanonicalMemory : Memory.wf State.reset.mem = true ∧ (match step (nextLane id) with | .next s => Memory.wf s.mem | _ => false) = true := by
  decide +kernel

/-- A retired word's team, and a word of each shape that the frame names. -/
theorem test_witness_Frames :
    (∀ x ∈ laneAt [.iadd ⟨0, 4, 3, 1, 2, 0, 0, 0⟩, .imadw ⟨0, 4, 4, 1, 2, 6, 0, 0⟩, .iaddi ⟨0, 4, 3, 1, 0⟩], LaneWitness x.1 x.2.1 x.2.2)
      ∧ (match exec (.iaddi ⟨0, 4, 3, 1, 9⟩) (laneSt (.iaddi ⟨0, 4, 3, 1, 9⟩)) with
        | .next s => (s.team 1 0).any fun tm => tm.buffer.isEmpty && tm.V 5 3 == 9
        | _ => false) = true := ⟨laneWitness (by decide +kernel), by decide +kernel⟩

end Sys2Proof.Tests
end

section
/-! PROOFS. The words of 03_lane_numbers.md: integer division (R62), rounded results of lane words (R67, R73), and the float words of the
generator (R217, R218). -/

namespace Sys2Proof.Machine.LaneNumbers

/-! ## Division (R62) -/

/-- Dividing by zero gives all ones, and the dividend as the remainder. -/
theorem divOf_zero {t : NumTy} {b : Nat} (a : Nat) (hb : t.toInt b = 0) : idivOf t a b = 2 ^ t.width - 1 ∧ iremOf t a b = a := by
  simp [idivOf, iremOf, hb]

/-- Dividing by anything else gives the truncated quotient and its remainder, reduced to the type's width. -/
theorem divOf_nonzero {t : NumTy} {b : Nat} (a : Nat) (hb : t.toInt b ≠ 0) :
    idivOf t a b = wrapN ((t.toInt a).tdiv (t.toInt b)) t.width ∧ iremOf t a b = wrapN ((t.toInt a).tmod (t.toInt b)) t.width := by
  simp [idivOf, iremOf, hb]

/-- The remainder of a truncating division is smaller in magnitude than the divisor. -/
theorem abs_tmod_lt (x : Int) {y : Int} (hy : y ≠ 0) : |x.tmod y| < |y| := by
  rw [Int.abs_eq_natAbs, Int.abs_eq_natAbs, Int.natAbs_tmod]
  exact_mod_cast Nat.mod_lt _ (Int.natAbs_pos.2 hy)

/-- The remainder of a truncating division does not have the sign opposite to the dividend's. -/
theorem tmod_mul_self_nonneg (x y : Int) : 0 ≤ x.tmod y * x := by
  rcases le_total 0 x with hx | hx
  · exact mul_nonneg (Int.tmod_nonneg y hx) hx
  · have hneg : 0 ≤ -(x.tmod y) := Int.neg_tmod x y ▸ Int.tmod_nonneg y (neg_nonneg.2 hx)
    exact mul_nonneg_of_nonpos_of_nonpos (neg_nonneg.1 hneg) hx

/-- R62 for a divisor that is not zero: the quotient rounded toward zero, and the remainder with the sign of the dividend. -/
theorem divOf_rounds_toward_zero {t : NumTy} {b : Nat} (a : Nat) (hb : t.toInt b ≠ 0) :
    ∃ k r : Int, t.toInt a = k * t.toInt b + r ∧ |r| < |t.toInt b| ∧ 0 ≤ r * t.toInt a
      ∧ idivOf t a b = wrapN k t.width ∧ iremOf t a b = wrapN r t.width :=
  ⟨(t.toInt a).tdiv (t.toInt b), (t.toInt a).tmod (t.toInt b), (Int.tdiv_mul_add_tmod ..).symm, abs_tmod_lt _ hb,
    tmod_mul_self_nonneg .., divOf_nonzero a hb⟩

/-- A ready generator word with the result `f` of its type of a and b: D extended from its width and, under .CC, Z and N set and C and V cleared. -/
theorem genRun_int2Z {s : State} {q c : Nat} {sq : Squad} {cx : Ctx} {i : Instr} {w : GR} {f : NumTy → Nat → Nat → Nat}
    (h : GenReady s q c sq cx i w.cnd) :
    let x := genIn s q c sq cx
    let r := f (grTy w) (x.a w) (x.b w)
    let d := cx.setS w.d.toNat (extRes (szWidth w.sz.toNat) (unsignedGR w) r)
    genRun i w.cnd (fun x => x.int2Z w f) s
      = .next (s.genEnd q c sq cx i (if w.fn.getLsbD 2 then { d with cc := ccOf (szWidth w.sz.toNat) r false false } else d)) :=
  genRun_finish h rfl

/-- Settles O2: the numbers by truncating division, the words by the step lemmas of a lane word and of a generator word that finishes. -/
theorem divisionRoundsTowardZero : Obligations.DivisionRoundsTowardZero := by
  refine ⟨fun t a b => ⟨divOf_zero a, divOf_rounds_toward_zero a⟩, ?lane, ?gen⟩
  case lane =>
    intro s q t sq tm w
    exact ⟨fun h => laneRun_finish h rfl, fun h => laneRun_finish h rfl⟩
  case gen =>
    intro s q c sq cx w
    exact ⟨genRun_int2Z, genRun_int2Z⟩

/-! ## Rounded results of lane words (R67, R73, R95) -/

section rounded

variable {x : LaneIn} {k : NumTy} {d : Nat} {r : Nat → Rounded}

/-- Without an overflow under OVF 11 a rounded word finishes, with D and the flags of its lanes written. -/
theorem rounded_finish (hr : ∀ l ∈ x.tm.lanesOf x.m, (r l).trap = false) :
    x.rounded k d r = x.finish ((x.tm.setTy k d x.m fun l => (r l).code).orFlags ((x.tm.lanesOf x.m).foldl (fun f l => f ||| (r l).flags) 0)) := by
  have hnone : ((x.tm.lanesOf x.m).filter fun l => (r l).trap) = [] := List.filter_eq_nil_iff.2 fun l hl => by simp [hr l hl]
  simp [LaneIn.rounded, hnone]

/-- An overflow under OVF 11 in any lane parks a rounded word with nothing written. -/
theorem rounded_trap (hr : ∃ l ∈ x.tm.lanesOf x.m, (r l).trap = true) : ∃ info, x.rounded k d r = x.trap .fpOverflow info := by
  obtain ⟨l, hl, ht⟩ := hr
  have hsome : ((x.tm.lanesOf x.m).filter fun l => (r l).trap) ≠ [] := List.ne_nil_of_mem (List.mem_filter.2 ⟨hl, ht⟩)
  exact ⟨ovfInfo ((x.tm.lanesOf x.m).filter fun l => (r l).trap), by simp only [LaneIn.rounded, List.isEmpty_iff, hsome, if_false]⟩

end rounded

/-- A ready lane word whose meaning is the rounded result `r` of each lane: it retires with D and FFLAGS written when no lane overflows under
OVF 11, and parks its team with FP_OVERFLOW and all of M unfinished otherwise. -/
theorem exec_rounded {s : State} {q t : Nat} {sq : Squad} {tm : Team} {i : Instr} {ms : BitVec 3} {body : LaneIn → LaneRes}
    {k : NumTy} {d : Nat} {r : Nat → Rounded} (hi : exec i s = laneRun i ms body s)
    (hb : body (laneIn s q t sq tm ms) = (laneIn s q t sq tm ms).rounded k d r) (h : LaneReady s q t sq tm i ms) :
    ((∀ l ∈ tm.lanesOf (tm.acting ms), (r l).trap = false) →
      exec i s = .next (s.laneEnd q t sq tm i ms
        ((tm.setTy k d (tm.acting ms) fun l => (r l).code).orFlags ((tm.lanesOf (tm.acting ms)).foldl (fun f l => f ||| (r l).flags) 0))))
    ∧ ((∃ l ∈ tm.lanesOf (tm.acting ms), (r l).trap = true) →
      ∃ info, exec i s = .next (s.laneStop q t sq tm i ms .fpOverflow info (tm.acting ms))) := by
  constructor
  · intro hr
    rw [hi]
    exact laneRun_finish h (hb.trans (rounded_finish hr))
  · intro hr
    obtain ⟨info, hx⟩ := rounded_trap (x := laneIn s q t sq tm ms) (k := k) (d := d) hr
    exact ⟨info, hi.trans (laneRun_park h (hb.trans hx))⟩

/-- Settles O5: every word named there has the rounded result of each lane as its meaning, so `exec_rounded` says how it ends. -/
theorem roundedWordsWriteOrTrap : Obligations.RoundedWordsWriteOrTrap := by
  intro s q t sq tm
  refine ⟨fun w => ⟨?fadd, ?fsub, ?fmul, ?ffma, ?fdiv, ?fsqrt, ?fmin, ?fmax, ?frcp, ?frsq, ?fexp2, ?flog2, ?ftanh, ?fsin, ?cvtf, ?cvtif, ?cvtfi,
    ?scaleb, ?unpack⟩, fun w => ⟨?faddi, ?fmuli⟩⟩
  case unpack =>
    intro i hi
    simp only [List.mem_cons, List.not_mem_nil, or_false] at hi
    rcases hi with rfl | rfl
    · exact exec_rounded rfl rfl
    · exact exec_rounded rfl rfl
  all_goals exact exec_rounded rfl rfl

/-! ## Float words of the generator (R217, R218) -/

/-- A field as quotient and remainder. -/
theorem fieldN_eq_div_mod (v lo n : Nat) : fieldN v lo n = v / 2 ^ lo % 2 ^ n := by rw [fieldN, Nat.shiftRight_eq_div_pow]

/-- OVF of a float word is FN[3:2]. -/
theorem grOvf_eq (w : GR) : grOvf w = Ovf.ofCode (w.fn.toNat / 4 % 4) := congrArg Ovf.ofCode (fieldN_eq_div_mod ..)

/-- The source code of an SFCVT is FN[7:4]. -/
theorem fieldN_fn_high (w : GR) : fieldN w.fn.toNat 4 4 = w.fn.toNat / 16 := by
  have := w.fn.isLt
  rw [fieldN_eq_div_mod]; omega

/-- A comparison's condition codes, bit by bit. -/
theorem ccCmp_eq (x y : XVal) :
    ccCmp x y = if x.isNan || y.isNan then { n := false, z := false, c := true, v := true }
      else { n := x.cmp y == .lt, z := x.cmp y == .eq, c := x.cmp y != .lt, v := false } := by
  unfold ccCmp
  cases x.cmp y <;> rfl

/-- A ready float word: it writes D and CC with its rounded result, or traps with neither written when that overflows under OVF 11. -/
theorem exec_flt {s : State} {q c : Nat} {sq : Squad} {cx : Ctx} {i : Instr} {cnd : BitVec 4} {body : GenIn → GenRes} {w : GR} {t : NumTy}
    {r : Rounded} (hi : exec i s = genRun i cnd body s) (hb : body (genIn s q c sq cx) = (genIn s q c sq cx).flt w t r) (hg : cx.gap i = 0)
    (h : GenReady s q c sq cx i cnd) :
    (r.trap = false → exec i s = .next (s.genEnd q c sq cx i { cx.setS w.d.toNat (BitVec.ofNat 64 r.code) with cc := ccFloat t r }))
    ∧ (r.trap = true → exec i s = .next (s.ctxTrap q c .fpOverflow [])) := by
  constructor
  · intro hr
    exact hi.trans (genRun_finish h (by simp [hb, GenIn.flt, hr]))
  · intro hr
    have htrap := genRun_trap (body := body) (cause := .fpOverflow) (info := []) (s' := s) h (by simp [hb, GenIn.flt, hr])
    rw [hi, htrap, hg]

/-- What an SFCVT converts: the integer or the float that its source code names. -/
def cvtValue (x : GenIn) (w : GR) : XVal :=
  let src := w.fn.toNat / 16
  let t := szTy src (w.imm.getLsbD 0)
  if src < 8 then XVal.ofInt (t.toInt ((x.rd.S w.a.toNat).toNat % 2 ^ t.width)) else x.fval src w.a.toNat

/-- An SFCVT to a float type is a float word with the converted value. -/
theorem exec_sfcvt_float {w : GR} (s : State) (hz : 8 ≤ w.sz.toNat) :
    exec (.sfcvt w) s = genRun (.sfcvt w) w.cnd (fun x =>
      let t := szFloat w.sz.toNat
      x.flt w t (roundX t (grRnd w) (grOvf w) (cvtValue x w, fIf (cvtValue x w).isSnan fIV))) s := by
  change execSfcvt w s = _
  simp only [execSfcvt, fieldN_fn_high, Nat.not_lt.2 hz, if_false, cvtValue]

/-- An SFCVT to an integer type finishes with D extended from its width. -/
theorem exec_sfcvt_int {w : GR} (s : State) (hz : w.sz.toNat < 8) :
    exec (.sfcvt w) s = genRun (.sfcvt w) w.cnd (fun x =>
      let t := szTy w.sz.toNat (w.imm.getLsbD 0)
      let r := toIntTy t (cvtValue x w) (grRnd w)
      x.finish { x.cx.setS w.d.toNat (extRes t.width (w.imm.getLsbD 0) r.code) with cc := ccInt t r }) s := by
  change execSfcvt w s = _
  simp only [execSfcvt, fieldN_fn_high, hz, if_true, cvtValue]

/-- An SCMP of two float registers finishes with the condition codes of their comparison. -/
theorem exec_scmp_float {w : GR} (s : State) (hz : 8 ≤ w.sz.toNat) (hf : w.fn.getLsbD 0 = false) :
    exec (.scmp w) s = genRun (.scmp w) w.cnd (fun x =>
      x.finish { x.cx with cc := ccCmp (x.fval w.sz.toNat w.a.toNat) (x.fval w.sz.toNat w.b.toNat) }) s := by
  change execScmp w s = _
  simp only [execScmp, hz, if_true, hf, Bool.false_eq_true, if_false, GenIn.fval]

/-- Settles O26: the float results by `exec_flt`, the integer conversion and the comparison by the step lemma of a word that finishes. -/
theorem scalarFloatWordsWriteResultAndFlags : Obligations.ScalarFloatWordsWriteResultAndFlags := by
  intro s q c sq cx w ty t rnd ovf v a b gives src u from_ order
  have hovf : ovf = grOvf w := (grOvf_eq w).symm
  refine ⟨?sfadd, ?sfmul, ?sffma, ?sfcvtFloat, ?sfcvtInt, ?scmp⟩
  case sfadd => rw [hovf]; exact exec_flt (Eq.refl (execSfadd w s)) rfl rfl
  case sfmul => rw [hovf]; exact exec_flt (Eq.refl (execSfmul w s)) rfl rfl
  case sffma => rw [hovf]; exact exec_flt (Eq.refl (execSffma w s)) rfl rfl
  case sfcvtFloat =>
    intro hz
    rw [hovf]
    exact exec_flt (exec_sfcvt_float s hz) rfl rfl
  case sfcvtInt =>
    intro hz h
    exact (exec_sfcvt_int s hz).trans (genRun_finish h rfl)
  case scmp =>
    intro hz hf h
    have horder : order a b = ccCmp a b := (ccCmp_eq a b).symm
    rw [horder]
    exact (exec_scmp_float s hz hf).trans (genRun_finish h rfl)

end Sys2Proof.Machine.LaneNumbers
end

section
/-! PROOFS. The words of the mask stack (04_team_state.md R85, R86; 05_lane_alu.md R119, R120), and how a team parks with its record and
restarts from it (04_team_state.md R89, R90). -/

namespace Sys2Proof.Machine.TeamState

/-! ## Words of the mask stack (R85, R86, R119, R120) -/

/-- A ready lane word that traps having performed nothing parks its team with all of M unfinished. -/
theorem laneRun_trap {s : State} {q t : Nat} {sq : Squad} {tm : Team} {i : Instr} {ms : BitVec 3} {body : LaneIn → LaneRes} {c : Cause}
    {info : List DWord} (h : LaneReady s q t sq tm i ms) (hb : body (laneIn s q t sq tm ms) = (laneIn s q t sq tm ms).trap c info) :
    laneRun i ms body s = .next (s.laneStop q t sq tm i ms c info (tm.acting ms)) :=
  laneRun_park h hb

/-- A ready lane word whose meaning writes the mask register k for the lanes of M: the team changes in its masks alone, of these in k alone, and of
k in the bits of the lanes of M alone (R97). -/
theorem exec_maskOut {s : State} {q t : Nat} {sq : Squad} {tm : Team} {i : Instr} {ms : BitVec 3} {body : LaneIn → LaneRes} {k : Nat}
    {f : Nat → Bool} (hi : exec i s = laneRun i ms body s)
    (hb : body (laneIn s q t sq tm ms) = (laneIn s q t sq tm ms).maskOut k f) (h : LaneReady s q t sq tm i ms) (hn : tm.lanes ≤ 1024) :
    ∃ new, exec i s = .next (s.laneEnd q t sq tm i ms new) ∧ new = { tm with masks := new.masks }
      ∧ (∀ j, j ≠ k → new.m j = tm.m j)
      ∧ (k < tm.masks.length → ∀ l, l < tm.lanes →
          (new.m k).getLsbD l = if (tm.acting ms).getLsbD l then f l else (tm.m k).getLsbD l) := by
  refine ⟨_, hi.trans (laneRun_finish h hb), rfl, fun j hj => ?_, fun hk l hl => ?_⟩
  · simp [Team.m_setM, hj]
  · exact maskOut_bit (laneIn s q t sq tm ms) k l f hk hl hn

/-- Settles O8: each word's meaning is a finished team or a trap, by the depth of the stack, and MFIRST writes one mask register. -/
theorem maskStackWordsPushFlipAndPop : Obligations.MaskStackWordsPushFlipAndPop := by
  intro s q t sq tm w m gives parks
  refine ⟨fun h => ⟨fun hroom => ?menter, fun hfull => ?menterFull⟩, fun h => ⟨fun top f rest hs => ?mflip, fun hs => ?mflipEmpty⟩,
    fun h => ⟨fun top f rest hs => ?mleave, fun hs => ?mleaveEmpty⟩, fun h hn => ?mfirst, fun h => ?mtov⟩
  case menter => exact laneRun_finish h (if_neg (Nat.not_le.2 hroom))
  case menterFull => exact laneRun_trap h (if_pos hfull)
  case mflip => exact laneRun_finish h (by simp [hs])
  case mflipEmpty => exact laneRun_trap h (by simp [hs])
  case mleave => exact laneRun_finish h (by simp [hs])
  case mleaveEmpty => exact laneRun_trap h (by simp [hs])
  case mfirst =>
    obtain ⟨new, hexec, hframe, hother, hbits⟩ := exec_maskOut (i := .mfirst w) rfl rfl h hn
    refine ⟨new, hexec, hframe, hother, fun hd l hl => (hbits hd l hl).trans ?_⟩
    cases hm : (tm.acting w.ms).getLsbD l <;> simp [hm, m]
  case mtov => exact laneRun_finish h rfl

/-! ## What a change of one team leaves as it is -/

/-- A squad after a change of one squad. -/
theorem squad_modSquad (s : State) (q j : Nat) (f : Squad → Squad) :
    (s.modSquad q f).squad j = if j = q then (s.squad q).map f else s.squad j := by
  cases hs : s.squad q with
  | none => by_cases hj : j = q <;> simp_all [State.modSquad]
  | some x =>
    have hmod : s.modSquad q f = s.setSquad q (f x) := by simp [State.modSquad, hs]
    rw [hmod]
    by_cases hj : j = q
    · subst hj; simp [State.setSquad, State.squad]
    · simp [hj, State.setSquad, State.squad, aget?_aset_ne]

/-- A squad after a change of one team. -/
theorem squad_modTeam (s : State) (q t j : Nat) (f : Team → Team) :
    (s.modTeam q t f).squad j = if j = q then (s.squad q).map fun x => { x with teams := x.teams.modify t f } else s.squad j :=
  squad_modSquad ..

/-- A change of one team puts no squad where there is none. -/
theorem squad_modTeam_none {s : State} {q t j : Nat} {f : Team → Team} (h : s.squad j = none) : (s.modTeam q t f).squad j = none := by
  rw [squad_modTeam]
  by_cases hj : j = q
  · subst hj; simp [h]
  · simp [hj, h]

/-- A change of one team keeps every squad in all but its teams. -/
theorem squad_modTeam_some {s : State} {q t j : Nat} {f : Team → Team} {x : Squad} (h : s.squad j = some x) :
    ∃ ts, (s.modTeam q t f).squad j = some { x with teams := ts } := by
  rw [squad_modTeam]
  by_cases hj : j = q
  · subst hj; exact ⟨x.teams.modify t f, by simp [h]⟩
  · exact ⟨x.teams, by simp [hj, h]⟩

@[simp] theorem ctx_modTeam (s : State) (q t j c : Nat) (f : Team → Team) : (s.modTeam q t f).ctx j c = s.ctx j c := by
  unfold State.ctx
  cases h : s.squad j with
  | none => rw [squad_modTeam_none h]
  | some x =>
    obtain ⟨ts, hx⟩ := squad_modTeam_some (q := q) (t := t) (f := f) h
    rw [hx]

@[simp] theorem cycleOf_modTeam (s : State) (q t j : Nat) (f : Team → Team) : (s.modTeam q t f).cycleOf j = s.cycleOf j := by
  unfold State.cycleOf
  cases h : s.squad j with
  | none => rw [squad_modTeam_none h]
  | some x =>
    obtain ⟨ts, hx⟩ := squad_modTeam_some (q := q) (t := t) (f := f) h
    simp [hx]

@[simp] theorem held_modTeam (s : State) (q t : Nat) (f : Team → Team) (d : Pending) : (s.modTeam q t f).held d = s.held d := by
  simp [State.held]

@[simp] theorem lostTask_modTeam (s : State) (q t j : Nat) (f : Team → Team) (d : Pending) :
    (s.modTeam q t f).lostTask j d = s.lostTask j d := by
  simp [State.lostTask]

/-- Changing a team is writing the team that the change makes of it. -/
theorem modTeam_eq_const {s : State} {q t : Nat} {tm : Team} {f : Team → Team} (h : s.team q t = some tm) :
    s.modTeam q t f = s.modTeam q t fun _ => f tm := by
  unfold State.team at h
  cases hs : s.squad q with
  | none => simp [State.modTeam, State.modSquad, hs]
  | some x =>
    simp only [hs] at h
    have hteams : x.teams.modify t f = x.teams.modify t fun _ => f tm := by
      apply List.ext_getElem?
      intro k
      by_cases hk : t = k
      · subst hk; simp [h]
      · simp [hk]
    simp [State.modTeam, State.modSquad, hs, hteams]

/-! ## How a trap pends (R221, R284, R286, R386) -/

section pend

variable {s : State} {q c : Nat} {d : Pending}

/-- The trap of a context that runs, or of a speculative task, takes its place in the context's line. -/
theorem pend_waits {cx : Ctx} (hc : s.ctx q c = some cx) (h : cx.exited = false ∨ s.held d = true) :
    s.pend q c d = s.modCtx q c fun y => { y with pending := pendInsert { d with cycle := s.cycleOf q } y.pending } := by
  obtain ⟨sq, hs⟩ : ∃ sq, s.squad q = some sq := by
    cases hs : s.squad q with
    | none => simp [State.ctx, hs] at hc
    | some sq => exact ⟨sq, rfl⟩
  have hlive : (cx.exited && !s.held d) = false := by rcases h with h | h <;> simp [h]
  simp [State.pend, hs, hc, hlive]

/-- The trap of an exited context kills its task, unless it is held. -/
theorem pend_exited {sq : Squad} {cx : Ctx} (hs : s.squad q = some sq) (hc : s.ctx q c = some cx) (he : cx.exited = true)
    (hh : s.held d = false) : s.pend q c d = s.trapKill sq.task d.cause d.causeBits d.info := by
  simp [State.pend, hs, hc, he, hh]

/-- The trap of a context whose squad is gone kills the task that had it, or else the agent's own, unless it is held. -/
theorem pend_lost (hs : s.squad q = none) (hh : s.held d = false) :
    s.pend q c d = s.trapKill (s.lostTask q d) d.cause d.causeBits d.info := by
  simp [State.pend, hs, hh]

end pend

/-! ## Parking (R89, R174) -/

/-- The parking record of a team that stops with lanes `m` unfinished. -/
def parkOf (tm : Team) (cause : Cause) (info : List DWord) (m : Mask) (header : Bool) : Park :=
  { cause := cause, pos := tm.pos, mask := m, origin := (tm.buffer.head?.map (·.origin)).getD .direct, info := info, header := header }

/-- A team as it stands once it has parked with a record. -/
def parked (tm : Team) (p : Park) : Team :=
  { tm with
    park := some p, fflags := tm.fflags ||| tm.owedFlags, owedFlags := 0, lostTiles := [], awaits := [], inUnit := false
    latch := none, wait := none, todo := none, started := none, half := none, starved := false, faulted := [] }

/-- The trap of a parked team, owned team n of the context it pends at. -/
def trapOf (tm : Team) (task n : Nat) (p : Park) : Pending :=
  { kind := .team n, cause := p.cause, causeBits := teamCauseBits p.cause n p.origin, pc := tm.pos.setWidth 64, info := p.info, task := task }

section park

variable {s : State} {q t : Nat} {sq : Squad} {tm : Team} {cause : Cause} {info : List DWord} {m : Mask} {header : Bool} {rec_ : List Byte}

/-- A stop on another cause than a page fault parks the team with its record, and its trap pends at the owning context, if it has one. -/
theorem park_eq (hs : s.squad q = some sq) (ht : sq.teams[t]? = some tm) (hc : cause ≠ .pageFault) :
    let p := parkOf tm cause info m header
    let y := s.modTeam q t fun _ => parked tm p
    s.park q t cause info m header rec_ = match tm.owner with
      | some (oq, oc) => y.pend oq oc (trapOf tm sq.task (y.ownedNumber oq oc q t) p)
      | none => y := by
  intro p y
  have htm : s.team q t = some tm := by simp [State.team, hs, ht]
  simp only [State.park, hs, htm, hc, false_and, if_false, modTeam_eq_const htm]
  rfl

end park

/-! ## Restarting (R90, R147, R291) -/

/-- The rest behind a stretch begins behind the stretch's last word. -/
theorem dropStretch_append {pre post : List BufWord} {k : BufWord} (hpre : ∀ y ∈ pre, y.last = false) (hk : k.last = true) :
    dropStretch (pre ++ k :: post) = post := by
  induction pre with
  | nil => simp [dropStretch, hk]
  | cons y ys ih =>
    obtain ⟨hy, hys⟩ := List.forall_mem_cons.1 hpre
    simp [dropStretch, hy, ih hys]

section resume

variable {tm : Team} {p : Park} {skip : Bool}

/-- A team that restarts at a word has the lanes of its record to do. -/
theorem resume_word (hp : tm.park = some p) (hgo : (skip || p.emptied) = false) (hh : p.header = false) :
    tm.resume skip = { tm with park := none, wait := none, todo := some p.mask } := by
  simp [Team.resume, hp, hgo, hh]

/-- A team that restarts at a header decodes it again. -/
theorem resume_header (hp : tm.park = some p) (hgo : (skip || p.emptied) = false) (hh : p.header = true) :
    tm.resume skip = { tm with park := none, wait := none, clause := none, todo := none } := by
  simp [Team.resume, hp, hgo, hh]

/-- A team that leaves its word behind retires it, with SSTEP cleared at a matrix multiply (R176). -/
theorem resume_past_word (hp : tm.park = some p) (hleave : (skip || p.emptied) = true) (hh : p.header = false) :
    ∃ sstep, tm.resume skip = { tm with park := none, wait := none, sstep := sstep }.pop := by
  simp only [Team.resume, hp, hleave, hh, if_true, Bool.false_eq_true, if_false]
  split
  · exact ⟨0, rfl⟩
  · exact ⟨tm.sstep, rfl⟩

/-- A team that leaves a malformed header behind leaves the rest of its stretch. -/
theorem resume_past_header (hp : tm.park = some p) (hleave : (skip || p.emptied) = true) (hh : p.header = true) :
    ∃ sstep pos, tm.resume skip =
      { tm with park := none, wait := none, sstep := sstep, buffer := dropStretch tm.buffer, pos := pos, clause := none, todo := none } := by
  simp only [Team.resume, hp, hleave, hh, if_true]
  split
  · exact ⟨0, _, rfl⟩
  · exact ⟨tm.sstep, _, rfl⟩

/-- However a team restarts, it is parked and waits no longer, and its registers and masks are as they were. -/
theorem resume_keeps_registers (hp : tm.park = some p) :
    (tm.resume skip).park = none ∧ (tm.resume skip).wait = none ∧ (tm.resume skip).v = tm.v ∧ (tm.resume skip).masks = tm.masks := by
  cases hgo : skip || p.emptied <;> cases hh : p.header
  case false.false => rw [resume_word hp hgo hh]; exact ⟨rfl, rfl, rfl, rfl⟩
  case false.true => rw [resume_header hp hgo hh]; exact ⟨rfl, rfl, rfl, rfl⟩
  case true.false =>
    obtain ⟨sstep, hr⟩ := resume_past_word hp hgo hh
    rw [hr]; exact ⟨rfl, rfl, rfl, rfl⟩
  case true.true =>
    obtain ⟨sstep, pos, hr⟩ := resume_past_header hp hgo hh
    rw [hr]; exact ⟨rfl, rfl, rfl, rfl⟩

end resume

/-- Settles O39: the parked team and its trap by `park_eq` and the three ends of `State.pend`, the restart by the four ends of
`Team.resume`. -/
theorem parkingAndRestartingFollowTheRecord : Obligations.ParkingAndRestartingFollowTheRecord := by
  refine ⟨?parking, ?restarting⟩
  case parking =>
    intro s q t sq tm cause info m header rec_ hs ht hc z held
    let p := parkOf tm cause info m header
    let y := s.modTeam q t fun _ => parked tm p
    have hz : z = match tm.owner with
      | some (oq, oc) => y.pend oq oc (trapOf tm sq.task (y.ownedNumber oq oc q t) p)
      | none => y := park_eq hs ht hc
    refine ⟨p, y, rfl, rfl, rfl, rfl, rfl, rfl, rfl, fun ho => by rw [hz, ho], fun o ho => ?_⟩
    let d := trapOf tm sq.task (y.ownedNumber o.1 o.2 q t) p
    have hd : z = y.pend o.1 o.2 d := by rw [hz, ho]
    have hheld : y.held d = held := held_modTeam ..
    refine ⟨{ d with cycle := s.cycleOf o.1 }, ⟨_, rfl⟩, rfl, rfl, rfl, rfl, rfl, fun cx hcx hlive => ?pends, fun osq cx hosq hcx he hh => ?exited,
      fun hgone hh => ?lost⟩
    case pends =>
      rw [hd, pend_waits ((ctx_modTeam ..).trans hcx) (hheld ▸ hlive), cycleOf_modTeam]
    case exited =>
      obtain ⟨ts, hts⟩ := squad_modTeam_some (q := q) (t := t) (f := fun _ => parked tm p) hosq
      have hkill := pend_exited (d := d) hts ((ctx_modTeam ..).trans hcx) he (hheld.trans hh)
      exact hd.trans hkill
    case lost =>
      rw [hd, pend_lost (squad_modTeam_none hgone) (hheld.trans hh), lostTask_modTeam]
      rfl
  case restarting =>
    intro tm p b rest skip hp hb r
    obtain ⟨hpark, hwait, hv, hmasks⟩ := resume_keeps_registers (skip := skip) hp
    refine ⟨hpark, hwait, hv, hmasks, fun hs he hh => ?word, fun hs he hh => ?header, fun hleave hh => ?pastWord, fun hleave hh => ?pastHeader⟩
    case word =>
      have hr : r = _ := resume_word hp (Bool.or_eq_false_iff.2 ⟨hs, he⟩) hh
      rw [hr]; exact ⟨rfl, rfl, rfl⟩
    case header =>
      have hr : r = _ := resume_header hp (Bool.or_eq_false_iff.2 ⟨hs, he⟩) hh
      rw [hr]; exact ⟨rfl, rfl⟩
    case pastWord =>
      obtain ⟨sstep, hr⟩ := resume_past_word hp (Bool.or_eq_true_iff.2 hleave) hh
      have hbuffer : r.buffer = tm.buffer.drop 1 := congrArg Team.buffer hr
      exact ⟨congrArg Team.todo hr, by simp [hbuffer, hb], congrArg Team.pos hr⟩
    case pastHeader =>
      obtain ⟨sstep, pos, hr⟩ := resume_past_header hp (Bool.or_eq_true_iff.2 hleave) hh
      refine ⟨congrArg Team.todo hr, congrArg Team.clause hr, fun pre k post hbuf hpre hk => ?_⟩
      have hbuffer : r.buffer = dropStretch tm.buffer := congrArg Team.buffer hr
      rw [hbuffer, hbuf, dropStretch_append hpre hk]

end Sys2Proof.Machine.TeamState
end

section
/-! PROOFS. The lane words of 05_lane_alu.md on integers, bits, masks and the values of a group (R97 to R103, R108, R109, R113, R115 to R119). -/

namespace Sys2Proof.Machine.LaneAlu

open LaneNumbers (fieldN_eq_div_mod)
open TeamState (exec_maskOut)

/-! ## Words with one plain result for each lane (R95) -/

section plain

variable {s : State} {q t : Nat} {sq : Squad} {tm : Team} {i : Instr} {ms : BitVec 3} {body : LaneIn → LaneRes} {k : NumTy} {d : Nat}
  {f g : Nat → Nat}

/-- A ready lane word whose meaning is one code of type `k` for each lane retires with D holding that code for the lanes of M. -/
theorem exec_plain (hi : exec i s = laneRun i ms body s)
    (hb : body (laneIn s q t sq tm ms) = (laneIn s q t sq tm ms).plain k d f) (h : LaneReady s q t sq tm i ms) :
    exec i s = .next (s.laneEnd q t sq tm i ms (tm.setTy k d (tm.acting ms) f)) :=
  hi.trans (laneRun_finish h hb)

/-- As `exec_plain`, for a result that the word's meaning spells in another way. -/
theorem exec_plain_of_eq (hi : exec i s = laneRun i ms body s)
    (hb : body (laneIn s q t sq tm ms) = (laneIn s q t sq tm ms).plain k d g) (hg : ∀ l, g l = f l) (h : LaneReady s q t sq tm i ms) :
    exec i s = .next (s.laneEnd q t sq tm i ms (tm.setTy k d (tm.acting ms) f)) :=
  exec_plain hi (by rw [hb, funext hg]) h

end plain

/-! ## Integer arithmetic (R99, R100) -/

/-- Bringing an exact integer into a type, as the model spells it (R61). -/
theorem fitInt_eq_narrow : fitInt = NumTy.narrow := by
  funext t sat x
  cases sat <;> rfl

/-- The result of IADDS, with its shift count FN[5:0]. -/
theorem iaddsOf_fn (t : NumTy) (sat : Bool) (fn a b : Nat) :
    iaddsOf t sat (fieldN fn 0 6) a b = t.narrow sat (t.toInt a + t.toInt b * 2 ^ (fn % 64)) := by
  simp [iaddsOf, fieldN_eq_div_mod]

/-- Settles O1: each word has one plain result for each lane, which `fitInt` brings into the type as the model does. -/
theorem integerArithmeticWritesTheFittedExactResult : Obligations.IntegerArithmeticWritesTheFittedExactResult := by
  intro s q t sq tm w x ty a b c sat gives
  rw [fitInt_eq_narrow]
  refine ⟨?iadd, ?isub, ?imul, ?imad, ?iadds, ?iabs, ?imadw⟩
  case iadds => exact exec_plain_of_eq rfl rfl fun l => iaddsOf_fn ..
  case iabs => exact exec_plain_of_eq rfl rfl fun l => by rw [Int.abs_eq_natAbs]; rfl
  case imadw =>
    rintro t64 rfl
    exact exec_plain rfl rfl
  all_goals exact exec_plain rfl rfl

/-! ## Bits, shifts and fields (R99, R101, R103) -/

/-- The high half of a product. -/
theorem imulhi_eq_div (p : Int) (n : Nat) : wrapN (p >>> n) n = (p / ((2 ^ n : Nat) : Int) % ((2 ^ n : Nat) : Int)).toNat := by
  rw [Int.shiftRight_eq_div_pow, wrapN]

/-- The lesser of two values by an order, the first on a tie. -/
theorem ite_lt_eq_ite_le (x y : Int) (a b : Nat) : (if x < y then b else a) = if y ≤ x then a else b := by
  by_cases h : y ≤ x
  · rw [if_pos h, if_neg (not_lt.2 h)]
  · rw [if_neg h, if_pos (not_le.1 h)]

theorem shlOf_eq_mul (n a k : Nat) : shlOf n a k = a * 2 ^ (k % n) % 2 ^ n := by rw [shlOf, Nat.shiftLeft_eq]

theorem shrOf_eq_div (n a k : Nat) : shrOf n a k = a / 2 ^ (k % n) := by rw [shrOf, Nat.shiftRight_eq_div_pow]

theorem sarOf_eq_div (n a k : Nat) :
    sarOf n a k = ((signed a n / ((2 ^ (k % n) : Nat) : Int)) % ((2 ^ n : Nat) : Int)).toNat := by
  rw [sarOf, Int.shiftRight_eq_div_pow, wrapN]

/-- A field at the bottom of a number. -/
theorem fieldN_low (v n : Nat) : fieldN v 0 n = v % 2 ^ n := by simp [fieldN_eq_div_mod]

/-- The shift or rotation that a SHIFTI's code selects. -/
def shiftBy (code n a k : Nat) : Nat :=
  match code with
  | 0 => shlOf n a k
  | 1 => shrOf n a k
  | 2 => sarOf n a k
  | _ => rotOf n a k

/-- SHIFTI shifts by IMM[5:0] as its code IMM[7:6] selects. -/
theorem exec_shifti (w : LI) (s : State) :
    exec (.shifti w) s = laneRun (.shifti w) w.ms
      (fun x => x.intI w fun t a _ => shiftBy (w.imm.toNat / 64 % 4) t.width a (w.imm.toNat % 64)) s := by
  have hcode : w.imm.toNat / 64 % 4 = fieldN w.imm.toNat 6 2 := by simp [fieldN_eq_div_mod]
  have hcount : w.imm.toNat % 64 = fieldN w.imm.toNat 0 6 := by simp [fieldN_low]
  rw [hcode, hcount]
  rfl

/-- Settles O3: each word has one plain result for each lane, spelled by quotients and remainders where the model shifts. -/
theorem logicalShiftFieldAndImmediateWordsWriteTheirResult : Obligations.LogicalShiftFieldAndImmediateWordsWriteTheirResult := by
  refine ⟨?registers, ?immediates⟩
  case registers =>
    intro s q t sq tm w x ty n a b c gives
    refine ⟨?imulhi, ?imin, ?imax, ?andv, ?orv, ?xorv, ?andn, ?shl, ?shr, ?sar, ?rot, ?popc, ?clz, ?brev, ?bfx, ?bfi, ?mov, ?sel⟩
    case imulhi => exact exec_plain_of_eq rfl rfl fun l => imulhi_eq_div ..
    case imin => exact exec_plain_of_eq rfl rfl fun l => ite_lt_eq_ite_le ..
    case imax => exact exec_plain_of_eq rfl rfl fun l => ite_lt_eq_ite_le ..
    case shl => exact exec_plain_of_eq rfl rfl fun l => shlOf_eq_mul ..
    case shr => exact exec_plain_of_eq rfl rfl fun l => shrOf_eq_div ..
    case sar => exact exec_plain_of_eq rfl rfl fun l => sarOf_eq_div ..
    case sel => exact exec_plain_of_eq rfl rfl fun l => by rw [fieldN_low]; rfl
    all_goals exact exec_plain rfl rfl
  case immediates =>
    intro s q t sq tm w x ty n imm a k gives
    refine ⟨?ldi, ?iaddi, ?imuli, ?andi, ?ori, ?xori, fun h => ?shiftl, fun h => ?shiftr, fun h => ?shifta, fun h => ?rotate⟩
    case shiftl => exact exec_plain_of_eq (exec_shifti w s) rfl fun l => by rw [h]; exact shlOf_eq_mul ..
    case shiftr => exact exec_plain_of_eq (exec_shifti w s) rfl fun l => by rw [h]; exact shrOf_eq_div ..
    case shifta => exact exec_plain_of_eq (exec_shifti w s) rfl fun l => by rw [h]; rfl
    case rotate => exact exec_plain_of_eq (exec_shifti w s) rfl fun l => by rw [h]; rfl
    all_goals exact exec_plain rfl rfl

/-! ## Words that write a mask register (R97, R102, R103, R108, R119) -/

/-- Setting a flag for each listed lane that meets a condition sets it when some lane does. -/
theorem foldl_or_fIf (p : Nat → Bool) (f a : Flags5) (ls : List Nat) :
    ls.foldl (fun a l => a ||| fIf (p l) f) a = a ||| fIf (ls.any p) f := by
  induction ls generalizing a with
  | nil => simp [fIf]
  | cons l ls ih =>
    rw [List.foldl_cons, ih, List.any_cons, BitVec.or_assoc]
    cases p l <;> cases ls.any p <;> simp [fIf]

/-- Some lane of a mask meets a condition. -/
theorem any_lanesOf (tm : Team) (m : Mask) (p : Nat → Bool) :
    (tm.lanesOf m).any p = (upTo tm.lanes).any fun l => m.getLsbD l && p l := by
  rw [Team.lanesOf, maskLanes, List.any_filter]

/-- The row of an MLOG truth table that two bits select. -/
theorem mlog_row (a b : Bool) : 2 * b2n a + b2n b = (if a then 2 else 0) + (if b then 1 else 0) := by
  cases a <;> cases b <;> rfl

section maskOut

variable {s : State} {q t : Nat} {sq : Squad} {tm : Team} {i : Instr} {ms : BitVec 3} {body : LaneIn → LaneRes} {k : Nat} {f g : Nat → Bool}

/-- A team that differs in its masks and flags alone, of the masks in register k alone, and of that in the bits of the lanes of a mask alone, which
hold a condition (R97). -/
def PutsMask (tm : Team) (m : Mask) (k : Nat) (f : Nat → Bool) (new : Team) : Prop :=
  new = { tm with masks := new.masks, fflags := new.fflags } ∧ (∀ j, j ≠ k → new.m j = tm.m j)
    ∧ (k < tm.masks.length → ∀ l, l < tm.lanes → (new.m k).getLsbD l = if m.getLsbD l then f l else (tm.m k).getLsbD l)

/-- A ready lane word whose meaning writes the mask register k and sets no flag. -/
theorem exec_maskOut_puts (hi : exec i s = laneRun i ms body s)
    (hb : body (laneIn s q t sq tm ms) = (laneIn s q t sq tm ms).maskOut k g) (hg : ∀ l, g l = f l)
    (hn : tm.lanes ≤ 1024) (h : LaneReady s q t sq tm i ms) :
    ∃ new, PutsMask tm (tm.acting ms) k f new ∧ new.fflags = tm.fflags ∧ exec i s = .next (s.laneEnd q t sq tm i ms new) := by
  obtain rfl : g = f := funext hg
  obtain ⟨new, hexec, hnew, hother, hbits⟩ := exec_maskOut hi hb h hn
  have hfl : new.fflags = tm.fflags := by rw [hnew]
  exact ⟨new, ⟨by rw [hnew], hother, hbits⟩, hfl, hexec⟩

end maskOut

/-- A ready FCMP writes its mask register, and sets IV when a lane of M compares a signalling NaN (R108). -/
theorem exec_fcmp_puts {s : State} {q t : Nat} {sq : Squad} {tm : Team} {w : LR} (hn : tm.lanes ≤ 1024) (h : LaneReady s q t sq tm (.fcmp w) w.ms) :
    let x := laneIn s q t sq tm w.ms
    let u (f l : Nat) : XVal := x.opX (x.ty w.ty) l f
    ∃ new, PutsMask tm (tm.acting w.ms) w.d.toNat (fun l => fltCond w.fn.toNat (u w.a.toNat l) (u w.b.toNat l)) new
      ∧ new.fflags = tm.fflags ||| fIf ((tm.lanesOf (tm.acting w.ms)).any fun l => (u w.a.toNat l).isSnan || (u w.b.toNat l).isSnan) fIV
      ∧ exec (.fcmp w) s = .next (s.laneEnd q t sq tm (.fcmp w) w.ms new) := by
  intro x u
  refine ⟨_, ⟨rfl, fun j hj => ?other, fun hk l hl => ?bit⟩, ?flags, laneRun_finish h rfl⟩
  case other => exact (Team.m_setM ..).trans (if_neg fun hjk => hj hjk.1)
  case bit => exact maskOut_bit x w.d.toNat l _ hk hl hn
  case flags =>
    have hfold := foldl_or_fIf (fun l => (u w.a.toNat l).isSnan || (u w.b.toNat l).isSnan) fIV f0 (tm.lanesOf (tm.acting w.ms))
    exact congrArg (tm.fflags ||| ·) (hfold.trans (BitVec.zero_or))

/-- Settles O4: each word writes one mask register by `maskOut`, and FCMP ORs the flags of its lanes besides. -/
theorem maskWritingWordsSetTheBitsOfTheirLanes : Obligations.MaskWritingWordsSetTheBitsOfTheirLanes := by
  intro s q t sq tm put gives same
  refine ⟨fun w => ⟨?icmp, ?mlog, ?mset, ?vtom, fun hn h => ?fcmp⟩, fun w => ?icmpi⟩
  case icmp => exact exec_maskOut_puts rfl rfl fun l => rfl
  case mlog => exact exec_maskOut_puts rfl rfl fun l => congrArg w.fn.getLsbD (mlog_row ..)
  case mset => exact exec_maskOut_puts rfl rfl fun l => rfl
  case vtom => exact exec_maskOut_puts rfl rfl fun l => Bool.eq_iff_iff.2 (by simp)
  case fcmp =>
    obtain ⟨new, hput, hfl, hexec⟩ := exec_fcmp_puts hn h
    exact ⟨new, hput, hfl.trans (by rw [any_lanesOf]; rfl), hexec⟩
  case icmpi =>
    have hd : w.d.toNat % 8 = fieldN w.d.toNat 0 3 := by simp [fieldN_low]
    have hc : w.d.toNat / 8 = fieldN w.d.toNat 3 5 := by
      have := w.d.isLt
      rw [fieldN_eq_div_mod]; omega
    rw [hd, hc]
    exact exec_maskOut_puts rfl rfl fun l => rfl

/-! ## Tables built over a list of keys -/

/-- Looking a key up in a table that lists a value for each of some keys. -/
theorem find?_map_key {α : Type} (ks : List Nat) (g : Nat → α) (k : Nat) :
    ((ks.map fun p => (p, g p)).find? fun b => b.1 == k) = if k ∈ ks then some (k, g k) else none := by
  induction ks with
  | nil => rfl
  | cons p ps ih =>
    by_cases hp : p = k
    · subst hp; simp
    · simp [hp, Ne.symm hp, ih]

/-- ORing flags into given ones is ORing the flags together first. -/
theorem foldl_or_start {α : Type} (g : α → Flags5) (a : Flags5) (ks : List α) :
    ks.foldl (fun f p => f ||| g p) a = a ||| ks.foldl (fun f p => f ||| g p) 0 := by
  induction ks generalizing a with
  | nil => simp
  | cons p ps ih => rw [List.foldl_cons, List.foldl_cons, ih, ih (0 ||| g p), BitVec.ofNat_eq_ofNat, BitVec.zero_or, BitVec.or_assoc]

/-! ## Packing blocks (R113) -/

/-- The passes with a lane of a mask (R83). -/
def passesWith (m : Mask) : List Nat := (upTo 32).filter fun p => fieldN m.toNat (32 * p) 32 != 0

/-- A lane of a mask lies in a pass with a lane of the mask. -/
theorem div_mem_passesWith {m : Mask} {l : Nat} (hl : m.getLsbD l = true) : l / 32 ∈ passesWith m := by
  have hlt : l < 1024 := BitVec.lt_of_getLsbD hl
  have hp : l / 32 < 32 := by omega
  have hmod : l % 32 < 32 := Nat.mod_lt _ (by omega)
  have hbit : (fieldN m.toNat (32 * (l / 32)) 32).testBit (l % 32) = m.getLsbD l := by
    rw [fieldN, Nat.testBit_mod_two_pow, Nat.testBit_shiftRight, Nat.div_add_mod, decide_eq_true hmod, Bool.true_and, BitVec.getLsbD]
  have hne : fieldN m.toNat (32 * (l / 32)) 32 ≠ 0 := fun h0 => by simp [h0, hl] at hbit
  simp [passesWith, upTo, hp, hne]

/-- The word that packing gives a lane: its block's scale byte above its element byte. -/
def packedWord (block : Nat → Block) (l : Nat) : Word :=
  BitVec.ofNat 32 ((block (l / 32)).scale * 256 + (block (l / 32)).elems.getD (l % 32) 0)

/-- A packing word none of whose blocks overflows under OVF 11 finishes, with the lanes of M packed and the flags of the blocks ORed in. -/
theorem pack_finish {x : LaneIn} {w : LR} {block : Nat → Block} (hblock : ∀ p, block p = (x.packBlock w (x.ty w.ty) p).2)
    (h : ∀ p ∈ passesWith x.m, (block p).trap = false) :
    ∃ f : Nat → Word, x.pack w = x.finish ((x.tm.setV w.d.toNat x.m f).orFlags ((passesWith x.m).foldl (fun f p => f ||| (block p).flags) 0))
      ∧ ∀ l, x.m.getLsbD l = true → f l = packedWord block l := by
  obtain rfl : block = fun p => (x.packBlock w (x.ty w.ty) p).2 := funext hblock
  have hnone : ¬ ((passesWith x.m).map fun p => (p, x.packBlock w (x.ty w.ty) p)).any (·.2.2.trap) = true := by
    simpa [List.any_map] using h
  have hflags : ((passesWith x.m).map fun p => (p, x.packBlock w (x.ty w.ty) p)).foldl (fun a b => a ||| b.2.2.flags) f0
      = (passesWith x.m).foldl (fun f p => f ||| (x.packBlock w (x.ty w.ty) p).2.flags) 0 := List.foldl_map
  refine ⟨_, (if_neg hnone).trans (congrArg (fun fl => x.finish ((x.tm.setV w.d.toNat x.m _).orFlags fl)) hflags), fun l hl => ?_⟩
  have hfind := find?_map_key (passesWith x.m) (x.packBlock w (x.ty w.ty)) (l / 32)
  rw [if_pos (div_mem_passesWith hl)] at hfind
  simp only [passesWith] at hfind
  simp only [hfind]
  rfl

/-- A ready packing word none of whose blocks overflows under OVF 11 changes D in the lanes of M alone, and FFLAGS by the flags of its blocks. -/
theorem exec_pack {s : State} {q t : Nat} {sq : Squad} {tm : Team} {i : Instr} {w : LR} {block : Nat → Block}
    (hi : exec i s = laneRun i w.ms (fun x => x.pack w) s)
    (hblock : ∀ p, block p = ((laneIn s q t sq tm w.ms).packBlock w ((laneIn s q t sq tm w.ms).ty w.ty) p).2)
    (h : LaneReady s q t sq tm i w.ms) (htrap : ∀ p ∈ passesWith (tm.acting w.ms), (block p).trap = false) :
    ∃ new, exec i s = .next (s.laneEnd q t sq tm i w.ms new)
      ∧ new = { tm with v := new.v, bad := new.bad, fflags := new.fflags, wrote := new.wrote }
      ∧ new.fflags = (passesWith (tm.acting w.ms)).foldl (fun f p => f ||| (block p).flags) tm.fflags
      ∧ new.written = (tm.setV w.d.toNat (tm.acting w.ms) fun _ => 0).written
      ∧ ∀ r l, l < tm.lanes → new.V l r = if r = w.d.toNat ∧ (tm.acting w.ms).getLsbD l then packedWord block l else tm.V l r := by
  obtain ⟨f, hfinish, hf⟩ := pack_finish hblock htrap
  refine ⟨_, hi.trans (laneRun_finish h hfinish), rfl, ?flags, rfl, fun r l hl => ?lane⟩
  case flags => exact (foldl_or_start ..).symm
  case lane =>
    have hset : _ = if r = w.d.toNat then (if (tm.acting w.ms).getLsbD l then f l else tm.V l w.d.toNat) else tm.V l r :=
      Team.V_setV tm w.d.toNat r l (tm.acting w.ms) f hl
    refine Eq.trans hset ?_
    by_cases hr : r = w.d.toNat
    · subst hr
      by_cases hm : (tm.acting w.ms).getLsbD l = true
      · simp [hm, hf l hm]
      · simp [hm]
    · simp [hr]

/-! ## Words that move values within a group (R115 to R117) -/

/-- A ready word in which each lane of M receives A of a lane of its group: it writes D, unless a register read there is bad (R208). -/
theorem exec_gather {s : State} {q t : Nat} {sq : Squad} {tm : Team} {i : Instr} {w : LR} {body : LaneIn → LaneRes} {src : Nat → Nat → Nat}
    (hi : exec i s = laneRun i w.ms body s)
    (hb : body (laneIn s q t sq tm w.ms) = (laneIn s q t sq tm w.ms).gather w src) :
    let x := laneIn s q t sq tm w.ms
    let from_ (l : Nat) : Nat := l / tm.gw * tm.gw + src l (l % tm.gw)
    let bad := tm.badIn (srcRegs (wideTy tm.ckEnv w.ty) w.a.toNat) (maskOf ((tm.lanesOf (tm.acting w.ms)).map from_))
    LaneReady s q t sq tm i w.ms →
      (bad = none → exec i s = .next (s.laneEnd q t sq tm i w.ms
        (tm.setTy (x.ty w.ty) w.d.toNat (tm.acting w.ms) fun l => x.opTy (x.ty w.ty) (from_ l) w.a.toNat)))
      ∧ ∀ r l, bad = some (r, l) → (s.cluster sq.cluster).undervolted = false →
          exec i s = .next (s.laneStop q t sq tm i w.ms .uncorrectableData (badInfo [] r l) (tm.acting w.ms)) := by
  intro x from_ bad h
  have hgather : body x = match bad with
      | some (r, l) => x.uncorrectable x.m (badInfo [] r l) x.s
      | none => x.plain (x.ty w.ty) w.d.toNat fun l => x.opTy (x.ty w.ty) (from_ l) w.a.toNat := hb
  refine ⟨fun hbad => ?moves, fun r l hbad hv => ?stops⟩
  case moves => exact exec_plain hi (by rw [hgather, hbad]) h
  case stops =>
    have hstop : body x = .park .uncorrectableData (badInfo [] r l) x.m [] x.s := by
      rw [hgather, hbad]
      simp [LaneIn.uncorrectable, x, hv]
    exact hi.trans (laneRun_park h hstop)

/-- The source lanes of SHFL, chosen by FN[1:0] (R116). -/
theorem shfl_gathers {x : LaneIn} {w : LR} {mode : Nat} {src : Nat → Nat → Nat} (h : w.fn.toNat % 4 = mode)
    (hsrc : ∀ l g, shflLane mode x.tm.gw g (x.op 1 l w.b.toNat) = src l g) :
    (x.gather w fun l g => shflLane (fieldN w.fn.toNat 0 2) x.tm.gw g (x.op 1 l w.b.toNat)) = x.gather w src := by
  have hmode : fieldN w.fn.toNat 0 2 = mode := by simpa [fieldN_low] using h
  rw [hmode, funext fun l => funext (hsrc l)]

/-- Settles O6: FCLASS has a plain result, PACKMX and PACKDS end by `exec_pack`, SHFL, LROT and LBCAST by `exec_gather`, and COMPACT finishes. -/
theorem packAndCrossLaneWordsWriteTheirResult : Obligations.PackAndCrossLaneWordsWriteTheirResult := by
  refine ⟨fun s q t sq tm w => ⟨?fclass, fun i hi h htrap => ?pack⟩, ?crossLane⟩
  case fclass => exact exec_plain rfl rfl
  case pack =>
    have hexec : exec i s = laneRun i w.ms (fun x => x.pack w) s := by
      simp only [List.mem_cons, List.not_mem_nil, or_false] at hi
      rcases hi with rfl | rfl <;> rfl
    obtain ⟨new, hnext, hnew, hfl, hwritten, hv⟩ := exec_pack hexec (fun _ => rfl) h htrap
    exact ⟨new, hnext, hnew, hfl, hwritten, fun r l hl _ => hv r l hl⟩
  case crossLane =>
    intro s q t sq tm w x ty m G gives mode b
    have hgather (i : Instr) {body : LaneIn → LaneRes} (src : Nat → Nat → Nat) (hi : exec i s = laneRun i w.ms body s)
        (hb : body x = x.gather w src) : gives i src := exec_gather (src := src) hi hb
    refine ⟨fun h => ?index, fun h => ?up, fun h => ?down, fun h => ?butterfly, ?lrot, fun h => ?lane, fun h => ?first, ?compact⟩
    case index => exact hgather (.shfl w) (fun l _ => b l % G) rfl (shfl_gathers h fun _ _ => rfl)
    case up => exact hgather (.shfl w) (fun l g => if b l ≤ g then g - b l else g) rfl (shfl_gathers h fun _ _ => rfl)
    case down => exact hgather (.shfl w) (fun l g => if g + b l < G then g + b l else g) rfl (shfl_gathers h fun _ _ => rfl)
    case butterfly =>
      exact hgather (.shfl w) (fun l g => if g ^^^ (b l % G) < G then g ^^^ (b l % G) else g) rfl (shfl_gathers h fun _ _ => rfl)
    case lrot => exact hgather (.lrot w) (fun _ g => (g + w.fn.toNat) % G) rfl rfl
    case lane =>
      exact hgather (.lbcast w) (fun _ _ => w.fn.toNat % 64) rfl (by simp only [h, Bool.false_eq_true, if_false, fieldN_low]; rfl)
    case first =>
      exact hgather (.lbcast w) (fun l g => ((upTo G).find? fun k => m.getLsbD (l - g + k)).getD 0) rfl
        (by simp only [h, if_true]; rfl)
    case compact => exact fun h => laneRun_finish h rfl

/-! ## Scans and reductions (R118) -/

/-- The groups of a team with a lane of a mask (R115). -/
def groupsWith (tm : Team) (m : Mask) : List Nat := (upTo (tm.lanes / tm.gw)).filter fun k => (upTo tm.gw).any fun i => m.getLsbD (k * tm.gw + i)

/-- The operator of a scan or reduction, with the rounding and the overflow code in force. -/
def combineOp (x : LaneIn) (w : LR) : Nat → Nat → Rounded :=
  scanOp (x.ty w.ty) (w.fn.toNat % 4) (x.rnd w.ty w.ex) (x.ovf w.ty w.ex)

/-- The values that a group begins with: the operator's identity for the lanes outside M. -/
def groupStart (x : LaneIn) (w : LR) (k : Nat) : ScanSt :=
  { xs := (upTo x.tm.gw).map fun i =>
      if x.m.getLsbD (k * x.tm.gw + i) then x.opTy (x.ty w.ty) (k * x.tm.gw + i) w.a.toNat else scanId (x.ty w.ty) (w.fn.toNat % 4)
    flags := 0, traps := [] }

/-- A scan or reduction none of whose groups overflows under OVF 11 finishes, with what `fin` takes from each group in D, and the flags of the groups
ORed in. -/
theorem combine_finish {x : LaneIn} {w : LR} {run : (Nat → Nat → Rounded) → ScanSt → ScanSt} {fin : List Nat → Nat → Nat} {z : Nat → ScanSt}
    (hz : ∀ k, z k = run (combineOp x w) (groupStart x w k)) (h : ∀ k ∈ groupsWith x.tm x.m, (z k).traps = []) :
    x.combine w run fin = x.finish ((x.tm.setTy (x.ty w.ty) w.d.toNat x.m fun l =>
        if l / x.tm.gw ∈ groupsWith x.tm x.m then fin (z (l / x.tm.gw)).xs (l % x.tm.gw) else fin [] (l % x.tm.gw)).orFlags
      ((groupsWith x.tm x.m).foldl (fun b k => b ||| (z k).flags) 0)) := by
  have hop : fieldN w.fn.toNat 0 2 = w.fn.toNat % 4 := by simp [fieldN_low]
  have hnone : (((groupsWith x.tm x.m).map fun k => (k, z k)).flatMap fun z =>
      (upTo x.tm.gw).filterMap fun i => if z.2.traps.contains i then some (z.1 * x.tm.gw + i) else none) = [] := by
    simp only [List.flatMap_eq_nil_iff, List.mem_map, List.filterMap_eq_nil_iff]
    rintro _ ⟨k, hk, rfl⟩ i -
    simp [h k hk]
  have hvalue (l : Nat) : fin (((((groupsWith x.tm x.m).map fun k => (k, z k)).find? fun z => z.1 == l / x.tm.gw).map (·.2.xs)).getD []) (l % x.tm.gw)
      = if l / x.tm.gw ∈ groupsWith x.tm x.m then fin (z (l / x.tm.gw)).xs (l % x.tm.gw) else fin [] (l % x.tm.gw) := by
    rw [find?_map_key]
    by_cases hk : l / x.tm.gw ∈ groupsWith x.tm x.m <;> simp [hk]
  obtain rfl : z = fun k => run (combineOp x w) (groupStart x w k) := funext hz
  simp only [groupsWith, combineOp, groupStart] at hnone hvalue ⊢
  simp only [LaneIn.combine, hop, f0, hnone, hvalue, List.foldl_map, List.isEmpty_nil, if_true]

/-- An integer application of a scan's operator sets no flag and never overflows. -/
theorem scanOp_int {ty : NumTy} (op : Nat) (rnd : Rnd) (ovf : Ovf) (a b : Nat) (h : ty.isInt = true) :
    (scanOp ty op rnd ovf a b).flags = 0 ∧ (scanOp ty op rnd ovf a b).trap = false := by
  unfold scanOp
  rw [if_pos h]
  exact ⟨rfl, rfl⟩

/-- Settles O7: both words are `combine` with their own run over a group, which finishes when no group overflows. -/
theorem scansAndReductionsCombineTheirGroups : Obligations.ScansAndReductionsCombineTheirGroups := by
  refine ⟨?words, fun ty => scanOp_int⟩
  intro s q t sq tm w x ty m G op f start groups gives
  have hcombine (i : Instr) {body : LaneIn → LaneRes} (run : (Nat → Nat → Rounded) → ScanSt → ScanSt) (fin : List Nat → Nat → Nat)
      (hi : exec i s = laneRun i w.ms body s) (hb : body x = x.combine w run fin) : gives i (fun k => run f (start k)) fin :=
    fun h htraps => hi.trans (laneRun_finish h (hb.trans (combine_finish (z := fun k => run f (start k)) (fun _ => rfl) htraps)))
  refine ⟨?lred, fun hform => ?inclusive, fun hform => ?exclusive⟩
  case lred => exact hcombine (.lred w) (redGroup · 7 (G / 2)) (fun xs _ => xs.getD 0 0) rfl rfl
  case inclusive =>
    exact hcombine (.lscan w) (scanGroup · G 7 1) (fun xs g => xs.getD g 0) rfl (by simp only [hform, Bool.false_eq_true, if_false]; rfl)
  case exclusive =>
    exact hcombine (.lscan w) (scanGroup · G 7 1) (fun xs g => if g = 0 then scanId ty op else xs.getD (g - 1) 0) rfl
      (by simp only [hform, if_true, fieldN_low]; rfl)

end Sys2Proof.Machine.LaneAlu
end

section
/-! PROOFS. VOTE, CLAIM and GIVE (05_lane_alu.md R122, R123, R125): the vote queue of a context (09_cluster_generator.md R236, R237) and the claim
lines of lane cores (08_core_tiles_sched.md R198). -/

namespace Sys2Proof.Machine.VotesAndClaims

open LaneNumbers (fieldN_eq_div_mod)
open LaneAlu (fieldN_low)
open TeamState (squad_modSquad squad_modTeam)

/-! ## Changing one context twice -/

/-- The second of two writes of one key of a table stands. -/
theorem aset_aset {α : Type} (l : List (Nat × α)) (i : Nat) (x y : α) : aset (aset l i x) i y = aset l i y := by
  induction l with
  | nil => simp [aset]
  | cons p t ih =>
    obtain ⟨k, v⟩ := p
    by_cases hlt : i < k
    · simp [aset, hlt]
    · by_cases heq : i = k
      · simp [aset, heq]
      · simp [aset, hlt, heq, ih]

/-- Changing a resident squad is putting the changed one in its place. -/
theorem modSquad_eq_setSquad {s : State} {q : Nat} {x : Squad} (f : Squad → Squad) (hs : s.squad q = some x) :
    s.modSquad q f = s.setSquad q (f x) := by simp only [State.modSquad, hs]

/-- Two changes of one squad are one. -/
theorem modSquad_modSquad (s : State) (q : Nat) (f g : Squad → Squad) : (s.modSquad q f).modSquad q g = s.modSquad q (g ∘ f) := by
  cases hs : s.squad q with
  | none => simp [State.modSquad, hs]
  | some x =>
    have hnew : (s.modSquad q f).squad q = some (f x) := by rw [squad_modSquad]; simp [hs]
    rw [modSquad_eq_setSquad g hnew, modSquad_eq_setSquad f hs, modSquad_eq_setSquad (g ∘ f) hs]
    simp [State.setSquad, aset_aset]

/-- Two changes of one context are one. -/
theorem modCtx_modCtx (s : State) (q c : Nat) (f g : Ctx → Ctx) : (s.modCtx q c f).modCtx q c g = s.modCtx q c (g ∘ f) := by
  unfold State.modCtx
  rw [modSquad_modSquad]
  congr 1
  funext x
  simp [List.modify_modify_eq]

/-- A change of a context leaves the cycle count of every squad's cluster. -/
theorem cycleOf_modCtx (s : State) (q c j : Nat) (f : Ctx → Ctx) : (s.modCtx q c f).cycleOf j = s.cycleOf j := by
  have hsquad := squad_modSquad s q j fun x => { x with ctxs := x.ctxs.modify c f }
  unfold State.cycleOf
  rw [State.modCtx, hsquad]
  by_cases hj : j = q
  · subst hj; cases hs : s.squad j <;> simp
  · simp [hj]

/-! ## VOTE (R122, R123, R236, R237) -/

/-- The kind of a VOTE, IMM[17:16]. -/
def voteKind (w : LI) : Nat := w.imm.toNat / 2 ^ 16 % 4

/-- The record of a team's VOTE (R123). -/
def recordOf (t : Nat) (tm : Team) (w : LI) : DWord := voteRecord t (voteKind w) (w.imm.toNat % 2 ^ 16) (tm.m 0) (tm.m w.a.toNat)

/-- The cycles from now to the retirement of a VOTE with M, its last pass (R446). -/
def voteDelay (tm : Team) (w : LI) (m : Mask) : Nat :=
  if tm.started.isSome then 0 else max (passesOf tm (.vote w) m).1 (passesOf tm (.vote w) m).2 - 1

section vote

variable {s s' : State} {q t oq oc : Nat} {sq osq : Squad} {tm : Team} {cx : Ctx} {w : LI} {kind delay : Nat} {r : DWord}

/-- VOTE offers its team's record to the owning context's queue, and waits when there is no entry for it. -/
theorem exec_vote (w : LI) (s : State) :
    exec (.vote w) s = laneRun (.vote w) w.ms
      (fun x => (x.s.vote x.q x.t x.tm (voteKind w) (recordOf x.t x.tm w) (voteDelay x.tm w x.m)).elim (.wait .vote x.s) .done) s := by
  have hkind : voteKind w = fieldN w.imm.toNat 16 2 := by simp [voteKind, fieldN_eq_div_mod]
  have htag : w.imm.toNat % 2 ^ 16 = fieldN w.imm.toNat 0 16 := (fieldN_low ..).symm
  simp only [recordOf, hkind, htag]
  refine congrArg (laneRun (.vote w) w.ms · s) (funext fun x => ?_)
  cases hv : x.s.vote x.q x.t x.tm (fieldN w.imm.toNat 16 2)
    (voteRecord x.t (fieldN w.imm.toNat 16 2) (fieldN w.imm.toNat 0 16) (x.tm.m 0) (x.tm.m w.a.toNat)) (voteDelay x.tm w x.m)
  all_goals
    simp only [voteDelay] at hv
    simp only [hv]
    rfl

/-- A VOTE that the queue takes retires. -/
theorem exec_vote_retires (h : LaneReady s q t sq tm (.vote w) w.ms)
    (hv : s.vote q t tm (voteKind w) (recordOf t tm w) (voteDelay tm w (tm.acting w.ms)) = some s') :
    exec (.vote w) s = .next (s'.retire q t sq tm (.vote w) (tm.acting w.ms)) := by
  rw [exec_vote]
  exact laneRun_done h (congrArg (Option.elim · (LaneRes.wait .vote s) .done) hv)

/-- A VOTE that the queue has no entry for waits. -/
theorem exec_vote_waits (h : LaneReady s q t sq tm (.vote w) w.ms)
    (hv : s.vote q t tm (voteKind w) (recordOf t tm w) (voteDelay tm w (tm.acting w.ms)) = none) :
    exec (.vote w) s = .next (s.waits q t sq tm (.vote w) (tm.acting w.ms) .vote) := by
  rw [exec_vote]
  exact laneRun_wait h (congrArg (Option.elim · (LaneRes.wait .vote s) .done) hv)

/-- A complete record at the end of a context's queue, with its bounds (R237). -/
theorem pushVote_eq (hs : s.squad oq = some osq) (r : DWord) (h delay : Nat) (qs : List Nat) :
    let cyc := (s.cluster osq.cluster).cycle + delay
    s.pushVote oq oc r h delay qs = s.modCtx oq oc fun z => { z with
      votes := z.votes ++ [{ rec_ := r, lower := cyc + 24 + 20 * h, upper := cyc + 48 + 20 * h, squads := qs }] } := by
  simp only [State.pushVote, State.cycleOf, hs]

/-- Two resident squads are a die boundary apart when their clusters, 44 to a die, lie on two dies. -/
theorem dieHops_eq (hs : s.squad q = some sq) (hos : s.squad oq = some osq) :
    s.dieHops oq q = if osq.cluster / 44 = sq.cluster / 44 then 0 else 1 := by
  by_cases hd : osq.cluster / 44 = sq.cluster / 44 <;> simp [State.dieHops, hs, hos, dieOf, b2n, hd]

section owner

variable (ho : tm.owner = some (oq, oc)) (hc : s.ctx oq oc = some cx) (he : cx.exited = false)

include ho hc he

/-- The record of a VOTE that is not of a merged channel enters the queue when an entry is free. -/
theorem vote_single (hm : (tm.buffer.head?.bind (·.merge)) = none) :
    s.vote q t tm kind r delay = if 64 ≤ cx.voteEntries then none else some (s.pushVote oq oc r (s.dieHops oq q) delay [q]) := by
  simp only [State.vote, ho, hc, he, hm, Bool.false_eq_true, if_false]

/-- The record of a VOTE of a merged channel joins those of the channel's other teams, from the first on in one entry, and the last pushes one record
(R236). -/
theorem vote_merged {serial : Nat} {p : Partial} (hm : (tm.buffer.head?.bind (·.merge)) = some serial)
    (hp : (cx.partials.find? fun x => x.serial == serial) = some p) :
    let parts := p.parts ++ [⟨q, t, r⟩]
    let has (d : Nat × Nat) (x : VotePart) : Bool := x.q == d.1 && x.t == d.2
    let from_ := p.dests.filterMap fun d => parts.find? (has d)
    s.vote q t tm kind r delay =
      if !p.entry && decide (64 ≤ cx.voteEntries) then none
      else if p.dests.all fun d => parts.any (has d) then
        some ((s.modCtx oq oc fun z => { z with partials := z.partials.filter fun x => x.serial != serial }).pushVote oq oc
          (mergeVotes from_ (kind == 3)) ((from_.map fun x => s.dieHops oq x.q).foldl max 0) delay (from_.map (·.q)))
      else some (s.modCtx oq oc fun z => { z with
        partials := z.partials.map fun x => if x.serial = serial then { p with parts := parts, entry := true, first := kind == 3 } else x }) := by
  simp only [State.vote, ho, hc, he, hm, hp, Bool.false_eq_true, if_false]

end owner

/-- A record pushed after another change of its context is one change of the context. -/
theorem pushVote_modCtx (hs : s.squad oq = some osq) (f : Ctx → Ctx) (r : DWord) (h delay : Nat) (qs : List Nat) :
    let cyc := (s.cluster osq.cluster).cycle + delay
    (s.modCtx oq oc f).pushVote oq oc r h delay qs = s.modCtx oq oc fun z => { f z with
      votes := (f z).votes ++ [{ rec_ := r, lower := cyc + 24 + 20 * h, upper := cyc + 48 + 20 * h, squads := qs }] } := by
  have hcyc : s.cycleOf oq = (s.cluster osq.cluster).cycle := by simp only [State.cycleOf, hs]
  simp only [State.pushVote, cycleOf_modCtx, hcyc, modCtx_modCtx]
  rfl

end vote

/-! ## Merged records (R236) -/

theorem b2n_le_one (b : Bool) : b2n b ≤ 1 := by cases b <;> decide

theorem decide_b2n_eq_one (b : Bool) : decide (b2n b = 1) = b := by cases b <;> rfl

/-- A record's count, ANY and ALL, when its count fits. -/
theorem record_fields (hi count : Nat) (all any : Bool) (hc : count < 2 ^ 16) :
    let r := BitVec.ofNat 64 (hi * 2 ^ 18 + b2n all * 2 ^ 17 + b2n any * 2 ^ 16 + count)
    r.toNat % 2 ^ 16 = count ∧ r.getLsbD 16 = any ∧ r.getLsbD 17 = all := by
  have hany := b2n_le_one any
  have hall := b2n_le_one all
  have h16 : (hi * 2 ^ 18 + b2n all * 2 ^ 17 + b2n any * 2 ^ 16 + count) / 2 ^ 16 % 2 = b2n any := by omega
  have h17 : (hi * 2 ^ 18 + b2n all * 2 ^ 17 + b2n any * 2 ^ 16 + count) / 2 ^ 17 % 2 = b2n all := by omega
  refine ⟨?count, ?any, ?all⟩
  case count => rw [BitVec.toNat_ofNat]; omega
  case any => rw [BitVec.getLsbD_ofNat, Nat.testBit_eq_decide_div_mod_eq, h16, decide_b2n_eq_one]; rfl
  case all => rw [BitVec.getLsbD_ofNat, Nat.testBit_eq_decide_div_mod_eq, h17, decide_b2n_eq_one]; rfl

/-- A merged record's fields above ALL: the tag, and the team and lane of FIRST. -/
def mergedHigh (ps : List VotePart) (first : Bool) : Nat :=
  let rs := ps.map (·.rec_)
  let f := if first then rs.find? fun r => r.getLsbD 16 else none
  field64 (rs.headD 0) 48 16 * 2 ^ 30 + (f.elim 0xFF fun r => field64 r 28 8) * 2 ^ 10 + f.elim 0x3FF fun r => field64 r 18 10

/-- A merged record is its high fields above ALL of all, ANY of any, and the sum of the counts, at most 65,535. -/
theorem mergeVotes_eq (ps : List VotePart) (first : Bool) :
    mergeVotes ps first = BitVec.ofNat 64 (mergedHigh ps first * 2 ^ 18 + b2n (ps.all fun x => x.rec_.getLsbD 17) * 2 ^ 17
      + b2n (ps.any fun x => x.rec_.getLsbD 16) * 2 ^ 16 + min ((ps.map fun x => x.rec_.toNat % 2 ^ 16).sum) 65535) := by
  have hcount : ((ps.map (·.rec_)).map fun r => field64 r 0 16) = ps.map fun x => x.rec_.toNat % 2 ^ 16 := by
    simp [field64, fieldN_low]
  simp only [mergeVotes, mergedHigh, hcount, List.any_map, List.all_map]
  refine congrArg (BitVec.ofNat 64) ?_
  cases (if first then (ps.map (·.rec_)).find? fun r => r.getLsbD 16 else none)
  all_goals
    simp only [Option.elim, Function.comp_def]
    omega

/-! ## Claim lines (R125, R198) -/

/-- The claim line of a lane core. -/
def claimLine (s : State) (cl k : Nat) : List (Nat × Nat) := (((s.cluster cl).cores[k]?).map (·.claims)).getD []

/-- A cluster after a change of it. -/
theorem cluster_modCluster {s : State} {cl : Nat} (f : Cluster → Cluster) (h : cl < s.clusters.length) :
    (s.modCluster cl f).cluster cl = f (s.cluster cl) := by
  simp [State.modCluster, State.cluster, List.getD, h]

/-- A team after a change of one team. -/
theorem team_modTeam (s : State) (q t a b : Nat) (f : Team → Team) :
    (s.modTeam q t f).team a b = if a = q ∧ b = t then (s.team q t).map f else s.team a b := by
  unfold State.team
  rw [squad_modTeam]
  by_cases ha : a = q
  · subst ha
    by_cases hb : b = t
    · subst hb; cases hs : s.squad a <;> simp
    · cases hs : s.squad a <;> simp [hb, Ne.symm hb]
  · simp [ha]

/-- The claim of a team stands ahead of one with serial number n in a line. -/
def aheadOf (s : State) (n : Nat) (p : Nat × Nat) : Bool := (s.team p.1 p.2).any fun tm => decide (tm.claimAt < n)

/-- A line with a claim put into its place. -/
def insertClaim (s : State) (n : Nat) (c : Nat × Nat) (line : List (Nat × Nat)) : List (Nat × Nat) :=
  line.takeWhile (aheadOf s n) ++ c :: line.dropWhile (aheadOf s n)

/-- A state that differs in its clusters alone. -/
def SameButClusters (s z : State) : Prop := z = { s with clusters := z.clusters }

theorem SameButClusters.trans {s y z : State} (h : SameButClusters s y) (h' : SameButClusters y z) : SameButClusters s z :=
  Eq.trans h' (congrArg (fun y : State => { y with clusters := z.clusters }) h)

theorem SameButClusters.of_eq {s y z : State} (h : SameButClusters s z) (hy : s = y) : z = { y with clusters := z.clusters } := hy ▸ h

section join

variable {s : State} {cl k j q t n : Nat}

theorem joinClaims_same (s : State) (cl k q t n : Nat) : SameButClusters s (s.joinClaims cl k q t n) := rfl

/-- The numbers of clusters and of a cluster's cores stay when a claim joins a line. -/
theorem joinClaims_lengths (hcl : cl < s.clusters.length) :
    (s.joinClaims cl k q t n).clusters.length = s.clusters.length
      ∧ ((s.joinClaims cl k q t n).cluster cl).cores.length = (s.cluster cl).cores.length := by
  refine ⟨by simp [State.joinClaims, State.modCore, State.modCluster], ?_⟩
  rw [State.joinClaims, State.modCore, cluster_modCluster _ hcl]
  simp

/-- A claim that joins the line of one core leaves every other line. -/
theorem claimLine_joinClaims (hcl : cl < s.clusters.length) (hj : j < (s.cluster cl).cores.length) :
    claimLine (s.joinClaims cl k q t n) cl j = if j = k then insertClaim s n (q, t) (claimLine s cl j) else claimLine s cl j := by
  rw [State.joinClaims, State.modCore, claimLine, cluster_modCluster _ hcl]
  by_cases hk : j = k
  · subst hk; simp [claimLine, insertClaim, hj]; rfl
  · simp [claimLine, hk, Ne.symm hk]

/-- The claim lines once a claim has joined those of some cores, each once, unless it is free there. -/
theorem claimLine_joinAll (free : Nat → Bool) {ks : List Nat} (hks : ks.Nodup) (hcl : cl < s.clusters.length)
    (hj : j < (s.cluster cl).cores.length) :
    claimLine (ks.foldl (fun s k => if free k then s else s.joinClaims cl k q t n) s) cl j
      = if j ∈ ks ∧ free j = false then insertClaim s n (q, t) (claimLine s cl j) else claimLine s cl j := by
  induction ks generalizing s with
  | nil => simp
  | cons k ks ih =>
    obtain ⟨hk, hnodup⟩ := List.nodup_cons.1 hks
    rw [List.foldl_cons]
    by_cases hfree : free k = true
    · rw [if_pos hfree, ih hnodup hcl hj]
      by_cases hjk : j = k
      · subst hjk; simp [hfree]
      · simp [hjk]
    · obtain ⟨hlen, hcores⟩ := joinClaims_lengths (k := k) (q := q) (t := t) (n := n) hcl
      rw [if_neg hfree, ih hnodup (hlen ▸ hcl) (hcores ▸ hj), claimLine_joinClaims hcl hj]
      have hinsert (line : List (Nat × Nat)) : insertClaim (s.joinClaims cl k q t n) n (q, t) line = insertClaim s n (q, t) line := rfl
      by_cases hjk : j = k
      · subst hjk; simp [hk, hfree]
      · simp [hjk, hinsert]

/-- Claims that join lines change clusters alone. -/
theorem joinAll_same (free : Nat → Bool) (ks : List Nat) (s : State) :
    SameButClusters s (ks.foldl (fun s k => if free k then s else s.joinClaims cl k q t n) s) := by
  induction ks generalizing s with
  | nil => rfl
  | cons k ks ih =>
    rw [List.foldl_cons]
    by_cases hfree : free k = true
    · rw [if_pos hfree]; exact ih s
    · rw [if_neg hfree]; exact (joinClaims_same s cl k q t n).trans (ih _)

end join

/-- The state once a CLAIM has issued with the next serial number. -/
def claimIssued (s : State) (q t : Nat) : State :=
  { s with serial := s.serial + 1 }.modTeam q t fun tm => { tm with claimAt := s.serial + 1 }

/-- Issuing a CLAIM changes the serial number and its team. -/
theorem claimIssued_eq (s : State) (q t : Nat) :
    claimIssued s q t
      = { s with serial := s.serial + 1, squads := (s.modTeam q t fun tm => { tm with claimAt := s.serial + 1 }).squads } := by
  unfold claimIssued State.modTeam State.modSquad
  have hsquad : ({ s with serial := s.serial + 1 } : State).squad q = s.squad q := rfl
  rw [hsquad]
  cases s.squad q <;> rfl

/-- Ahead of a claim that has just issued stand the claims of other teams that issued before it. -/
theorem aheadOf_claimIssued (s : State) (q t : Nat) :
    aheadOf (claimIssued s q t) (s.serial + 1) = fun p => p != (q, t) && (s.team p.1 p.2).any fun u => decide (u.claimAt ≤ s.serial) := by
  funext ⟨a, b⟩
  rw [aheadOf, claimIssued, team_modTeam]
  have hteam : ({ s with serial := s.serial + 1 } : State).team = s.team := rfl
  by_cases hab : a = q ∧ b = t
  · obtain ⟨rfl, rfl⟩ := hab
    cases hs : s.team a b <;> simp [hteam, hs]
  · have hne : ((a, b) != (q, t)) = true := by simpa using hab
    simp [hab, hteam, hne]

/-- A lane core with no claim in its line and room for a team's further registers. -/
def coreFits (s : State) (cl : Nat) (tm : Team) (n k : Nat) : Bool :=
  (claimLine s cl k).isEmpty && decide (s.granules cl k + tm.passesOn k * n / 8 ≤ 512)

theorem coreFits_iff {s : State} {cl : Nat} {tm : Team} {n k : Nat} :
    coreFits s cl tm n k = true ↔ claimLine s cl k = [] ∧ s.granules cl k + tm.passesOn k * n / 8 ≤ 512 := by
  simp [coreFits]

/-- The lane cores of a team are each listed once. -/
theorem cores_nodup (tm : Team) : tm.cores.Nodup := by
  unfold Team.cores
  cases tm.pair <;> simp

section claim

variable {s : State} {q t : Nat} {sq : Squad} {tm : Team} {w : LI}

/-- A ready CLAIM that every core of its team has room for adds its registers. -/
theorem exec_claim_granted (h : LaneReady s q t sq tm (.claim w) w.ms)
    (hfit : ∀ k ∈ tm.cores, coreFits s sq.cluster tm w.imm.toNat k = true) :
    exec (.claim w) s = .next (s.laneEnd q t sq tm (.claim w) w.ms { tm with n := tm.n + w.imm.toNat }) :=
  laneRun_finish h (if_pos (List.all_eq_true.2 hfit))

/-- A ready CLAIM that some core of its team has no room for waits, in the line of each such core. -/
theorem exec_claim_waits (h : LaneReady s q t sq tm (.claim w) w.ms)
    (hfit : ∃ k ∈ tm.cores, coreFits s sq.cluster tm w.imm.toNat k ≠ true) :
    exec (.claim w) s = .next ((tm.cores.foldl (fun z k =>
      if coreFits s sq.cluster tm w.imm.toNat k then z else z.joinClaims sq.cluster k q t (s.serial + 1)) (claimIssued s q t)).waits
        q t sq tm (.claim w) (tm.acting w.ms) .claim) := by
  have hnot : ¬ tm.cores.all (coreFits s sq.cluster tm w.imm.toNat) = true := by
    simpa using hfit
  exact laneRun_wait h (if_neg hnot)

end claim

/-! ## GIVE (R125) -/

/-- A lookup in the part of a table that lies below a key. -/
theorem aget_filter_lt {α : Type} (d : α) (l : List (Nat × α)) (c r : Nat) :
    aget d (l.filter fun p => decide (p.1 < c)) r = if r < c then aget d l r else d := by
  induction l with
  | nil => simp [aget]
  | cons p t ih =>
    obtain ⟨k, v⟩ := p
    by_cases hk : k < c
    · by_cases hr : k = r
      · subst hr; simp [aget, hk]
      · simp [aget, hk, hr, ih]
    · have hr : r < c → k ≠ r := by omega
      by_cases hrc : r < c
      · simp [aget, hk, ih, hr hrc]
      · simp [hk, ih, hrc]

/-- The registers of a team that has given those from `c` on. -/
theorem V_dropRegs (tm : Team) (c l r : Nat) : (tm.dropRegs c).V l r = if r < c then tm.V l r else 0 := by
  unfold Team.V Team.vreg Team.dropRegs
  rw [aget_filter_lt]
  by_cases hr : r < c <;> simp [hr]

/-- Settles O10: what the vote queue makes of a record by `vote_single` and `vote_merged`, a merged record by its fields, the claim lines by
`claimLine_joinAll`, and the registers given by `V_dropRegs`. -/
theorem voteClaimAndGiveWordsComplete : Obligations.VoteClaimAndGiveWordsComplete := by
  refine ⟨⟨?single, ?merged, ?fields⟩, ?registers⟩
  case single =>
    intro s q t oq oc sq osq tm cx w kind r p cyc far h ho hos hcx he hm
    have hs : s.squad q = some sq := h.2.1
    have hc : s.ctx oq oc = some cx := by simp [State.ctx, hos, hcx]
    have hvote := vote_single (q := q) (t := t) (kind := kind) (r := r) (delay := voteDelay tm w (tm.acting w.ms)) ho hc he hm
    refine ⟨fun hroom => ?enters, fun hfull => ?waits⟩
    case enters =>
      rw [if_neg (Nat.not_le.2 hroom), dieHops_eq hs hos, pushVote_eq hos] at hvote
      exact exec_vote_retires h hvote
    case waits =>
      rw [if_pos hfull] at hvote
      exact exec_vote_waits h hvote
  case merged =>
    intro s q t oq oc serial sq osq tm cx p w kind r ps cyc parts has from_ h ho hos hcx he hm hp
    have hc : s.ctx oq oc = some cx := by simp [State.ctx, hos, hcx]
    have hvote := vote_merged (q := q) (t := t) (kind := kind) (r := r) (delay := voteDelay tm w (tm.acting w.ms)) ho hc he hm hp
    refine ⟨fun hentry hfull => ?waits, fun hroom => ?takes⟩
    case waits => exact exec_vote_waits h (hvote.trans (if_pos (by simp [hentry, hfull])))
    case takes =>
      have htakes : ¬ (!p.entry && decide (64 ≤ cx.voteEntries)) = true := by
        rcases hroom with hroom | hroom <;> simp [hroom]
      refine ⟨fun ⟨d, hd, hmissing⟩ => ?joins, fun hall => ?completes⟩
      case joins =>
        have hpart : ¬ (p.dests.all fun d => parts.any (has d)) = true := fun hall =>
          Bool.false_ne_true (hmissing.symm.trans (List.all_eq_true.1 hall d hd))
        exact exec_vote_retires h ((hvote.trans (if_neg htakes)).trans (if_neg hpart))
      case completes =>
        have hpush := (hvote.trans (if_neg htakes)).trans (if_pos (List.all_eq_true.2 hall))
        exact exec_vote_retires h (hpush.trans (congrArg some (pushVote_modCtx hos ..)))
  case fields =>
    intro ps first
    rw [mergeVotes_eq]
    exact record_fields _ _ _ _ (by omega)
  case registers =>
    intro s q t sq tm w n line before fits
    refine ⟨fun h => ⟨fun hfit => ?granted, fun hfit => ?inLine⟩, fun h => ⟨fun hidle => ?gives, fun hbusy => ?givesLater⟩⟩
    case granted => exact exec_claim_granted h fun k hk => coreFits_iff.2 (hfit k hk)
    case inLine =>
      obtain ⟨k, hk, hnofit⟩ := hfit
      have hnot (j : Nat) (hj : ¬ fits j) : coreFits s sq.cluster tm n j = false := Bool.eq_false_iff.2 fun hfits => hj (coreFits_iff.1 hfits)
      refine ⟨_, exec_claim_waits h ⟨k, hk, Bool.eq_false_iff.1 (hnot k hnofit)⟩, ?frame, fun j hj hcl => ?lines⟩
      case frame => exact (joinAll_same ..).of_eq (claimIssued_eq s q t)
      case lines =>
        have hclusters : (claimIssued s q t).clusters = s.clusters := State.modTeam_clusters ..
        have hcluster : (claimIssued s q t).cluster sq.cluster = s.cluster sq.cluster := State.cluster_modTeam ..
        have hline := claimLine_joinAll (s := claimIssued s q t) (q := q) (t := t) (n := s.serial + 1) (coreFits s sq.cluster tm n) (cores_nodup tm)
          (hclusters ▸ hcl) (hcluster ▸ hj)
        rw [insertClaim, aheadOf_claimIssued, claimLine, claimLine, hcluster] at hline
        refine ⟨fun hkeeps => hline.trans (if_neg ?_), fun hfit hmem => hline.trans (if_pos ⟨hmem, hnot j hfit⟩)⟩
        rintro ⟨hmem, hfalse⟩
        rcases hkeeps with hfit | hout
        · exact Bool.false_ne_true (hfalse.symm.trans (coreFits_iff.2 hfit))
        · exact hout hmem
    case gives => exact ⟨tm.dropRegs (tm.n - n), laneRun_finish h (if_pos hidle), rfl, fun r l => V_dropRegs ..⟩
    case givesLater => exact laneRun_wait h (if_neg hbusy)

end Sys2Proof.Machine.VotesAndClaims
end

section
/-! PROOFS. Huddles (06_lane_memory.md R156 to R161; 10_cluster_engines.md R265): arrivals and expectations as numbers, and the huddle words of
teams and contexts. -/

namespace Sys2Proof.Machine.Huddles

open LaneNumbers (fieldN_eq_div_mod)
open LaneAlu (fieldN_low)

/-! ## Arrivals and expectations (R157 to R159) -/

/-- The number of arrivals that a huddle expects once `n` are named (R158). -/
def expected (h : Huddle) (n : Nat) : Nat := if n ≠ 0 ∧ h.arr = 0 then n else h.exp

/-- An arrival is refused when it names another count than the one expected, or finds none expected or all of them in; any other counts one more,
and completes the phase where it may (R157, R158). -/
theorem arrive_eq (h : Huddle) (n : Nat) :
    h.arrive n = if (n ≠ 0 ∧ h.arr ≠ 0 ∧ n ≠ h.exp) ∨ expected h n = 0 ∨ h.arr = expected h n then none
      else some ({ h with exp := expected h n, arr := h.arr + 1 } : Huddle).check := by
  by_cases hcount : n ≠ 0 ∧ h.arr ≠ 0 ∧ n ≠ h.exp
  · exact (if_pos hcount).trans (if_pos (.inl hcount)).symm
  · refine (if_neg hcount).trans ?_
    simp only [hcount, false_or]
    rfl

theorem arrive_eq_none_iff (h : Huddle) (n : Nat) :
    h.arrive n = none ↔ (n ≠ 0 ∧ h.arr ≠ 0 ∧ n ≠ h.exp) ∨ expected h n = 0 ∨ h.arr = expected h n := by
  rw [arrive_eq, ite_eq_left_iff]
  exact ⟨fun h => Classical.not_not.1 fun hopen => Option.some_ne_none _ (h hopen), fun hrefused hopen => absurd hrefused hopen⟩

theorem arrive_eq_some {h h' : Huddle} {n : Nat} (ha : h.arrive n = some h') :
    expected h n ≠ 0 ∧ h' = ({ h with exp := expected h n, arr := h.arr + 1 } : Huddle).check := by
  obtain ⟨hopen, hsome⟩ := Option.ite_none_left_eq_some.1 ((arrive_eq h n).symm.trans ha)
  exact ⟨fun h0 => hopen (.inr (.inl h0)), (Option.some.inj hsome).symm⟩

/-- A huddle with every expected arrival in and nothing owed begins its next phase (R157). -/
theorem check_done {h : Huddle} (hd : h.arr = h.exp ∧ h.exp ≠ 0 ∧ h.owed = 0) :
    h.check = { h with ph := (h.ph + 1) % 2 ^ 32, arr := 0 } := if_pos hd

/-- Any other huddle stays as it is. -/
theorem check_open {h : Huddle} (hd : ¬ (h.arr = h.exp ∧ h.exp ≠ 0 ∧ h.owed = 0)) : h.check = h := if_neg hd

theorem expect_eq_none_iff (h : Huddle) (n : Int) : h.expect n = none ↔ h.owed + n < -32768 ∨ 32767 < h.owed + n := by
  rw [Huddle.expect, ite_eq_left_iff]
  exact ⟨fun h => Classical.not_not.1 fun hin => Option.some_ne_none _ (h hin), fun hout hin => absurd hout hin⟩

theorem expect_eq_some {h h' : Huddle} {n : Int} (he : h.expect n = some h') : h' = ({ h with owed := h.owed + n } : Huddle).check :=
  (Option.some.inj (Option.ite_none_left_eq_some.1 he).2).symm

/-! ## The words' fields -/

theorem liHuddle_eq (w : LI) : liHuddle w = w.imm.toNat % 16 := fieldN_low ..

theorem grHuddle_eq (w : GR) : grHuddle w = w.fn.toNat % 16 := fieldN_low ..

/-- The count of a team's huddle word, IMM[31:16]. -/
theorem liCount_eq (w : LI) : fieldN w.imm.toNat 16 16 = w.imm.toNat / 2 ^ 16 := by
  have := w.imm.isLt
  rw [fieldN_eq_div_mod]; omega

/-! ## Words of teams (R158, R159) -/

section team

variable {s : State} {q t : Nat} {sq : Squad} {tm : Team} {i : Instr} {ms : BitVec 3} {body : LaneIn → LaneRes}

/-- A huddle word that changes no huddle parks its team with m0 unfinished. -/
theorem laneRun_mismatch (h : LaneReady s q t sq tm i ms) (hb : body (laneIn s q t sq tm ms) = (laneIn s q t sq tm ms).mismatch) :
    laneRun i ms body s = .next (s.laneStop q t sq tm i ms .huddleMismatch [] (tm.m 0)) := laneRun_park h hb

end team

/-- Settles O16: the words by the step lemmas of lane and generator words, each from its arrival or sum; arrivals and sums by `arrive_eq_none_iff`,
`arrive_eq_some`, `expect_eq_none_iff`, `expect_eq_some` and the completion test. -/
theorem huddleWordsArriveWaitAndExpect : Obligations.HuddleWordsArriveWaitAndExpect := by
  refine ⟨⟨?teams, ?contexts⟩, ?arrivals, ?expectations⟩
  case teams =>
    intro s q t sq tm w
    simp only [← liHuddle_eq, ← liCount_eq]
    refine ⟨fun hr => ⟨fun hd' ha => ?harrive, fun ha => ?harriveFails⟩,
      fun hr => ⟨fun hd' ha => ⟨fun hph => ?hsync, fun hph => ?hsyncWaits⟩, fun ha => ?hsyncFails⟩,
      fun hr => ⟨fun hph => ?hwait, fun hph => ?hwaitWaits⟩, fun hr => ⟨fun hd' he => ?hexpect, fun he => ?hexpectFails⟩⟩
    case harrive => exact laneRun_done hr (by simp only [laneIn_sq, ha]; rfl)
    case harriveFails => exact laneRun_mismatch hr (by simp only [laneIn_sq, ha])
    case hsync => exact laneRun_done hr (by simp only [laneIn_sq, ha]; exact if_neg hph)
    case hsyncWaits => exact laneRun_wait hr (by simp only [laneIn_sq, ha]; exact if_pos hph)
    case hsyncFails => exact laneRun_mismatch hr (by simp only [laneIn_sq, ha])
    case hwait => exact laneRun_finish hr (if_neg hph)
    case hwaitWaits => exact laneRun_wait hr (if_pos hph)
    case hexpect => exact laneRun_done hr (by simp only [laneIn_sq, he]; rfl)
    case hexpectFails => exact laneRun_mismatch hr (by simp only [laneIn_sq, he])
  case contexts =>
    intro s q c sq cx w
    simp only [← grHuddle_eq]
    have harrive : exec (.gharrive w) s = execGharrive w s := rfl
    have hsync : exec (.ghsync w) s = execGhsync w s := rfl
    rw [harrive, hsync]
    refine ⟨fun hr => ⟨fun hd' ha => ?gharrive, fun ha => ?gharriveFails⟩,
      fun hr hnew => ⟨fun hd' ha => ⟨fun hph => ?ghsync, fun hph => ?ghsyncWaits⟩, fun ha => ?ghsyncFails⟩,
      fun hr hold => ⟨fun hph => ?goesOn, fun hph => ?waitsStill⟩⟩
    case gharrive => exact genRun_done hr (by simp only [genIn_sq, ha]; rfl)
    case gharriveFails => exact genRun_trap hr (by simp only [genIn_sq, ha]; rfl)
    case ghsync => exact genRun_done hr (by simp only [genIn_sq, genIn_cx, hnew, ha, if_false]; exact if_neg hph)
    case ghsyncWaits => exact genRun_wait hr (by simp only [genIn_sq, genIn_cx, hnew, ha, if_false]; exact if_pos hph)
    case ghsyncFails => exact genRun_trap hr (by simp only [genIn_sq, genIn_cx, hnew, ha, if_false]; rfl)
    case goesOn => exact genRun_finish hr ((if_pos hold).trans (if_neg hph))
    case waitsStill => exact genRun_wait hr ((if_pos hold).trans (if_pos hph))
  case arrivals =>
    intro h n e
    refine ⟨arrive_eq_none_iff h n, fun h' ha => ?_⟩
    obtain ⟨hne, hnew⟩ := arrive_eq_some ha
    by_cases hlast : h.arr + 1 = e ∧ h.owed = 0
    · obtain rfl := hnew.trans (check_done ⟨hlast.1, hne, hlast.2⟩)
      exact ⟨rfl, rfl, fun _ => ⟨rfl, rfl⟩, fun hopen => absurd hlast hopen⟩
    · obtain rfl := hnew.trans (check_open fun hd => hlast ⟨hd.1, hd.2.2⟩)
      exact ⟨rfl, rfl, fun hdone => absurd hdone hlast, fun _ => ⟨rfl, rfl⟩⟩
  case expectations =>
    intro h n done
    refine ⟨expect_eq_none_iff h n, fun h' he => ?_⟩
    have hnew := expect_eq_some he
    by_cases hdone : done
    · obtain rfl := hnew.trans (check_done hdone)
      exact ⟨rfl, rfl, fun _ => ⟨rfl, rfl⟩, fun hopen => absurd hdone hopen⟩
    · obtain rfl := hnew.trans (check_open hdone)
      exact ⟨rfl, rfl, fun h => absurd h hdone, fun _ => ⟨rfl, rfl⟩⟩

end Sys2Proof.Machine.Huddles
end

section
/-! PROOFS. What the memory and tile words of lanes share: changes of one team, teams whose registers read alike, and how a word ends from the stops of
its lanes (06_lane_memory.md R144 to R148). -/

namespace Sys2Proof.Machine.LaneEnds

open TeamState (squad_modTeam modTeam_eq_const)
open VotesAndClaims (modSquad_modSquad team_modTeam)

/-! ## Changes of one team -/

/-- Two changes of one team are one. -/
theorem modTeam_modTeam (s : State) (q t : Nat) (f g : Team → Team) : (s.modTeam q t f).modTeam q t g = s.modTeam q t (g ∘ f) := by
  unfold State.modTeam
  rw [modSquad_modSquad]
  congr 1
  funext x
  simp [List.modify_modify_eq]

/-- The team of a ready word is where its state has it. -/
theorem team_of_ready {s : State} {q t : Nat} {sq : Squad} {tm : Team} {i : Instr} {ms : BitVec 3} (h : LaneReady s q t sq tm i ms) :
    s.team q t = some tm := by
  obtain ⟨-, hs, ht, -⟩ := h
  simp [State.team, hs, ht]

/-- A team after it has been changed. -/
theorem team_modTeam_same {s : State} {q t : Nat} {tm : Team} (f : Team → Team) (h : s.team q t = some tm) :
    (s.modTeam q t f).team q t = some (f tm) := by simp [team_modTeam, h]

/-- A retirement writes its team anew, so putting the team in its place before changes nothing. -/
theorem retire_modTeam_same {s : State} {q t : Nat} {tm : Team} (h : s.team q t = some tm) (sq : Squad) (old : Team) (i : Instr) (m : Mask) :
    (s.modTeam q t fun _ => tm).retire q t sq old i m = s.retire q t sq old i m := by
  have hmod (f : Team → Team) : (s.modTeam q t fun _ => tm).modTeam q t f = s.modTeam q t f := by
    rw [modTeam_modTeam, modTeam_eq_const h (f := f)]; rfl
  have hslot (f : Team → Team) :
      ((s.modTeam q t fun _ => tm).takeSlot q t sq old i m).modTeam q t f = (s.takeSlot q t sq old i m).modTeam q t f := by
    by_cases hst : old.started.isSome = true
    · simp only [State.takeSlot, hst, if_true, hmod]
    · simp only [State.takeSlot, hst, if_false, Bool.false_eq_true, hmod, State.cluster_modTeam]
  simp only [State.retire, hslot, State.cluster_modTeam, State.modTeam_free]

/-! ## Teams whose registers read alike -/

/-- A register and a lane that a team has written. -/
theorem mem_written (tm : Team) (r l : Nat) :
    (r, l) ∈ tm.written ↔ r < 128 ∧ l < tm.lanes ∧ ∃ p ∈ tm.wrote, p.1 = r ∧ p.2.getLsbD l = true := by
  simp only [Team.written, List.mem_flatMap, List.mem_filter, List.mem_eraseDups, List.mem_map, decide_eq_true_eq, List.any_eq_true,
    Bool.and_eq_true, beq_iff_eq, upTo, List.mem_range, Prod.mk.injEq]
  constructor
  · rintro ⟨r', ⟨-, hr⟩, l', ⟨hl, hp⟩, rfl, rfl⟩
    exact ⟨hr, hl, hp⟩
  · rintro ⟨hr, hl, p, hp, hpr, hpl⟩
    exact ⟨r, ⟨⟨p, hp, hpr⟩, hr⟩, l, ⟨hl, p, hp, hpr, hpl⟩, rfl, rfl⟩

theorem nodup_eraseDups (l : List Nat) : l.eraseDups.Nodup := by
  induction hn : l.length using Nat.strong_induction_on generalizing l with
  | _ n ih =>
    cases l with
    | nil => simp
    | cons a l =>
      rw [List.eraseDups_cons, List.nodup_cons]
      have hlen : (l.filter fun b => !b == a).length < n := by
        have := List.length_filter_le (fun b => !b == a) l
        simp at hn; omega
      exact ⟨by simp [List.mem_eraseDups], ih _ hlen _ rfl⟩

theorem written_nodup (tm : Team) : tm.written.Nodup := by
  refine List.nodup_flatMap.2 ⟨fun r _ => ?_, ?_⟩
  · exact (List.nodup_range.filter _).map fun a b h => (Prod.mk.inj h).2
  · refine ((nodup_eraseDups _).filter _).imp fun {a b} hab => ?_
    intro p hpa hpb
    simp only [List.mem_map] at hpa hpb
    obtain ⟨_, -, rfl⟩ := hpa
    obtain ⟨_, -, hp⟩ := hpb
    exact hab (Prod.mk.inj hp).1.symm

/-- What a team has written after one more register. -/
theorem mem_written_setV (tm : Team) (k : Nat) (m : Mask) (f : Nat → Word) (r l : Nat) :
    (r, l) ∈ (tm.setV k m f).written ↔ (r < 128 ∧ l < tm.lanes ∧ r = k ∧ m.getLsbD l = true) ∨ (r, l) ∈ tm.written := by
  rw [mem_written, mem_written]
  simp only [Team.setV, List.mem_cons, exists_eq_or_imp]
  tauto

/-- Two teams that have written the same registers and lanes list the same. -/
theorem written_perm {a b : Team} (h : ∀ r l, (r, l) ∈ a.written ↔ (r, l) ∈ b.written) : a.written.Perm b.written :=
  (List.perm_ext_iff_of_nodup (written_nodup a) (written_nodup b)).2 fun p => h p.1 p.2

theorem readsAs_refl (tm : Team) : tm.readsAs tm := ⟨rfl, .refl _, fun _ _ _ => rfl⟩

theorem readsAs_lanes {a b : Team} (h : a.readsAs b) : a.lanes = b.lanes := by rw [h.1]

/-- A write of the same values to a register of two teams that read alike. -/
theorem readsAs_setV {a b : Team} (h : a.readsAs b) (k : Nat) {m m' : Mask} {f g : Nat → Word}
    (hm : ∀ l, l < b.lanes → m.getLsbD l = m'.getLsbD l) (hf : ∀ l, l < b.lanes → m.getLsbD l = true → f l = g l) :
    (a.setV k m f).readsAs (b.setV k m' g) := by
  have hlanes := readsAs_lanes h
  obtain ⟨hab, hw, hv⟩ := h
  refine ⟨?frame, written_perm fun r l => ?written, fun r l hl => ?value⟩
  case frame => rw [hab]; rfl
  case written =>
    rw [mem_written_setV, mem_written_setV, hw.mem_iff, hlanes]
    by_cases hl : l < b.lanes
    · rw [hm l hl]
    · simp [hl]
  case value =>
    have hl' : l < b.lanes := hl
    rw [Team.V_setV _ _ _ _ _ _ (hlanes ▸ hl'), Team.V_setV _ _ _ _ _ _ hl', hm l hl', hv k l hl', hv r l hl']
    by_cases hk : r = k
    · cases hml : m'.getLsbD l with
      | false => simp
      | true => simp [hk, hf l hl' ((hm l hl').trans hml)]
    · simp [hk]

/-- A write of the same values of a type. -/
theorem readsAs_setTy {a b : Team} (h : a.readsAs b) (k : NumTy) (d : Nat) {m m' : Mask} {f g : Nat → Nat}
    (hm : ∀ l, l < b.lanes → m.getLsbD l = m'.getLsbD l) (hf : ∀ l, l < b.lanes → m.getLsbD l = true → f l = g l) :
    (a.setTy k d m f).readsAs (b.setTy k d m' g) := by
  unfold Team.setTy Team.setV64
  split
  · exact readsAs_setV (readsAs_setV h d hm fun l hl hml => by simp only [hf l hl hml]) (d + 1) hm fun l hl hml => by simp only [hf l hl hml]
  · exact readsAs_setV h d hm fun l hl hml => by rw [hf l hl hml]

/-- A write to no lane. -/
theorem readsAs_setV_none {a b : Team} (h : a.readsAs b) (k : Nat) {m : Mask} (f : Nat → Word) (hm : ∀ l, l < b.lanes → m.getLsbD l = false) :
    (a.setV k m f).readsAs b := by
  have hlanes := readsAs_lanes h
  obtain ⟨hab, hw, hv⟩ := h
  refine ⟨?frame, written_perm fun r l => ?written, fun r l hl => ?value⟩
  case frame => rw [hab]; rfl
  case written =>
    rw [mem_written_setV, hw.mem_iff, hlanes]
    by_cases hl : l < b.lanes
    · simp [hm l hl]
    · simp [hl]
  case value =>
    rw [Team.V_setV _ _ _ _ _ _ (hlanes ▸ hl), hv k l hl, hv r l hl, hm l hl]
    by_cases hk : r = k <;> simp [hk]

theorem readsAs_setTy_none {a b : Team} (h : a.readsAs b) (k : NumTy) (d : Nat) {m : Mask} (f : Nat → Nat)
    (hm : ∀ l, l < b.lanes → m.getLsbD l = false) : (a.setTy k d m f).readsAs b := by
  unfold Team.setTy Team.setV64
  split
  · exact readsAs_setV_none (readsAs_setV_none h d _ hm) (d + 1) _ hm
  · exact readsAs_setV_none h d _ hm

/-- Teams that read alike still do once both have the same lanes to do and the same faults. -/
theorem readsAs_todo {a b : Team} (h : a.readsAs b) (u : Option Mask) (fs : List LaneFault) :
    ({ a with todo := u, faulted := fs } : Team).readsAs { b with todo := u, faulted := fs } := by
  obtain ⟨hab, hw, hv⟩ := h
  exact ⟨by rw [hab], hw, hv⟩

/-- Teams that read alike still do once both keep the same faults. -/
theorem readsAs_faulted {a b : Team} (h : a.readsAs b) (fs : List LaneFault) : ({ a with faulted := fs } : Team).readsAs { b with faulted := fs } := by
  obtain ⟨hab, hw, hv⟩ := h
  exact ⟨by rw [hab], hw, hv⟩

/-- A write depends on the values of its lanes alone. -/
theorem setV_congr (tm : Team) (r : Nat) {m : Mask} {f g : Nat → Word} (h : ∀ l, m.getLsbD l = true → f l = g l) :
    tm.setV r m f = tm.setV r m g := by
  have hvals : ((upTo tm.lanes).map fun l => if m.getLsbD l then f l else tm.V l r) = (upTo tm.lanes).map fun l => if m.getLsbD l then g l else tm.V l r :=
    List.map_congr_left fun l _ => ite_congr rfl (h l) fun _ => rfl
  rw [Team.setV, hvals]
  rfl

theorem setTy_congr (tm : Team) (k : NumTy) (d : Nat) {m : Mask} {f g : Nat → Nat} (h : ∀ l, m.getLsbD l = true → f l = g l) :
    tm.setTy k d m f = tm.setTy k d m g := by
  unfold Team.setTy Team.setV64
  split
  · have hlow := setV_congr tm d (m := m) (f := fun l => (BitVec.ofNat 64 (f l)).extractLsb' 0 32) (g := fun l => (BitVec.ofNat 64 (g l)).extractLsb' 0 32)
      fun l hl => by rw [h l hl]
    rw [hlow]
    exact setV_congr _ (d + 1) fun l hl => by simp only [h l hl]
  · exact setV_congr tm d fun l hl => by rw [h l hl]

/-! ## The lanes of a word one after another -/

section each

variable {x : LaneIn} {w : MemWord} {f : State → Nat → LR2 Nat}

/-- What `P` says of the values read so far and of the state holds once all lanes have been performed, when each lane, behind those before it, is
performed and keeps it. -/
theorem each_induction {P : List (Nat × Nat) → State → Prop} (ls : List Nat) (z : LaneSt) (hz : P z.vals z.s)
    (hstep : ∀ (pre : List Nat) (l : Nat) (post : List Nat) (vals : List (Nat × Nat)) (s : State), ls = pre ++ l :: post →
      vals.map (·.1) = z.vals.map (·.1) ++ pre → P vals s → ∃ v s', f s l = (.ok v, s') ∧ P (vals ++ [(l, v)]) s') :
    ∃ vals s', x.each w f ls z = ⟨s', vals, z.stops⟩ ∧ vals.map (·.1) = z.vals.map (·.1) ++ ls ∧ P vals s' := by
  induction ls generalizing z with
  | nil => exact ⟨z.vals, z.s, rfl, by simp, hz⟩
  | cons l ls ih =>
    obtain ⟨v, s', hf, hP⟩ := hstep [] l ls z.vals z.s rfl (by simp) hz
    have heach : x.each w f (l :: ls) z = x.each w f ls { z with s := s', vals := z.vals ++ [(l, v)] } := by simp only [LaneIn.each, hf]
    obtain ⟨vals, s'', hall, hlanes, hP'⟩ := ih { z with s := s', vals := z.vals ++ [(l, v)] } hP fun pre k post vals y hls hvals hy =>
      hstep (l :: pre) k post vals y (by rw [hls]; rfl) (by rw [hvals]; simp) hy
    exact ⟨vals, s'', heach.trans hall, by rw [hlanes]; simp, hP'⟩

/-- One lane that is performed. -/
theorem each_one_ok {s s' : State} {l v : Nat} (h : f s l = (.ok v, s')) : x.each w f [l] { s := s } = { s := s', vals := [(l, v)] } := by
  simp only [LaneIn.each, h, List.nil_append]

/-- One lane that is not. -/
theorem each_one_error {s s' : State} {l va : Nat} {e : MemFail} (h : f s l = (.error (e, va), s')) :
    x.each w f [l] { s := s } = { s := s', stops := [(l, x.stopOf s' w l va e)] } := by
  simp only [LaneIn.each, h, List.nil_append]

end each

/-! ## The end of a word -/

/-- The stops of a word all of whose lanes have been performed. -/
theorem ordered_nil (s : State) (vals : List (Nat × Nat)) (n : Nat) : (⟨s, vals, []⟩ : LaneSt).ordered n = [] := by
  simp [LaneSt.ordered, aget?]

/-- Listing a value for each element that meets a condition. -/
theorem filterMap_ite {α : Type} (p : Nat → Bool) (g : Nat → α) (ls : List Nat) :
    (ls.filterMap fun k => if p k then some (g k) else none) = (ls.filter p).map g := by
  induction ls with
  | nil => rfl
  | cons k ks ih => cases hk : p k <;> simp [hk, ih]

/-- The stops of a word of one lane. -/
theorem ordered_one {s : State} {vals : List (Nat × Nat)} {l n : Nat} (z : Stop) (hl : l < n) :
    (⟨s, vals, [(l, z)]⟩ : LaneSt).ordered n = [(l, z)] := by
  have hat (k : Nat) : (aget? [(l, z)] k).map (fun p => (k, p)) = if k == l then some (k, z) else none := by
    by_cases hk : k = l
    · simp [aget?, hk]
    · simp [aget?, hk, Ne.symm hk]
  simp only [LaneSt.ordered, hat, filterMap_ite]
  rw [List.filter_beq, upTo, List.count_eq_one_of_mem List.nodup_range (List.mem_range.2 hl)]
  rfl

section ending

variable {x : LaneIn} {s : State} {m : Master}

/-- A word with no stops and no faults kept is done. -/
theorem ending_nil (hf : x.tm.faulted = []) : x.ending s m [] = .done s := by
  simp [LaneIn.ending, Team.faults, faultsOf, hf, LaneIn.settled]

/-- A word of one lane that waits for an answer of another device keeps the lane to do. -/
theorem ending_remote {l : Nat} (hf : x.tm.faulted = []) :
    x.ending s m [(l, .remote)] = .wait .remote (s.modTeam x.q x.t fun tm => { tm with todo := some (maskOf [l]), faulted := [] }) := by
  simp [LaneIn.ending, Team.faults, faultsOf, hf, Stop.isViolation, stopMask, Stop.waits]

/-- A word of one lane that waits for its task's commit keeps the lane to do. -/
theorem ending_spec {l : Nat} (hf : x.tm.faulted = []) :
    x.ending s m [(l, .spec)] = .wait .spec (s.modTeam x.q x.t fun tm => { tm with todo := some (maskOf [l]), faulted := [] }) := by
  simp [LaneIn.ending, Team.faults, faultsOf, hf, Stop.isViolation, stopMask, Stop.waits]

/-- The faults of stops that are all faults. -/
theorem faultsOf_map (ls : List Nat) (c : Cause) (info : Nat → List DWord) (rec_ : Nat → List Byte) :
    faultsOf (ls.map fun l => (l, .fault c (info l) (rec_ l))) = ls.map fun l => ⟨l, c, info l, rec_ l⟩ := by
  simp [faultsOf, List.filterMap_map]

/-- Looking up the fault of a lane. -/
theorem find?_map_lane (ls : List Nat) (g : Nat → LaneFault) (hg : ∀ l, (g l).lane = l) (k : Nat) :
    ((ls.map g).find? fun f => f.lane == k) = if k ∈ ls then some (g k) else none := by
  induction ls with
  | nil => rfl
  | cons l ls ih =>
    by_cases hl : l = k
    · subst hl; simp [hg]
    · simp [hg, hl, Ne.symm hl, ih]

/-- The faults that a word keeps all of whose lanes fault. -/
theorem faults_map {tm : Team} {m : Mask} (hf : tm.faulted = []) (c : Cause) (info : Nat → List DWord) (rec_ : Nat → List Byte) :
    tm.faults ((tm.lanesOf m).map fun l => (l, .fault c (info l) (rec_ l))) = (tm.lanesOf m).map fun l => ⟨l, c, info l, rec_ l⟩ := by
  have hat (k : Nat) (hk : k ∈ upTo tm.lanes) :
      (((tm.lanesOf m).map fun l => (⟨l, c, info l, rec_ l⟩ : LaneFault)).find? fun f => f.lane == k)
        = if m.getLsbD k then some ⟨k, c, info k, rec_ k⟩ else none := by
    rw [find?_map_lane _ (fun l => ⟨l, c, info l, rec_ l⟩) fun _ => rfl]
    simp [List.mem_range.1 hk]
  rw [Team.faults, faultsOf_map, hf, List.append_nil, List.filterMap_congr hat, filterMap_ite]
  rfl

/-- A word all of whose lanes fault parks with the cause of the lowest, all of them unfinished. -/
theorem ending_faults {c : Cause} {info : Nat → List DWord} {rec_ : Nat → List Byte} (hne : x.tm.lanesOf x.m ≠ []) (hf : x.tm.faulted = []) :
    ∃ l ∈ x.tm.lanesOf x.m, ∃ fs, x.ending s m ((x.tm.lanesOf x.m).map fun l => (l, .fault c (info l) (rec_ l)))
      = .park c (info l) (maskOf (x.tm.lanesOf x.m)) (rec_ l) (s.modTeam x.q x.t fun tm => { tm with faulted := fs }) := by
  obtain ⟨l, ls, hls⟩ := List.exists_cons_of_ne_nil hne
  have hfaults := faults_map (m := x.m) hf c info rec_
  have hmask : maskOf (((x.tm.lanesOf x.m).map fun l => (⟨l, c, info l, rec_ l⟩ : LaneFault)).map (·.lane)) = maskOf (x.tm.lanesOf x.m) := by
    simp [List.map_map, Function.comp_def]
  have hsettled : x.settled s ((x.tm.lanesOf x.m).map fun l => ⟨l, c, info l, rec_ l⟩) 0 = .park c (info l) (maskOf (x.tm.lanesOf x.m)) (rec_ l)
      (s.modTeam x.q x.t fun tm => { tm with faulted := (x.tm.lanesOf x.m).map fun l => ⟨l, c, info l, rec_ l⟩ }) := by
    rw [hls] at hmask ⊢
    simp only [LaneIn.settled, List.map_cons, faultMask] at hmask ⊢
    simp only [hmask, if_true]
    simp
  have hl : l ∈ x.tm.lanesOf x.m := hls ▸ List.mem_cons_self
  refine ⟨l, hl, (x.tm.lanesOf x.m).map fun l => ⟨l, c, info l, rec_ l⟩, Eq.trans ?_ hsettled⟩
  unfold LaneIn.ending
  cases hst : x.tm.starved
  all_goals simp [List.map_map, Function.comp_def, Stop.isViolation, hfaults]

end ending

/-- A ready word all of whose lanes fault parks its team with the lowest lane's fault, and all of them unfinished (R84). -/
theorem laneRun_faults {s y : State} {q t : Nat} {sq : Squad} {tm : Team} {i : Instr} {ms : BitVec 3} {body : LaneIn → LaneRes} {m : Master}
    {c : Cause} {info : Nat → List DWord} {rec_ : Nat → List Byte} (h : LaneReady s q t sq tm i ms) (hne : tm.lanesOf (tm.acting ms) ≠ [])
    (hf : tm.faulted = [])
    (hb : body (laneIn s q t sq tm ms)
      = (laneIn s q t sq tm ms).ending y m ((tm.lanesOf (tm.acting ms)).map fun l => (l, .fault c (info l) (rec_ l)))) :
    ∃ l ∈ tm.lanesOf (tm.acting ms), ∃ fs, laneRun i ms body s
      = .next ((y.modTeam q t fun tm => { tm with faulted := fs }).laneStop q t sq tm i ms c (info l) (maskOf (tm.lanesOf (tm.acting ms))) (rec_ l)) := by
  obtain ⟨l, hl, fs, hend⟩ := ending_faults (x := laneIn s q t sq tm ms) (s := y) (m := m) (info := info) (rec_ := rec_) (c := c) hne hf
  exact ⟨l, hl, fs, laneRun_park h (hb.trans hend)⟩

/-- The mask of the lanes of a mask, over the lanes that exist. -/
theorem getLsbD_maskOf_lanesOf {tm : Team} (hn : tm.lanes ≤ 1024) (m : Mask) {l : Nat} (hl : l < tm.lanes) :
    (maskOf (tm.lanesOf m)).getLsbD l = m.getLsbD l := by
  rw [getLsbD_maskOf]
  simp only [mem_lanesOf, hl, show l < 1024 by omega, true_and, Bool.decide_eq_true, decide_true, Bool.and_true]

end Sys2Proof.Machine.LaneEnds
end

section
/-! PROOFS. The lane words on tiles (06_lane_memory.md R150 to R155) and the words of the tile table (08_core_tiles_sched.md R193 to R197). -/

namespace Sys2Proof.Machine.TileWords

open TeamState (laneRun_trap squad_modSquad)
open VotesAndClaims (modSquad_eq_setSquad)
open LaneEnds
open LaneNumbers (fieldN_eq_div_mod)
open LaneAlu (fieldN_low)

/-! ## Tiles after a change of state -/

/-- A tile of a squad after a change of the squad. -/
theorem tile_modSquad {s : State} {q : Nat} {sq : Squad} (f : Squad → Squad) (hs : s.squad q = some sq) (j : Nat) :
    (s.modSquad q f).tile q j = aget? (f sq).tiles j := by
  simp [State.tile, squad_modSquad, hs]

/-- A change of one team leaves every tile. -/
theorem tile_modTeam (s : State) (q t p j : Nat) (f : Team → Team) : (s.modTeam q t f).tile p j = s.tile p j := by
  unfold State.tile
  rw [TeamState.squad_modTeam]
  by_cases hp : p = q
  · subst hp; cases s.squad p <;> simp
  · simp [hp]

/-- Writing a tile leaves the teams. -/
theorem team_setTile (s : State) (q h p t : Nat) (k : Tile) : (s.setTile q h k).team p t = s.team p t := by
  unfold State.team State.setTile
  rw [squad_modSquad]
  by_cases hp : p = q
  · subst hp; cases s.squad p <;> simp
  · simp [hp]

@[simp] theorem setTile_mem (s : State) (q h : Nat) (k : Tile) : (s.setTile q h k).mem = s.mem := State.modSquad_mem ..

/-! ## The checks of a lane (R151) -/

/-- A lane that names an element of a tile in TS or L2P, of the word's type, passes. -/
theorem tileCheck_in {k : Tile} {ty : Option NumTy} {rc : Nat × Nat} (hlevel : k.level ≠ 0) (hty : ∀ t ∈ ty, k.ty = t)
    (hr : rc.1 < k.rows) (hc : rc.2 < k.cols) : tileCheck (some k) ty rc = some k := by
  cases ty with
  | none => simp [tileCheck, hlevel, hr, hc]
  | some t => simp [tileCheck, hlevel, hr, hc, hty t rfl]

/-- A lane that names no tile, or an ACC tile, does not. -/
theorem tileCheck_out {x : Option Tile} (hx : x = none ∨ ∃ k, x = some k ∧ k.level = 0) (ty : Option NumTy) (rc : Nat × Nat) :
    tileCheck x ty rc = none := by
  rcases hx with rfl | ⟨k, rfl, hk⟩
  · rfl
  · simp [tileCheck, hk]

/-! ## Lists over lanes -/

/-- Listing a value that every element has. -/
theorem filterMap_some {β : Type} {f : Nat → Option β} {g : Nat → β} {ls : List Nat} (h : ∀ l ∈ ls, f l = some (g l)) : ls.filterMap f = ls.map g :=
  (List.filterMap_congr h).trans (congrFun List.filterMap_eq_map' ls)

/-- A lane's value in the values of some lanes. -/
theorem aget_map_lane (ls : List Nat) (v : Nat → Nat) {l : Nat} (hl : l ∈ ls) : aget 0 (ls.map fun l => (l, v l)) l = v l := by
  induction ls with
  | nil => cases hl
  | cons a ls ih =>
    by_cases ha : a = l
    · subst ha; simp [aget]
    · have hl' : l ∈ ls := (List.mem_cons.1 hl).resolve_left (Ne.symm ha)
      simp [aget, ha, ih hl']

/-! ## LDT (R150, R151, R153) -/

/-- What a lane of an LDT comes to. -/
def ldtLane (x : LaneIn) (w : LR) (l : Nat) : Except Stop Nat :=
  let mw : MemWord := { tile := true, lsize := lsizeOf ((x.ty w.ty).width / 8) }
  let rc := x.rowCol w l
  let lines : List Nat := match tileCheck (x.tile w.b.toNat) (some (x.ty w.ty)) rc with
    | some k => k.elemLines rc.1 rc.2
    | none => []
  match tileCheck (x.tile w.b.toNat) (some (x.ty w.ty)) rc with
  | none => .error (LaneIn.tileStop mw l rc .tileHandle none)
  | some k =>
    match (k.elemLines rc.1 rc.2).find? fun j => !k.full j with
    | some j => .error (.line w.b.toNat j [0, BitVec.ofNat 64 (mw.map l), BitVec.ofNat 64 rc.1, BitVec.ofNat 64 rc.2])
    | none => if (k.badLine lines).isSome then .error (LaneIn.tileStop mw l rc .uncorrectableData none) else .ok (k.code rc.1 rc.2)

/-- The value of a lane that is performed. -/
def ldtValue (x : LaneIn) (w : LR) (l : Nat) : Option (Nat × Nat) :=
  match ldtLane x w l with
  | .ok v => some (l, v)
  | .error _ => none

/-- The stop of a lane that is not. -/
def ldtStop (x : LaneIn) (w : LR) (l : Nat) : Option (Nat × Stop) :=
  match ldtLane x w l with
  | .ok _ => none
  | .error e => some (l, e)

/-- The state once an LDT has written D for the lanes that are performed. -/
def ldtLoaded (x : LaneIn) (w : LR) : State :=
  let vals := (x.tm.lanesOf x.m).filterMap (ldtValue x w)
  x.s.modTeam x.q x.t fun tm => tm.setTy (loadTy (x.ty w.ty)) w.d.toNat (maskOf (vals.map (·.1))) fun l => loadImage (x.ty w.ty) (aget 0 vals l)

/-- An LDT writes D for the lanes that are performed and ends from those that stop. -/
def ldtRes (x : LaneIn) (w : LR) : LaneRes :=
  let stops := (x.tm.lanesOf x.m).filterMap (ldtStop x w)
  if (x.s.cluster x.sq.cluster).undervolted && (x.tile w.b.toNat).any (·.clustered) && stops.any fun z => z.2.isUncorrectable then x.uncorrectable x.m [] x.s
  else x.ending (ldtLoaded x w) x.master stops

theorem exec_ldt (w : LR) (s : State) : exec (.ldt w) s = laneRun (.ldt w) w.ms (fun x => ldtRes x w) s := rfl

section ldt

variable {x : LaneIn} {w : LR}

/-- A lane whose element lies in FULL lines without an error is performed. -/
theorem ldtLane_ok {k : Tile} {l : Nat} (hk : tileCheck (x.tile w.b.toNat) (some (x.ty w.ty)) (x.rowCol w l) = some k)
    (hbad : k.badLine (k.elemLines (x.rowCol w l).1 (x.rowCol w l).2) = none)
    (hfull : ∀ j ∈ k.elemLines (x.rowCol w l).1 (x.rowCol w l).2, k.full j = true) :
    ldtLane x w l = .ok (k.code (x.rowCol w l).1 (x.rowCol w l).2) := by
  have hfind : ((k.elemLines (x.rowCol w l).1 (x.rowCol w l).2).find? fun j => !k.full j) = none :=
    List.find?_eq_none.2 fun j hj => by simp [hfull j hj]
  simp [ldtLane, hk, hfind, hbad]

/-- A lane whose handle it may not use faults. -/
theorem ldtLane_fault {l : Nat} (hk : tileCheck (x.tile w.b.toNat) (some (x.ty w.ty)) (x.rowCol w l) = none) :
    ∃ info, ldtLane x w l = .error (.fault .tileHandle info []) := by
  simp [ldtLane, hk, LaneIn.tileStop]

/-- An LDT all of whose lanes are performed is done. -/
theorem ldtRes_ok {v : Nat → Nat} (hf : x.tm.faulted = []) (h : ∀ l ∈ x.tm.lanesOf x.m, ldtLane x w l = .ok (v l)) :
    ldtRes x w = .done (x.s.modTeam x.q x.t fun tm => tm.setTy (loadTy (x.ty w.ty)) w.d.toNat (maskOf (x.tm.lanesOf x.m)) fun l =>
      loadImage (x.ty w.ty) (aget 0 ((x.tm.lanesOf x.m).map fun l => (l, v l)) l)) := by
  have hvals : (x.tm.lanesOf x.m).filterMap (ldtValue x w) = (x.tm.lanesOf x.m).map fun l => (l, v l) :=
    filterMap_some fun l hl => by simp [ldtValue, h l hl]
  have hstops : (x.tm.lanesOf x.m).filterMap (ldtStop x w) = [] := List.filterMap_eq_nil_iff.2 fun l hl => by simp [ldtStop, h l hl]
  simp only [ldtRes, ldtLoaded, hvals, hstops, ending_nil hf, List.any_nil, Bool.and_false, Bool.false_eq_true, if_false, List.map_map,
    Function.comp_def, List.map_id']

/-- An LDT all of whose lanes name a handle that they may not use writes nothing. -/
theorem ldtRes_fault {info : Nat → List DWord} (h : ∀ l, ldtLane x w l = .error (.fault .tileHandle (info l) [])) :
    ldtRes x w = x.ending (x.s.modTeam x.q x.t fun tm => tm.setTy (loadTy (x.ty w.ty)) w.d.toNat 0 fun _ => loadImage (x.ty w.ty) 0) x.master
      ((x.tm.lanesOf x.m).map fun l => (l, .fault .tileHandle (info l) [])) := by
  have hvals : (x.tm.lanesOf x.m).filterMap (ldtValue x w) = [] := List.filterMap_eq_nil_iff.2 fun l _ => by simp [ldtValue, h l]
  have hstops : (x.tm.lanesOf x.m).filterMap (ldtStop x w) = (x.tm.lanesOf x.m).map fun l => (l, .fault .tileHandle (info l) []) :=
    filterMap_some fun l _ => by simp [ldtStop, h l]
  have hany : ((x.tm.lanesOf x.m).map fun l => (l, Stop.fault .tileHandle (info l) [])).any (fun z => z.2.isUncorrectable) = false := by
    simp [Stop.isUncorrectable]
  simp only [ldtRes, ldtLoaded, hvals, hstops, hany, Bool.and_false, Bool.false_eq_true, if_false, List.map_nil, maskOf, aget]

end ldt

/-! ## STT (R151, R152, R154, R155) -/

/-- The value that a lane of an STT stores. -/
def sttVal (x : LaneIn) (w : LR) (l : Nat) : Rounded := narrowStore x.tm.fmtr (x.ty w.ty) (x.datum (x.ty w.ty) w.d.toNat l)

/-- What stops a lane of an STT of which the lanes `traps` overflow. -/
def sttLane (x : LaneIn) (w : LR) (traps : List Nat) (l : Nat) : Option Stop :=
  let mw : MemWord := { tile := true, wr := true, lsize := lsizeOf ((x.ty w.ty).width / 8) }
  let rc := x.rowCol w l
  match tileCheck (x.s.tile x.q w.b.toNat) (some (x.ty w.ty)) rc with
  | none => some (LaneIn.tileStop mw l rc .tileHandle none)
  | some k =>
    match (k.elemLines rc.1 rc.2).findSome? fun j => x.s.tileLockHit x.q w.b.toNat j with
    | some i => some (LaneIn.tileStop mw l rc .rangeConflict (some i))
    | none => if traps.contains l then some (.fault .fpOverflow (ovfInfo traps) []) else none

/-- The state once the listed lanes of an STT have stored. -/
def sttStored (x : LaneIn) (w : LR) (ls : List Nat) : State :=
  match x.s.tile x.q w.b.toNat with
  | some k => x.s.setTile x.q w.b.toNat (ls.foldl (fun k l => let rc := x.rowCol w l; k.setCode rc.1 rc.2 (sttVal x w l).code) k)
  | none => x.s

/-- An STT stores the lanes that do not stop, when none overflows under OVF 11. -/
def sttRes (x : LaneIn) (w : LR) : LaneRes :=
  let ls := x.tm.lanesOf x.m
  let traps := ls.filter fun l => (sttVal x w l).trap
  let stops := ls.filterMap fun l => (sttLane x w traps l).map fun e => (l, e)
  if traps.isEmpty then
    let ok := ls.filter fun l => (sttLane x w traps l).isNone
    let fl := ok.foldl (fun a l => a ||| (sttVal x w l).flags) f0
    x.ending ((sttStored x w ok).modTeam x.q x.t fun tm => tm.holdFlags fl) x.master stops
  else match firstFault stops with
    | some (c, i, r) => .park c i x.m r x.s
    | none => .done x.s

theorem exec_stt (w : LR) (s : State) : exec (.stt w) s = laneRun (.stt w) w.ms (fun x => sttRes x w) s := rfl

section stt

variable {x : LaneIn} {w : LR}

/-- A lane that names an element of unlocked lines stores. -/
theorem sttLane_ok {k : Tile} {l : Nat} (hk : tileCheck (x.s.tile x.q w.b.toNat) (some (x.ty w.ty)) (x.rowCol w l) = some k)
    (hlock : ∀ j ∈ k.elemLines (x.rowCol w l).1 (x.rowCol w l).2, x.s.tileLockHit x.q w.b.toNat j = none) : sttLane x w [] l = none := by
  have hfind : ((k.elemLines (x.rowCol w l).1 (x.rowCol w l).2).findSome? fun j => x.s.tileLockHit x.q w.b.toNat j) = none :=
    List.findSome?_eq_none_iff.2 hlock
  simp [sttLane, hk, hfind]

/-- A lane whose handle it may not use faults. -/
theorem sttLane_fault {l : Nat} (hk : tileCheck (x.s.tile x.q w.b.toNat) (some (x.ty w.ty)) (x.rowCol w l) = none) :
    ∃ info, sttLane x w [] l = some (.fault .tileHandle info []) := by
  simp [sttLane, hk, LaneIn.tileStop]

/-- An STT of which no lane overflows ends from the lanes that stop. -/
theorem sttRes_eq (htrap : ∀ l ∈ x.tm.lanesOf x.m, (sttVal x w l).trap = false) :
    let ok := (x.tm.lanesOf x.m).filter fun l => (sttLane x w [] l).isNone
    sttRes x w = x.ending ((sttStored x w ok).modTeam x.q x.t fun tm => tm.holdFlags (ok.foldl (fun a l => a ||| (sttVal x w l).flags) f0)) x.master
      ((x.tm.lanesOf x.m).filterMap fun l => (sttLane x w [] l).map fun e => (l, e)) := by
  have hnone : ((x.tm.lanesOf x.m).filter fun l => (sttVal x w l).trap) = [] := List.filter_eq_nil_iff.2 fun l hl => by simp [htrap l hl]
  simp only [sttRes, hnone, List.isEmpty_nil, if_true]

/-- An STT all of whose lanes store is done. -/
theorem sttRes_ok (hf : x.tm.faulted = []) (htrap : ∀ l ∈ x.tm.lanesOf x.m, (sttVal x w l).trap = false)
    (h : ∀ l ∈ x.tm.lanesOf x.m, sttLane x w [] l = none) :
    sttRes x w = .done ((sttStored x w (x.tm.lanesOf x.m)).modTeam x.q x.t fun tm =>
      tm.holdFlags ((x.tm.lanesOf x.m).foldl (fun a l => a ||| (sttVal x w l).flags) f0)) := by
  have hok : ((x.tm.lanesOf x.m).filter fun l => (sttLane x w [] l).isNone) = x.tm.lanesOf x.m := List.filter_eq_self.2 fun l hl => by simp [h l hl]
  have hstops : ((x.tm.lanesOf x.m).filterMap fun l => (sttLane x w [] l).map fun e => (l, e)) = [] :=
    List.filterMap_eq_nil_iff.2 fun l hl => by simp [h l hl]
  rw [sttRes_eq htrap, hok, hstops, ending_nil hf]

/-- An STT all of whose lanes name a handle that they may not use stores nothing. -/
theorem sttRes_fault {info : Nat → List DWord} (htrap : ∀ l ∈ x.tm.lanesOf x.m, (sttVal x w l).trap = false)
    (h : ∀ l, sttLane x w [] l = some (.fault .tileHandle (info l) [])) :
    sttRes x w = x.ending ((sttStored x w []).modTeam x.q x.t fun tm => tm.holdFlags f0) x.master
      ((x.tm.lanesOf x.m).map fun l => (l, .fault .tileHandle (info l) [])) := by
  have hok : ((x.tm.lanesOf x.m).filter fun l => (sttLane x w [] l).isNone) = [] := List.filter_eq_nil_iff.2 fun l _ => by simp [h l]
  have hstops : ((x.tm.lanesOf x.m).filterMap fun l => (sttLane x w [] l).map fun e => (l, e))
      = (x.tm.lanesOf x.m).map fun l => (l, .fault .tileHandle (info l) []) := filterMap_some fun l _ => by simp [h l]
  rw [sttRes_eq htrap, hok, hstops, List.foldl_nil]

end stt

/-! ## TEMPTY and TFULL (R151, R154, R155) -/

/-- The lines of a lane of TEMPTY or TFULL. -/
def lineLane (x : LaneIn) (w : LR) (l : Nat) : Except Stop (List Nat) :=
  let mw : MemWord := { tile := true }
  let rc := x.rowCol w l
  match tileCheck (x.s.tile x.q w.b.toNat) none rc with
  | none => .error (LaneIn.tileStop mw l rc .tileHandle none)
  | some k =>
    let js := k.elemLines rc.1 rc.2
    match js.findSome? fun j => x.s.tileLockHit x.q w.b.toNat j with
    | some i => .error (LaneIn.tileStop mw l rc .rangeConflict (some i))
    | none => .ok js

/-- The state once the listed lines have become FULL or EMPTY. -/
def linesSet (x : LaneIn) (w : LR) (full : Bool) (lines : List Nat) : State :=
  match x.s.tile x.q w.b.toNat with
  | some k => if full then x.s.fillLines x.q w.b.toNat lines else x.s.setTile x.q w.b.toNat (k.setEmpty lines)
  | none => x.s

/-- The lines that a lane changes. -/
def laneLines (x : LaneIn) (w : LR) (l : Nat) : List Nat :=
  match lineLane x w l with
  | .ok js => js
  | .error _ => []

/-- The stop of a lane that changes none. -/
def lineStop (x : LaneIn) (w : LR) (l : Nat) : Option (Nat × Stop) :=
  match lineLane x w l with
  | .ok _ => none
  | .error e => some (l, e)

/-- TEMPTY and TFULL change the lines of the lanes that are performed and end from those that stop. -/
theorem lineState_eq (x : LaneIn) (w : LR) (full : Bool) :
    x.lineState w full = x.ending (linesSet x w full ((x.tm.lanesOf x.m).flatMap (laneLines x w))) x.master ((x.tm.lanesOf x.m).filterMap (lineStop x w)) :=
  rfl

section lines

variable {x : LaneIn} {w : LR} {full : Bool}

/-- A lane that names an element of unlocked lines changes them. -/
theorem lineLane_ok {k : Tile} {l : Nat} (hk : tileCheck (x.s.tile x.q w.b.toNat) none (x.rowCol w l) = some k)
    (hlock : ∀ j ∈ k.elemLines (x.rowCol w l).1 (x.rowCol w l).2, x.s.tileLockHit x.q w.b.toNat j = none) :
    lineLane x w l = .ok (k.elemLines (x.rowCol w l).1 (x.rowCol w l).2) := by
  have hfind : ((k.elemLines (x.rowCol w l).1 (x.rowCol w l).2).findSome? fun j => x.s.tileLockHit x.q w.b.toNat j) = none :=
    List.findSome?_eq_none_iff.2 hlock
  simp [lineLane, hk, hfind]

/-- A lane whose handle it may not use faults. -/
theorem lineLane_fault {l : Nat} (hk : tileCheck (x.s.tile x.q w.b.toNat) none (x.rowCol w l) = none) :
    ∃ info, lineLane x w l = .error (.fault .tileHandle info []) := by
  simp [lineLane, hk, LaneIn.tileStop]

/-- A TEMPTY or TFULL all of whose lanes are performed is done. -/
theorem lineState_ok {js : Nat → List Nat} (hf : x.tm.faulted = []) (h : ∀ l ∈ x.tm.lanesOf x.m, lineLane x w l = .ok (js l)) :
    x.lineState w full = .done (linesSet x w full ((x.tm.lanesOf x.m).flatMap js)) := by
  have hlines : (x.tm.lanesOf x.m).flatMap (laneLines x w) = (x.tm.lanesOf x.m).flatMap js :=
    List.flatMap_congr fun l hl => by simp [laneLines, h l hl]
  have hstops : (x.tm.lanesOf x.m).filterMap (lineStop x w) = [] := List.filterMap_eq_nil_iff.2 fun l hl => by simp [lineStop, h l hl]
  rw [lineState_eq, hlines, hstops, ending_nil hf]

/-- A TEMPTY or TFULL all of whose lanes name a handle that they may not use changes no line. -/
theorem lineState_fault {info : Nat → List DWord} (h : ∀ l, lineLane x w l = .error (.fault .tileHandle (info l) [])) :
    x.lineState w full = x.ending (linesSet x w full []) x.master ((x.tm.lanesOf x.m).map fun l => (l, .fault .tileHandle (info l) [])) := by
  have hlines : (x.tm.lanesOf x.m).flatMap (laneLines x w) = [] := List.flatMap_eq_nil_iff.2 fun l _ => by simp [laneLines, h l]
  have hstops : (x.tm.lanesOf x.m).filterMap (lineStop x w) = (x.tm.lanesOf x.m).map fun l => (l, .fault .tileHandle (info l) []) :=
    filterMap_some fun l _ => by simp [lineStop, h l]
  rw [lineState_eq, hlines, hstops]

end lines

/-! ## Words with no lane in M -/

/-- A change of one squad is all in the squads. -/
theorem modSquad_frame (s : State) (q : Nat) (f : Squad → Squad) : s.modSquad q f = { s with squads := (s.modSquad q f).squads } := by
  unfold State.modSquad
  cases s.squad q <;> rfl

/-- The state with the tile that a word names put back. -/
def putBack (x : LaneIn) (w : LR) : State :=
  match x.s.tile x.q w.b.toNat with
  | some k => x.s.setTile x.q w.b.toNat k
  | none => x.s

/-- A TFULL of no lines puts its tile back. -/
theorem fillLines_nil {s : State} {q h : Nat} {k : Tile} (hk : s.tile q h = some k) : s.fillLines q h [] = s.setTile q h k := by
  cases hs : s.squad q with
  | none => simp [State.tile, hs] at hk
  | some sq =>
    have htile : aget? sq.tiles h = some k := by simpa [State.tile, hs] using hk
    have hteams : (sq.teams.map fun tm => match tm.wait with
        | some (.lines aw _) => if aw.any fun p => p.1 == h && ([] : List Nat).contains p.2 then { tm with wait := some (.lines aw (s.cycleOf q)) } else tm
        | _ => tm) = sq.teams := by
      refine (List.map_congr_left fun tm _ => ?_).trans (List.map_id _)
      cases tm.wait with
      | none => rfl
      | some wt => cases wt <;> simp
    rw [State.fillLines, modSquad_eq_setSquad _ hs, State.setTile, modSquad_eq_setSquad _ hs, htile]
    exact congrArg (s.setSquad q) (congrArg (fun ts => { sq with tiles := aset sq.tiles h k, teams := ts }) hteams)

theorem linesSet_nil (x : LaneIn) (w : LR) (full : Bool) : linesSet x w full [] = putBack x w := by
  unfold linesSet putBack
  cases hk : x.s.tile x.q w.b.toNat with
  | none => rfl
  | some k =>
    cases full
    · rfl
    · exact fillLines_nil hk

theorem sttStored_nil (x : LaneIn) (w : LR) : sttStored x w [] = putBack x w := rfl

/-- A state in which nothing but the squads may differ, every tile of a squad is as before, and a team is there whose registers are as before. -/
structure Idle (s : State) (q t : Nat) (tm : Team) (z : State) (new : Team) : Prop where
  frame : z = { s with squads := z.squads }
  team : z.team q t = some new
  regs : ∀ r l, l < tm.lanes → new.V l r = tm.V l r
  tiles : ∀ j, z.tile q j = s.tile q j

theorem Idle.mem {s z : State} {q t : Nat} {tm new : Team} (h : Idle s q t tm z new) : z.mem = s.mem := by
  have hmem := congrArg State.mem h.frame
  exact hmem

/-- The state in which a ready word begins. -/
theorem idle_of_ready {s : State} {q t : Nat} {sq : Squad} {tm : Team} {i : Instr} {ms : BitVec 3} (h : LaneReady s q t sq tm i ms) :
    Idle s q t tm s tm := ⟨rfl, team_of_ready h, fun _ _ _ => rfl, fun _ => rfl⟩

theorem idle_putBack {x : LaneIn} (w : LR) (ht : x.s.team x.q x.t = some x.tm) : Idle x.s x.q x.t x.tm (putBack x w) x.tm := by
  unfold putBack
  cases hk : x.s.tile x.q w.b.toNat with
  | none => exact ⟨rfl, ht, fun _ _ _ => rfl, fun _ => rfl⟩
  | some k =>
    refine ⟨modSquad_frame .., (team_setTile ..).trans ht, fun _ _ _ => rfl, fun j => ?_⟩
    cases hs : x.s.squad x.q with
    | none => simp [State.tile, hs] at hk
    | some sq =>
      have htiles (i : Nat) : x.s.tile x.q i = aget? sq.tiles i := by simp [State.tile, hs]
      refine (tile_modSquad _ hs j).trans (Eq.trans ?_ (htiles j).symm)
      by_cases hj : j = w.b.toNat
      · rw [hj, aget?_aset_self, ← htiles, hk]
      · exact aget?_aset_ne _ _ hj

theorem Idle.modTeam {s z : State} {q t : Nat} {tm new : Team} (h : Idle s q t tm z new) {f : Team → Team}
    (hv : ∀ r l, l < tm.lanes → (f new).V l r = new.V l r) : Idle s q t tm (z.modTeam q t f) (f new) where
  frame := (modSquad_frame ..).trans (congrArg (fun y : State => { y with squads := (z.modTeam q t f).squads }) h.frame)
  team := team_modTeam_same f h.team
  regs r l hlt := (hv r l hlt).trans (h.regs r l hlt)
  tiles j := (tile_modTeam ..).trans (h.tiles j)

/-! ## The words on elements and lines -/

section words

variable {s : State} {q t : Nat} {sq : Squad} {tm : Team} {w : LR}

/-- The words on elements and lines. -/
def laneWords (w : LR) : List Instr := [.ldt w, .stt w, .tempty w, .tfull w]

/-- A ready word that has no lane in M retires, and every tile and register reads as before. -/
theorem exec_no_lane (hls : tm.lanesOf (tm.acting w.ms) = []) (hf : tm.faulted = []) :
    ∀ i ∈ laneWords w, LaneReady s q t sq tm i w.ms →
      ∃ z new, exec i s = .next (z.retire q t sq tm i (tm.acting w.ms)) ∧ Idle s q t tm z new := by
  let x := laneIn s q t sq tm w.ms
  have hnone {p : Nat → Prop} : ∀ l ∈ x.tm.lanesOf x.m, p l := fun l hl => absurd (hls ▸ hl) List.not_mem_nil
  have hback {i : Instr} (h : LaneReady s q t sq tm i w.ms) : Idle s q t tm (putBack x w) tm := idle_putBack (x := x) w (team_of_ready h)
  have hlines (full : Bool) : x.lineState w full = .done (putBack x w) := by
    rw [lineState_ok (js := fun _ => []) hf hnone, ← linesSet_nil x w full]
    exact congrArg (fun ls => LaneRes.done (linesSet x w full (ls.flatMap fun _ => []))) hls
  simp only [laneWords, List.forall_mem_cons, List.not_mem_nil, false_implies, implies_true, and_true]
  refine ⟨fun h => ?ldt, fun h => ?stt, fun h => ?tempty, fun h => ?tfull⟩
  case ldt =>
    have hempty (l : Nat) : (maskOf (tm.lanesOf (tm.acting w.ms))).getLsbD l = false := by simp [hls, maskOf]
    obtain ⟨-, -, hv⟩ := readsAs_setTy_none (readsAs_refl tm) (loadTy (x.ty w.ty)) w.d.toNat
      (fun l => loadImage (x.ty w.ty) (aget 0 ((tm.lanesOf (tm.acting w.ms)).map fun l => (l, 0)) l)) fun l _ => hempty l
    exact ⟨_, _, (exec_ldt w s).trans (laneRun_done h (ldtRes_ok (v := fun _ => 0) hf hnone)), (idle_of_ready h).modTeam hv⟩
  case stt =>
    have hres : sttRes x w = .done ((putBack x w).modTeam q t fun tm => tm.holdFlags 0) := by
      rw [sttRes_ok hf hnone hnone, ← sttStored_nil]
      exact congrArg (fun ls => LaneRes.done ((sttStored x w ls).modTeam q t fun tm => tm.holdFlags (ls.foldl (fun a l => a ||| (sttVal x w l).flags) f0)))
        hls
    exact ⟨_, _, (exec_stt w s).trans (laneRun_done h hres), (hback h).modTeam fun _ _ _ => rfl⟩
  case tempty => exact ⟨_, _, laneRun_done h (hlines false), hback h⟩
  case tfull => exact ⟨_, _, laneRun_done h (hlines true), hback h⟩

/-- A word parks its team with TILE_HANDLE and all of M unfinished, with memory and registers as before. -/
def ParksWithHandle (s : State) (q t : Nat) (sq : Squad) (tm : Team) (i : Instr) (ms : BitVec 3) : Prop :=
  ∃ (z : State) (new : Team) (info : List DWord),
    exec i s = .next (z.laneStop q t sq tm i ms .tileHandle info (maskOf (tm.lanesOf (tm.acting ms))))
      ∧ z.mem = s.mem ∧ z.team q t = some new ∧ ∀ r l, l < tm.lanes → new.V l r = tm.V l r

/-- A ready word whose lanes all stop with TILE_HANDLE, and whose state otherwise keeps memory and the team's registers. -/
theorem exec_handle_faults {i : Instr} {body : LaneIn → LaneRes} {y : State} {new : Team} {info : Nat → List DWord}
    (hi : exec i s = laneRun i w.ms body s) (h : LaneReady s q t sq tm i w.ms) (hne : tm.lanesOf (tm.acting w.ms) ≠ []) (hf : tm.faulted = [])
    (hy : Idle s q t tm y new)
    (hb : body (laneIn s q t sq tm w.ms) = (laneIn s q t sq tm w.ms).ending y (laneIn s q t sq tm w.ms).master
      ((tm.lanesOf (tm.acting w.ms)).map fun l => (l, .fault .tileHandle (info l) []))) : ParksWithHandle s q t sq tm i w.ms := by
  obtain ⟨l, -, fs, hexec⟩ := laneRun_faults h hne hf hb
  exact ⟨_, _, _, hi.trans hexec, (State.modTeam_mem ..).trans hy.mem, team_modTeam_same _ hy.team, hy.regs⟩

/-- A ready word all of whose lanes name a handle that they may not use parks its team. -/
theorem exec_no_tile (hne : tm.lanesOf (tm.acting w.ms) ≠ []) (hf : tm.faulted = [])
    (htile : s.tile q w.b.toNat = none ∨ ∃ k, s.tile q w.b.toNat = some k ∧ k.level = 0) :
    ∀ i ∈ laneWords w, LaneReady s q t sq tm i w.ms →
      (∀ l ∈ tm.lanesOf (tm.acting w.ms), (sttVal (laneIn s q t sq tm w.ms) w l).trap = false) → ParksWithHandle s q t sq tm i w.ms := by
  let x := laneIn s q t sq tm w.ms
  have hback {i : Instr} (h : LaneReady s q t sq tm i w.ms) : Idle s q t tm (putBack x w) tm := idle_putBack (x := x) w (team_of_ready h)
  choose info hinfo using fun l => lineLane_fault (x := x) (w := w) (tileCheck_out htile none (x.rowCol w l))
  have hlines (full : Bool) := lineState_fault (full := full) hinfo
  simp only [linesSet_nil] at hlines
  simp only [laneWords, List.forall_mem_cons, List.not_mem_nil, false_implies, implies_true, and_true]
  refine ⟨fun h _ => ?ldt, fun h htrap => ?stt, fun h _ => ?tempty, fun h _ => ?tfull⟩
  case ldt =>
    have hout : x.tile w.b.toNat = none ∨ ∃ k, x.tile w.b.toNat = some k ∧ k.level = 0 := by
      unfold LaneIn.tile
      split
      · exact .inl rfl
      · exact htile
    choose info hinfo using fun l => ldtLane_fault (x := x) (w := w) (tileCheck_out hout (some (x.ty w.ty)) (x.rowCol w l))
    obtain ⟨-, -, hv⟩ := readsAs_setTy_none (readsAs_refl tm) (loadTy (x.ty w.ty)) w.d.toNat (m := 0) (fun _ => loadImage (x.ty w.ty) 0) fun _ _ => by simp
    exact exec_handle_faults (exec_ldt w s) h hne hf ((idle_of_ready h).modTeam hv) (ldtRes_fault hinfo)
  case stt =>
    choose info hinfo using fun l => sttLane_fault (x := x) (w := w) (tileCheck_out htile (some (x.ty w.ty)) (x.rowCol w l))
    exact exec_handle_faults (exec_stt w s) h hne hf ((hback h).modTeam fun _ _ _ => rfl) (sttRes_fault htrap hinfo)
  case tempty => exact exec_handle_faults rfl h hne hf (hback h) (hlines false)
  case tfull => exact exec_handle_faults rfl h hne hf (hback h) (hlines true)

end words

/-! ## Lanes that reach their elements -/

section reached

variable {x : LaneIn} {w : LR} {k : Tile}

/-- Every lane of M names an element of the tile that a word of type `ty` may reach (R151). -/
def InTile (x : LaneIn) (w : LR) (k : Tile) : Prop :=
  k.level ≠ 0 ∧ ∀ l ∈ x.tm.lanesOf x.m, (x.rowCol w l).1 < k.rows ∧ (x.rowCol w l).2 < k.cols

theorem InTile.check (h : InTile x w k) {ty : Option NumTy} (hty : ∀ u ∈ ty, k.ty = u) {l : Nat} (hl : l ∈ x.tm.lanesOf x.m) :
    tileCheck (some k) ty (x.rowCol w l) = some k :=
  tileCheck_in h.1 hty (h.2 l hl).1 (h.2 l hl).2

/-- An LDT whose lanes' lines are FULL and without an error writes the elements. -/
theorem ldtRes_reached (hk : x.tile w.b.toNat = some k) (hf : x.tm.faulted = []) (hin : InTile x w k) (hty : k.ty = x.ty w.ty)
    (hlines : ∀ l ∈ x.tm.lanesOf x.m, k.badLine (k.elemLines (x.rowCol w l).1 (x.rowCol w l).2) = none
      ∧ ∀ j ∈ k.elemLines (x.rowCol w l).1 (x.rowCol w l).2, k.full j = true) :
    ldtRes x w = .done (x.s.modTeam x.q x.t fun tm => tm.setTy (loadTy (x.ty w.ty)) w.d.toNat (maskOf (x.tm.lanesOf x.m)) fun l =>
      loadImage (x.ty w.ty) (aget 0 ((x.tm.lanesOf x.m).map fun l => (l, k.code (x.rowCol w l).1 (x.rowCol w l).2)) l)) :=
  ldtRes_ok hf fun l hl => ldtLane_ok (hk ▸ hin.check (fun _ hu => hty.trans (Option.some.inj hu)) hl) (hlines l hl).1 (hlines l hl).2

/-- An STT whose lanes' lines no copy locks, and of which no lane overflows, stores the lanes' values. -/
theorem sttRes_reached (hk : x.s.tile x.q w.b.toNat = some k) (hf : x.tm.faulted = []) (hin : InTile x w k) (hty : k.ty = x.ty w.ty)
    (hlock : ∀ l ∈ x.tm.lanesOf x.m, ∀ j ∈ k.elemLines (x.rowCol w l).1 (x.rowCol w l).2, x.s.tileLockHit x.q w.b.toNat j = none)
    (htrap : ∀ l ∈ x.tm.lanesOf x.m, (sttVal x w l).trap = false) :
    sttRes x w = .done ((x.s.setTile x.q w.b.toNat ((x.tm.lanesOf x.m).foldl (fun k l =>
        k.setCode (x.rowCol w l).1 (x.rowCol w l).2 (sttVal x w l).code) k)).modTeam x.q x.t fun tm =>
      tm.holdFlags ((x.tm.lanesOf x.m).foldl (fun a l => a ||| (sttVal x w l).flags) f0)) := by
  have hstored := sttRes_ok hf htrap fun l hl => sttLane_ok (hk ▸ hin.check (fun _ hu => hty.trans (Option.some.inj hu)) hl) (hlock l hl)
  simpa only [sttStored, hk] using hstored

/-- A TEMPTY or TFULL whose lanes' lines no copy locks changes them all. -/
theorem lineState_reached (full : Bool) (hk : x.s.tile x.q w.b.toNat = some k) (hf : x.tm.faulted = []) (hin : InTile x w k)
    (hlock : ∀ l ∈ x.tm.lanesOf x.m, ∀ j ∈ k.elemLines (x.rowCol w l).1 (x.rowCol w l).2, x.s.tileLockHit x.q w.b.toNat j = none) :
    let lines := (x.tm.lanesOf x.m).flatMap fun l => k.elemLines (x.rowCol w l).1 (x.rowCol w l).2
    x.lineState w full = .done (if full then x.s.fillLines x.q w.b.toNat lines else x.s.setTile x.q w.b.toNat (k.setEmpty lines)) := by
  have hset := lineState_ok (full := full) hf fun l hl => lineLane_ok (hk ▸ hin.check (fun u hu => absurd hu (Option.not_mem_none u)) hl) (hlock l hl)
  simpa only [linesSet, hk] using hset

end reached

/-! ## The words of the tile table (R193 to R197) -/

/-- The low and the high half of a register value. -/
theorem halves_eq (v : Word) : fieldN v.toNat 0 16 = v.toNat % 2 ^ 16 ∧ fieldN v.toNat 16 16 = v.toNat / 2 ^ 16 := by
  have := v.isLt
  refine ⟨fieldN_low .., ?_⟩
  rw [fieldN_eq_div_mod]; omega

/-- The shapes of a level that TNEW makes (R191, R195). -/
def ShapeOk (level : Nat) (ty : NumTy) (rows cols : Nat) : Prop :=
  0 < rows ∧ 0 < cols ∧ (level = 0 → rows ≤ 64 ∧ cols ≤ 64) ∧ (ty.isBlock = true → rows % 32 = 0)

/-- The tile that TNEW makes of a shape, EMPTY, or FULL and zero under INIT (R195). -/
def tnewTile (w : LR) (level : Nat) (ty : NumTy) (rows cols core : Nat) : Tile :=
  let new : Tile := { level := level, ty := ty, rows := rows, cols := cols, core := core }
  if level ≠ 0 ∧ w.fn.getLsbD 2 = true then new.setFull (upTo new.lineCount) else new

/-- A TNEW with its lowest lane's register at hand refuses an allocated handle or a shape that its level does not have, then a shape for which there
is no room, and otherwise makes the tile. -/
theorem exec_tnew {s : State} {q t : Nat} {sq : Squad} {tm : Team} {w : LR} {l0 : Nat} (hl : lowLane (tm.acting w.ms) = some l0)
    (h : LaneReady s q t sq tm (.tnew w) w.ms) (hbad : tm.badAt [w.a.toNat] (maskOf [l0]) = none) :
    let x := laneIn s q t sq tm w.ms
    let d := w.d.toNat
    let level := w.fn.toNat % 4
    let rows := (tm.V l0 w.a.toNat).toNat % 2 ^ 16
    let cols := (tm.V l0 w.a.toNat).toNat / 2 ^ 16
    let n := spaceOf level (x.ty w.ty) rows cols
    (s.tile q d ≠ none ∨ ¬ ShapeOk level (x.ty w.ty) rows cols →
      exec (.tnew w) s = .next (s.laneStop q t sq tm (.tnew w) w.ms .tileHandle (handleInfo d n) (tm.acting w.ms)))
    ∧ (s.tile q d = none → ShapeOk level (x.ty w.ty) rows cols →
      (s.room sq level (tm.coreOf l0) n = false →
        exec (.tnew w) s = .next (s.laneStop q t sq tm (.tnew w) w.ms .tileStoreFull (handleInfo d n) (tm.acting w.ms)))
      ∧ (s.room sq level (tm.coreOf l0) n = true →
        exec (.tnew w) s = .next ((s.setTile q d (tnewTile w level (x.ty w.ty) rows cols (tm.coreOf l0))).retire q t sq tm (.tnew w) (tm.acting w.ms)))) := by
  intro x d level rows cols n
  obtain ⟨hrows, hcols⟩ := halves_eq (tm.V l0 w.a.toNat)
  have hlevel : fieldN w.fn.toNat 0 2 = level := fieldN_low ..
  have hrefuse : ((s.tile q d).isSome || rows == 0 || cols == 0 || (level == 0 && (decide (64 < rows) || decide (64 < cols)))
      || ((x.ty w.ty).isBlock && rows % 32 != 0)) = true ↔ s.tile q d ≠ none ∨ ¬ ShapeOk level (x.ty w.ty) rows cols := by
    simp only [Bool.or_eq_true, Bool.and_eq_true, Option.isSome_iff_ne_none, beq_iff_eq, bne_iff_ne, decide_eq_true_eq, ShapeOk, or_assoc]
    refine or_congr_right ⟨fun h => ?_, fun h => ?_⟩
    · rintro ⟨hr, hc, hacc, hblk⟩
      rcases h with h | h | ⟨h0, h⟩ | ⟨hb, h⟩
      · omega
      · omega
      · have := hacc h0; omega
      · exact h (hblk hb)
    · by_contra hno
      simp only [not_or, not_and] at hno
      obtain ⟨hr, hc, hacc, hblk⟩ := hno
      exact h ⟨by omega, by omega, fun h0 => by have := hacc h0; omega, fun hb => not_not.1 (hblk hb)⟩
  refine ⟨fun hno => laneRun_trap h ?refused, fun htile hshape => ⟨fun hroom => laneRun_trap h ?full, fun hroom => laneRun_done h ?made⟩⟩
  all_goals
    simp only [laneIn_m, hl, laneIn_tm, hbad, laneIn_rd, hrows, hcols, hlevel]
  case refused => exact if_pos (hrefuse.2 hno)
  all_goals
    have hmakes := mt hrefuse.1 (not_or.2 ⟨not_not.2 htile, not_not.2 hshape⟩)
    refine (if_neg hmakes).trans ?_
  case full => exact if_pos (Bool.not_eq_eq_eq_not.2 hroom)
  case made => exact if_neg (Bool.eq_false_iff.1 (Bool.not_eq_eq_eq_not.2 hroom))

/-- What a TZERO with a lane in M does to an allocated tile of which no copy locks a line: by its level, and .EMPTY (R197). -/
def tzeroTile (x : LaneIn) (w : LR) (k : Tile) : LaneRes :=
  if k.level = 0 then
    if w.fn.getLsbD 0 then x.trap .reservedField []
    else x.onUnit k.core (.done (x.s.setTile x.q w.d.toNat { k with acc := [], bad := [] }))
  else if w.fn.getLsbD 0 then .done (x.s.setTile x.q w.d.toNat { k with lines := [] })
  else .done ((x.s.setTile x.q w.d.toNat { k with lines := [] }).fillLines x.q w.d.toNat (upTo k.lineCount))

theorem exec_tzero {s : State} {q t : Nat} {sq : Squad} {tm : Team} {w : LR} {k : Tile} (h : LaneReady s q t sq tm (.tzero w) w.ms)
    (hm : tm.acting w.ms ≠ 0) (hk : s.tile q w.d.toNat = some k) (hlock : s.tileLocked q w.d.toNat = none) :
    exec (.tzero w) s = laneRun (.tzero w) w.ms (fun x => tzeroTile x w k) s := by
  have hexec : exec (.tzero w) s = execTzero w s := rfl
  rw [hexec, execTzero, laneRun_ready h, laneRun_ready h]
  simp only [laneIn_m, laneIn_s, laneIn_q, hm, hk, hlock, if_false]
  rfl

/-- A word on a matrix unit that is free, with no word waiting for it, ends there as it would without the unit, and leaves it (R162). -/
theorem onUnit_free {x : LaneIn} {core : Nat} {y : State} (h : unitFree x.s x.sq.cluster core) :
    x.onUnit core (.done y) = .done (y.leaveUnit x.sq.cluster core (x.q, x.t)) := by
  obtain ⟨hholder, hqueue⟩ := h
  exact if_pos (.inr ⟨hholder, .inl (by rw [hqueue]; rfl)⟩)

/-- Settles O15: the words on elements by the lanes they reach, TNEW by `exec_tnew`, TFREE and TZERO by the branches of their meaning. -/
theorem tileWordsReachAndManageTiles : Obligations.TileWordsReachAndManageTiles := by
  refine ⟨?elements, ?table⟩
  case elements =>
    intro s q t sq tm w x ty m h ls row col v words hf
    refine ⟨?reached, fun hls i hi hr => ?noLane, fun hne htile i hi hr htrap _ => ?noTile⟩
    case reached =>
      intro k lines hk hlevel _ hn hrc
      have htile : s.tile q h = some k := (Option.ite_none_left_eq_some.1 hk).2
      have hin : InTile x w k := ⟨hlevel, hrc⟩
      refine ⟨fun hr hty hlines => ?ldt, fun hlock => ⟨fun hr hty htrap => ?stt, fun hr => ?tempty, fun hr => ?tfull⟩⟩
      case ldt =>
        have hdone := (exec_ldt w s).trans (laneRun_done hr (ldtRes_reached hk hf hin hty hlines))
        rw [laneIn_s, laneIn_q, laneIn_t, TeamState.modTeam_eq_const (team_of_ready hr)] at hdone
        refine ⟨_, hdone, readsAs_setTy (readsAs_refl tm) _ _ (fun l hl => getLsbD_maskOf_lanesOf hn m hl) fun l _ hl => ?_⟩
        have hmem : l ∈ tm.lanesOf m := by
          rw [getLsbD_maskOf, Bool.and_eq_true, decide_eq_true_eq] at hl
          exact hl.1
        exact congrArg (loadImage ty) (aget_map_lane ls (fun l => k.code (row l) (col l)) hmem)
      case stt => exact (exec_stt w s).trans (laneRun_done hr (sttRes_reached htile hf hin hty hlock htrap))
      case tempty => exact laneRun_done hr (lineState_reached false htile hf hin hlock)
      case tfull => exact laneRun_done hr (lineState_reached true htile hf hin hlock)
    case noLane =>
      obtain ⟨z, new, hexec, hidle⟩ := exec_no_lane hls hf i hi hr
      exact ⟨z, new, hexec, hidle.frame, hidle.team, hidle.regs, fun j k r c hk => ⟨k, (hidle.tiles j).trans hk, rfl, fun _ => rfl⟩⟩
    case noTile => exact exec_no_tile hne hf htile i hi hr htrap
  case table =>
    intro s q t sq tm w
    dsimp only
    refine ⟨fun hm => ?idle, fun l0 hl hr hbad => ?tnew, fun hm => ⟨fun i hi hr => ⟨fun htile => ?unallocated, fun e htile hlock => ?locked⟩,
      fun hr => ⟨fun hlost => ?lost, fun htile hlock huse => ?tfree, fun htile hlock huse => ?tfreeWaits⟩, fun k hr hk hlock => ?tzero⟩⟩
    case idle =>
      have hlow : lowLane (tm.acting w.ms) = none := by simp [hm, lowLane]
      simp only [List.forall_mem_cons, List.not_mem_nil, false_implies, implies_true, and_true]
      exact ⟨fun hr => laneRun_done hr (by simp only [laneIn_m, hlow]; rfl), fun hr => laneRun_done hr (if_pos hm), fun hr => laneRun_done hr (if_pos hm)⟩
    case tnew =>
      obtain ⟨hrefused, hmakes⟩ := exec_tnew hl hr hbad
      exact ⟨fun htile hshape hroom => (hmakes htile hshape).2 hroom, hrefused, fun htile hshape hroom => (hmakes htile hshape).1 hroom⟩
    case unallocated =>
      simp only [List.not_mem_nil, List.mem_cons, or_false] at hi
      rcases hi with rfl | rfl
      · have hnone : ((laneIn s q t sq tm w.ms).tile w.d.toNat).isNone = true := by simp [LaneIn.tile, htile]
        exact laneRun_trap hr ((if_neg hm).trans (if_pos hnone))
      · exact laneRun_trap hr ((if_neg hm).trans (by simp only [laneIn_s, laneIn_q, htile]; rfl))
    case locked =>
      obtain ⟨k, hk⟩ := Option.ne_none_iff_exists'.1 htile
      have hk' : s.tile q w.d.toNat = some k := (Option.ite_none_left_eq_some.1 hk).2
      simp only [List.not_mem_nil, List.mem_cons, or_false] at hi
      rcases hi with rfl | rfl
      · exact laneRun_trap hr ((if_neg hm).trans (by simp only [hk, laneIn_s, laneIn_q, hlock]; rfl))
      · exact laneRun_trap hr ((if_neg hm).trans (by simp only [laneIn_s, laneIn_q, hk', hlock]; rfl))
    case lost =>
      have hnone : ((laneIn s q t sq tm w.ms).tile w.d.toNat).isNone = true := by simp [LaneIn.tile, hlost]
      exact laneRun_trap hr ((if_neg hm).trans (if_pos hnone))
    case tfree =>
      obtain ⟨k, hk⟩ := Option.ne_none_iff_exists'.1 htile
      exact laneRun_done hr ((if_neg hm).trans (by simp only [hk, laneIn_s, laneIn_q, hlock, huse]; rfl))
    case tfreeWaits =>
      obtain ⟨k, hk⟩ := Option.ne_none_iff_exists'.1 htile
      exact laneRun_wait hr ((if_neg hm).trans (by simp only [hk, laneIn_s, laneIn_q, hlock, huse]; rfl))
    case tzero =>
      rw [exec_tzero hr hm hk hlock]
      refine ⟨fun hlevel hempty => ?empty, fun hlevel hfull => ?full, fun hlevel hempty => ?accEmpty, fun hlevel hfull hfree => ?acc⟩
      case empty => exact laneRun_done hr ((if_neg hlevel).trans (if_pos hempty))
      case full => exact laneRun_done hr ((if_neg hlevel).trans (if_neg (Bool.eq_false_iff.1 hfull)))
      case accEmpty => exact laneRun_trap hr ((if_pos hlevel).trans (if_pos hempty))
      case acc => exact laneRun_done hr ((if_pos hlevel).trans ((if_neg (Bool.eq_false_iff.1 hfull)).trans (onUnit_free hfree)))

end Sys2Proof.Machine.TileWords
end

section
/-! PROOFS. Bytes of ordinary memory as a lane word reaches them (06_lane_memory.md R136 to R142; 15_die_memory.md R257, R307 to R328): the numbers
that bytes hold, reads through and past the L1, writes, and indivisible reads and writes. -/

namespace Sys2Proof.Machine.MemoryAccess

/-! ## Bytes and numbers (R3) -/

@[simp] theorem length_toBytes (n v : Nat) : (toBytes n v).length = n := by
  induction n generalizing v with
  | zero => rfl
  | succ n ih => simp [toBytes, ih]

theorem ofBytes_toBytes (n v : Nat) : ofBytes (toBytes n v) = v % 2 ^ (8 * n) := by
  induction n generalizing v with
  | zero => simp [toBytes, ofBytes, Nat.mod_one]
  | succ n ih =>
    have hpow : 2 ^ (8 * (n + 1)) = 256 * 2 ^ (8 * n) := by rw [Nat.mul_add, Nat.pow_add, Nat.mul_comm]
    rw [toBytes, ofBytes, ih, BitVec.toNat_ofNat, hpow, Nat.mod_mul]

theorem ofBytes_lt (bs : List Byte) : ofBytes bs < 2 ^ (8 * bs.length) := by
  induction bs with
  | nil => simp [ofBytes]
  | cons b bs ih =>
    have hb := b.isLt
    rw [ofBytes, List.length_cons, Nat.mul_add, Nat.pow_add]
    omega

theorem memNat_lt (s : State) (pa n : Nat) : memNat s pa n < 2 ^ (8 * n) := by
  have h := ofBytes_lt ((upTo n).map fun i => memGet s.mem (pa + i))
  rwa [List.length_map, upTo, List.length_range] at h

/-- Memory that holds the bytes of a number holds the number. -/
theorem memNat_of_bytes {s : State} {pa n v : Nat} (h : ∀ i, i < n → memGet s.mem (pa + i) = (toBytes n v).getD i 0) :
    memNat s pa n = v % 2 ^ (8 * n) := by
  have hbytes : ((upTo n).map fun i => memGet s.mem (pa + i)) = toBytes n v := by
    refine List.ext_getElem (by simp [upTo]) fun i hi _ => ?_
    have hn : i < n := by simpa [upTo] using hi
    simp [upTo, h i hn, hn]
  rw [memNat, hbytes, ofBytes_toBytes]

/-- Memories that agree on some bytes hold the same number there. -/
theorem memNat_congr {s z : State} {pa n : Nat} (h : ∀ i, i < n → memGet z.mem (pa + i) = memGet s.mem (pa + i)) : memNat z pa n = memNat s pa n := by
  have hbytes : ((upTo n).map fun i => memGet z.mem (pa + i)) = (upTo n).map fun i => memGet s.mem (pa + i) :=
    List.map_congr_left fun i hi => h i (List.mem_range.1 hi)
  rw [memNat, memNat, hbytes]

/-! ## The copies in an L1 (R257) -/

/-- Every copy that a cluster's L1 has, or waits for, of a line consists of the given bytes. -/
def OnlyCopies (c : Cluster) (k : Nat) (bs : List Byte) : Prop :=
  (∀ b, aget? c.l1 k = some b → b = bs) ∧ ∀ e ∈ c.miss, e.line = k → e.bytes = bs

theorem aget?_take {α : Type} {l : List (Nat × α)} {n k : Nat} {b : α} (h : aget? (l.take n) k = some b) : aget? l k = some b := by
  induction l generalizing n with
  | nil => simp [aget?] at h
  | cons p l ih =>
    cases n with
    | zero => simp [aget?] at h
    | succ n =>
      by_cases hp : p.1 = k
      · simpa [aget?, hp] using h
      · simp only [List.take_succ_cons, aget?, hp, if_false] at h ⊢
        exact ih h

/-- The arrival of a fill changes no copy. -/
theorem OnlyCopies.fillOldest {c : Cluster} {k : Nat} {bs : List Byte} (h : OnlyCopies c k bs) : OnlyCopies c.fillOldest k bs := by
  obtain ⟨hl1, hmiss⟩ := h
  unfold Cluster.fillOldest
  cases hm : c.miss with
  | nil => exact ⟨hl1, by simp [hm]⟩
  | cons e es =>
    rw [hm] at hmiss
    refine ⟨fun b hb => ?_, fun e' he' => hmiss e' (List.mem_cons_of_mem _ he')⟩
    have hb := aget?_take hb
    by_cases hk : e.line = k
    · have hbytes : e.bytes = b := by simpa [aget?, hk] using hb
      exact hbytes ▸ hmiss e List.mem_cons_self hk
    · simp only [aget?, hk, if_false] at hb
      rw [aget?_adel_ne _ (Ne.symm hk)] at hb
      exact hl1 b hb

/-- One more fill under way, of those bytes or of another line. -/
theorem OnlyCopies.miss {c : Cluster} {k : Nat} {bs : List Byte} (h : OnlyCopies c k bs) {e : MissEnt} (he : e.line = k → e.bytes = bs) :
    OnlyCopies { c with miss := c.miss ++ [e] } k bs := by
  refine ⟨h.1, fun e' he' => ?_⟩
  rcases List.mem_append.1 he' with he' | he'
  · exact h.2 e' he'
  · rw [List.mem_singleton.1 he']
    exact he

/-- The copy of a line that serves a read: the L1's own, or one whose fill is under way. -/
def copyOf (c : Cluster) (k : Nat) : Option (List Byte) :=
  (aget? c.l1 k).orElse fun _ => (c.miss.find? fun e => e.line == k).map (·.bytes)

/-- A cluster that waits for one more fill, the oldest having arrived first when all 512 places are taken. -/
def awaitingFill (c : Cluster) (k : Nat) (bs : List Byte) : Cluster :=
  let c := if 512 ≤ c.miss.length then c.fillOldest else c
  { c with miss := c.miss ++ [⟨k, bs, c.cycle⟩] }

/-- A read that a copy serves. -/
theorem readL1_hit {s : State} {a : Access} {pa : Nat} {l : List Byte} (h : copyOf (s.cluster a.cl) (l1Key a.owner (pa / 128)) = some l) (zor : Bool)
    (n : Nat) : s.readL1 a zor pa n = (.ok (s.overlaid a pa ((l.drop (pa % 128)).take n)), s) := by
  unfold copyOf at h
  simp only [State.readL1, h]

/-- A read that memory serves. -/
theorem readL1_fill {s z : State} {a : Access} {pa : Nat} {zor : Bool} (h : copyOf (s.cluster a.cl) (l1Key a.owner (pa / 128)) = none)
    (hok : s.linesCheck a.owner zor [pa / 128] = (.ok (), z)) (n : Nat) :
    s.readL1 a zor pa n = (.ok (z.overlaid a pa (((z.bytesAt a.owner zor (pa / 128 * 128) 128).drop (pa % 128)).take n)),
      z.modCluster a.cl fun c => awaitingFill c (l1Key a.owner (pa / 128)) (z.bytesAt a.owner zor (pa / 128 * 128) 128)) := by
  unfold copyOf at h
  simp only [State.readL1, h, hok]
  rfl

theorem OnlyCopies.copyOf {c : Cluster} {k : Nat} {bs b : List Byte} (h : OnlyCopies c k bs) (hb : copyOf c k = some b) : b = bs := by
  unfold MemoryAccess.copyOf at hb
  cases hl : aget? c.l1 k with
  | some b' =>
    rw [hl] at hb
    exact Option.some.inj hb ▸ h.1 b' hl
  | none =>
    rw [hl] at hb
    obtain ⟨e, he, heb⟩ := Option.map_eq_some_iff.1 hb
    exact heb ▸ h.2 e (List.mem_of_find?_eq_some he) (by simpa using List.find?_some he)

theorem cores_awaiting (c : Cluster) (k : Nat) (bs : List Byte) : (awaitingFill c k bs).cores = c.cores := by
  unfold awaitingFill Cluster.fillOldest
  dsimp only
  split
  · split <;> rfl
  · rfl

/-- One more fill under way, of those bytes or of another line. -/
theorem OnlyCopies.awaiting {c : Cluster} {k j : Nat} {bs b : List Byte} (h : OnlyCopies c k bs) (hb : j = k → b = bs) :
    OnlyCopies (awaitingFill c j b) k bs := by
  unfold awaitingFill
  dsimp only
  split
  · exact h.fillOldest.miss hb
  · exact h.miss hb

theorem onlyCopies_clear (c : Cluster) (k : Nat) (bs : List Byte) : OnlyCopies { c with l1 := [], miss := [] } k bs :=
  ⟨by simp [aget?], by simp⟩

/-- A cluster after a change of it. -/
theorem cluster_modCluster_or (s : State) (cl : Nat) (f : Cluster → Cluster) :
    (s.modCluster cl f).cluster cl = f (s.cluster cl) ∨ (s.modCluster cl f).cluster cl = s.cluster cl := by
  by_cases h : cl < s.clusters.length
  · exact .inl (VotesAndClaims.cluster_modCluster f h)
  · exact .inr (by simp [State.cluster, State.modCluster, List.getD, h])

/-- The state after reads through a cluster's L1: only its copies of lines change, and those of the owner that held what memory holds still do. -/
structure Fetched (s : State) (cl owner : Nat) (y : State) : Prop where
  frame : y = { s with clusters := y.clusters }
  cores : (y.cluster cl).cores = (s.cluster cl).cores
  copies : ∀ line, OnlyCopies (s.cluster cl) (l1Key owner line) (s.bytesAt owner false (line * 128) 128) →
    OnlyCopies (y.cluster cl) (l1Key owner line) (s.bytesAt owner false (line * 128) 128)

theorem Fetched.refl (s : State) (cl owner : Nat) : Fetched s cl owner s := ⟨rfl, rfl, fun _ h => h⟩

/-- What memory gives does not depend on the clusters. -/
theorem bytesAt_clusters (s : State) (cs : List Cluster) (owner pa n : Nat) (zor : Bool) :
    ({ s with clusters := cs } : State).bytesAt owner zor pa n = s.bytesAt owner zor pa n := rfl

theorem Fetched.bytesAt {s y : State} {cl owner : Nat} (h : Fetched s cl owner y) (o pa n : Nat) (zor : Bool) :
    y.bytesAt o zor pa n = s.bytesAt o zor pa n := by
  rw [h.frame, bytesAt_clusters]

theorem Fetched.trans {s y z : State} {cl owner : Nat} (h : Fetched s cl owner y) (h' : Fetched y cl owner z) : Fetched s cl owner z where
  frame := by rw [h'.frame, h.frame]
  cores := h'.cores.trans h.cores
  copies line hs := by
    have hy := h'.copies line
    rw [h.bytesAt] at hy
    exact hy (h.copies line hs)

theorem fetched_modCluster {s : State} {cl owner : Nat} {f : Cluster → Cluster} (hcores : ∀ c, (f c).cores = c.cores)
    (hcopies : ∀ line, OnlyCopies (s.cluster cl) (l1Key owner line) (s.bytesAt owner false (line * 128) 128) →
      OnlyCopies (f (s.cluster cl)) (l1Key owner line) (s.bytesAt owner false (line * 128) 128)) : Fetched s cl owner (s.modCluster cl f) where
  frame := rfl
  cores := by rcases cluster_modCluster_or s cl f with h | h <;> rw [h]; exact hcores _
  copies line hs := by rcases cluster_modCluster_or s cl f with h | h <;> rw [h]; exacts [hcopies line hs, hs]

theorem fetched_l1Clear (s : State) (cl owner : Nat) : Fetched s cl owner (s.l1Clear cl) :=
  fetched_modCluster (fun _ => rfl) fun _ _ => onlyCopies_clear _ _ _

/-! ## Ordinary memory -/

/-- Bytes that an access of an owner may read, or write, and that hold what memory holds: what `Reaches` says of them beside the L1's copies. -/
structure Ordinary (s : State) (owner va pa n : Nat) (wr : Bool) : Prop where
  size : n ∈ [1, 2, 4, 8]
  aligned : pa % n = 0
  below : pa + n ≤ cfgBase
  guard : s.guardPa pa n wr = none
  lock : s.lockHit owner va n wr = none
  good : pa / 128 ∉ s.badLines
  clean : pa / 128 ∉ s.poison
  own : s.foreignTag owner (pa / 128) = false
  old : s.unwritten (pa / 128) = false

theorem reaches_iff (s : State) (cl owner va pa n : Nat) (wr : Bool) :
    Reaches s cl owner va pa n wr ↔ Ordinary s owner va pa n wr
      ∧ OnlyCopies (s.cluster cl) (l1Key owner (pa / 128)) (s.bytesAt owner false (pa / 128 * 128) 128) := by
  constructor
  · rintro ⟨h1, h2, h3, h4, h5, h6, h7, h8, h9, hl1, hmiss⟩
    exact ⟨⟨h1, h2, h3, h4, h5, h6, h7, h8, h9⟩, hl1, hmiss⟩
  · rintro ⟨⟨h1, h2, h3, h4, h5, h6, h7, h8, h9⟩, hl1, hmiss⟩
    exact ⟨h1, h2, h3, h4, h5, h6, h7, h8, h9, hl1, hmiss⟩

section ordinary

variable {s : State} {cl owner va pa n : Nat} {wr : Bool}

/-- Reads leave ordinary memory ordinary. -/
theorem Fetched.ordinary {y : State} (h : Fetched s cl owner y) (ho : Ordinary s owner va pa n wr) : Ordinary y owner va pa n wr := by
  rw [h.frame]
  obtain ⟨h1, h2, h3, h4, h5, h6, h7, h8, h9⟩ := ho
  exact ⟨h1, h2, h3, h4, h5, h6, h7, h8, h9⟩

theorem Fetched.reaches {y : State} (h : Fetched s cl owner y) (hr : Reaches s cl owner va pa n wr) : Reaches y cl owner va pa n wr := by
  rw [reaches_iff] at hr ⊢
  rw [h.bytesAt]
  exact ⟨h.ordinary hr.1, h.copies _ hr.2⟩

/-- The bytes lie in one line. -/
theorem Ordinary.in_line (h : Ordinary s owner va pa n wr) : 0 < n ∧ n ≤ 8 ∧ pa % 128 + n ≤ 128 := by
  have hsize := h.size
  have hal := h.aligned
  simp only [List.mem_cons, List.not_mem_nil, or_false] at hsize
  rcases hsize with rfl | rfl | rfl | rfl <;> omega

theorem Ordinary.line (h : Ordinary s owner va pa n wr) {i : Nat} (hi : i < n) : (pa + i) / 128 = pa / 128 := by
  have := h.in_line
  omega

theorem Ordinary.not_cfg (h : Ordinary s owner va pa n wr) : ¬ cfgBase ≤ pa := by
  have := h.in_line
  have := h.below
  omega

theorem Ordinary.linesOf (h : Ordinary s owner va pa n wr) : linesOf pa n = [pa / 128] := by
  have hline := h.in_line
  have hspan : lineSpan pa n = 1 := by
    unfold lineSpan
    rw [if_neg (by omega)]
    omega
  simp [Machine.linesOf, hspan, upTo, List.range_succ]

/-- The line reads without a stop, and reading it drops no copy. -/
theorem Ordinary.linesCheck (h : Ordinary s owner va pa n wr) (zor : Bool) : s.linesCheck owner zor [pa / 128] = (.ok (), s) := by
  have hold := h.old
  have hgood := h.good
  have hclean := h.clean
  have hown := h.own
  simp [State.linesCheck, hold, hgood, hclean, hown, State.dropForeign]

/-- What memory gives is what it holds. -/
theorem Ordinary.byteAt (h : Ordinary s owner va pa n wr) (zor : Bool) {i : Nat} (hi : i < n) : s.byteAt owner zor (pa + i) = memGet s.mem (pa + i) := by
  simp [State.byteAt, h.line hi, h.old, h.own]

theorem Ordinary.ofBytes (h : Ordinary s owner va pa n wr) (zor : Bool) : ofBytes (s.bytesAt owner zor pa n) = memNat s pa n :=
  congrArg Machine.ofBytes (List.map_congr_left fun _ hi => h.byteAt zor (List.mem_range.1 hi))

/-- No line of it being a zero-on-read line that nothing has written, ZOR does not matter. -/
theorem bytesAt_zor {a m : Nat} (hold : ∀ i, i < m → s.unwritten ((a + i) / 128) = false) (zor : Bool) :
    s.bytesAt owner zor a m = s.bytesAt owner false a m :=
  List.map_congr_left fun i hi => by simp [State.byteAt, hold i (List.mem_range.1 hi)]

/-- Some bytes of a line's. -/
theorem bytesAt_cut (s : State) (owner a k n : Nat) (zor : Bool) (hkn : k + n ≤ 128) :
    ((s.bytesAt owner zor a 128).drop k).take n = s.bytesAt owner zor (a + k) n := by
  refine List.ext_getElem (by simp [State.bytesAt, upTo]; omega) fun i _ _ => ?_
  simp [State.bytesAt, upTo, Nat.add_assoc]

/-- A read past the L1 gives what memory holds. -/
theorem Ordinary.readPast {a : Access} (h : Ordinary s a.owner va pa n wr) (zor : Bool) :
    s.readPast a zor pa n = (.ok (s.overlaid a pa (s.bytesAt a.owner zor pa n)), s) := by
  rw [State.readPast, h.linesOf, h.linesCheck]
  rfl

/-- A read through the L1 gives what memory holds. -/
theorem readL1_reaches {a : Access} (hr : Reaches s a.cl a.owner va pa n wr) (zor : Bool) :
    ∃ y, s.readL1 a zor pa n = (.ok (s.overlaid a pa (s.bytesAt a.owner false pa n)), y) ∧ Fetched s a.cl a.owner y := by
  obtain ⟨ho, hcopies⟩ := (reaches_iff ..).1 hr
  have hcut : ((s.bytesAt a.owner false (pa / 128 * 128) 128).drop (pa % 128)).take n = s.bytesAt a.owner false pa n := by
    rw [bytesAt_cut _ _ _ _ _ _ ho.in_line.2.2]
    congr 1
    omega
  cases hhit : copyOf (s.cluster a.cl) (l1Key a.owner (pa / 128)) with
  | some b =>
    have hread := readL1_hit hhit zor n
    rw [hcopies.copyOf hhit, hcut] at hread
    exact ⟨s, hread, .refl _ _ _⟩
  | none =>
    have hzor : s.bytesAt a.owner zor (pa / 128 * 128) 128 = s.bytesAt a.owner false (pa / 128 * 128) 128 :=
      bytesAt_zor (fun i hi => by rw [show (pa / 128 * 128 + i) / 128 = pa / 128 by omega]; exact ho.old) zor
    have hread := readL1_fill hhit (ho.linesCheck zor) n
    rw [hzor, hcut] at hread
    refine ⟨_, hread, fetched_modCluster (fun c => cores_awaiting c _ _) fun line hline => hline.awaiting fun hkey => ?_⟩
    rw [show pa / 128 = line by unfold l1Key at hkey; omega]

/-- A read of ordinary memory by a lane gives what memory holds (R136). -/
theorem pread_reaches {a : Access} (hr : Reaches s a.cl a.owner va pa n false) (zor wide : Bool) :
    ∃ y, s.pread a va pa zor n wide = (.ok (s.overlaid a pa (s.bytesAt a.owner false pa n)), y) ∧ Fetched s a.cl a.owner y := by
  have ho := ((reaches_iff ..).1 hr).1
  have hline := ho.in_line
  have hstop : ((s.guardPa pa n false).orElse fun _ => s.lockCheck a.owner va n false) = none := by
    simp [ho.guard, State.lockCheck, ho.lock]
  simp only [State.pread, hstop, if_neg ho.not_cfg]
  cases wide with
  | true =>
    have hclear := fetched_l1Clear s a.cl a.owner
    have hzor : s.bytesAt a.owner zor pa n = s.bytesAt a.owner false pa n := bytesAt_zor (fun i hi => by rw [ho.line hi]; exact ho.old) zor
    have hread := (hclear.ordinary ho).readPast zor
    rw [hclear.bytesAt, hzor] at hread
    exact ⟨_, (if_pos rfl).trans hread, hclear⟩
  | false =>
    obtain ⟨y, hread, hy⟩ := readL1_reaches hr zor
    refine ⟨y, (if_neg Bool.false_ne_true).trans ?_, hy⟩
    have hk : min n (128 - pa % 128) = n := by omega
    simp only [readSpanL1, hk, if_neg (show n ≠ 0 by omega), hread, MR.andThen, Nat.sub_self, if_true, List.append_nil]

end ordinary

end Sys2Proof.Machine.MemoryAccess
end

section
/-! PROOFS. Writes and indivisible reads and writes of ordinary memory (06_lane_memory.md R138 to R142; 15_die_memory.md R321, R326): the bytes written
change, and the tag of their line. -/

namespace Sys2Proof.Machine.MemoryAccess

section writes

variable {s : State} {cl owner va pa n : Nat} {wr : Bool}

/-- The state after accesses of a cluster for an owner to ordinary memory: bytes, tags and copies of lines change, and what was ordinary memory of the
owner still is. -/
structure Accessed (s : State) (cl owner : Nat) (y : State) : Prop where
  frame : y = { s with mem := y.mem, tags := y.tags, clusters := y.clusters }
  cores : (y.cluster cl).cores = (s.cluster cl).cores
  tags : ∀ line, s.foreignTag owner line = false → y.foreignTag owner line = false
  canonical : Memory.wf s.mem = true → Memory.wf y.mem = true

theorem Accessed.refl (s : State) (cl owner : Nat) : Accessed s cl owner s := ⟨rfl, rfl, fun _ h => h, fun h => h⟩

theorem Accessed.trans {y z : State} (h : Accessed s cl owner y) (h' : Accessed y cl owner z) : Accessed s cl owner z where
  frame := by rw [h'.frame, h.frame]
  cores := h'.cores.trans h.cores
  tags line hs := h'.tags line (h.tags line hs)
  canonical hs := h'.canonical (h.canonical hs)

/-- Nothing guards bytes that lie in no region's pool and, for a write, in no sealed frame. -/
theorem guardPa_eq_none_iff : s.guardPa pa n wr = none ↔ s.inPool pa n = false ∧ (wr && s.sealedAt pa n) = false := by
  unfold State.guardPa
  cases s.inPool pa n <;> cases wr && s.sealedAt pa n <;> simp

theorem Accessed.ordinary {y : State} (h : Accessed s cl owner y) (ho : Ordinary s owner va pa n wr) : Ordinary y owner va pa n wr := by
  obtain ⟨h1, h2, h3, h4, h5, h6, h7, h8, h9⟩ := ho
  have hown := h.tags _ h8
  have hguard : y.guardPa pa n wr = none := by
    have hpool : y.inPool pa n = s.inPool pa n := by rw [h.frame]; rfl
    have hsealed : y.sealedAt pa n = s.sealedAt pa n := by rw [h.frame]; rfl
    rw [guardPa_eq_none_iff] at h4 ⊢
    rwa [hpool, hsealed]
  rw [h.frame] at hown hguard ⊢
  exact ⟨h1, h2, h3, hguard, h5, h6, h7, hown, h9⟩

/-- A change of the cluster that leaves its cores as they are. -/
theorem accessed_modCluster {f : Cluster → Cluster} (hcores : ∀ c, (f c).cores = c.cores) : Accessed s cl owner (s.modCluster cl f) where
  frame := rfl
  cores := by rcases cluster_modCluster_or s cl f with h | h <;> rw [h]; exact hcores _
  tags _ h := h
  canonical h := h

/-- The tags after a write to an address: its line, unless it is a version's, bears the writer's key. -/
def tagged (s : State) (owner pa : Nat) : List (Nat × Nat × Nat) :=
  if decide (poolBase ≤ pa) then s.tags else aset s.tags (pa / 128) (owner, s.keyOf owner)

/-- A write to ordinary memory changes its bytes and the tag of its line. -/
theorem Ordinary.writeMem (h : Ordinary s owner va pa n wr) {bs : List Byte} (hbs : bs.length = n) (zor : Bool) :
    s.writeMem owner zor pa bs = { s with mem := memSets s.mem pa bs, tags := tagged s owner pa } := by
  have hline := h.in_line
  have hne : bs.isEmpty = false := by cases bs <;> simp_all
  have hwhole : (bs.length == 128) = false := by simp; omega
  have htake : bs.take (128 - pa % 128) = bs := List.take_of_length_le (by omega)
  have hdrop : bs.drop (128 - pa % 128) = [] := List.drop_of_length_le (by omega)
  simp only [State.writeMem, writeSpan, hne, htake, hdrop, Bool.false_eq_true, if_false, List.isEmpty_nil, if_true]
  simp only [State.writeLine, hwhole, h.old, h.own, Bool.and_false, Bool.false_eq_true, if_false]
  rfl

/-- A write gives no line a key that is foreign to the writer. -/
theorem foreignTag_tagged (m : List Host.Cell) {line : Nat} (h : s.foreignTag owner line = false) :
    ({ s with mem := m, tags := tagged s owner pa } : State).foreignTag owner line = false := by
  by_cases hpool : poolBase ≤ pa
  · rw [tagged, if_pos (decide_eq_true hpool)]
    exact h
  · by_cases hline : line = pa / 128
    · simp [State.foreignTag, tagged, hpool, hline, State.keyOf]
    · have h' := h
      simpa [State.foreignTag, tagged, hpool, aget?_aset_ne _ _ hline, State.keyOf] using h'

/-- A write to ordinary memory that is not buffered changes its bytes alone. -/
theorem Ordinary.store {a : Access} (h : Ordinary s a.owner va pa n wr) {bs : List Byte} (hbs : bs.length = n) (hbuf : s.buffers a pa = false)
    (zor : Bool) : Accessed s a.cl a.owner (s.store a zor pa bs) ∧ (s.store a zor pa bs).mem = memSets s.mem pa bs := by
  have hstore : s.store a zor pa bs = (s.writeMem a.owner zor pa bs).l1Store a.cl a.owner pa bs := by
    simp only [State.store, hbuf, Bool.false_eq_true, if_false]
  rw [hstore, h.writeMem hbs]
  refine ⟨Accessed.trans (y := { s with mem := memSets s.mem pa bs, tags := tagged s a.owner pa }) ?_ (accessed_modCluster fun _ => rfl), rfl⟩
  exact ⟨rfl, rfl, fun _ hs => foreignTag_tagged _ hs, fun hw => Memory.wf_memSets bs pa hw⟩

/-- Nothing stops a write to ordinary memory but the allowance of a speculative task. -/
theorem Ordinary.writeGuard {a : Access} (h : Ordinary s a.owner va pa n true) {bs : List Byte} (hbs : bs.length = n)
    (hover : s.overAllowance a pa n = false) : s.writeGuard a va pa bs = none := by
  simp [State.writeGuard, h.not_cfg, hbs, h.guard, State.lockCheck, h.lock, hover]

theorem Ordinary.pwrite {a : Access} (h : Ordinary s a.owner va pa n true) {bs : List Byte} (hbs : bs.length = n)
    (hover : s.overAllowance a pa n = false) (zor : Bool) : s.pwrite a va pa zor bs = (.ok (), s.store a zor pa bs) := by
  simp only [State.pwrite, h.writeGuard hbs hover, if_neg h.not_cfg]

/-- An access that is not speculative is neither buffered nor limited. -/
theorem buffers_of_not_spec {a : Access} (h : a.spec = false) (pa : Nat) : s.buffers a pa = false := by simp [State.buffers, h]

theorem overAllowance_of_not_buffered {a : Access} (h : s.buffers a pa = false) (n : Nat) : s.overAllowance a pa n = false := by
  simp [State.overAllowance, h]

/-- An indivisible access to ordinary memory gives the number that memory held, and leaves the new one there, where there is one (R139 to R141). -/
theorem Ordinary.patomic {a : Access} (h : Ordinary s a.owner va pa n true) (hw : Memory.wf s.mem = true) (hspec : a.spec = false) (zor wide : Bool)
    (f : Nat → Option Nat) :
    ∃ bs y, s.patomic a va pa zor n wide (fun bs => (f (Machine.ofBytes bs)).map (toBytes n)) = (.ok bs, y) ∧ Machine.ofBytes bs = memNat s pa n
      ∧ Accessed s a.cl a.owner y ∧ memNat y pa n = (f (memNat s pa n)).getD (memNat s pa n) % 2 ^ (8 * n)
      ∧ ∀ c, ¬ (pa ≤ c ∧ c < pa + n) → memGet y.mem c = memGet s.mem c := by
  have hbuf := buffers_of_not_spec (s := s) hspec pa
  have hstop : ((s.guardPa pa n true).orElse fun _ => (none : Option MemFail).orElse fun _ => s.lockCheck a.owner va n true) = none := by
    simp [h.guard, State.lockCheck, h.lock]
  obtain ⟨z, hz, hacc, hmem⟩ : ∃ z, (if wide then s.l1Clear a.cl else s.l1Forget a.cl a.owner (pa / 128)) = z ∧ Accessed s a.cl a.owner z ∧ z.mem = s.mem := by
    cases wide with
    | true => exact ⟨_, rfl, accessed_modCluster fun _ => rfl, rfl⟩
    | false => exact ⟨_, rfl, accessed_modCluster fun _ => rfl, rfl⟩
  have hord := hacc.ordinary h
  have hold : Machine.ofBytes (z.bytesAt a.owner zor pa n) = memNat s pa n := (hord.ofBytes zor).trans (memNat_congr fun _ _ => by rw [hmem])
  have hover : z.overlaid a pa (z.bytesAt a.owner zor pa n) = z.bytesAt a.owner zor pa n := by simp [State.overlaid, hspec]
  simp only [State.patomic, hbuf, h.not_cfg, if_false, hstop, Bool.false_eq_true, hz, hord.readPast, hover, MR.andThen, hold]
  cases hf : f (memNat s pa n) with
  | none =>
    refine ⟨_, _, rfl, hold, hacc, ?_, fun c _ => by rw [hmem]⟩
    rw [Option.getD_none, Nat.mod_eq_of_lt (memNat_lt ..)]
    exact memNat_congr fun _ _ => by rw [hmem]
  | some v =>
    obtain ⟨hstored, hset⟩ := hord.store (length_toBytes n v) (buffers_of_not_spec hspec pa) zor
    have hget (c : Nat) := memGet_memSets (toBytes n v) (hacc.canonical hw) pa c
    simp only [length_toBytes] at hget
    refine ⟨_, _, rfl, hold, hacc.trans hstored, memNat_of_bytes fun i hi => ?_, fun c hc => ?_⟩
    · rw [hset, hget, if_pos (by omega), Nat.add_sub_cancel_left, Option.getD_some]
    · rw [hset, hget, if_neg hc, hmem]

end writes

end Sys2Proof.Machine.MemoryAccess
end

section
/-! PROOFS. What one lane of a load, a store or an atomic word does, how such a word ends from its lanes (06_lane_memory.md R136 to R142), and the
faults of a word of one lane (R84, R135, R144 to R146). -/

namespace Sys2Proof.Machine.MemoryWords

open LaneEnds

/-! ## Ready words -/

/-- A ready lane word, of a team that keeps no fault, whose meaning comes to `res`. -/
structure ReadyWord (x : LaneIn) (i : Instr) (ms : BitVec 3) (res : LaneRes) : Prop where
  ready : LaneReady x.s x.q x.t x.sq x.tm i ms
  input : x = laneIn x.s x.q x.t x.sq x.tm ms
  runs : ∃ body, exec i x.s = laneRun i ms body x.s ∧ body x = res
  unfaulted : x.tm.faulted = []

theorem readyWord_of {s : State} {q t : Nat} {sq : Squad} {tm : Team} {i : Instr} {ms : BitVec 3} {body : LaneIn → LaneRes}
    (hr : LaneReady s q t sq tm i ms) (hexec : exec i s = laneRun i ms body s) (hf : tm.faulted = []) :
    ReadyWord (laneIn s q t sq tm ms) i ms (body (laneIn s q t sq tm ms)) := ⟨hr, rfl, ⟨body, hexec, rfl⟩, hf⟩

section word

variable {x : LaneIn} {i : Instr} {ms : BitVec 3} {res : LaneRes} {y : State}

theorem ReadyWord.acting (h : ReadyWord x i ms res) : x.tm.acting ms = x.m := (congrArg LaneIn.m h.input).symm

theorem ReadyWord.team (h : ReadyWord x i ms res) : x.s.team x.q x.t = some x.tm := team_of_ready h.ready

theorem ReadyWord.done (h : ReadyWord x i ms res) (hres : res = .done y) : exec i x.s = .next (y.retire x.q x.t x.sq x.tm i x.m) := by
  obtain ⟨body, hexec, hbody⟩ := h.runs
  rw [hres, h.input] at hbody
  rw [hexec, laneRun_done h.ready hbody, h.acting]

theorem ReadyWord.waits {tw : TeamWait} (h : ReadyWord x i ms res) (hres : res = .wait tw y) :
    exec i x.s = .next (y.waits x.q x.t x.sq x.tm i x.m tw) := by
  obtain ⟨body, hexec, hbody⟩ := h.runs
  rw [hres, h.input] at hbody
  rw [hexec, laneRun_wait h.ready hbody, h.acting]

end word

/-! ## The lanes of a word, one at a time -/

/-- The bytes of a value that a lane reads. -/
def accSize (x : LaneIn) (w : LM) : Nat := (x.ty w.ty).width / 8

/-- Lane `l` of a load, whose target `tgt` gives. -/
def loadStep (x : LaneIn) (w : LM) (tgt : State → Nat → LR2 Tgt) (s : State) (l : Nat) : LR2 Nat :=
  (tgt s l).andThen fun g s =>
    match g with
    | .loc va pa zor =>
      ((s.pread (x.acc s l) va pa zor (accSize x w) (wideAcq w.ord.toNat w.scope.toNat)).at va).andThen fun bs s => (.ok (ofBytes bs), s)
    | .rem va dev addr =>
      (x.remote s l va dev addr (accSize x w) 0 [] false).andThen fun bs s => (.ok (ofBytes bs), if w.ord.getLsbD 0 then s.l1Clear x.sq.cluster else s)

theorem exec_ldw (w : LM) (s : State) :
    exec (.ldw w) s = laneRun (.ldw w) w.ms (fun x => x.load w { win := w.w.toNat } fun n d s l => x.winTgt w 25 n d true s l) s := rfl

theorem exec_ldg (w : LM) (s : State) :
    exec (.ldg w) s = laneRun (.ldg w) w.ms (fun x => x.load w { raw := true } fun n d s l => x.rawTgt w n d s l) s := rfl

/-- The end of a load whose lanes have been performed. -/
def loadEnd (x : LaneIn) (w : LM) (z : LaneSt) : LaneRes :=
  x.ending (z.s.modTeam x.q x.t fun tm => tm.setTy (loadTy (x.ty w.ty)) w.d.toNat z.done fun l => loadImage (x.ty w.ty) (z.val l)) x.master
    (z.ordered x.tm.lanes)

theorem load_eq (x : LaneIn) (w : LM) (mw : MemWord) (tgt : Nat → Dir → State → Nat → LR2 Tgt) :
    x.load w mw tgt = loadEnd x w (x.each { mw with lsize := lsizeOf (accSize x w) } (loadStep x w (tgt (accSize x w) { rd := true }))
      (x.tm.lanesOf x.m) { s := x.s }) := rfl

/-- The value that a lane of a store narrows its register to (R138). -/
def storeVal (x : LaneIn) (w : LM) (l : Nat) : Rounded := narrowStore x.tm.fmtr (x.ty w.ty) (x.datum (x.ty w.ty) w.d.toNat l)

/-- Lane `l` of a store, whose target `tgt` gives. -/
def storeStep (x : LaneIn) (w : LM) (tgt : State → Nat → LR2 Tgt) (s : State) (l : Nat) : LR2 Nat :=
  (tgt s l).andThen fun g s =>
    match g with
    | .loc va pa zor => ((s.pwrite (x.acc s l) va pa zor (toBytes (accSize x w) (storeVal x w l).code)).at va).andThen fun _ s => (.ok 0, s)
    | .rem va dev addr => (x.remote s l va dev addr (accSize x w) 1 [(storeVal x w l).code] true).andThen fun _ s => (.ok 0, s)

theorem exec_stw (w : LM) (s : State) :
    exec (.stw w) s = laneRun (.stw w) w.ms (fun x => x.store w { win := w.w.toNat } fun n d s l => x.winTgt w 25 n d true s l) s := rfl

theorem exec_stg (w : LM) (s : State) :
    exec (.stg w) s = laneRun (.stg w) w.ms (fun x => x.store w { raw := true } fun n d s l => x.rawTgt w n d s l) s := rfl

/-- The end of a store of which no lane overflows, when its lanes have been performed. -/
def storeEnd (x : LaneIn) (w : LM) (z : LaneSt) : LaneRes :=
  x.ending (z.s.modTeam x.q x.t fun tm => tm.holdFlags (z.vals.foldl (fun a v => a ||| (storeVal x w v.1).flags) f0)) x.master (z.ordered x.tm.lanes)

theorem store_eq {x : LaneIn} {w : LM} (mw : MemWord) (tgt : Nat → Dir → State → Nat → LR2 Tgt)
    (htrap : ∀ l ∈ x.tm.lanesOf x.m, (storeVal x w l).trap = false) :
    x.store w mw tgt = storeEnd x w (x.each { mw with lsize := lsizeOf (accSize x w), wr := true } (storeStep x w (tgt (accSize x w) { wr := true }))
      (x.tm.lanesOf x.m) { s := x.s }) := by
  have hnone : ((x.tm.lanesOf x.m).filter fun l => (storeVal x w l).trap) = [] := List.filter_eq_nil_iff.2 fun l hl => by simp [htrap l hl]
  exact if_pos (List.isEmpty_iff.2 hnone)

/-- The target of lane `l` of an atomic word. -/
def atomTgt (x : LaneIn) (w : LM) (s : State) (l : Nat) : LR2 Tgt := x.winTgt w 21 (accSize x w) { rd := true, wr := true } false s l

/-- The location that lane `l` of an atomic word names. -/
def atomLoc (x : LaneIn) (w : LM) (l : Nat) : Option Nat :=
  match (atomTgt x w x.s l).1 with
  | .ok (.loc _ pa _) => some pa
  | _ => none

/-- Lane `l` of an atomic word, which replaces the values that `f` replaces. -/
def atomStep (x : LaneIn) (w : LM) (op : Nat) (f : Nat → Nat → Option Nat) (data : Nat → List Nat) (s : State) (l : Nat) : LR2 Nat :=
  (atomTgt x w s l).andThen fun g s =>
    match g with
    | .loc va pa zor =>
      ((s.patomic (x.acc s l) va pa zor (accSize x w) (wideAcq w.ord.toNat w.scope.toNat)
        fun bs => (f l (ofBytes bs)).map (toBytes (accSize x w))).at va).andThen fun bs s => (.ok (ofBytes bs), s)
    | .rem va dev addr =>
      (x.remote s l va dev addr (accSize x w) op (data l) true).andThen fun bs s =>
        (.ok (ofBytes bs), if w.ord.getLsbD 0 then s.l1Clear x.sq.cluster else s)

/-- The end of an atomic word whose lanes have been performed. -/
def atomEnd (x : LaneIn) (w : LM) (ret : Bool) (z : LaneSt) : LaneRes :=
  x.ending (if ret then z.s.modTeam x.q x.t fun tm => tm.setTy (x.ty w.ty) w.d.toNat z.done z.val else z.s) x.master (z.ordered x.tm.lanes)

theorem atomics_eq (x : LaneIn) (w : LM) (op : Nat) (f : Nat → Nat → Option Nat) (data : Nat → List Nat) (ret : Bool) :
    x.atomics w op f data ret = atomEnd x w ret (x.each { win := w.w.toNat, atomic := true, wr := true, lsize := lsizeOf (accSize x w) }
      (atomStep x w op f data) (x.atomOrder (atomLoc x w)) { s := x.s }) := rfl

section steps

variable {x : LaneIn} {w : LM} {tgt : State → Nat → LR2 Tgt} {s z : State} {l : Nat}

/-- A lane without a target fails as its address does. -/
theorem loadStep_tgt_error {e : MemFail × Nat} (h : tgt s l = (.error e, z)) : loadStep x w tgt s l = (.error e, z) := by simp only [loadStep, h, LR2.andThen]

theorem storeStep_tgt_error {e : MemFail × Nat} (h : tgt s l = (.error e, z)) : storeStep x w tgt s l = (.error e, z) := by
  simp only [storeStep, h, LR2.andThen]

theorem loadStep_loc {va pa : Nat} {zor : Bool} {y : State} {bs : List Byte} (h : tgt s l = (.ok (.loc va pa zor), z))
    (hread : z.pread (x.acc z l) va pa zor (accSize x w) (wideAcq w.ord.toNat w.scope.toNat) = (.ok bs, y)) :
    loadStep x w tgt s l = (.ok (ofBytes bs), y) := by simp only [loadStep, h, hread, LR2.andThen, MR.at]

theorem storeStep_loc {va pa : Nat} {zor : Bool} {y : State} (h : tgt s l = (.ok (.loc va pa zor), z))
    (hwrite : z.pwrite (x.acc z l) va pa zor (toBytes (accSize x w) (storeVal x w l).code) = (.ok (), y)) :
    storeStep x w tgt s l = (.ok 0, y) := by simp only [storeStep, h, hwrite, LR2.andThen, MR.at]

/-- A lane of another device fails as its request does. -/
theorem loadStep_rem_error {va dev addr : Nat} {e : MemFail × Nat} {y : State} (h : tgt s l = (.ok (.rem va dev addr), z))
    (hrem : x.remote z l va dev addr (accSize x w) 0 [] false = (.error e, y)) : loadStep x w tgt s l = (.error e, y) := by
  simp only [loadStep, h, hrem, LR2.andThen]

theorem storeStep_rem_error {va dev addr : Nat} {e : MemFail × Nat} {y : State} (h : tgt s l = (.ok (.rem va dev addr), z))
    (hrem : x.remote z l va dev addr (accSize x w) 1 [(storeVal x w l).code] true = (.error e, y)) : storeStep x w tgt s l = (.error e, y) := by
  simp only [storeStep, h, hrem, LR2.andThen]

theorem loadStep_rem {va dev addr : Nat} {bs : List Byte} {y : State} (h : tgt s l = (.ok (.rem va dev addr), z))
    (hrem : x.remote z l va dev addr (accSize x w) 0 [] false = (.ok bs, y)) :
    loadStep x w tgt s l = (.ok (ofBytes bs), if w.ord.getLsbD 0 then y.l1Clear x.sq.cluster else y) := by
  simp only [loadStep, h, hrem, LR2.andThen]

theorem storeStep_rem {va dev addr : Nat} {bs : List Byte} {y : State} (h : tgt s l = (.ok (.rem va dev addr), z))
    (hrem : x.remote z l va dev addr (accSize x w) 1 [(storeVal x w l).code] true = (.ok bs, y)) : storeStep x w tgt s l = (.ok 0, y) := by
  simp only [storeStep, h, hrem, LR2.andThen]

end steps

/-! ## Requests to other devices (R434) -/

section remote

variable {x : LaneIn} {s : State} {l va dev addr n op : Nat} {data : List Nat} {wr : Bool}

/-- The request of a lane, where there is one already. -/
def pending (x : LaneIn) (s : State) (l : Nat) : Option RemoteReq := s.fabric.out.find? fun r => r.src == .team x.q x.t && r.lane == l

/-- A lane's first request to a device that no route reaches fails. -/
theorem remote_unreachable (hnone : pending x s l = none) (hspec : wr = true → s.speculative x.sq = false) (hdev : s.reachable dev = false) :
    x.remote s l va dev addr n op data wr = (.error (.cause .fabricUnreachable 0, va), s) := by
  have hwr : (wr && s.speculative x.sq) = false := by cases wr <;> simp_all
  unfold pending at hnone
  simp only [LaneIn.remote, hnone, hwr, hdev, Bool.not_false, Bool.false_eq_true, if_false, if_true]

/-- A lane's first request is sent, and the lane waits. -/
theorem remote_sends (hs : x.s = s) (hnone : pending x s l = none) (hspec : wr = true → s.speculative x.sq = false) (hdev : s.reachable dev = true)
    (hroom : s.remoteOut x.sq.cluster < 1024) :
    x.remote s l va dev addr n op data wr = (.error (.remote, va), { s with fabric := s.fabric.sending (x.request l dev addr n op data) }) := by
  have hwr : (wr && s.speculative x.sq) = false := by cases wr <;> simp_all
  unfold pending at hnone
  subst hs
  simp only [LaneIn.remote, hnone, hwr, hdev, Bool.not_true, Bool.false_eq_true, if_false, if_neg (Nat.not_le.2 hroom)]
  rfl

/-- A lane whose request has been answered takes the answer. -/
theorem remote_answered {r : RemoteReq} {id : Nat} {bs : List Byte} (hsome : pending x s l = some r)
    (hres : s.fabric.results.find? (fun z => z.1 == r.id) = some (id, 0, bs)) :
    x.remote s l va dev addr n op data wr = (.ok bs, { s with fabric := s.fabric.answered r.id }) := by
  unfold pending at hsome
  simp only [LaneIn.remote, hsome, hres]
  rfl

end remote

/-! ## Words of one lane -/

section one_lane

variable {x : LaneIn} {w : LM} {mw : MemWord} {tgt : Nat → Dir → State → Nat → LR2 Tgt} {y : State} {l : Nat}

/-- A load of one lane that is not performed. -/
theorem load_one_error {e : MemFail} {va : Nat} (hls : x.tm.lanesOf x.m = [l])
    (h : loadStep x w (tgt (accSize x w) { rd := true }) x.s l = (.error (e, va), y)) :
    x.load w mw tgt = x.ending (y.modTeam x.q x.t fun tm => tm.setTy (loadTy (x.ty w.ty)) w.d.toNat 0 fun _ => loadImage (x.ty w.ty) 0) x.master
      [(l, x.stopOf y { mw with lsize := lsizeOf (accSize x w) } l va e)] := by
  have hl : l < x.tm.lanes := ((mem_lanesOf ..).1 (hls ▸ List.mem_cons_self : l ∈ x.tm.lanesOf x.m)).1
  rw [load_eq, hls, each_one_error h, loadEnd, ordered_one _ hl]
  rfl

/-- A load of one lane that is performed. -/
theorem load_one_ok {v : Nat} (hls : x.tm.lanesOf x.m = [l]) (hf : x.tm.faulted = [])
    (h : loadStep x w (tgt (accSize x w) { rd := true }) x.s l = (.ok v, y)) :
    x.load w mw tgt = .done (y.modTeam x.q x.t fun tm => tm.setTy (loadTy (x.ty w.ty)) w.d.toNat (maskOf [l]) fun _ => loadImage (x.ty w.ty) v) := by
  rw [load_eq, hls, each_one_ok h, loadEnd, ordered_nil, ending_nil hf]
  congr 2
  funext tm
  refine setTy_congr _ _ _ fun k hk => ?_
  obtain ⟨hk, -⟩ : k = l ∧ k < 1024 := by simpa using (getLsbD_maskOf ..).symm.trans hk
  simp [LaneSt.val, aget, hk]

/-- A store of one lane that is not performed. -/
theorem store_one_error {e : MemFail} {va : Nat} (hls : x.tm.lanesOf x.m = [l]) (htrap : (storeVal x w l).trap = false)
    (h : storeStep x w (tgt (accSize x w) { wr := true }) x.s l = (.error (e, va), y)) :
    x.store w mw tgt = x.ending (y.modTeam x.q x.t fun tm => tm.holdFlags f0) x.master
      [(l, x.stopOf y { mw with lsize := lsizeOf (accSize x w), wr := true } l va e)] := by
  have hl : l < x.tm.lanes := ((mem_lanesOf ..).1 (hls ▸ List.mem_cons_self : l ∈ x.tm.lanesOf x.m)).1
  rw [store_eq mw tgt (by simpa [hls] using htrap), hls, each_one_error h, storeEnd, ordered_one _ hl]
  rfl

/-- A store of one lane that is performed. -/
theorem store_one_ok {v : Nat} (hls : x.tm.lanesOf x.m = [l]) (hf : x.tm.faulted = []) (htrap : (storeVal x w l).trap = false)
    (h : storeStep x w (tgt (accSize x w) { wr := true }) x.s l = (.ok v, y)) :
    x.store w mw tgt = .done (y.modTeam x.q x.t fun tm => tm.holdFlags (storeVal x w l).flags) := by
  rw [store_eq mw tgt (by simpa [hls] using htrap), hls, each_one_ok h, storeEnd, ordered_nil, ending_nil hf]
  simp [f0]

end one_lane

end Sys2Proof.Machine.MemoryWords
end

section
/-! PROOFS. The faults of a windowed load or store of one lane (06_lane_memory.md R84, R135, R144 to R146). -/

namespace Sys2Proof.Machine.MemoryWords

open LaneEnds

/-- The word parks its team with a cause and lane `l` unfinished; memory is as before, and the team's registers read as before. -/
def Parks (x : LaneIn) (l : Nat) (i : Instr) (ms : BitVec 3) (c : Cause) : Prop :=
  ∃ (info : List DWord) (rec_ : List Byte) (z : State), exec i x.s = .next (z.laneStop x.q x.t x.sq x.tm i ms c info (maskOf [l]) rec_)
    ∧ z.mem = x.s.mem ∧ ∃ tm', z.team x.q x.t = some tm' ∧ tm'.readsAs { x.tm with faulted := tm'.faulted }

/-- The cause that a failed access reports, where it is a fault. -/
def causeOf (f : MemFail) : Option Cause :=
  match f with
  | .cause c _ => some c
  | .page _ _ | .indexPage _ _ => some .pageFault
  | _ => none

theorem stopOf_fault (x : LaneIn) (s : State) (mw : MemWord) (l va : Nat) {f : MemFail} {c : Cause} (h : causeOf f = some c) :
    ∃ info rec_, x.stopOf s mw l va f = .fault c info rec_ := by
  cases f with
  | cause c' w2 =>
    obtain rfl : c' = c := Option.some.inj h
    by_cases hw : c' = .windowInvalid
    · subst hw; exact ⟨_, _, rfl⟩
    · refine ⟨[BitVec.ofNat 64 va, BitVec.ofNat 64 (mw.map l), BitVec.ofNat 64 w2, 0], [], ?_⟩
      simp [LaneIn.stopOf]
  | page => obtain rfl := Option.some.inj h; exact ⟨_, _, rfl⟩
  | indexPage => obtain rfl := Option.some.inj h; exact ⟨_, _, rfl⟩
  | touch | violation | spec | remote => cases h

section parks

variable {x : LaneIn} {w : LM} {l va : Nat} {i : Instr} {e : MemFail} {c : Cause}

/-- A word of one lane whose only lane faults parks its team, when its other effect on the team leaves its registers as they read. -/
theorem parks_of_ending {ms : BitVec 3} (f : Team → Team) {z : Stop} (h : ReadyWord x i ms (x.ending (x.s.modTeam x.q x.t f) x.master [(l, z)]))
    (hls : x.tm.lanesOf x.m = [l]) (hread : (f x.tm).readsAs x.tm) (hz : ∃ info rec_, z = .fault c info rec_) : Parks x l i ms c := by
  obtain ⟨info, rec_, rfl⟩ := hz
  obtain ⟨body, hexec, hbody⟩ := h.runs
  have hlanes : x.tm.lanesOf (x.tm.acting ms) = [l] := h.acting.symm ▸ hls
  have hmap : [(l, Stop.fault c info rec_)] = (x.tm.lanesOf (x.tm.acting ms)).map fun k => (k, Stop.fault c ((fun _ => info) k) ((fun _ => rec_) k)) := by
    rw [hlanes]; rfl
  rw [hmap, h.input] at hbody
  obtain ⟨k, -, fs, hrun⟩ := laneRun_faults h.ready (by simp [hlanes]) h.unfaulted hbody
  rw [hlanes] at hrun
  exact ⟨_, _, _, hexec.trans hrun, by simp, _, team_modTeam_same _ (team_modTeam_same f h.team), readsAs_faulted hread fs⟩

/-- The target of lane `l` of a windowed load or store. -/
def wordTgt (x : LaneIn) (w : LM) (d : Dir) (s : State) (l : Nat) : LR2 Tgt := x.winTgt w 25 (accSize x w) d true s l

/-- An LDW of one lane that fails with a fault parks its team. -/
theorem parks_of_load (hr : LaneReady x.s x.q x.t x.sq x.tm (.ldw w) w.ms) (hx : x = laneIn x.s x.q x.t x.sq x.tm w.ms) (hf : x.tm.faulted = [])
    (hls : x.tm.lanesOf x.m = [l]) (hc : causeOf e = some c) (h : loadStep x w (wordTgt x w { rd := true }) x.s l = (.error (e, va), x.s)) :
    Parks x l (.ldw w) w.ms c :=
  parks_of_ending _ ⟨hr, hx, ⟨_, exec_ldw w x.s, load_one_error hls h⟩, hf⟩ hls
    (readsAs_setTy_none (readsAs_refl x.tm) _ _ _ fun _ _ => BitVec.getLsbD_zero) (stopOf_fault _ _ _ _ _ hc)

/-- An STW of one lane that fails with a fault parks its team. -/
theorem parks_of_store (hr : LaneReady x.s x.q x.t x.sq x.tm (.stw w) w.ms) (hx : x = laneIn x.s x.q x.t x.sq x.tm w.ms) (hf : x.tm.faulted = [])
    (hls : x.tm.lanesOf x.m = [l]) (hc : causeOf e = some c) (htrap : (storeVal x w l).trap = false)
    (h : storeStep x w (wordTgt x w { wr := true }) x.s l = (.error (e, va), x.s)) : Parks x l (.stw w) w.ms c := by
  have hflags : (x.tm.holdFlags f0).readsAs x.tm := by
    have hsame : x.tm.holdFlags f0 = x.tm := by simp [Team.holdFlags, f0]
    rw [hsame]
    exact readsAs_refl x.tm
  exact parks_of_ending _ ⟨hr, hx, ⟨_, exec_stw w x.s, store_one_error hls htrap h⟩, hf⟩ hls hflags (stopOf_fault _ _ _ _ _ hc)

/-- What LDW and STW need of their targets. -/
def needs (w : LM) (i : Instr) : Dir := { rd := decide (i = .ldw w), wr := decide (i = .stw w) }

theorem needs_ldw (w : LM) : needs w (.ldw w) = { rd := true } := by simp [needs]
theorem needs_stw (w : LM) : needs w (.stw w) = { wr := true } := by simp [needs]

section one_word

variable (hi : i ∈ [Instr.ldw w, .stw w]) (hr : LaneReady x.s x.q x.t x.sq x.tm i w.ms) (hx : x = laneIn x.s x.q x.t x.sq x.tm w.ms)
  (hf : x.tm.faulted = []) (hls : x.tm.lanesOf x.m = [l]) (htrap : i = .stw w → (storeVal x w l).trap = false)

include hi hr hx hf hls htrap

/-- A word of one lane whose address faults parks its team. -/
theorem parks_of_tgt (hc : causeOf e = some c) (h : wordTgt x w (needs w i) x.s l = (.error (e, va), x.s)) : Parks x l i w.ms c := by
  simp only [List.mem_cons, List.not_mem_nil, or_false] at hi
  rcases hi with rfl | rfl
  · rw [needs_ldw] at h
    exact parks_of_load hr hx hf hls hc (loadStep_tgt_error h)
  · rw [needs_stw] at h
    exact parks_of_store hr hx hf hls hc (htrap rfl) (storeStep_tgt_error h)

/-- A word of one lane whose request finds no route parks its team. -/
theorem parks_of_unreachable {dev addr : Nat} (h : wordTgt x w (needs w i) x.s l = (.ok (.rem va dev addr), x.s)) (hdev : x.s.reachable dev = false)
    (hspec : i = .stw w → x.s.speculative x.sq = false) (hnone : pending x x.s l = none) : Parks x l i w.ms .fabricUnreachable := by
  simp only [List.mem_cons, List.not_mem_nil, or_false] at hi
  rcases hi with rfl | rfl
  · rw [needs_ldw] at h
    exact parks_of_load hr hx hf hls rfl (loadStep_rem_error h (remote_unreachable hnone (fun hwr => absurd hwr Bool.false_ne_true) hdev))
  · rw [needs_stw] at h
    exact parks_of_store hr hx hf hls rfl (htrap rfl) (storeStep_rem_error h (remote_unreachable hnone (fun _ => hspec rfl) hdev))

end one_word

end parks

/-! ## Addresses that fail (R135, R145) -/

section address

variable {s : State} {a : Access} {w : Window} {off : Int} {n : Nat} {d : Dir} {gather : Bool}

theorem windowAddr_invalid (hkind : w.kind ∉ [1, 2, 4]) : s.windowAddr a w off n d gather = (.error (.cause .windowInvalid 0, 0), s) := by
  simp only [List.mem_cons, List.not_mem_nil, or_false, not_or] at hkind
  simp [State.windowAddr, hkind]

/-- A MEM or REMOTE window is neither a GATHER window nor of a kind that the word does not accept. -/
theorem windowAddr_mem (hkind : w.kind ∈ [1, 4]) :
    s.windowAddr a w off n d gather =
      let va := wrapN ((w.base : Int) + off) 64
      if off % (n : Int) ≠ 0 then (.error (.cause .misaligned 0, va), s)
      else if off < 0 ∨ (d.rd ∧ !w.rd) ∨ (d.wr ∧ !w.wr) then (.error (.cause .protection 0, va), s)
      else if w.kind = 4 then
        if off.toNat + n ≤ w.limit then (.ok (.rem va w.devid (w.frame + off.toNat)), s)
        else (.error (.cause .protection 0, va), s)
      else if off.toNat + n ≤ w.limit then (.ok (.loc va (s.winPa w off.toNat) w.zor), s)
      else if 2 ^ 56 ≤ va then (.error (.cause .protection 0, va), s)
      else ((s.translateFor a va n { rd := d.rd, wr := d.wr }).at va).andThen fun t s => (.ok (.loc va t.pa (pteZor t.leaf)), s) := by
  simp only [List.mem_cons, List.not_mem_nil, or_false] at hkind
  have hgather : ¬ (w.kind = 2 ∧ gather = true) := by omega
  have hother : ¬ (w.kind ≠ 1 ∧ w.kind ≠ 4) := by omega
  simp only [State.windowAddr, if_neg hgather, if_neg hother]

theorem windowAddr_misaligned (hkind : w.kind ∈ [1, 4]) (hoff : off % (n : Int) ≠ 0) :
    s.windowAddr a w off n d gather = (.error (.cause .misaligned 0, wrapN ((w.base : Int) + off) 64), s) := by
  simp only [windowAddr_mem hkind, if_pos hoff]

theorem windowAddr_protected (hkind : w.kind ∈ [1, 4]) (hoff : off % (n : Int) = 0)
    (h : off < 0 ∨ (d.rd ∧ !w.rd) ∨ (d.wr ∧ !w.wr) ∨ (w.kind = 4 ∧ (w.limit : Int) < off + n)) :
    s.windowAddr a w off n d gather = (.error (.cause .protection 0, wrapN ((w.base : Int) + off) 64), s) := by
  rw [windowAddr_mem hkind]
  dsimp only
  rw [if_neg (not_not.2 hoff)]
  by_cases hdenied : off < 0 ∨ (d.rd ∧ !w.rd) ∨ (d.wr ∧ !w.wr)
  · rw [if_pos hdenied]
  · have hbeyond : w.kind = 4 ∧ (w.limit : Int) < off + n := by tauto
    rw [if_neg hdenied, if_pos hbeyond.1, if_neg (by omega)]

end address

/-- Settles O14: the lane fails at its window, at its address or at its route, and a word whose only lane fails parks its team. -/
theorem faultingWindowAccessesParkTheTeam : Obligations.FaultingWindowAccessesParkTheTeam := by
  unfold Obligations.FaultingWindowAccessesParkTheTeam
  intro s q t l sq tm w x win n m hls _ hf i hi hr htrap parks tgt
  have hfault {e : MemFail} {c : Cause} {va : Nat} (hc : causeOf e = some c) (h : tgt = (.error (e, va), s)) : parks c :=
    parks_of_tgt (x := x) hi hr rfl hf hls htrap hc h
  refine ⟨fun hkind => ?invalid, fun hkind hoff => ?misaligned, fun hkind hoff h => ?protection, fun c w2 va h => ?cause, fun level entry va h => ?page,
    fun va dev addr h hdev hspec hnone => ?unreachable⟩
  case invalid => exact hfault rfl (windowAddr_invalid hkind)
  case misaligned => exact hfault rfl (windowAddr_misaligned hkind hoff)
  case protection =>
    refine hfault rfl (windowAddr_protected hkind hoff ?_)
    simp only [decide_eq_true_eq, Bool.not_eq_true']
    exact h
  case cause => exact hfault rfl h
  case page => rcases h with h | h <;> exact hfault rfl h
  case unreachable => exact parks_of_unreachable (x := x) hi hr rfl hf hls htrap h hdev hspec hnone

end Sys2Proof.Machine.MemoryWords
end

section
/-! PROOFS. Addresses of lane words (06_lane_memory.md R130 to R133; 15_die_memory.md R309 to R314, R325): what they depend on, and what finding one
leaves as it is. -/

namespace Sys2Proof.Machine.MemoryAddress

open MemoryAccess

/-! ## What finding an address leaves as it is -/

/-- The squads and the tasks are the same. -/
def SameUnits (s z : State) : Prop := z.squads = s.squads ∧ z.tasks = s.tasks

theorem SameUnits.refl (s : State) : SameUnits s s := ⟨rfl, rfl⟩

theorem SameUnits.trans {s y z : State} (h : SameUnits s y) (h' : SameUnits y z) : SameUnits s z := ⟨h'.1.trans h.1, h'.2.trans h.2⟩

theorem SameUnits.team {s z : State} (h : SameUnits s z) (q t : Nat) : z.team q t = s.team q t := by
  unfold State.team State.squad
  rw [h.1]

theorem SameUnits.ownerOf {s z : State} (h : SameUnits s z) (sq : Squad) : z.ownerOf sq = s.ownerOf sq := by
  unfold State.ownerOf State.task
  rw [h.2]

section frames

variable {α β : Type} {s : State}

/-- A result and what goes on from it. -/
theorem SameUnits.andThen {r : MR α} {f : α → State → MR β} (hr : SameUnits s r.2) (hf : ∀ a z, SameUnits s z → SameUnits s (f a z).2) :
    SameUnits s (r.andThen f).2 := by
  obtain ⟨_ | a, z⟩ := r
  · exact hr
  · exact hf a z hr

theorem SameUnits.andThen2 {r : LR2 α} {f : α → State → LR2 β} (hr : SameUnits s r.2) (hf : ∀ a z, SameUnits s z → SameUnits s (f a z).2) :
    SameUnits s (r.andThen f).2 := by
  obtain ⟨_ | a, z⟩ := r
  · exact hr
  · exact hf a z hr

theorem SameUnits.at {r : MR α} (hr : SameUnits s r.2) (va : Nat) : SameUnits s (r.at va).2 := by
  obtain ⟨_ | a, z⟩ := r <;> exact hr

end frames

theorem sameUnits_dropForeign (slot : Nat) (ls : List Nat) (s : State) : SameUnits s (ls.foldl (State.dropForeign · slot ·) s) := by
  induction ls generalizing s with
  | nil => exact .refl s
  | cons l ls ih =>
    have hone : SameUnits s (s.dropForeign slot l) := by
      unfold State.dropForeign
      split
      · exact ⟨rfl, rfl⟩
      · exact .refl s
    exact hone.trans (ih _)

theorem sameUnits_linesCheck (s : State) (slot : Nat) (zor : Bool) (ls : List Nat) : SameUnits s (s.linesCheck slot zor ls).2 := by
  unfold State.linesCheck
  dsimp only
  split
  · exact ⟨rfl, rfl⟩
  · split
    · exact .refl s
    · exact sameUnits_dropForeign _ _ _

theorem sameUnits_writeSpan (slot : Nat) (zor : Bool) (f : Nat) (s : State) (pa : Nat) (bs : List Byte) :
    SameUnits s (writeSpan slot zor f s pa bs) := by
  induction f generalizing s pa bs with
  | zero => exact .refl s
  | succ f ih =>
    unfold writeSpan
    split
    · exact .refl s
    · exact SameUnits.trans (y := s.writeLine slot zor pa (bs.take (128 - pa % 128))) ⟨rfl, rfl⟩ (ih _ _ _)

theorem sameUnits_walkFrom (slot va f : Nat) (s : State) (level table : Nat) : SameUnits s (walkFrom slot va f s level table).2 := by
  induction f generalizing s level table with
  | zero => exact .refl s
  | succ f ih =>
    unfold walkFrom
    refine .andThen (sameUnits_linesCheck ..) fun _ z hz => ?_
    dsimp only
    split
    · exact hz
    · exact hz.trans (ih _ _ _)

theorem sameUnits_walkRoot (s : State) (d owner va : Nat) : SameUnits s (s.walkRoot d owner va).2 := by
  unfold State.walkRoot
  dsimp only
  split
  · exact sameUnits_walkFrom ..
  · exact .refl s

theorem sameUnits_judge (s : State) (d owner va : Nat) (n : Need) (w : WalkEnd) : SameUnits s (s.judge d owner va n w).2 := by
  unfold State.judge
  dsimp only
  generalize w.entry ||| 0x400#64 ||| (if n.wr then 0x800#64 else 0) = e'
  split
  case isTrue =>
    split
    · exact .refl s
    · split
      · exact .refl s
      · split
        · exact .refl s
        · split
          · exact .refl s
          · split
            · exact .refl s
            · exact sameUnits_writeSpan ..
  case isFalse =>
    split
    · split <;> exact .refl s
    · exact .refl s

theorem sameUnits_translate (s : State) (a : Access) (va : Nat) (n : Need) : SameUnits s (s.translate a va n).2 := by
  have hbacked (x : Xl) (z : State) : SameUnits z (State.translate.onlyBacked x z).2 := by
    unfold State.translate.onlyBacked
    split <;> exact .refl z
  have hwalk : SameUnits s (State.translate.walkNow a va n s).2 := by
    refine .andThen (sameUnits_walkRoot ..) fun w z hz => .andThen (hz.trans (sameUnits_judge ..)) fun x y hy => ?_
    refine hy.trans (SameUnits.trans ?_ (hbacked _ _))
    split <;> exact ⟨rfl, rfl⟩
  unfold State.translate
  dsimp only
  split
  · split
    · exact hbacked _ s
    · exact hwalk
  · exact hwalk

theorem sameUnits_translateFor (s : State) (a : Access) (va n : Nat) (need : Need) : SameUnits s (s.translateFor a va n need).2 := by
  have h := sameUnits_translate s a va need
  unfold State.translateFor
  split
  · next heq => rwa [heq] at h
  · exact h

theorem sameUnits_readL1 (s : State) (a : Access) (zor : Bool) (pa n : Nat) : SameUnits s (s.readL1 a zor pa n).2 := by
  unfold State.readL1
  dsimp only
  split
  · exact .refl s
  · exact .andThen (sameUnits_linesCheck ..) fun _ z hz => hz.trans ⟨rfl, rfl⟩

theorem sameUnits_readSpanL1 (a : Access) (zor : Bool) (f : Nat) (s : State) (pa n : Nat) : SameUnits s (readSpanL1 a zor f s pa n).2 := by
  induction f generalizing s pa n with
  | zero => exact .refl s
  | succ f ih =>
    unfold readSpanL1
    split
    · exact .refl s
    · exact .andThen (sameUnits_readL1 ..) fun _ z hz => .andThen (hz.trans (ih _ _ _)) fun _ y hy => hy

/-- A read changes no squad and no task. -/
theorem sameUnits_pread (s : State) (a : Access) (va pa : Nat) (zor : Bool) (n : Nat) (wide : Bool) : SameUnits s (s.pread a va pa zor n wide).2 := by
  unfold State.pread
  split
  · exact .refl s
  · split
    · exact .refl s
    · split
      · exact .andThen (SameUnits.trans (y := s.l1Clear a.cl) ⟨rfl, rfl⟩ (sameUnits_linesCheck ..)) fun _ z hz => hz
      · exact sameUnits_readSpanL1 ..

theorem sameUnits_indexRead (s : State) (a : Access) (ia : Nat) : SameUnits s (s.indexRead a ia).2 := by
  have hread : SameUnits s (s.vread a ia 4 false).2 :=
    .andThen (sameUnits_translateFor ..) fun _ z hz => hz.trans (sameUnits_pread ..)
  unfold State.indexRead
  split
  · exact .refl s
  · split <;> next heq => rwa [heq] at hread

/-- A translation that gives a target. -/
theorem sameUnits_located (s : State) (a : Access) (va n : Nat) (need : Need) :
    SameUnits s (((s.translateFor a va n need).at va).andThen fun t z => (.ok (Tgt.loc va t.pa (pteZor t.leaf)), z)).2 :=
  .andThen2 ((sameUnits_translateFor ..).at va) fun _ _ hz => hz

theorem sameUnits_gatherAddr (s : State) (a : Access) (w : Window) (off : Int) (n : Nat) (d : Dir) : SameUnits s (s.gatherAddr a w off n d).2 := by
  unfold State.gatherAddr
  dsimp only
  split
  · exact .refl s
  · split
    · exact .refl s
    · split
      · exact .refl s
      · split
        · exact .refl s
        · split
          · exact .refl s
          · refine .andThen2 (sameUnits_indexRead ..) fun i z hz => ?_
            split
            · exact hz
            · split
              · exact hz
              · exact hz.trans (sameUnits_located ..)

/-- Finding the address of a windowed access changes no squad and no task. -/
theorem sameUnits_windowAddr (s : State) (a : Access) (w : Window) (off : Int) (n : Nat) (d : Dir) (gather : Bool) :
    SameUnits s (s.windowAddr a w off n d gather).2 := by
  unfold State.windowAddr
  dsimp only
  split
  · exact sameUnits_gatherAddr ..
  · split
    · exact .refl s
    · split
      · exact .refl s
      · split
        · exact .refl s
        · split
          · split <;> exact .refl s
          · split
            · exact .refl s
            · split
              · exact .refl s
              · exact sameUnits_located ..

/-- Nor does finding that of a raw access. -/
theorem sameUnits_rawAddr (s : State) (a : Access) (va n : Nat) (d : Dir) : SameUnits s (s.rawAddr a va n d).2 := by
  unfold State.rawAddr
  split
  · exact .refl s
  · split
    · exact .refl s
    · exact sameUnits_located ..

theorem sameUnits_of_winTgt {x : LaneIn} {w : LM} {dw n l : Nat} {d : Dir} {gather : Bool} {s z : State} {r : Except (MemFail × Nat) Tgt}
    (h : x.winTgt w dw n d gather s l = (r, z)) : SameUnits s z := by
  have hsame := sameUnits_windowAddr s (x.acc s l) (x.tm.window w.w.toNat) (x.off w dw l) n d gather
  unfold LaneIn.winTgt at h
  rwa [h] at hsame

theorem sameUnits_of_rawTgt {x : LaneIn} {w : LM} {n l : Nat} {d : Dir} {s z : State} {r : Except (MemFail × Nat) Tgt}
    (h : x.rawTgt w n d s l = (r, z)) : SameUnits s z := by
  have hsame := sameUnits_rawAddr s (x.acc s l) (rawVa x w l) n d
  unfold LaneIn.rawTgt at h
  unfold rawVa at hsame
  rwa [h] at hsame

/-! ## What an address depends on -/

/-- What the targets of a lane depend on, beside its window and its registers: the tasks and their versions, the memory installed, and the TLBs of the
cores. -/
structure SameMaps (s : State) (cl : Nat) (y : State) : Prop where
  tasks : y.tasks = s.tasks
  versions : y.versions = s.versions
  ddr : y.ddr = s.ddr
  cores : (y.cluster cl).cores = (s.cluster cl).cores

theorem SameMaps.refl (s : State) (cl : Nat) : SameMaps s cl s := ⟨rfl, rfl, rfl, rfl⟩

theorem sameMaps_of_fetched {s y : State} {cl owner : Nat} (h : Fetched s cl owner y) : SameMaps s cl y := by
  have hcores := h.cores
  rw [h.frame] at hcores ⊢
  exact ⟨rfl, rfl, rfl, hcores⟩

theorem sameMaps_of_accessed {s y : State} {cl owner : Nat} (h : Accessed s cl owner y) : SameMaps s cl y := by
  have hcores := h.cores
  rw [h.frame] at hcores ⊢
  exact ⟨rfl, rfl, rfl, hcores⟩

theorem sameUnits_of_fetched {s y : State} {cl owner : Nat} (h : Fetched s cl owner y) : SameUnits s y := by
  rw [h.frame]
  exact ⟨rfl, rfl⟩

theorem sameUnits_of_accessed {s y : State} {cl owner : Nat} (h : Accessed s cl owner y) : SameUnits s y := by
  rw [h.frame]
  exact ⟨rfl, rfl⟩

/-- The access of a lane depends on the tasks alone. -/
theorem acc_congr (x : LaneIn) {s y : State} (h : y.tasks = s.tasks) (l : Nat) : x.acc y l = x.acc s l := by
  unfold LaneIn.acc State.laneAccess State.genAccess State.ownerOf State.speculative State.task
  rw [h]

/-- The listed lanes' targets are these bytes of memory, whatever lanes before them have done. -/
def Targets (x : LaneIn) (tgt : State → Nat → LR2 Tgt) (va pa : Nat → Nat) : Prop :=
  ∀ l ∈ x.tm.lanesOf x.m, ∃ zor, ∀ y, SameMaps x.s x.sq.cluster y → tgt y l = (.ok (.loc (va l) (pa l) zor), y)

section targets

variable {x : LaneIn} {w : LM} {dw n : Nat}

/-- A lane within a MEM window reaches the window's bytes (R130, R314). -/
theorem targets_window {d : Dir} (gather : Bool) (h : ∀ l ∈ x.tm.lanesOf x.m, InWindow x w dw n d.rd d.wr l) :
    Targets x (fun y l => x.winTgt w dw n d gather y l) (winVa x w dw) (winPa x w dw) := by
  intro l hl
  obtain ⟨hkind, hrd, hwr, hlow, hal, hhigh⟩ := h l hl
  refine ⟨(x.tm.window w.w.toNat).zor, fun y hy => ?_⟩
  have hpa : y.winPa (x.tm.window w.w.toNat) (x.off w dw l).toNat = winPa x w dw l := by
    unfold winPa State.winPa State.versionPa State.task
    rw [hy.tasks, hy.versions]
  have hdenied : ¬ (x.off w dw l < 0 ∨ (d.rd ∧ !(x.tm.window w.w.toNat).rd) ∨ (d.wr ∧ !(x.tm.window w.w.toNat).wr)) := by
    rintro (hneg | ⟨hd, hno⟩ | ⟨hd, hno⟩)
    · omega
    · simp [hrd hd] at hno
    · simp [hwr hd] at hno
  dsimp only
  unfold LaneIn.winTgt
  rw [MemoryWords.windowAddr_mem (by simp [hkind])]
  dsimp only
  rw [if_neg (not_not.2 hal), if_neg hdenied, if_neg (by omega), if_pos (by omega), hpa]
  rfl

/-- A lane whose address its core's TLB maps reaches the bytes mapped (R131, R311). -/
theorem targets_tlb {e : Nat → TlbEnt} (wr : Bool) (h : ∀ l ∈ x.tm.lanesOf x.m, InTlb x.s x w n wr l (e l)) :
    Targets x (fun y l => x.rawTgt w n { rd := !wr, wr := wr } y l) (rawVa x w) (fun l => (xlOf (rawVa x w l) (e l).size (e l).leaf).pa) := by
  intro l hl
  obtain ⟨hal, hlow, hhit, hallowed, hdirty, hbacked⟩ := h l hl
  refine ⟨pteZor (e l).leaf, fun y hy => ?_⟩
  have hfind : (((y.cluster (x.acc y l).cl).cores[x.tm.coreOf l]?).bind fun c => tlbFind c.tlb (x.acc y l).owner (rawVa x w l)) = some (e l) := by
    rw [acc_congr x hy.tasks]
    change (((y.cluster x.sq.cluster).cores[x.tm.coreOf l]?).bind fun c => tlbFind c.tlb (x.s.ownerOf x.sq) (rawVa x w l)) = some (e l)
    rw [hy.cores]
    exact hhit
  have hserves : (({ rd := !wr, wr := wr } : Need).allowed (e l).leaf && (!wr || (e l).leaf.getLsbD 11)) = true := by
    cases wr <;> simp_all
  have hbacked' : y.backed (xlOf (rawVa x w l) (e l).size (e l).leaf).pa = true := by
    rw [← hbacked]
    unfold State.backed
    rw [hy.ddr]
  have hcore : (x.acc y l).core = some (x.tm.coreOf l) := rfl
  have htrans : y.translate (x.acc y l) (rawVa x w l) { rd := !wr, wr := wr } = (.ok (xlOf (rawVa x w l) (e l).size (e l).leaf), y) := by
    simp only [State.translate, hcore, Option.bind_some, hfind, Option.orElse_some, hserves, if_true, State.translate.onlyBacked, hbacked']
  change y.rawAddr (x.acc y l) (rawVa x w l) n { rd := !wr, wr := wr } = _
  simp only [State.rawAddr, if_neg (not_not.2 hal), if_neg (Nat.not_le.2 hlow), State.translateFor, htrans, MR.at, LR2.andThen]
  rfl

end targets

end Sys2Proof.Machine.MemoryAddress
end

section
/-! PROOFS. Loads and prefetches (06_lane_memory.md R136, R137, R143; 25_fabric.md R434). -/

namespace Sys2Proof.Machine.Loads

open LaneEnds MemoryAccess MemoryWords MemoryAddress
open TeamState (modTeam_eq_const)
open TileWords (modSquad_frame aget_map_lane)

/-! ## Frames -/

/-- A change of a team does not depend on the clusters. -/
theorem modTeam_clusters (s : State) (cs : List Cluster) (q t : Nat) (f : Team → Team) :
    ({ s with clusters := cs } : State).modTeam q t f = { s.modTeam q t f with clusters := cs } := by
  unfold State.modTeam State.modSquad State.squad
  dsimp only
  split <;> rfl

theorem modTeam_of_fetched {s y : State} {cl owner : Nat} (h : Fetched s cl owner y) (q t : Nat) (f : Team → Team) :
    y.modTeam q t f = { s.modTeam q t f with clusters := (y.modTeam q t f).clusters } := by
  rw [State.modTeam_clusters, ← modTeam_clusters, ← h.frame]

/-- A team that waits reads as it did with the same lanes to do. -/
theorem readsAs_waiting {a tm : Team} (h : a.readsAs tm) (hf : tm.faulted = []) (u : Option Mask) :
    ({ a with todo := u, faulted := [] } : Team).readsAs { tm with todo := u } := by
  have hreads := readsAs_todo h u []
  rwa [← hf] at hreads ⊢

/-- A team whose lanes `m` have loaded the values `v`. -/
def loaded (x : LaneIn) (w : LM) (m : Mask) (v : Nat → Nat) (tm : Team) : Team :=
  tm.setTy (loadTy (x.ty w.ty)) w.d.toNat m fun l => loadImage (x.ty w.ty) (v l)

/-! ## Loads of all lanes -/

section all_lanes

variable {x : LaneIn} {w : LM} {mw : MemWord} {tgt : Nat → Dir → State → Nat → LR2 Tgt} {va pa : Nat → Nat}

/-- The state after reads, with what they have read, while every lane still reaches its bytes. -/
structure Reading (x : LaneIn) (w : LM) (va pa : Nat → Nat) (vals : List (Nat × Nat)) (y : State) : Prop where
  fetched : Fetched x.s x.sq.cluster (x.s.ownerOf x.sq) y
  values : ∀ p ∈ vals, p.2 = memNat x.s (pa p.1) (accSize x w)

/-- One more lane reads what memory holds. -/
theorem Reading.step {vals : List (Nat × Nat)} {y : State} {l : Nat} (h : Reading x w va pa vals y) (hspec : x.s.speculative x.sq = false)
    (ht : Targets x (tgt (accSize x w) { rd := true }) va pa) (hl : l ∈ x.tm.lanesOf x.m)
    (hr : Reaches x.s x.sq.cluster (x.s.ownerOf x.sq) (va l) (pa l) (accSize x w) false) :
    ∃ v z, loadStep x w (tgt (accSize x w) { rd := true }) y l = (.ok v, z) ∧ Reading x w va pa (vals ++ [(l, v)]) z := by
  obtain ⟨hy, hvals⟩ := h
  obtain ⟨zor, htgt⟩ := ht l hl
  have hmaps := sameMaps_of_fetched hy
  have hacc := acc_congr x hmaps.tasks l
  have hreach : Reaches y (x.acc y l).cl (x.acc y l).owner (va l) (pa l) (accSize x w) false := hacc ▸ hy.reaches hr
  obtain ⟨z, hread, hz⟩ := pread_reaches hreach zor (wideAcq w.ord.toNat w.scope.toNat)
  have hnumber : ofBytes (y.overlaid (x.acc y l) (pa l) (y.bytesAt (x.acc y l).owner false (pa l) (accSize x w))) = memNat x.s (pa l) (accSize x w) := by
    have hplain : (x.acc y l).spec = false := hacc ▸ hspec
    rw [State.overlaid, hplain, if_neg Bool.false_ne_true, ((reaches_iff ..).1 hreach).1.ofBytes, hy.frame]
    rfl
  rw [hacc] at hz
  refine ⟨_, z, loadStep_loc (htgt y hmaps) hread, hy.trans hz, ?_⟩
  simp only [List.mem_append, List.mem_singleton]
  rintro p (hp | rfl)
  · exact hvals p hp
  · exact hnumber

/-- The value that a list of lanes' values gives one of the lanes. -/
theorem aget_of_values {vals : List (Nat × Nat)} {ls : List Nat} {g : Nat → Nat} (hls : vals.map (·.1) = ls) (hg : ∀ p ∈ vals, p.2 = g p.1) {l : Nat}
    (hl : l ∈ ls) : aget 0 vals l = g l := by
  have hvals : vals = ls.map fun l => (l, g l) := by
    rw [← hls, List.map_map]
    exact (List.map_id vals).symm.trans (List.map_congr_left fun p hp => by simp [← hg p hp])
  rw [hvals, aget_map_lane ls g hl]

/-- A load all of whose lanes reach ordinary memory gives what memory holds (R136, R137). -/
theorem load_reaches (hspec : x.s.speculative x.sq = false) (hf : x.tm.faulted = []) (ht : Targets x (tgt (accSize x w) { rd := true }) va pa)
    (hr : ∀ l ∈ x.tm.lanesOf x.m, Reaches x.s x.sq.cluster (x.s.ownerOf x.sq) (va l) (pa l) (accSize x w) false) :
    ∃ y, x.load w mw tgt = .done (y.modTeam x.q x.t (loaded x w (maskOf (x.tm.lanesOf x.m)) fun l => memNat x.s (pa l) (accSize x w)))
      ∧ Fetched x.s x.sq.cluster (x.s.ownerOf x.sq) y := by
  obtain ⟨vals, y, heach, hlanes, hy, hvals⟩ := each_induction (x := x) (w := { mw with lsize := lsizeOf (accSize x w) })
    (f := loadStep x w (tgt (accSize x w) { rd := true })) (P := Reading x w va pa) (x.tm.lanesOf x.m) { s := x.s } ⟨.refl _ _ _, by simp⟩
    fun pre l post vals y hls _ h => have hl : l ∈ x.tm.lanesOf x.m := by simp [hls]
      h.step hspec ht hl (hr l hl)
  simp only [List.map_nil, List.nil_append] at hlanes
  refine ⟨y, ?_, hy⟩
  rw [load_eq, heach, loadEnd, ordered_nil, ending_nil hf, LaneSt.done, hlanes]
  congr 2
  funext tm
  refine setTy_congr _ _ _ fun k hk => ?_
  obtain ⟨hk, -⟩ : k ∈ x.tm.lanesOf x.m ∧ k < 1024 := by simpa only [getLsbD_maskOf, Bool.and_eq_true, decide_eq_true_eq] using hk
  exact congrArg (loadImage _) (aget_of_values (g := fun l => memNat x.s (pa l) (accSize x w)) hlanes hvals hk)

end all_lanes

section exec_loads

variable {x : LaneIn} {w : LM} {mw : MemWord} {i : Instr} {tgt : Nat → Dir → State → Nat → LR2 Tgt}

/-- A load of all lanes from ordinary memory retires with what memory holds. -/
theorem exec_load_reaches {va pa : Nat → Nat} (h : ReadyWord x i w.ms (x.load w mw tgt)) (hspec : x.s.speculative x.sq = false) (hn : x.tm.lanes ≤ 1024)
    (ht : Targets x (tgt (accSize x w) { rd := true }) va pa)
    (hreach : ∀ l ∈ x.tm.lanesOf x.m, Reaches x.s x.sq.cluster (x.s.ownerOf x.sq) (va l) (pa l) (accSize x w) false) :
    ∃ (z : State) (new : Team), exec i x.s = .next (z.retire x.q x.t x.sq x.tm i x.m)
      ∧ z = { x.s with squads := (x.s.modTeam x.q x.t fun _ => new).squads, clusters := z.clusters }
      ∧ new.readsAs (loaded x w x.m (fun l => memNat x.s (pa l) (accSize x w)) x.tm) := by
  obtain ⟨y, hload, hy⟩ := load_reaches (mw := mw) hspec h.unfaulted ht hreach
  refine ⟨_, _, h.done hload, ?_, readsAs_setTy (readsAs_refl x.tm) _ _ (fun l hl => getLsbD_maskOf_lanesOf hn _ hl) fun _ _ _ => rfl⟩
  rw [modTeam_of_fetched hy, modTeam_eq_const h.team, State.modTeam, modSquad_frame]
  rfl

/-- A load of one lane from memory, wherever its address led, retires with what memory holds (R136, R384). -/
theorem exec_load_one {l va pa : Nat} {zor : Bool} {z : State} (h : ReadyWord x i w.ms (x.load w mw tgt)) (hls : x.tm.lanesOf x.m = [l])
    (htgt : tgt (accSize x w) { rd := true } x.s l = (.ok (.loc va pa zor), z)) (hsame : SameUnits x.s z)
    (hreach : Reaches z x.sq.cluster (x.s.ownerOf x.sq) va pa (accSize x w) false) :
    ∃ y : State, exec i x.s = .next (y.retire x.q x.t x.sq x.tm i x.m)
      ∧ y = { z.modTeam x.q x.t (loaded x w (maskOf [l]) fun _ => ofBytes (z.overlaid (x.acc z l) pa
                (z.bytesAt (x.s.ownerOf x.sq) false pa (accSize x w)))) with clusters := y.clusters } := by
  have howner : (x.acc z l).owner = x.s.ownerOf x.sq := hsame.ownerOf x.sq
  have hreach' : Reaches z (x.acc z l).cl (x.acc z l).owner va pa (accSize x w) false := howner.symm ▸ hreach
  obtain ⟨y, hread, hy⟩ := pread_reaches hreach' zor (wideAcq w.ord.toNat w.scope.toNat)
  rw [howner] at hread
  refine ⟨_, h.done (load_one_ok hls h.unfaulted (loadStep_loc htgt hread)), ?_⟩
  exact modTeam_of_fetched hy x.q x.t (loaded x w (maskOf [l]) _)

/-- A load of one lane from another device sends its request, and the team waits (R434). -/
theorem exec_load_sends {l va dev addr : Nat} (h : ReadyWord x i w.ms (x.load w mw tgt)) (hls : x.tm.lanesOf x.m = [l])
    (htgt : tgt (accSize x w) { rd := true } x.s l = (.ok (.rem va dev addr), x.s)) (hnone : pending x x.s l = none)
    (hdev : x.s.reachable dev = true) (hroom : x.s.remoteOut x.sq.cluster < 1024) :
    ∃ tm' : Team, tm'.readsAs { x.tm with todo := some (maskOf [l]) }
      ∧ exec i x.s = .next (({ x.s with fabric := x.s.fabric.sending (x.request l dev addr (accSize x w) 0 []) }.modTeam x.q x.t fun _ => tm').waits
          x.q x.t x.sq x.tm i x.m .remote) := by
  have hstep := loadStep_rem_error (w := w) htgt (remote_sends rfl hnone (fun h => absurd h Bool.false_ne_true) hdev hroom)
  have hteam : ({ x.s with fabric := x.s.fabric.sending (x.request l dev addr (accSize x w) 0 []) } : State).team x.q x.t = some x.tm := h.team
  have hrun := h.waits ((load_one_error hls hstep).trans (ending_remote h.unfaulted))
  rw [modTeam_modTeam, modTeam_eq_const hteam] at hrun
  exact ⟨_, readsAs_waiting (readsAs_setTy_none (readsAs_refl x.tm) _ _ _ fun _ _ => BitVec.getLsbD_zero) h.unfaulted _, hrun⟩

/-- A load of one lane whose request has been answered retires with the answer (R434). -/
theorem exec_load_answered {l va dev addr id : Nat} {r : RemoteReq} {bs : List Byte} (h : ReadyWord x i w.ms (x.load w mw tgt))
    (hls : x.tm.lanesOf x.m = [l]) (htgt : tgt (accSize x w) { rd := true } x.s l = (.ok (.rem va dev addr), x.s)) (hsome : pending x x.s l = some r)
    (hres : x.s.fabric.results.find? (fun z => z.1 == r.id) = some (id, 0, bs)) :
    ∃ y : State, exec i x.s = .next (y.retire x.q x.t x.sq x.tm i x.m)
      ∧ y = { ({ x.s with fabric := x.s.fabric.answered r.id } : State).modTeam x.q x.t (loaded x w (maskOf [l]) fun _ => ofBytes bs)
                with clusters := y.clusters } := by
  refine ⟨_, h.done (load_one_ok hls h.unfaulted (loadStep_rem htgt (remote_answered hsome hres))), ?_⟩
  split
  · exact modTeam_of_fetched (fetched_l1Clear _ _ 0) x.q x.t (loaded x w (maskOf [l]) _)
  · exact modTeam_of_fetched (.refl _ x.sq.cluster 0) x.q x.t (loaded x w (maskOf [l]) _)

end exec_loads

end Sys2Proof.Machine.Loads
end

section
/-! PROOFS. Prefetches (06_lane_memory.md R143; 25_fabric.md R434), and what loads and prefetches do (R130 to R137). -/

namespace Sys2Proof.Machine.Loads

open LaneEnds MemoryAccess MemoryWords MemoryAddress

/-! ## One prefetch -/

/-- What prefetches change: the L1s' copies, the lines that L2 drops, and the requests to other packages; a deep one, requests alone. -/
structure Prefetched (deep : Bool) (s z : State) : Prop where
  frame : z = { s with clusters := z.clusters, tags := z.tags, fabric := z.fabric }
  requests : z.fabric = { s.fabric with nextReq := z.fabric.nextReq, out := z.fabric.out }
  deep : deep = true → z = { s with fabric := z.fabric }

theorem Prefetched.refl (deep : Bool) (s : State) : Prefetched deep s s := ⟨rfl, rfl, fun _ => rfl⟩

theorem Prefetched.trans {deep : Bool} {s y z : State} (h : Prefetched deep s y) (h' : Prefetched deep y z) : Prefetched deep s z where
  frame := by rw [h'.frame, h.frame]
  requests := by rw [h'.requests, h.requests]
  deep hd := by rw [h'.deep hd, h.deep hd]

/-- A read of a line without error or poison changes copies, and the tag of a line that L2 drops. -/
theorem readL1_frame {s : State} {a : Access} {zor : Bool} {pa n : Nat} (hgood : pa / 128 ∉ s.badLines) (hclean : pa / 128 ∉ s.poison) :
    (s.readL1 a zor pa n).2 = { s with clusters := (s.readL1 a zor pa n).2.clusters, tags := (s.readL1 a zor pa n).2.tags } := by
  cases hhit : copyOf (s.cluster a.cl) (l1Key a.owner (pa / 128)) with
  | some l => rw [readL1_hit hhit]
  | none =>
    obtain ⟨z, hcheck, hz⟩ : ∃ z, s.linesCheck a.owner zor [pa / 128] = (.ok (), z) ∧ z = { s with tags := z.tags } := by
      have hdrop : s.dropForeign a.owner (pa / 128) = { s with tags := (s.dropForeign a.owner (pa / 128)).tags } := by
        unfold State.dropForeign
        split <;> rfl
      cases hread : !(zor && s.unwritten (pa / 128)) with
      | false => exact ⟨s, by simp [State.linesCheck, List.filter, hread], rfl⟩
      | true => exact ⟨_, by simp [State.linesCheck, List.filter, hread, hgood, hclean], hdrop⟩
    rw [readL1_fill hhit hcheck]
    change State.modCluster z _ _ = _
    rw [hz]
    rfl

section prefetch

variable {x : LaneIn} {w : LM} {deep : Bool} {s z : State} {l cl : Nat}

/-- One more request outstanding, at most. -/
theorem remoteOut_sent (f : Fabric) (r : RemoteReq) :
    ({ s with fabric := f } : State).remoteOut cl ≤ ({ s with fabric := { f with nextReq := f.nextReq + 1, out := f.out ++ [r] } } : State).remoteOut cl
      ∧ ({ s with fabric := { f with nextReq := f.nextReq + 1, out := f.out ++ [r] } } : State).remoteOut cl
        ≤ ({ s with fabric := f } : State).remoteOut cl + 1 := by
  simp only [State.remoteOut, List.filter_append, List.length_append]
  have := List.length_filter_le (fun r : RemoteReq => r.cluster == cl && !(f.results.any fun z => z.1 == r.id)) [r]
  simp only [List.length_singleton] at this
  omega

/-- A prefetch's request is dropped or sent. -/
theorem prefetchRemote_some {dev addr : Nat} (h : x.prefetchRemote s dev addr = some z) :
    Prefetched deep s z ∧ s.remoteOut cl ≤ z.remoteOut cl ∧ z.remoteOut cl ≤ s.remoteOut cl + 1 := by
  unfold LaneIn.prefetchRemote at h
  split at h
  · obtain rfl := Option.some.inj h
    exact ⟨.refl _ _, le_rfl, Nat.le_succ _⟩
  · split at h
    · cases h
    · obtain rfl := Option.some.inj h
      exact ⟨⟨rfl, rfl, fun _ => rfl⟩, remoteOut_sent s.fabric _⟩

/-- A prefetch's request waits for want of a place alone. -/
theorem prefetchRemote_none {dev addr : Nat} (h : x.prefetchRemote s dev addr = none) : 1024 ≤ s.remoteOut x.sq.cluster := by
  unfold LaneIn.prefetchRemote at h
  split at h
  · cases h
  · split at h
    · assumption
    · cases h

/-- What goes on from a result gives no other target than its continuations do. -/
theorem andThen_ne {α : Type} {r : LR2 α} {f : α → State → LR2 Tgt} {g : Tgt} (hf : ∀ a y, (f a y).1 ≠ .ok g) : (r.andThen f).1 ≠ .ok g := by
  obtain ⟨_ | a, y⟩ := r
  · simp [LR2.andThen]
  · exact hf a y

/-- A translated address is this package's. -/
theorem located_ne_rem (a : Access) (va n : Nat) (need : Need) (va' dev addr : Nat) :
    (((s.translateFor a va n need).at va).andThen fun t z => (.ok (Tgt.loc va t.pa (pteZor t.leaf)), z)).1 ≠ .ok (.rem va' dev addr) :=
  andThen_ne fun _ _ => by simp

theorem gatherAddr_ne_rem (a : Access) (win : Window) (off : Int) (n : Nat) (d : Dir) (va dev addr : Nat) :
    (s.gatherAddr a win off n d).1 ≠ .ok (.rem va dev addr) := by
  unfold State.gatherAddr
  dsimp only
  split
  · simp
  · split
    · simp
    · split
      · simp
      · split
        · simp
        · split
          · simp
          · refine andThen_ne fun i y => ?_
            split
            · simp
            · split
              · simp
              · exact located_ne_rem _ _ _ _ _ _ _

/-- Only a REMOTE window leads to another device. -/
theorem windowAddr_rem {a : Access} {win : Window} {off : Int} {n va dev addr : Nat} {d : Dir} {gather : Bool}
    (h : (s.windowAddr a win off n d gather).1 = .ok (.rem va dev addr)) : win.kind = 4 := by
  by_contra hkind
  revert h
  unfold State.windowAddr
  dsimp only
  rw [if_neg hkind]
  split
  · exact gatherAddr_ne_rem _ _ _ _ _ _ _ _
  · split
    · simp
    · split
      · simp
      · split
        · simp
        · split
          · simp
          · split
            · simp
            · exact located_ne_rem _ _ _ _ _ _ _

theorem prefetch_some (h : x.prefetch w deep s l = some z) :
    Prefetched deep s z ∧ s.remoteOut cl ≤ z.remoteOut cl ∧ z.remoteOut cl ≤ s.remoteOut cl + 1 := by
  have hidle : s = z → Prefetched deep s z ∧ s.remoteOut cl ≤ z.remoteOut cl ∧ z.remoteOut cl ≤ s.remoteOut cl + 1 := by
    rintro rfl
    exact ⟨.refl _ _, le_rfl, Nat.le_succ _⟩
  unfold LaneIn.prefetch at h
  dsimp only at h
  split at h
  · exact hidle (Option.some.inj h)
  · split at h
    case h_1 pa zor _ =>
      split at h
      · exact hidle (Option.some.inj h)
      · next hread =>
        obtain rfl := Option.some.inj h
        simp only [Bool.or_eq_true, not_or, Bool.not_eq_true, List.contains_eq_mem, decide_eq_false_iff_not] at hread
        obtain ⟨⟨⟨⟨hdeep, -⟩, hgood⟩, hclean⟩, -⟩ := hread
        have hframe := readL1_frame (a := x.acc s l) (zor := zor) (n := 8) (show pa / 128 * 128 / 128 ∉ s.badLines by simpa using hgood)
          (show pa / 128 * 128 / 128 ∉ s.poison by simpa using hclean)
        rw [hframe]
        exact ⟨⟨rfl, rfl, fun hd => absurd hd (by simp [hdeep])⟩, le_rfl, Nat.le_succ _⟩
    case h_2 => exact prefetchRemote_some h
    case h_3 => exact hidle (Option.some.inj h)

theorem prefetch_none (h : x.prefetch w deep s l = none) : (x.tm.window w.w.toNat).kind = 4 ∧ 1024 ≤ s.remoteOut x.sq.cluster := by
  unfold LaneIn.prefetch at h
  dsimp only at h
  split at h
  · cases h
  · split at h
    · split at h <;> cases h
    · next hwin => exact ⟨windowAddr_rem hwin, prefetchRemote_none h⟩
    · cases h

/-- Prefetches in order: one or more wait only through a REMOTE window, with every place for a request taken. -/
theorem prefetches_spec (ls : List Nat) (s : State) :
    Prefetched (w.d.getLsbD 0) s (x.prefetches w ls s).2 ∧ s.remoteOut x.sq.cluster ≤ (x.prefetches w ls s).2.remoteOut x.sq.cluster
      ∧ (x.prefetches w ls s).1.Sublist ls
      ∧ ((x.prefetches w ls s).1 ≠ [] → (x.tm.window w.w.toNat).kind = 4 ∧ 1024 ≤ (x.prefetches w ls s).2.remoteOut x.sq.cluster
        ∧ 1024 < s.remoteOut x.sq.cluster + ls.length) := by
  induction ls generalizing s with
  | nil => exact ⟨.refl _ _, le_rfl, List.Sublist.refl _, fun h => absurd rfl h⟩
  | cons l ls ih =>
    unfold LaneIn.prefetches
    cases hp : x.prefetch w (w.d.getLsbD 0) s l with
    | some y =>
      obtain ⟨hy, hle, hlt⟩ := prefetch_some (cl := x.sq.cluster) hp
      obtain ⟨hz, hmono, hsub, hwait⟩ := ih y
      refine ⟨hy.trans hz, hle.trans hmono, hsub.cons l, fun hne => ?_⟩
      obtain ⟨hkind, hfull, hroom⟩ := hwait hne
      exact ⟨hkind, hfull, by rw [List.length_cons]; omega⟩
    | none =>
      obtain ⟨hkind, hfull⟩ := prefetch_none hp
      obtain ⟨hz, hmono, hsub, -⟩ := ih s
      exact ⟨hz, hmono, hsub.cons_cons l, fun _ => ⟨hkind, hfull.trans hmono, by rw [List.length_cons]; omega⟩⟩

end prefetch

/-- PREFW retires when no lane's request waits. -/
theorem exec_prefw {s z : State} {q t : Nat} {sq : Squad} {tm : Team} {w : LM} {ls : List Nat} (hr : LaneReady s q t sq tm (.prefw w) w.ms)
    (h : (laneIn s q t sq tm w.ms).prefetches w (tm.lanesOf (tm.acting w.ms)) s = (ls, z)) :
    exec (.prefw w) s = if ls = [] then .next (z.retire q t sq tm (.prefw w) (tm.acting w.ms))
      else .next ((z.modTeam q t fun tm => { tm with todo := some (maskOf ls) }).waits q t sq tm (.prefw w) (tm.acting w.ms) .remote) := by
  change execPrefw w s = _
  unfold execPrefw
  cases ls with
  | nil => exact laneRun_done hr (by simp only [laneIn_tm, laneIn_m, laneIn_s, h])
  | cons l ls => exact laneRun_wait hr (by simp only [laneIn_tm, laneIn_m, laneIn_s, h]; rfl)

/-! ## What loads and prefetches do -/

/-- Settles O11: each lane of a load reads its bytes as memory holds them, whatever copies the lanes before it have fetched; prefetches change copies,
dropped lines and requests. -/
theorem loadsGiveWhatMemoryHoldsAndPrefetchesChangeNothing : Obligations.LoadsGiveWhatMemoryHoldsAndPrefetchesChangeNothing := by
  unfold Obligations.LoadsGiveWhatMemoryHoldsAndPrefetchesChangeNothing
  refine ⟨?loads, ?prefetches⟩
  case loads =>
    intro s q t sq tm w
    dsimp only
    refine ⟨fun hwin hr hspec _ hf hn hreach => ?window, fun e htlb => ⟨fun hr hspec _ hf hn hreach => ?tlb, fun l hls _ hf =>
      ⟨fun i va pa zor z hr htgt hreach => ?one, fun va dev addr hr htgt => ⟨fun hnone hdev hroom => ?sends, fun r id bs hsome hres => ?answered⟩⟩⟩⟩
    case window => exact exec_load_reaches (readyWord_of hr (exec_ldw w s) hf) hspec hn (targets_window true hwin) hreach
    case tlb => exact exec_load_reaches (readyWord_of hr (exec_ldg w s) hf) hspec hn (targets_tlb false htlb) hreach
    case one =>
      rcases htgt with ⟨rfl, htgt⟩ | ⟨rfl, htgt⟩
      · exact exec_load_one (readyWord_of hr (exec_ldw w s) hf) hls htgt (sameUnits_of_winTgt htgt) hreach
      · exact exec_load_one (readyWord_of hr (exec_ldg w s) hf) hls htgt (sameUnits_of_rawTgt htgt) hreach
    case sends => exact exec_load_sends (readyWord_of hr (exec_ldw w s) hf) hls htgt hnone hdev hroom
    case answered => exact exec_load_answered (readyWord_of hr (exec_ldw w s) hf) hls htgt hsome hres
  case prefetches =>
    intro s q t sq tm w
    dsimp only
    intro hr
    obtain ⟨hz, -, hsub, hwait⟩ := prefetches_spec (x := laneIn s q t sq tm w.ms) (w := w) (tm.lanesOf (tm.acting w.ms)) s
    generalize hp : (laneIn s q t sq tm w.ms).prefetches w (tm.lanesOf (tm.acting w.ms)) s = r
    obtain ⟨ls, z⟩ := r
    rw [hp] at hz hsub hwait
    have hexec := exec_prefw hr hp
    have hsame := And.intro hz.frame (And.intro hz.requests hz.deep)
    refine ⟨fun hroom => ⟨z, ?_, hsame⟩, z, hsame, ?_⟩
    · have hnil : ls = [] := by
        by_contra hne
        obtain ⟨hkind, -, hfull⟩ := hwait hne
        rcases hroom with hroom | hroom
        · exact hroom hkind
        · exact absurd hfull (Nat.not_lt.2 hroom)
      rw [hexec, if_pos hnil]
    · by_cases hnil : ls = []
      · exact .inl (by rw [hexec, if_pos hnil])
      · exact .inr ⟨ls, hnil, hsub, (hwait hnil).2.1, by rw [hexec, if_neg hnil]⟩

end Sys2Proof.Machine.Loads
end

section
/-! PROOFS. Stores (06_lane_memory.md R136, R138; 19_die_speculation.md R384; 25_fabric.md R434). -/

namespace Sys2Proof.Machine.Stores

open LaneEnds MemoryAccess MemoryWords MemoryAddress
open TileWords (modSquad_frame)
open TeamState (modTeam_eq_const)

/-! ## Stores of all lanes -/

/-- One more lane, whose value covers what those before it stored. -/
theorem lastStore_append (ls : List Nat) (l : Nat) (pa : Nat → Nat) (n : Nat) (v : Nat → Nat) (a : Nat) :
    lastStore (ls ++ [l]) pa n v a = if pa l ≤ a ∧ a < pa l + n then some ((toBytes n (v l)).getD (a - pa l) 0) else lastStore ls pa n v a := by
  by_cases h : pa l ≤ a ∧ a < pa l + n
  · simp [lastStore, h]
  · simp only [lastStore, List.reverse_append, List.reverse_singleton, List.singleton_append, if_neg h]
    rw [List.find?_cons_of_neg (by simpa using h)]

section all_lanes

variable {x : LaneIn} {w : LM} {mw : MemWord} {tgt : Nat → Dir → State → Nat → LR2 Tgt} {va pa : Nat → Nat}

/-- The state after the listed lanes have stored. -/
structure Storing (x : LaneIn) (w : LM) (pa : Nat → Nat) (ls : List Nat) (y : State) : Prop where
  accessed : Accessed x.s x.sq.cluster (x.s.ownerOf x.sq) y
  bytes : ∀ a, memGet y.mem a = (lastStore ls pa (accSize x w) (fun l => (storeVal x w l).code) a).getD (memGet x.s.mem a)

/-- One more lane stores its bytes. -/
theorem Storing.step {ls : List Nat} {y : State} {l : Nat} (h : Storing x w pa ls y) (hspec : x.s.speculative x.sq = false)
    (hw : Memory.wf x.s.mem = true) (ht : Targets x (tgt (accSize x w) { wr := true }) va pa) (hl : l ∈ x.tm.lanesOf x.m)
    (hr : Ordinary x.s (x.s.ownerOf x.sq) (va l) (pa l) (accSize x w) true) :
    ∃ z, storeStep x w (tgt (accSize x w) { wr := true }) y l = (.ok 0, z) ∧ Storing x w pa (ls ++ [l]) z := by
  obtain ⟨hy, hbytes⟩ := h
  obtain ⟨zor, htgt⟩ := ht l hl
  have hmaps := sameMaps_of_accessed hy
  have hacc := acc_congr x hmaps.tasks l
  have hord : Ordinary y (x.acc y l).owner (va l) (pa l) (accSize x w) true := hacc ▸ hy.ordinary hr
  have hbuf : y.buffers (x.acc y l) (pa l) = false := buffers_of_not_spec (hacc ▸ hspec) _
  have hlen := length_toBytes (accSize x w) (storeVal x w l).code
  obtain ⟨hz, hmem⟩ := hord.store hlen hbuf zor
  rw [hacc] at hz hmem
  refine ⟨_, storeStep_loc (htgt y hmaps) (hord.pwrite hlen (overAllowance_of_not_buffered hbuf _) zor), ?_, fun a => ?_⟩
  · rw [hacc]
    exact hy.trans hz
  · rw [hacc, hmem, memGet_memSets _ (hy.canonical hw), hlen, lastStore_append, hbytes]
    split <;> rfl

/-- A store all of whose lanes reach ordinary memory, none of them overflowing, stores their bytes in order (R138). -/
theorem store_reaches (hspec : x.s.speculative x.sq = false) (hf : x.tm.faulted = []) (hw : Memory.wf x.s.mem = true)
    (ht : Targets x (tgt (accSize x w) { wr := true }) va pa)
    (hr : ∀ l ∈ x.tm.lanesOf x.m,
      (storeVal x w l).trap = false ∧ Reaches x.s x.sq.cluster (x.s.ownerOf x.sq) (va l) (pa l) (accSize x w) true) :
    ∃ y, x.store w mw tgt = .done (y.modTeam x.q x.t fun tm =>
        tm.holdFlags ((x.tm.lanesOf x.m).foldl (fun f l => f ||| (storeVal x w l).flags) f0))
      ∧ Storing x w pa (x.tm.lanesOf x.m) y := by
  obtain ⟨vals, y, heach, hlanes, hy⟩ := each_induction (x := x) (w := { mw with lsize := lsizeOf (accSize x w), wr := true })
    (f := storeStep x w (tgt (accSize x w) { wr := true })) (P := fun vals => Storing x w pa (vals.map (·.1))) (x.tm.lanesOf x.m) { s := x.s }
    ⟨.refl _ _ _, fun _ => rfl⟩ fun pre l post vals y hls _ h => by
      have hl : l ∈ x.tm.lanesOf x.m := by simp [hls]
      obtain ⟨z, hstep, hz⟩ := h.step hspec hw ht hl ((reaches_iff ..).1 (hr l hl).2).1
      exact ⟨0, z, hstep, by rwa [List.map_append]⟩
  simp only [List.map_nil, List.nil_append] at hlanes
  rw [hlanes] at hy
  refine ⟨y, ?_, hy⟩
  rw [store_eq mw tgt fun l hl => (hr l hl).1, heach, storeEnd, ordered_nil, ending_nil hf, ← hlanes, List.foldl_map]

end all_lanes

section exec_stores

variable {x : LaneIn} {w : LM} {mw : MemWord} {i : Instr} {tgt : Nat → Dir → State → Nat → LR2 Tgt}

/-- A store of all lanes to ordinary memory retires with their bytes stored. -/
theorem exec_store_reaches {va pa : Nat → Nat} (h : ReadyWord x i w.ms (x.store w mw tgt)) (hspec : x.s.speculative x.sq = false)
    (hw : Memory.wf x.s.mem = true) (ht : Targets x (tgt (accSize x w) { wr := true }) va pa)
    (hreach : ∀ l ∈ x.tm.lanesOf x.m,
      (storeVal x w l).trap = false ∧ Reaches x.s x.sq.cluster (x.s.ownerOf x.sq) (va l) (pa l) (accSize x w) true) :
    ∃ z : State, exec i x.s = .next (z.retire x.q x.t x.sq x.tm i x.m)
      ∧ z.team x.q x.t = some (x.tm.holdFlags ((x.tm.lanesOf x.m).foldl (fun f l => f ||| (storeVal x w l).flags) 0))
      ∧ (∀ a, memGet z.mem a = (lastStore (x.tm.lanesOf x.m) pa (accSize x w) (fun l => (storeVal x w l).code) a).getD (memGet x.s.mem a))
      ∧ z = { x.s with mem := z.mem, tags := z.tags, poison := z.poison, badLines := z.badLines, zorWritten := z.zorWritten, squads := z.squads,
                       clusters := z.clusters } := by
  obtain ⟨y, hstore, hy, hbytes⟩ := store_reaches (mw := mw) hspec h.unfaulted hw ht hreach
  have hteam : y.team x.q x.t = some x.tm := ((sameUnits_of_accessed hy).team x.q x.t).trans h.team
  refine ⟨_, h.done hstore, team_modTeam_same _ hteam, fun a => ?_, ?_⟩
  · rw [State.modTeam_mem]
    exact hbytes a
  · rw [State.modTeam, modSquad_frame, hy.frame]

/-- A store of one lane to memory, wherever its address led, stores its bytes, or buffers them (R138, R384). -/
theorem exec_store_one {l va pa : Nat} {zor : Bool} {z : State} (h : ReadyWord x i w.ms (x.store w mw tgt)) (hls : x.tm.lanesOf x.m = [l])
    (htrap : (storeVal x w l).trap = false) (hw : Memory.wf z.mem = true)
    (htgt : tgt (accSize x w) { wr := true } x.s l = (.ok (.loc va pa zor), z)) (hsame : SameUnits x.s z)
    (hreach : Reaches z x.sq.cluster (x.s.ownerOf x.sq) va pa (accSize x w) true)
    (hover : z.overAllowance (x.acc z l) pa (accSize x w) = false) :
    ∃ y : State, exec i x.s = .next ((y.modTeam x.q x.t fun tm => tm.holdFlags (storeVal x w l).flags).retire x.q x.t x.sq x.tm i x.m)
      ∧ (z.buffers (x.acc z l) pa = false →
          (∀ a, memGet y.mem a = (lastStore [l] (fun _ => pa) (accSize x w) (fun _ => (storeVal x w l).code) a).getD (memGet z.mem a))
          ∧ y = { z with mem := y.mem, tags := y.tags, poison := y.poison, badLines := y.badLines, zorWritten := y.zorWritten, clusters := y.clusters })
      ∧ (z.buffers (x.acc z l) pa = true →
          y = z.modTask x.sq.task fun k => { k with
            overlay := (toBytes (accSize x w) (storeVal x w l).code).zipIdx.foldl (fun o b => aset o (pa + b.2) b.1) k.overlay }) := by
  have howner : (x.acc z l).owner = x.s.ownerOf x.sq := hsame.ownerOf x.sq
  have hord : Ordinary z (x.acc z l).owner va pa (accSize x w) true := howner.symm ▸ ((reaches_iff ..).1 hreach).1
  have hlen := length_toBytes (accSize x w) (storeVal x w l).code
  refine ⟨_, h.done (store_one_ok hls h.unfaulted htrap (storeStep_loc htgt (hord.pwrite hlen hover zor))), fun hbuf => ?_, fun hbuf => ?_⟩
  · obtain ⟨hacc, hmem⟩ := hord.store hlen hbuf zor
    refine ⟨fun a => ?_, ?_⟩
    · rw [hmem, memGet_memSets _ hw, hlen, ← List.nil_append [l], lastStore_append]
      split <;> rfl
    · rw [hacc.frame]
  · rw [State.store, if_pos hbuf]
    rfl

/-- A store of one lane to another device sends its request, and the team waits (R434). -/
theorem exec_store_sends {l va dev addr : Nat} (h : ReadyWord x i w.ms (x.store w mw tgt)) (hls : x.tm.lanesOf x.m = [l])
    (htrap : (storeVal x w l).trap = false) (htgt : tgt (accSize x w) { wr := true } x.s l = (.ok (.rem va dev addr), x.s))
    (hnone : pending x x.s l = none) (hspec : x.s.speculative x.sq = false) (hdev : x.s.reachable dev = true)
    (hroom : x.s.remoteOut x.sq.cluster < 1024) :
    exec i x.s = .next (({ x.s with fabric := x.s.fabric.sending (x.request l dev addr (accSize x w) 1 [(storeVal x w l).code]) }.modTeam x.q x.t
      fun tm => { tm with todo := some (maskOf [l]) }).waits x.q x.t x.sq x.tm i x.m .remote) := by
  have hstep := storeStep_rem_error (w := w) htgt (remote_sends rfl hnone (fun _ => hspec) hdev hroom)
  have hteam : ({ x.s with fabric := x.s.fabric.sending (x.request l dev addr (accSize x w) 1 [(storeVal x w l).code]) } : State).team x.q x.t
      = some x.tm := h.team
  have hrun := h.waits ((store_one_error hls htrap hstep).trans (ending_remote h.unfaulted))
  have hsame : ({ x.tm.holdFlags f0 with todo := some (maskOf [l]), faulted := [] } : Team) = { x.tm with todo := some (maskOf [l]) } := by
    simp [Team.holdFlags, f0, h.unfaulted]
  rw [modTeam_modTeam, modTeam_eq_const hteam] at hrun
  rw [modTeam_eq_const hteam, ← hsame]
  exact hrun

/-- A store of one lane whose request has been answered retires (R434). -/
theorem exec_store_answered {l va dev addr id : Nat} {r : RemoteReq} {bs : List Byte} (h : ReadyWord x i w.ms (x.store w mw tgt))
    (hls : x.tm.lanesOf x.m = [l]) (htrap : (storeVal x w l).trap = false)
    (htgt : tgt (accSize x w) { wr := true } x.s l = (.ok (.rem va dev addr), x.s)) (hsome : pending x x.s l = some r)
    (hres : x.s.fabric.results.find? (fun z => z.1 == r.id) = some (id, 0, bs)) :
    exec i x.s = .next ((({ x.s with fabric := x.s.fabric.answered r.id }).modTeam x.q x.t fun tm =>
      tm.holdFlags (storeVal x w l).flags).retire x.q x.t x.sq x.tm i x.m) :=
  h.done (store_one_ok hls h.unfaulted htrap (storeStep_rem htgt (remote_answered hsome hres)))

end exec_stores

/-- Settles O12: each lane's write changes its bytes and the tag of its line, so the lanes behind it still write ordinary memory, and the last lane that
covers a byte gives it its value. -/
theorem storesWriteTheirBytesAndNoOthers : Obligations.StoresWriteTheirBytesAndNoOthers := by
  unfold Obligations.StoresWriteTheirBytesAndNoOthers
  intro s q t sq tm w
  dsimp only
  refine ⟨fun hwin hr hspec _ hf _ hw hreach => ?window, fun e htlb => ⟨fun hr hspec _ hf _ hw hreach => ?tlb, fun l hls _ hf htrap =>
    ⟨fun i va pa zor z hr hw htgt hreach hover => ?one, fun va dev addr hr htgt =>
      ⟨fun hnone hspec hdev hroom => ?sends, fun r id bs hsome hres => ?answered⟩⟩⟩⟩
  case window => exact exec_store_reaches (readyWord_of hr (exec_stw w s) hf) hspec hw (targets_window true hwin) hreach
  case tlb => exact exec_store_reaches (readyWord_of hr (exec_stg w s) hf) hspec hw (targets_tlb true htlb) hreach
  case one =>
    rcases htgt with ⟨rfl, htgt⟩ | ⟨rfl, htgt⟩
    · exact exec_store_one (readyWord_of hr (exec_stw w s) hf) hls htrap hw htgt (sameUnits_of_winTgt htgt) hreach hover
    · exact exec_store_one (readyWord_of hr (exec_stg w s) hf) hls htrap hw htgt (sameUnits_of_rawTgt htgt) hreach hover
  case sends => exact exec_store_sends (readyWord_of hr (exec_stw w s) hf) hls htrap htgt hnone hspec hdev hroom
  case answered => exact exec_store_answered (readyWord_of hr (exec_stw w s) hf) hls htrap htgt hsome hres

end Sys2Proof.Machine.Stores
end

section
/-! PROOFS. Atomics and CAS (06_lane_memory.md R139 to R142; 19_die_speculation.md R385; 25_fabric.md R434). -/

namespace Sys2Proof.Machine.Atomics

open LaneEnds MemoryAccess MemoryWords MemoryAddress

/-! ## The order of the lanes (R142) -/

theorem insertBy_perm (rank : Nat → Nat) (a : Nat) (l : List Nat) : (insertBy rank a l).Perm (a :: l) := by
  induction l with
  | nil => exact .refl _
  | cons b l ih =>
    unfold insertBy
    split
    · exact .refl _
    · exact (ih.cons b).trans (.swap a b l)

/-- The lanes act in some order. -/
theorem atomOrder_perm (x : LaneIn) (loc : Nat → Option Nat) : (x.atomOrder loc).Perm (x.tm.lanesOf x.m) := by
  unfold LaneIn.atomOrder
  dsimp only
  split
  · generalize x.tm.lanesOf x.m = ls
    induction ls with
    | nil => exact .refl _
    | cons l ls ih => exact (insertBy_perm _ l _).trans (ih.cons l)
  · exact .refl _

/-- Lanes of which no two name one location act in their own order. -/
theorem atomOrder_of_distinct {x : LaneIn} {loc : Nat → Option Nat} {pa : Nat → Nat} (hloc : ∀ l ∈ x.tm.lanesOf x.m, loc l = some (pa l))
    (hne : ∀ l ∈ x.tm.lanesOf x.m, ∀ k ∈ x.tm.lanesOf x.m, l ≠ k → pa l ≠ pa k) : x.atomOrder loc = x.tm.lanesOf x.m := by
  refine if_neg ?_
  simp only [List.any_eq_true, Bool.and_eq_true, bne_iff_ne, beq_iff_eq, not_exists, not_and]
  rintro l hl k hk ⟨hlk, -⟩ heq
  rw [hloc l hl, hloc k hk] at heq
  exact hne l hl k hk hlk (Option.some.inj heq)

theorem lanesOf_nodup (tm : Team) (m : Mask) : (tm.lanesOf m).Nodup := List.nodup_range.filter _

/-! ## One lane -/

section step

variable {x : LaneIn} {w : LM} {op : Nat} {new : Nat → Nat → Option Nat} {data : Nat → List Nat} {ret : Bool} {va pa : Nat → Nat}

/-- What makes the lanes of an atomic word act on ordinary memory. -/
structure OnMemory (x : LaneIn) (w : LM) (va pa : Nat → Nat) : Prop where
  plain : x.s.speculative x.sq = false
  canonical : Memory.wf x.s.mem = true
  targets : Targets x (atomTgt x w) va pa
  ordinary : ∀ l ∈ x.tm.lanesOf x.m, Ordinary x.s (x.s.ownerOf x.sq) (va l) (pa l) (accSize x w) true

/-- A lane finds the value that its location holds and leaves the new one there (R139 to R141). -/
theorem atomStep_replaces {y : State} {l : Nat} (h : OnMemory x w va pa) (hy : Accessed x.s x.sq.cluster (x.s.ownerOf x.sq) y)
    (hl : l ∈ x.tm.lanesOf x.m) :
    ∃ z, atomStep x w op new data y l = (.ok (memNat y (pa l) (accSize x w)), z) ∧ Accessed x.s x.sq.cluster (x.s.ownerOf x.sq) z
      ∧ memNat z (pa l) (accSize x w)
        = (new l (memNat y (pa l) (accSize x w))).getD (memNat y (pa l) (accSize x w)) % 2 ^ (8 * accSize x w)
      ∧ ∀ c, ¬ (pa l ≤ c ∧ c < pa l + accSize x w) → memGet z.mem c = memGet y.mem c := by
  obtain ⟨zor, htgt⟩ := h.targets l hl
  have hmaps := sameMaps_of_accessed hy
  have hacc := acc_congr x hmaps.tasks l
  have hord : Ordinary y (x.acc x.s l).owner (va l) (pa l) (accSize x w) true := hy.ordinary (h.ordinary l hl)
  obtain ⟨bs, z, hatom, hold, hz, hnew, hothers⟩ := hord.patomic (a := x.acc x.s l) (hy.canonical h.canonical) h.plain zor
    (wideAcq w.ord.toNat w.scope.toNat) (new l)
  refine ⟨z, ?_, hy.trans hz, hnew, hothers⟩
  simp only [atomStep, htgt y hmaps, LR2.andThen, hacc, hatom, MR.at, hold]

theorem atomLoc_eq (h : Targets x (atomTgt x w) va pa) {l : Nat} (hl : l ∈ x.tm.lanesOf x.m) : atomLoc x w l = some (pa l) := by
  obtain ⟨zor, htgt⟩ := h l hl
  simp only [atomLoc, htgt x.s (.refl _ _)]

/-! ## All lanes -/

/-- Aligned locations of one size that are not the same lie apart. -/
theorem apart_of_aligned {a b n : Nat} (hn : n ∈ [1, 2, 4, 8]) (ha : a % n = 0) (hb : b % n = 0) (hab : a ≠ b) : a + n ≤ b ∨ b + n ≤ a := by
  simp only [List.mem_cons, List.not_mem_nil, or_false] at hn
  rcases hn with rfl | rfl | rfl | rfl <;> omega

/-- The state after lanes of which no two name one location. -/
structure Replaced (x : LaneIn) (w : LM) (new : Nat → Nat → Option Nat) (pa : Nat → Nat) (vals : List (Nat × Nat)) (y : State) : Prop where
  accessed : Accessed x.s x.sq.cluster (x.s.ownerOf x.sq) y
  values : ∀ p ∈ vals, p.2 = memNat x.s (pa p.1) (accSize x w)
  news : ∀ p ∈ vals, memNat y (pa p.1) (accSize x w) = (new p.1 p.2).getD p.2 % 2 ^ (8 * accSize x w)
  others : ∀ c, (∀ p ∈ vals, ¬ (pa p.1 ≤ c ∧ c < pa p.1 + accSize x w)) → memGet y.mem c = memGet x.s.mem c

/-- One more lane, whose location is apart from theirs. -/
theorem Replaced.step {vals : List (Nat × Nat)} {y : State} {l : Nat} (h : Replaced x w new pa vals y) (hmem : OnMemory x w va pa)
    (hl : l ∈ x.tm.lanesOf x.m)
    (hapart : ∀ p ∈ vals, pa p.1 + accSize x w ≤ pa l ∨ pa l + accSize x w ≤ pa p.1) :
    ∃ v z, atomStep x w op new data y l = (.ok v, z) ∧ Replaced x w new pa (vals ++ [(l, v)]) z := by
  obtain ⟨hy, hvals, hnews, hothers⟩ := h
  obtain ⟨z, hstep, hz, hnew, hrest⟩ := atomStep_replaces (op := op) (new := new) (data := data) hmem hy hl
  have hold : memNat y (pa l) (accSize x w) = memNat x.s (pa l) (accSize x w) :=
    memNat_congr fun i hi => hothers _ fun p hp => by have := hapart p hp; omega
  refine ⟨_, z, hstep, hz, fun p hp => ?_, fun p hp => ?_, fun c hc => ?_⟩
  · rcases List.mem_append.1 hp with hp | hp
    · exact hvals p hp
    · rw [List.mem_singleton.1 hp]
      exact hold
  · rcases List.mem_append.1 hp with hp | hp
    · rw [← hnews p hp]
      exact memNat_congr fun i hi => hrest _ (by have := hapart p hp; omega)
    · rw [List.mem_singleton.1 hp]
      exact hnew
  · rw [hrest c (hc (l, memNat y (pa l) (accSize x w)) (by simp)), hothers c fun p hp => hc p (by simp [hp])]

/-- One more lane acts on what those before it left. -/
theorem atomRun_append (n : Nat) (ls : List Nat) (l v : Nat) :
    atomRun new n (ls ++ [l]) v = ((atomRun new n ls v).1 ++ [(l, (atomRun new n ls v).2)],
      (new l (atomRun new n ls v).2).getD (atomRun new n ls v).2 % 2 ^ (8 * n)) := by
  induction ls generalizing v with
  | nil => rfl
  | cons k ls ih => simp only [List.cons_append, atomRun, ih]

/-- The state after lanes that all name one location. -/
structure RunAt (x : LaneIn) (w : LM) (new : Nat → Nat → Option Nat) (p : Nat) (vals : List (Nat × Nat)) (y : State) : Prop where
  accessed : Accessed x.s x.sq.cluster (x.s.ownerOf x.sq) y
  run : (vals, memNat y p (accSize x w)) = atomRun new (accSize x w) (vals.map (·.1)) (memNat x.s p (accSize x w))
  others : ∀ c, ¬ (p ≤ c ∧ c < p + accSize x w) → memGet y.mem c = memGet x.s.mem c

theorem RunAt.step {p : Nat} {vals : List (Nat × Nat)} {y : State} {l : Nat} (h : RunAt x w new p vals y) (hmem : OnMemory x w va pa)
    (hl : l ∈ x.tm.lanesOf x.m) (hp : pa l = p) :
    ∃ v z, atomStep x w op new data y l = (.ok v, z) ∧ RunAt x w new p (vals ++ [(l, v)]) z := by
  obtain ⟨hy, hrun, hothers⟩ := h
  obtain ⟨z, hstep, hz, hnew, hrest⟩ := atomStep_replaces (op := op) (new := new) (data := data) hmem hy hl
  rw [hp] at hstep hnew hrest
  refine ⟨_, z, hstep, hz, ?_, fun c hc => (hrest c hc).trans (hothers c hc)⟩
  rw [List.map_append, List.map_singleton, atomRun_append, ← hrun, hnew]

/-! ## The end of an atomic word -/

/-- The team of an atomic word whose lanes `m` have found the values `v`. -/
def found (x : LaneIn) (w : LM) (ret : Bool) (m : Mask) (v : Nat → Nat) (tm : Team) : Team := if ret then tm.setTy (x.ty w.ty) w.d.toNat m v else tm

theorem faulted_found (m : Mask) (v : Nat → Nat) (tm : Team) : (found x w ret m v tm).faulted = tm.faulted := by
  unfold found Team.setTy Team.setV64
  split
  · split <;> rfl
  · rfl

/-- A team reads alike whatever the order in which its lanes acted. -/
theorem readsAs_found (hn : x.tm.lanes ≤ 1024) {ls : List Nat} (hls : ls.Perm (x.tm.lanesOf x.m)) {v v' : Nat → Nat}
    (hv : ∀ l ∈ x.tm.lanesOf x.m, v l = v' l) : (found x w ret (maskOf ls) v x.tm).readsAs (found x w ret x.m v' x.tm) := by
  have hmask (l : Nat) (hl : l < x.tm.lanes) : (maskOf ls).getLsbD l = x.m.getLsbD l := by
    rw [← getLsbD_maskOf_lanesOf hn x.m hl, getLsbD_maskOf, getLsbD_maskOf, decide_eq_decide.2 hls.mem_iff]
  cases ret with
  | false => exact readsAs_refl x.tm
  | true => exact readsAs_setTy (readsAs_refl x.tm) _ _ hmask fun l hl hml => hv l ((mem_lanesOf ..).2 ⟨hl, hmask l hl ▸ hml⟩)

/-- The lanes of an atomic word act in order. -/
def acted (x : LaneIn) (w : LM) (op : Nat) (new : Nat → Nat → Option Nat) (data : Nat → List Nat) : LaneSt :=
  x.each { win := w.w.toNat, atomic := true, wr := true, lsize := lsizeOf (accSize x w) } (atomStep x w op new data) (x.atomOrder (atomLoc x w))
    { s := x.s }

/-- Lanes of which no two name one location all act. -/
theorem acted_distinct (hmem : OnMemory x w va pa)
    (hne : ∀ l ∈ x.tm.lanesOf x.m, ∀ k ∈ x.tm.lanesOf x.m, l ≠ k → pa l ≠ pa k) :
    ∃ vals y, acted x w op new data = ⟨y, vals, []⟩ ∧ vals.map (·.1) = x.tm.lanesOf x.m ∧ Replaced x w new pa vals y := by
  unfold acted
  rw [atomOrder_of_distinct (fun l hl => atomLoc_eq hmem.targets hl) hne]
  refine each_induction (P := Replaced x w new pa) _ _ ⟨.refl _ _ _, by simp, by simp, fun _ _ => rfl⟩ fun pre l post vals y hls hvals hrep => ?_
  have hl : l ∈ x.tm.lanesOf x.m := by simp [hls]
  refine hrep.step hmem hl fun p hp => ?_
  have hpre : p.1 ∈ pre := by
    have hmap := List.mem_map_of_mem (f := (·.1)) hp
    rwa [hvals] at hmap
  have hpl : p.1 ≠ l := by
    have hnd := lanesOf_nodup x.tm x.m
    rw [hls, List.nodup_append] at hnd
    exact hnd.2.2 p.1 hpre l List.mem_cons_self
  have hp1 : p.1 ∈ x.tm.lanesOf x.m := by simp [hls, hpre]
  exact apart_of_aligned (hmem.ordinary l hl).size (hmem.ordinary _ hp1).aligned (hmem.ordinary l hl).aligned (hne _ hp1 l hl hpl)

/-- Lanes that all name one location act on it one after another, in some order. -/
theorem acted_same {p : Nat} (hmem : OnMemory x w va pa) (hp : ∀ l ∈ x.tm.lanesOf x.m, pa l = p) :
    ∃ vals y, acted x w op new data = ⟨y, vals, []⟩ ∧ (vals.map (·.1)).Perm (x.tm.lanesOf x.m) ∧ RunAt x w new p vals y := by
  have hperm := atomOrder_perm x (atomLoc x w)
  obtain ⟨vals, y, heach, hlanes, hy⟩ := each_induction (x := x) (w := { win := w.w.toNat, atomic := true, wr := true, lsize := lsizeOf (accSize x w) })
    (f := atomStep x w op new data) (P := RunAt x w new p) (x.atomOrder (atomLoc x w)) { s := x.s } ⟨.refl _ _ _, rfl, fun _ _ => rfl⟩
    fun pre l post vals y hls _ hrun => by
      have hl : l ∈ x.tm.lanesOf x.m := hperm.mem_iff.1 (by simp [hls])
      exact hrun.step hmem hl (hp l hl)
  exact ⟨vals, y, heach, hlanes ▸ hperm, hy⟩

/-- An atomic word all of whose lanes have acted is done. -/
theorem atomics_done {y : State} {vals : List (Nat × Nat)} (hf : x.tm.faulted = [])
    (h : acted x w op new data = ⟨y, vals, []⟩) :
    x.atomics w op new data ret = .done (if ret then y.modTeam x.q x.t (found x w true (maskOf (vals.map (·.1))) (aget 0 vals)) else y) := by
  unfold acted at h
  rw [atomics_eq, h, atomEnd, ordered_nil, ending_nil hf]
  rfl

end step

end Sys2Proof.Machine.Atomics
end

section
/-! PROOFS. What an atomic word comes to: all of its lanes on ordinary memory, one lane that waits for its task's commit, and one lane of another
device (06_lane_memory.md R139 to R142; 19_die_speculation.md R385; 25_fabric.md R434). -/

namespace Sys2Proof.Machine.Atomics

open LaneEnds MemoryAccess MemoryWords MemoryAddress
open TeamState (modTeam_eq_const)
open Loads (readsAs_waiting aget_of_values modTeam_of_fetched)

section exec_atomics

variable {x : LaneIn} {w : LM} {i : Instr} {op : Nat} {new : Nat → Nat → Option Nat} {data : Nat → List Nat} {ret : Bool} {va pa : Nat → Nat}

/-- A word whose lanes have acted retires with what they found: the team of one that returns nothing is as before. -/
theorem exec_atom_done (h : ReadyWord x i w.ms (x.atomics w op new data ret)) {y : State} {vals : List (Nat × Nat)} (hteam : y.team x.q x.t = some x.tm)
    (hacted : acted x w op new data = ⟨y, vals, []⟩) :
    exec i x.s = .next ((y.modTeam x.q x.t fun _ => found x w ret (maskOf (vals.map (·.1))) (aget 0 vals) x.tm).retire x.q x.t x.sq x.tm i x.m) := by
  have hrun := h.done (atomics_done h.unfaulted hacted)
  cases ret with
  | true => rwa [if_pos rfl, modTeam_eq_const hteam] at hrun
  | false =>
    rw [if_neg Bool.false_ne_true] at hrun
    exact hrun.trans (congrArg _ (retire_modTeam_same hteam ..).symm)

/-- An atomic word of lanes that name no location twice (R139 to R142). -/
theorem exec_atom_distinct (h : ReadyWord x i w.ms (x.atomics w op new data ret)) (hn : x.tm.lanes ≤ 1024) (hmem : OnMemory x w va pa)
    (hne : ∀ l ∈ x.tm.lanesOf x.m, ∀ k ∈ x.tm.lanesOf x.m, l ≠ k → pa l ≠ pa k) :
    ∃ (z : State) (tm' : Team), exec i x.s = .next (z.retire x.q x.t x.sq x.tm i x.m) ∧ z.team x.q x.t = some tm'
      ∧ tm'.readsAs (found x w ret x.m (fun l => memNat x.s (pa l) (accSize x w)) x.tm)
      ∧ (∀ l ∈ x.tm.lanesOf x.m, memNat z (pa l) (accSize x w)
          = (new l (memNat x.s (pa l) (accSize x w))).getD (memNat x.s (pa l) (accSize x w)) % 2 ^ (8 * accSize x w))
      ∧ (∀ a, (∀ l ∈ x.tm.lanesOf x.m, ¬ (pa l ≤ a ∧ a < pa l + accSize x w)) → memGet z.mem a = memGet x.s.mem a) := by
  obtain ⟨vals, y, hacted, hlanes, hacc, hvals, hnews, hothers⟩ := acted_distinct (op := op) (new := new) (data := data) hmem hne
  have hteam : y.team x.q x.t = some x.tm := ((sameUnits_of_accessed hacc).team x.q x.t).trans h.team
  refine ⟨_, _, exec_atom_done h hteam hacted, team_modTeam_same _ hteam, ?_, fun l hl => ?_, fun a ha => ?_⟩
  · exact readsAs_found hn (hlanes ▸ .refl _) fun l hl => aget_of_values (g := fun l => memNat x.s (pa l) (accSize x w)) hlanes hvals hl
  · obtain ⟨p, hp, rfl⟩ := List.mem_map.1 (hlanes ▸ hl)
    have hnew := hnews p hp
    rw [hvals p hp] at hnew
    exact (memNat_congr fun _ _ => by rw [State.modTeam_mem]).trans hnew
  · rw [State.modTeam_mem]
    exact hothers a fun p hp => ha _ (hlanes ▸ List.mem_map_of_mem hp)

/-- An atomic word of lanes that all name one location (R142). -/
theorem exec_atom_same (h : ReadyWord x i w.ms (x.atomics w op new data ret)) (hn : x.tm.lanes ≤ 1024) {p : Nat} (hmem : OnMemory x w va pa)
    (hp : ∀ l ∈ x.tm.lanesOf x.m, pa l = p) :
    ∃ (ls : List Nat) (z : State) (tm' : Team), ls.Perm (x.tm.lanesOf x.m) ∧ exec i x.s = .next (z.retire x.q x.t x.sq x.tm i x.m)
      ∧ z.team x.q x.t = some tm'
      ∧ tm'.readsAs (found x w ret x.m (aget 0 (atomRun new (accSize x w) ls (memNat x.s p (accSize x w))).1) x.tm)
      ∧ memNat z p (accSize x w) = (atomRun new (accSize x w) ls (memNat x.s p (accSize x w))).2
      ∧ ∀ a, ¬ (p ≤ a ∧ a < p + accSize x w) → memGet z.mem a = memGet x.s.mem a := by
  obtain ⟨vals, y, hacted, hperm, hacc, hrun, hothers⟩ := acted_same (op := op) (new := new) (data := data) hmem hp
  have hteam : y.team x.q x.t = some x.tm := ((sameUnits_of_accessed hacc).team x.q x.t).trans h.team
  refine ⟨_, _, _, hperm, exec_atom_done h hteam hacted, team_modTeam_same _ hteam, ?_, ?_, fun a ha => ?_⟩
  · rw [← hrun]
    exact readsAs_found hn hperm fun _ _ => rfl
  · rw [← hrun]
    exact memNat_congr fun _ _ => by rw [State.modTeam_mem]
  · rw [State.modTeam_mem]
    exact hothers a ha

/-! ## One lane -/

/-- The lanes of a word of one lane. -/
theorem acted_one {l : Nat} (hls : x.tm.lanesOf x.m = [l]) : acted x w op new data
    = x.each { win := w.w.toNat, atomic := true, wr := true, lsize := lsizeOf (accSize x w) } (atomStep x w op new data) [l] { s := x.s } := by
  have hperm := atomOrder_perm x (atomLoc x w)
  rw [hls, List.perm_singleton] at hperm
  rw [acted, hperm]

/-- An atomic word whose only lane is not performed ends with its stop. -/
theorem atomics_one_error {l va : Nat} {e : MemFail} {y : State} (hls : x.tm.lanesOf x.m = [l])
    (hstep : atomStep x w op new data x.s l = (.error (e, va), y)) :
    x.atomics w op new data ret = x.ending (if ret then y.modTeam x.q x.t (found x w true 0 fun _ => 0) else y) x.master
      [(l, x.stopOf y { win := w.w.toNat, atomic := true, wr := true, lsize := lsizeOf (accSize x w) } l va e)] := by
  have hl : l < x.tm.lanes := ((mem_lanesOf ..).1 (hls ▸ List.mem_cons_self : l ∈ x.tm.lanesOf x.m)).1
  have hacted := (acted_one hls).trans (each_one_error hstep)
  unfold acted at hacted
  rw [atomics_eq, hacted, atomEnd, ordered_one _ hl]
  rfl

/-- An atomic word whose only lane waits. -/
theorem exec_atom_waits (h : ReadyWord x i w.ms (x.atomics w op new data ret)) {l va : Nat} {e : MemFail} {y : State} {tw : TeamWait} (hls : x.tm.lanesOf x.m = [l])
    (hteam : y.team x.q x.t = some x.tm) (hstep : atomStep x w op new data x.s l = (.error (e, va), y))
    (hend : ∀ (z : State) (mw : MemWord), x.ending z x.master [(l, x.stopOf y mw l va e)]
      = .wait tw (z.modTeam x.q x.t fun tm => { tm with todo := some (maskOf [l]), faulted := [] })) :
    exec i x.s = .next ((y.modTeam x.q x.t fun _ => { found x w ret 0 (fun _ => 0) x.tm with todo := some (maskOf [l]), faulted := [] }).waits
      x.q x.t x.sq x.tm i x.m tw) := by
  have hrun := h.waits ((atomics_one_error hls hstep).trans (hend _ _))
  cases ret with
  | true => rwa [if_pos rfl, modTeam_modTeam, modTeam_eq_const hteam] at hrun
  | false => rwa [if_neg Bool.false_ne_true, modTeam_eq_const hteam] at hrun

/-- An atomic of an uncommitted speculative task outside its versions waits for the commit (R385). -/
theorem exec_atom_spec (h : ReadyWord x i w.ms (x.atomics w op new data ret)) {l va p : Nat} {zor : Bool} {z : State} (hls : x.tm.lanesOf x.m = [l])
    (htgt : atomTgt x w x.s l = (.ok (.loc va p zor), z)) (hbuf : z.buffers (x.acc z l) p = true) :
    exec i x.s = .next ((z.modTeam x.q x.t fun tm => { found x w ret 0 (fun _ => 0) tm with todo := some (maskOf [l]) }).waits x.q x.t x.sq x.tm i x.m
      .spec) := by
  have hteam : z.team x.q x.t = some x.tm := ((sameUnits_of_winTgt htgt).team x.q x.t).trans h.team
  have hstep : atomStep x w op new data x.s l = (.error (.spec, va), z) := by
    simp only [atomStep, htgt, LR2.andThen, State.patomic, if_pos hbuf, MR.at]
  have hwaits := exec_atom_waits h hls hteam hstep fun y mw => ending_spec h.unfaulted
  have hnone : (found x w ret 0 (fun _ => 0) x.tm).faulted = [] := (faulted_found _ _ _).trans h.unfaulted
  rw [modTeam_eq_const hteam, hwaits, ← hnone]

/-- An atomic of another device sends its request, and the team waits (R434). -/
theorem exec_atom_sends (h : ReadyWord x i w.ms (x.atomics w op new data ret)) {l va dev addr : Nat} (hls : x.tm.lanesOf x.m = [l])
    (htgt : atomTgt x w x.s l = (.ok (.rem va dev addr), x.s)) (hnone : pending x x.s l = none) (hspec : x.s.speculative x.sq = false)
    (hdev : x.s.reachable dev = true) (hroom : x.s.remoteOut x.sq.cluster < 1024) :
    ∃ tm' : Team, tm'.readsAs { x.tm with todo := some (maskOf [l]) }
      ∧ exec i x.s = .next (({ x.s with fabric := x.s.fabric.sending (x.request l dev addr (accSize x w) op (data l)) }.modTeam x.q x.t
          fun _ => tm').waits x.q x.t x.sq x.tm i x.m .remote) := by
  have hstep : atomStep x w op new data x.s l
      = (.error (.remote, va), { x.s with fabric := x.s.fabric.sending (x.request l dev addr (accSize x w) op (data l)) }) := by
    simp only [atomStep, htgt, LR2.andThen, remote_sends rfl hnone (fun _ => hspec) hdev hroom]
  refine ⟨_, ?_, exec_atom_waits h hls h.team hstep fun y mw => ending_remote h.unfaulted⟩
  refine readsAs_waiting ?_ h.unfaulted _
  cases ret with
  | false => exact readsAs_refl x.tm
  | true => exact readsAs_setTy_none (readsAs_refl x.tm) _ _ _ fun _ _ => BitVec.getLsbD_zero

/-- An atomic whose request has been answered retires with the answer (R434). -/
theorem exec_atom_answered (h : ReadyWord x i w.ms (x.atomics w op new data ret)) {l va dev addr id : Nat} {r : RemoteReq} {bs : List Byte}
    (hls : x.tm.lanesOf x.m = [l]) (htgt : atomTgt x w x.s l = (.ok (.rem va dev addr), x.s)) (hsome : pending x x.s l = some r)
    (hres : x.s.fabric.results.find? (fun z => z.1 == r.id) = some (id, 0, bs)) :
    ∃ (y : State) (tm' : Team), tm'.readsAs (found x w ret (maskOf [l]) (fun _ => ofBytes bs) x.tm)
      ∧ exec i x.s = .next (y.retire x.q x.t x.sq x.tm i x.m)
      ∧ y = { ({ x.s with fabric := x.s.fabric.answered r.id } : State).modTeam x.q x.t fun _ => tm' with clusters := y.clusters } := by
  have hstep : atomStep x w op new data x.s l = (.ok (ofBytes bs), if w.ord.getLsbD 0
      then ({ x.s with fabric := x.s.fabric.answered r.id } : State).l1Clear x.sq.cluster else { x.s with fabric := x.s.fabric.answered r.id }) := by
    simp only [atomStep, htgt, LR2.andThen, remote_answered hsome hres]
  have hacted := (acted_one hls).trans (each_one_ok hstep)
  have hfetched : Fetched { x.s with fabric := x.s.fabric.answered r.id } x.sq.cluster 0 (if w.ord.getLsbD 0
      then ({ x.s with fabric := x.s.fabric.answered r.id } : State).l1Clear x.sq.cluster else { x.s with fabric := x.s.fabric.answered r.id }) := by
    split
    · exact fetched_l1Clear ..
    · exact .refl ..
  have hteam := ((sameUnits_of_fetched hfetched).team x.q x.t).trans h.team
  have hfound : found x w ret (maskOf [l]) (aget 0 [(l, ofBytes bs)]) x.tm = found x w ret (maskOf [l]) (fun _ => ofBytes bs) x.tm := by
    refine ite_congr rfl (fun _ => setTy_congr _ _ _ fun k hk => ?_) fun _ => rfl
    obtain ⟨rfl, -⟩ : k = l ∧ k < 1024 := by simpa using (getLsbD_maskOf ..).symm.trans hk
    simp [aget]
  exact ⟨_, _, hfound ▸ readsAs_refl _, exec_atom_done h hteam hacted, modTeam_of_fetched hfetched _ _ _⟩

end exec_atomics

/-- Settles O13: each lane's access finds what its location holds and writes it anew; apart, the locations do not meet, and on one location the lanes act
in turn. -/
theorem atomicsReplaceEachLocationOnce : Obligations.AtomicsReplaceEachLocationOnce := by
  unfold Obligations.AtomicsReplaceEachLocationOnce
  intro s q t sq tm w x ty n m owner pa reg old gives op b d2
  have hall : ∀ (i : Instr) (body : LaneIn → LaneRes) (new : Nat → Nat → Option Nat) (ret : Bool) (code : Nat) (data : Nat → List Nat),
      exec i s = laneRun i w.ms body s → body x = x.atomics w code new data ret → gives i new ret code data := by
    intro i body new ret code data hexec hbody hr hf hn
    have hword : ReadyWord x i w.ms (x.atomics w code new data ret) := ⟨hr, rfl, ⟨body, hexec, hbody⟩, hf⟩
    refine ⟨fun hspec _ hw hlanes => ?memory, fun l hls _ => ⟨fun va zor p z htgt hbuf => ?spec, fun va dev addr htgt =>
      ⟨fun hnone hspec hdev hroom => ?sends, fun r id bs hsome hres => ?answered⟩⟩⟩
    case memory =>
      have hmem : OnMemory x w (winVa x w 21) pa :=
        ⟨hspec, hw, targets_window false fun l hl => (hlanes l hl).1, fun l hl => ((reaches_iff ..).1 (hlanes l hl).2).1⟩
      exact ⟨exec_atom_distinct hword hn hmem, fun p hp _ => exec_atom_same hword hn hmem hp⟩
    case spec => exact exec_atom_spec hword hls htgt hbuf
    case sends => exact exec_atom_sends hword hls htgt hnone hspec hdev hroom
    case answered => exact exec_atom_answered hword hls htgt hsome hres
  have hop : fieldN w.disp.toNat 21 4 = op := LaneNumbers.fieldN_eq_div_mod ..
  have hatom (r : Bool) : x.atom w r = x.atomics w (2 + op) (fun l v => some (atomNew op ty v (b l))) (fun l => [ty.code, b l]) r := by
    rw [← hop]
    rfl
  exact ⟨hall (.atom w) (fun x => x.atom w true) _ _ _ _ rfl (hatom true), hall (.atomn w) (fun x => x.atom w false) _ _ _ _ rfl (hatom false),
    hall (.cas w) _ _ _ _ _ rfl rfl⟩

end Sys2Proof.Machine.Atomics
end

section
/-! PROOFS. What the words of the matrix unit share (07_core_matrix.md R162, R163, R177): the unit and its end, the lines that a word needs, and the
tiles that it writes. -/

namespace Sys2Proof.Machine.MatrixUnit

open LaneNumbers (fieldN_eq_div_mod)
open LaneAlu (fieldN_low)
open TileWords (tile_modSquad)

/-! ## Fields of the C field (R167) -/

theorem rowBlock_field (w : LR) : fieldN w.c.toNat 4 4 = w.c.toNat / 16 := by
  have := w.c.isLt
  rw [fieldN_eq_div_mod]; omega

theorem low_field (w : LR) : fieldN w.c.toNat 0 4 = w.c.toNat % 16 := fieldN_low ..

/-! ## The unit (R162) -/

/-- A word that parks on a matrix unit that is free leaves it. -/
theorem onUnit_park {x : LaneIn} {core : Nat} {c : Cause} {info : List DWord} {u : Mask} {r : List Byte} {y : State}
    (h : unitFree x.s x.sq.cluster core) : x.onUnit core (.park c info u r y) = .park c info u r (y.leaveUnit x.sq.cluster core (x.q, x.t)) := by
  obtain ⟨hholder, hqueue⟩ := h
  exact if_pos (.inr ⟨hholder, .inl (by rw [hqueue]; rfl)⟩)

@[simp] theorem leaveUnit_mem (s : State) (cl core : Nat) (me : Nat × Nat) : (s.leaveUnit cl core me).mem = s.mem := rfl

@[simp] theorem tile_leaveUnit (s : State) (cl core : Nat) (me : Nat × Nat) (q h : Nat) : (s.leaveUnit cl core me).tile q h = s.tile q h := rfl

@[simp] theorem team_leaveUnit (s : State) (cl core : Nat) (me : Nat × Nat) (q t : Nat) : (s.leaveUnit cl core me).team q t = s.team q t := rfl

/-! ## Tiles (R163) -/

/-- A squad that has a tile has it after another tile of it has been written. -/
theorem tile_setTile {s : State} {q : Nat} {sq : Squad} (hs : s.squad q = some sq) (h j : Nat) (k : Tile) :
    (s.setTile q h k).tile q j = if j = h then some k else s.tile q j := by
  rw [State.setTile, tile_modSquad _ hs]
  by_cases hj : j = h
  · simp [hj]
  · simp [hj, aget?_aset_ne, State.tile, hs]

/-- The tile of a handle that a word may name is the squad's. -/
theorem tile_of_handle {x : LaneIn} {core h : Nat} {k : Tile} (hk : x.handle core h = some k) : x.tile h = some k := by
  unfold LaneIn.handle at hk
  cases ht : x.tile h with
  | none => simp [ht] at hk
  | some k' =>
    rw [ht] at hk
    exact (Option.ite_none_left_eq_some.1 hk).2

theorem tile_of_tile {x : LaneIn} {h : Nat} {k : Tile} (hk : x.tile h = some k) : x.s.tile x.q h = some k := (Option.ite_none_left_eq_some.1 hk).2

/-! ## The lines that a word reads (R166, R177) -/

theorem find?_flatMap_none {α β : Type} {l : List α} {f : α → List β} {p : β → Bool} (h : ∀ a ∈ l, (f a).find? p = none) :
    (l.flatMap f).find? p = none := by
  refine List.find?_eq_none.2 fun y hy => ?_
  obtain ⟨a, ha, hy⟩ := List.mem_flatMap.1 hy
  exact List.find?_eq_none.1 (h a ha) y hy

/-- A word whose lines are all FULL and without an error goes on. -/
theorem needLines_pass {x : LaneIn} {ls : List NeedLine} (hfull : x.missing ls = none) (hgood : x.badNeed ls = none) (d b : Nat) (m : Mask)
    (k : LaneRes) : x.needLines d b m ls k = k := by
  simp only [LaneIn.needLines, hfull, hgood]

end Sys2Proof.Machine.MatrixUnit
end

section
/-! PROOFS. The multiply words MMA and MMAZ (07_core_matrix.md R163 to R178). -/

namespace Sys2Proof.Machine.Multiply

open MatrixUnit
open LaneEnds (team_modTeam_same)
open TileWords (tile_modTeam team_setTile onUnit_free setTile_mem)

/-! ## A multiply whose operands can all be read -/

section multiply

variable {x : LaneIn} {i : Instr} {w : LR} {p : Mma} {rm : Mask}

/-- No step of a multiply waits for a line or meets a bad one. -/
def LinesGood (x : LaneIn) (p : Mma) : Prop := ∀ k, k < p.kn → x.missing (p.need k) = none ∧ x.badNeed (p.need k) = none

theorem lt_of_mem_steps {k : Nat} (hk : k ∈ p.steps) : k < p.kn := List.mem_range.1 (List.mem_filter.1 hk).1

/-- A sparse multiply that can read its lines does not stop (R176). -/
theorem mmaStop_none (h : LinesGood x p) : x.mmaStop p = none :=
  List.find?_eq_none.2 fun k hk => by simp [h k (lt_of_mem_steps hk)]

theorem missing_steps (h : LinesGood x p) : x.missing (p.steps.flatMap p.need) = none :=
  find?_flatMap_none fun k hk => (h k (lt_of_mem_steps hk)).1

theorem badNeed_steps (h : LinesGood x p) : x.badNeed (p.steps.flatMap p.need) = none :=
  find?_flatMap_none fun k hk => (h k (lt_of_mem_steps hk)).2

/-- A multiply that can read A, its accumulator and its lines goes to its end, sparse or not (R176, R177). -/
theorem mmaGo_end (hA : x.badA i w p = none) (hacc : p.badAcc = none) (h : LinesGood x p) : x.mmaGo i w p rm = x.mmaEnd w p rm := by
  simp only [LaneIn.mmaGo, hA, hacc]
  cases p.sparse with
  | true => simp only [mmaStop_none h, if_true]
  | false => simp only [needLines_pass (missing_steps h) (badNeed_steps h), Bool.false_eq_true, if_false]

/-- The latch after a multiply (R173). -/
def latchOf (x : LaneIn) (w : LR) (p : Mma) : Option Latch :=
  if w.ex.getLsbD 7 then some ⟨w.a.toNat, p.rb, p.aT.code, w.ex.getLsbD 2, x.aVals w p.rb p.aT.code⟩ else none

/-- The state after a multiply that rounded every element. -/
def multiplied (x : LaneIn) (w : LR) (p : Mma) : State :=
  (x.mmaPut p (p.run p.kn) x.s).modTeam x.q x.t fun tm => { tm with latch := latchOf x w p, sstep := if p.resumed then 0 else tm.sstep }

/-- A multiply of which no element overflows under OVF 11 is done (R67, R168). -/
theorem mmaEnd_done (h : ∀ r ∈ p.run p.kn, r.2.trap = false) : x.mmaEnd w p rm = .done (multiplied x w p) := by
  have hfind : ((p.run p.kn).find? fun r => r.2.trap) = none := List.find?_eq_none.2 fun r hr => by simp [h r hr]
  simp only [LaneIn.mmaEnd, hfind]
  rfl

/-- The accumulator holds the results, and every other tile of the squad is as before. -/
theorem tile_multiplied {sq : Squad} (hs : x.s.squad x.q = some sq) (h : Nat) :
    (multiplied x w p).tile x.q h
      = if h = p.dh then some ((p.run p.kn).foldl (fun k r => k.setCode r.1.1 r.1.2 r.2.code) p.d) else x.s.tile x.q h := by
  rw [multiplied, tile_modTeam, LaneIn.mmaPut, tile_modTeam, tile_setTile hs]

/-- The team holds the flags of the results, and its latch is set or released (R73, R173). -/
theorem team_multiplied {tm : Team} (ht : x.s.team x.q x.t = some tm) (hp : p.resumed = false) :
    (multiplied x w p).team x.q x.t
      = some { tm with owedFlags := tm.owedFlags ||| (p.run p.kn).foldl (fun f r => f ||| r.2.flags) 0, latch := latchOf x w p } := by
  have hput : (x.mmaPut p (p.run p.kn) x.s).team x.q x.t = some (tm.holdFlags ((p.run p.kn).foldl (fun f r => f ||| r.2.flags) 0)) :=
    team_modTeam_same _ ((team_setTile ..).trans ht)
  rw [multiplied, team_modTeam_same _ hput, hp]
  rfl

theorem mem_multiplied : (multiplied x w p).mem = x.s.mem := by
  rw [multiplied, State.modTeam_mem, LaneIn.mmaPut, State.modTeam_mem, setTile_mem]

end multiply

/-! ## The checks of a multiply (R169, R177) -/

section checks

variable {x : LaneIn} {i : Instr} {w : LR} {z : Bool}

/-- With no lane of the row block in M a multiply does nothing. -/
theorem mma_idle (h : x.m &&& x.rbMask (w.c.toNat / 16) = 0) : x.mma i w z = .done x.s := by
  rw [← rowBlock_field] at h
  exact if_pos h

/-- With some of them it is no convergent word. -/
theorem mma_divergent (h0 : x.m &&& x.rbMask (w.c.toNat / 16) ≠ 0) (h : x.m &&& x.rbMask (w.c.toNat / 16) ≠ x.rbMask (w.c.toNat / 16)) :
    x.mma i w z = .park .illegalConvergence (x.tm.decodeInfo i) (x.rbMask (w.c.toNat / 16)) [] x.s := by
  rw [← rowBlock_field] at h0 h ⊢
  exact (if_neg h0).trans (if_pos h)

variable (h0 : x.m &&& x.rbMask (w.c.toNat / 16) ≠ 0) (h : x.m &&& x.rbMask (w.c.toNat / 16) = x.rbMask (w.c.toNat / 16))
include h0 h

/-- A multiply whose tiles are refused. -/
theorem mma_refused {c : Cause} (hc : x.mmaTiles w (x.tm.coreOf (64 * (w.c.toNat / 16))) (x.ty w.ty) = .error c) :
    x.mma i w z = x.onUnit (x.tm.coreOf (64 * (w.c.toNat / 16))) (.park c (x.tm.decodeInfo i) (x.rbMask (w.c.toNat / 16)) [] x.s) := by
  rw [← rowBlock_field] at h0 h hc ⊢
  refine (if_neg h0).trans ((if_neg (not_not.2 h)).trans ?_)
  dsimp only
  rw [hc]

/-- A multiply whose tiles are as R164 and R171 require. -/
theorem mma_goes {d b : Tile} {map : Option Tile} (hok : x.mmaTiles w (x.tm.coreOf (64 * (w.c.toNat / 16))) (x.ty w.ty) = .ok (d, b, map)) :
    x.mma i w z = x.onUnit (x.tm.coreOf (64 * (w.c.toNat / 16)))
      (x.mmaGo i w (x.mmaOf w z (x.ty w.ty) d b map) (x.rbMask (w.c.toNat / 16))) := by
  rw [← rowBlock_field] at h0 h hok ⊢
  refine (if_neg h0).trans ((if_neg (not_not.2 h)).trans ?_)
  dsimp only
  rw [hok]

end checks

/-! ## What a multiply does -/

/-- The multiply word with or without Z. -/
theorem exec_mma (zero : Bool) (w : LR) (s : State) :
    exec (if zero then .mmaz w else .mma w) s
      = laneRun (if zero then .mmaz w else .mma w) w.ms (fun x => x.mma (if zero then .mmaz w else .mma w) w zero) s := by
  cases zero <;> rfl

/-- A multiply of a team with no lanes left to do starts at its first step (R176). -/
theorem mmaOf_fresh {x : LaneIn} (h : x.tm.todo = none) (w : LR) (z : Bool) (aT : NumTy) (d b : Tile) (map : Option Tile) :
    (x.mmaOf w z aT d b map).resumed = false ∧ (x.mmaOf w z aT d b map).zero = z := by
  simp [LaneIn.mmaOf, h]

/-- Settles O18: the checks of a multiply in order, then its end, whose state the lemmas about `multiplied` read. -/
theorem multiplyWordsWriteTheAccumulator : Obligations.MultiplyWordsWriteTheAccumulator := by
  intro s q t sq tm w zero i x m rb core aT rm hr
  have hexec : exec i s = _ := exec_mma zero w s
  rw [hexec]
  refine ⟨fun h0 => laneRun_done hr (mma_idle h0), fun h0 h => laneRun_park hr (mma_divergent h0 h), fun hrm h hfree => ?_⟩
  have h0 : x.m &&& x.rbMask (w.c.toNat / 16) ≠ 0 := by rwa [show x.m &&& x.rbMask (w.c.toNat / 16) = _ from h]
  refine ⟨fun c hc => laneRun_park hr ((mma_refused h0 h hc).trans (onUnit_park hfree)), fun d b map hok htodo => ?_⟩
  intro p rs hlines hA hacc htrap
  obtain ⟨hfresh, hzero⟩ := mmaOf_fresh (x := x) htodo w zero aT d b map
  have hbadAcc : p.badAcc = none := by
    unfold Mma.badAcc
    rw [hzero]
    cases zero with
    | true => rfl
    | false => simp [show p.d.bad = [] from hacc rfl]
  have hend : x.mma i w zero = .done ((multiplied x w p).leaveUnit sq.cluster core (q, t)) := by
    rw [mma_goes h0 h hok, mmaGo_end hA hbadAcc hlines, mmaEnd_done htrap, onUnit_free hfree]
    rfl
  have hs : s.squad q = some sq := hr.2.1
  have hteam := team_multiplied (x := x) (w := w) (LaneEnds.team_of_ready hr) hfresh
  refine ⟨_, laneRun_done hr hend, (tile_multiplied (x := x) hs _).trans (if_pos rfl), fun h hne => (tile_multiplied (x := x) hs h).trans (if_neg hne),
    mem_multiplied, hteam.trans ?_⟩
  have hrb : p.rb = rb := rowBlock_field w
  rw [latchOf, hrb]
  rfl

/-! ## Integer classes (R168) -/

theorem wrapN_cast (v : Int) (n : Nat) : (wrapN v n : Int) = v % 2 ^ n := by
  rw [wrapN, Int.toNat_of_nonneg (Int.emod_nonneg _ (by positivity))]
  norm_cast

/-- The code of a base plus an exact sum that is an integer. -/
theorem intSum_integer {base o : Nat} {d : Dy} {n : Int} (h : d.m * 2 ^ d.e.toNat = n * 2 ^ (-d.e).toNat) :
    (intSum base o d : Int) = (signed base 32 + n) % 2 ^ 32 := by
  unfold intSum
  by_cases he : 0 ≤ d.e
  · rw [if_pos he, wrapN_cast]
    have hneg : (-d.e).toNat = 0 := by omega
    rw [hneg, pow_zero, mul_one] at h
    push_cast
    rw [h]
  · have hpos : d.e.toNat = 0 := by omega
    rw [hpos, pow_zero, mul_one] at h
    have hpow : ((2 ^ (-d.e).toNat : Nat) : Int) ≠ 0 := by positivity
    have hm : d.m = n * ((2 ^ (-d.e).toNat : Nat) : Int) := by rw [h]; push_cast; rfl
    rw [if_neg he, hm, Int.mul_emod_left, if_pos rfl, Int.mul_ediv_cancel _ hpow, wrapN_cast]

/-- The A row of an element of the multiply, over its steps below k2. -/
def aRow (p : Mma) (k2 i : Nat) : List MatElem := if i < p.lanes then ((p.rows.getD i []).take k2).drop p.k1 else []

/-- The B column of an element of the multiply. -/
def bCol (p : Mma) (k2 j : Nat) : List MatElem :=
  if 64 * p.cb + j < p.b.cols then (bElems p.b p.map p.zblk (p.ks * mmaK p.aT.code) k2 (64 * p.cb + j)).drop p.k1 else []

/-- The value that an element starts from. -/
def baseOf (p : Mma) (i j : Nat) : Nat := if p.zero then 0 else p.d.code i j

/-- An element of a multiply of an integer class. -/
theorem mem_run_int {p : Mma} {k2 : Nat} (hint : p.aT.isInt = true) {r : (Nat × Nat) × Rounded} (hr : r ∈ p.run k2) :
    r.2 = ⟨if (matSumInt (aRow p k2 r.1.1) (bCol p k2 r.1.2)).1 then
        intSum (baseOf p r.1.1 r.1.2) (Config.freeNat p.free (262144 + 64 * r.1.1 + r.1.2)) (matSumInt (aRow p k2 r.1.1) (bCol p k2 r.1.2)).2
      else baseOf p r.1.1 r.1.2, 0, false⟩ := by
  unfold Mma.run at hr
  simp only [List.mem_flatMap, List.mem_map, hint, if_true] at hr
  obtain ⟨i, -, ⟨col, j⟩, hcol, rfl⟩ := hr
  obtain ⟨-, -, hat⟩ := List.mem_zipIdx hcol
  have hcol : col = bCol p k2 j := by
    rw [hat]
    simp [upTo, bCol]
  rw [hcol]
  rfl

/-- Settles O19: an element by `mem_run_int`, and its sum by `intSum_integer`. -/
theorem integerAccumulationIsExactModulo32Bits : Obligations.IntegerAccumulationIsExactModulo32Bits := by
  intro p k2 hint r hr base c row col sum
  have helem : r.2 = ⟨if sum.1 then intSum base (Config.freeNat p.free (262144 + 64 * r.1.1 + r.1.2)) sum.2 else base, 0, false⟩ := mem_run_int hint hr
  rw [helem]
  refine ⟨rfl, rfl, fun hnone => ?none, fun n hsome hsum => ?formed⟩
  case none => simp only [hnone, Bool.false_eq_true, if_false]
  case formed => simp only [hsome, if_true, intSum_integer hsum]

end Sys2Proof.Machine.Multiply
end

section
/-! PROOFS. Integers that a conversion clamps (03_lane_numbers.md R61, R63; 07_core_matrix.md R184): the exact value of an integer code, rounded to an
integer type, is that integer brought into the type's range, with no trap. -/

namespace Sys2Proof.Machine.ClampedIntegers

variable {t : NumTy}

/-- The value of an integer code is the integer it holds. -/
theorem decode_int (h : t.isInt = true) (c : Nat) : t.decode c = XVal.ofInt (t.toInt c) := by
  cases t <;> cases h <;> rfl

/-- RoundTo of an integer type is the conversion of R63. -/
theorem roundTo_int (h : t.isInt = true) (v : XVal) (rnd : Rnd) (ovf : Ovf) : roundTo t v rnd ovf = toIntTy t v rnd := by
  cases t <;> cases h <;> rfl

theorem minInt_nonpos (t : NumTy) : t.minInt ≤ 0 := by
  unfold NumTy.minInt
  split <;> simp

theorem maxInt_nonneg (t : NumTy) : 0 ≤ t.maxInt := by
  have hpow (n : Nat) : 0 < 2 ^ n := by positivity
  have h1 := hpow (t.width - 1)
  have h2 := hpow t.width
  unfold NumTy.maxInt
  split <;> omega

theorem natAbs_signed_le (x n : Nat) : (signed x n).natAbs ≤ 2 ^ n := by
  have := Nat.mod_lt x (show 0 < 2 ^ n by positivity)
  unfold signed
  dsimp only
  split <;> omega

/-- An integer code holds no integer beyond 64 bits. -/
theorem natAbs_toInt_le (t : NumTy) (c : Nat) : (t.toInt c).natAbs ≤ 2 ^ 64 := by
  have hpow : 2 ^ t.width ≤ 2 ^ 64 := Nat.pow_le_pow_right (by decide) (by cases t <;> decide)
  unfold NumTy.toInt
  split
  · exact (natAbs_signed_le c t.width).trans hpow
  · have := Nat.mod_lt c (show 0 < 2 ^ t.width by positivity)
    omega

theorem roundInt_ofInt (v : Int) (rnd : Rnd) : roundInt rnd (.fin (v < 0) v.natAbs 0) = v := by
  simp only [roundInt, roundShift, neg_zero, le_refl, if_true, Int.toNat_zero, Nat.shiftLeft_zero, decide_eq_true_eq]
  split <;> omega

/-- The conversion of an integer clamps it (R63). -/
theorem toIntTy_ofInt {v : Int} (hv : v.natAbs ≤ 2 ^ 64) (rnd : Rnd) :
    (toIntTy t (.ofInt v) rnd).code = t.narrow true v ∧ (toIntTy t (.ofInt v) rnd).trap = false := by
  have hmin := minInt_nonpos t
  have hmax := maxInt_nonneg t
  have hclamp {u : Int} (h : max t.minInt (min t.maxInt v) = u) : wrapN u t.width = t.narrow true v := by rw [← h]; rfl
  unfold XVal.ofInt
  by_cases h0 : v = 0
  · have hzero := hclamp (u := 0) (by omega)
    rw [if_pos h0, ← hzero]
    simp [toIntTy, wrapN]
  · have hlog : ¬ flog2 v.natAbs 0 > 66 := by
      have := (Nat.log2_lt (n := v.natAbs) (k := 67) (by omega)).2 (by omega)
      unfold flog2
      omega
    rw [if_neg h0]
    simp only [toIntTy, if_neg hlog, roundInt_ofInt]
    by_cases hhi : t.maxInt < v
    · rw [if_pos hhi]
      exact ⟨hclamp (by omega), rfl⟩
    · rw [if_neg hhi]
      by_cases hlo : v < t.minInt
      · rw [if_pos hlo]
        exact ⟨hclamp (by omega), rfl⟩
      · rw [if_neg hlo]
        exact ⟨hclamp (by omega), rfl⟩

/-- An integer code converted to an integer type. -/
theorem roundX_int {u : NumTy} (ht : t.isInt = true) (hu : u.isInt = true) (rnd : Rnd) (ovf : Ovf) (c : Nat) (f : Flags5) :
    (roundX t rnd ovf (u.decode c, f)).code = fitInt t true (u.toInt c) ∧ (roundX t rnd ovf (u.decode c, f)).trap = false := by
  rw [LaneAlu.fitInt_eq_narrow]
  simp only [roundX, roundTo_int ht, decode_int hu]
  exact toIntTy_ofInt (natAbs_toInt_le u c) rnd

end Sys2Proof.Machine.ClampedIntegers
end

section
/-! PROOFS. The words on whole tiles HAD, TCVT, TTRANS and TRED (07_core_matrix.md R180 to R186). -/

namespace Sys2Proof.Machine.WholeTiles

open MatrixUnit
open LaneAlu (fieldN_low)
open TileWords (onUnit_free)

/-! ## The checks of a word on whole tiles (R177, R181) -/

/-- The lines of the source tile. -/
def sourceLines (w : LR) (b : Tile) : List NeedLine :=
  (upTo b.rows).flatMap fun r => (upTo b.cols).flatMap fun c => needOf w.b.toNat b r c

/-- A word on whole tiles has a lane in M, a unit that is free, and tiles that it may name, none of whose lines and elements keep it. -/
structure TilesAtHand (x : LaneIn) (w : LR) (l0 : Nat) (d b : Tile) : Prop where
  low : lowLane x.m = some l0
  free : unitFree x.s x.sq.cluster (x.tm.coreOf l0)
  dst : x.handle (x.tm.coreOf l0) w.d.toNat = some d
  src : x.handle (x.tm.coreOf l0) w.b.toNat = some b
  unlocked : d.level ≠ 0 → x.lockedLine w.d.toNat (upTo d.lineCount) = none
  full : x.missing (sourceLines w b) = none
  good : x.badNeed (sourceLines w b) = none
  acc : b.level = 0 → b.bad = []

/-- The tiles of a word on whole tiles are none that it may name, or do not meet its condition. -/
def TilesRefused (x : LaneIn) (w : LR) (core : Nat) (ok : Tile → Tile → Prop) : Prop :=
  x.handle core w.d.toNat = none ∨ x.handle core w.b.toNat = none
    ∨ ∃ d b, x.handle core w.d.toNat = some d ∧ x.handle core w.b.toNat = some b ∧ ¬ ok d b

section tile_op

variable {x : LaneIn} {w : LR} {check : Tile → Tile → Bool} {f : Tile → Tile → LaneRes} {l0 : Nat}

/-- With no lane in M a word on whole tiles does nothing. -/
theorem tileOp_idle (h : lowLane x.m = none) : x.tileOp w check f = .done x.s := by
  unfold LaneIn.tileOp
  rw [h]

/-- With refused tiles it parks with TILE_HANDLE. -/
theorem tileOp_refused (hl : lowLane x.m = some l0) (hfree : unitFree x.s x.sq.cluster (x.tm.coreOf l0))
    (h : TilesRefused x w (x.tm.coreOf l0) fun d b => check d b = true) :
    x.tileOp w check f = .park .tileHandle (matInfo w.d.toNat w.b.toNat x.tm.sstepInfo 0 0) (x.tm.m 0) []
      (x.s.leaveUnit x.sq.cluster (x.tm.coreOf l0) (x.q, x.t)) := by
  rw [← onUnit_park hfree]
  unfold LaneIn.tileOp
  rw [hl]
  refine congrArg (x.onUnit (x.tm.coreOf l0)) ?_
  rcases h with hd | hb | ⟨d, b, hd, hb, hno⟩
  · simp only [hd]
  · cases hd : x.handle (x.tm.coreOf l0) w.d.toNat <;> simp only [hb]
  · simp only [hd, hb, Bool.eq_false_iff.2 hno, Bool.not_false, if_true]

/-- With tiles at hand that meet its condition it makes of them what its meaning says. -/
theorem tileOp_runs {d b : Tile} (h : TilesAtHand x w l0 d b) (hok : check d b = true) :
    x.tileOp w check f = x.onUnit (x.tm.coreOf l0) (f d b) := by
  obtain ⟨hl, -, hd, hb, hlock, hfull, hgood, hacc⟩ := h
  have hlocked : (if d.level = 0 then none else x.lockedLine w.d.toNat (upTo d.lineCount)) = none := by
    split
    · rfl
    · exact hlock ‹_›
  have hbad : (if b.level = 0 then b.bad.head? else none) = none := by
    split
    · simp [hacc ‹_›]
    · rfl
  unfold sourceLines at hfull hgood
  unfold LaneIn.tileOp
  rw [hl]
  simp only [hd, hb, hok, Bool.not_true, Bool.false_eq_true, if_false, hlocked, needLines_pass hfull hgood, hbad]

/-- The elements of a tile written, none of which overflows (R67). -/
theorem tilePut_done {d : Tile} {rs : List ((Nat × Nat) × Rounded)} (h : ∀ r ∈ rs, r.2.trap = false) :
    x.tilePut w d rs = .done ((x.s.putElems x.q w.d.toNat d (rs.map fun r => (r.1, r.2.code))).modTeam x.q x.t fun y =>
      y.orFlags (rs.foldl (fun a r => a ||| r.2.flags) f0)) := by
  have hfind : (rs.find? fun r => r.2.trap) = none := List.find?_eq_none.2 fun r hr => by simp [h r hr]
  simp only [LaneIn.tilePut, hfind]

end tile_op

/-! ## The four words -/

/-- The word `i` acts on whole tiles that meet `ok`, of which it makes `f`. -/
def TileWord (x : LaneIn) (w : LR) (i : Instr) (ok : Tile → Tile → Prop) (f : Tile → Tile → LaneRes) : Prop :=
  ∃ body check, exec i x.s = laneRun i w.ms body x.s ∧ body x = x.tileOp w check f ∧ ∀ d b, check d b = true ↔ ok d b

/-- The elements that a word gives to the destination. -/
def elements (d : Tile) (g : Nat × Nat → Rounded) : List ((Nat × Nat) × Rounded) := (cells d.rows d.cols).map fun rc => (rc, g rc)

theorem tileWord_had (x : LaneIn) (w : LR) :
    TileWord x w (.had w) (fun d b => d.ty = x.ty w.ty ∧ b.ty = x.ty w.ty ∧ d.rows = b.rows ∧ d.cols = b.cols) fun d b =>
      x.tilePut w d (elements d fun rc => roundX (x.ty w.ty) (x.rnd w.ty w.ex) (x.ovf w.ty w.ex) (x.hadAt w (x.rnd w.ty w.ex) b rc.1 rc.2)) :=
  ⟨_, _, rfl, rfl, fun d b => by simp [and_assoc]⟩

theorem tileWord_ttrans (x : LaneIn) (w : LR) :
    TileWord x w (.ttrans w) (fun d b => d.ty = x.ty w.ty ∧ b.ty = x.ty w.ty ∧ w.d ≠ w.b ∧ d.rows = b.cols ∧ d.cols = b.rows) fun d b =>
      x.tilePut w d (elements d fun rc => ⟨b.code rc.2 rc.1, 0, false⟩) :=
  ⟨_, _, rfl, rfl, fun d b => by simp [and_assoc]⟩

/-- The line of the source that an element of TRED reduces (R186). -/
def redLine (w : LR) (b : Tile) (rc : Nat × Nat) : List Nat :=
  if w.fn.getLsbD 4 then (upTo b.rows).map fun r => b.code r rc.2 else (upTo b.cols).map fun c => b.code rc.1 c

/-- TRED's check of its tiles. -/
def redCheck (x : LaneIn) (w : LR) (d b : Tile) : Bool :=
  d.ty == x.ty w.ty && (if (x.ty w.ty).isInt then b.ty == .i32 else b.ty == .f32 || b.ty == .f16 || b.ty == .bf16)
    && (if w.fn.getLsbD 4 then d.rows == 1 && d.cols == b.cols else d.rows == b.rows && d.cols == 1)

theorem tileWord_tred (x : LaneIn) (w : LR) :
    TileWord x w (.tred w) (fun d b => d.ty = x.ty w.ty ∧ (if (x.ty w.ty).isInt then b.ty = .i32 else b.ty = .f32 ∨ b.ty = .f16 ∨ b.ty = .bf16)
        ∧ (if w.fn.getLsbD 4 then d.rows = 1 ∧ d.cols = b.cols else d.rows = b.rows ∧ d.cols = 1)) fun d b =>
      x.tilePut w d (elements d fun rc => tredLine (w.fn.toNat % 4) b.ty (x.ty w.ty) (x.rnd w.ty w.ex) (x.ovf w.ty w.ex) (redLine w b rc)) := by
  refine ⟨_, redCheck x w, rfl, ?_, fun d b => ?_⟩
  · simp only [fieldN_low]
    rfl
  · unfold redCheck
    cases (x.ty w.ty).isInt <;> cases w.fn.getLsbD 4 <;> simp [and_assoc, or_assoc]

/-- The exact values of the elements of a block of TCVT's result, with their flags (R184). -/
def cvtBlock (x : LaneIn) (w : LR) (b : Tile) (bc : Nat × Nat) : List (XVal × Flags5) :=
  (upTo 32).map fun i => x.cvtAt w (x.rnd w.ty w.ex) b (32 * bc.1 + i) bc.2

/-- The blocks of TCVT's result, each with its encoding and the flags of its values. -/
def cvtBlocks (x : LaneIn) (w : LR) (d b : Tile) : List ((Nat × Nat) × Block × List Flags5) :=
  (cells (d.rows / 32) d.cols).map fun bc =>
    (bc, encodeBlock (x.ty w.ty) ((cvtBlock x w b bc).map (·.1)) (x.rnd w.ty w.ex) (x.ovf w.ty w.ex) x.tm.zblk, (cvtBlock x w b bc).map (·.2))

/-- An element of TCVT's result of a scalar type (R184). -/
def cvtElem (x : LaneIn) (w : LR) (b : Tile) (rc : Nat × Nat) : Rounded :=
  let r := roundX (x.ty w.ty) (x.rnd w.ty w.ex) (x.ovf w.ty w.ex) (x.cvtAt w (x.rnd w.ty w.ex) b rc.1 rc.2)
  if (x.ty w.ty).isInt && b.ty.isInt then { r with flags := 0 } else r

/-- The condition of TCVT on its tiles. -/
def CvtTiles (x : LaneIn) (w : LR) (d b : Tile) : Prop := d.ty = x.ty w.ty ∧ w.d ≠ w.b ∧ d.rows = b.rows ∧ d.cols = b.cols

theorem cvtTiles_iff (x : LaneIn) (w : LR) (d b : Tile) :
    (d.ty == x.ty w.ty && w.d != w.b && d.rows == b.rows && d.cols == b.cols) = true ↔ CvtTiles x w d b := by
  simp [CvtTiles, and_assoc]

/-- What TCVT makes of its tiles when no block of its result overflows. -/
def cvtBlocksDone (x : LaneIn) (w : LR) (d b : Tile) : LaneRes :=
  .done (((x.s.setTile x.q w.d.toNat
    ((cvtBlocks x w d b).foldl (fun y k => y.setBlock k.1.1 k.1.2 k.2.1.scale k.2.1.elems) d).cleanAll).fillLines x.q w.d.toNat
      (upTo d.lineCount)).modTeam x.q x.t fun y =>
        y.orFlags ((cvtBlocks x w d b).foldl (fun a k => a ||| k.2.2.foldl (· ||| ·) k.2.1.flags) f0))

theorem foldl_blocks {α : Type} (x : LaneIn) (w : LR) (d b : Tile) (step : α → (Nat × Nat) × Block × List Flags5 → α) (a : α) :
    (cvtBlocks x w d b).foldl step a = (cells (d.rows / 32) d.cols).foldl (fun a bc => step a
      (bc, encodeBlock (x.ty w.ty) ((cvtBlock x w b bc).map (·.1)) (x.rnd w.ty w.ex) (x.ovf w.ty w.ex) x.tm.zblk, (cvtBlock x w b bc).map (·.2))) a :=
  List.foldl_map ..

/-- TCVT gives elements, or, to a block type, blocks (R184). -/
theorem tileWord_tcvt (x : LaneIn) (w : LR) : ∃ f, TileWord x w (.tcvt w) (CvtTiles x w) f
    ∧ (∀ d b, (x.ty w.ty).isBlock = false → f d b = x.tilePut w d (elements d (cvtElem x w b)))
    ∧ ∀ d b, (x.ty w.ty).isBlock = true → (∀ k ∈ cvtBlocks x w d b, k.2.1.trap = false) → f d b = cvtBlocksDone x w d b := by
  refine ⟨_, ⟨_, _, rfl, rfl, cvtTiles_iff x w⟩, fun d b h => ?scalar, fun d b h htrap => ?block⟩
  case scalar => exact if_neg (Bool.eq_false_iff.1 h)
  case block =>
    simp only [h, if_true]
    simp only [cvtBlocks, List.forall_mem_map] at htrap
    refine (if_neg ?_).trans ?_
    · simp only [List.any_map, List.any_eq_true, not_exists, not_and, Bool.not_eq_true]
      exact htrap
    · simp only [cvtBlocksDone, foldl_blocks, List.foldl_map]
      rfl

/-- An element of TCVT between integer types, without HAD, is the integer clamped (R184). -/
theorem cvtElem_int {x : LaneIn} {w : LR} {b : Tile} (ht : (x.ty w.ty).isInt = true) (hb : b.ty.isInt = true) (hhad : w.ex.getLsbD 0 = false)
    (rc : Nat × Nat) : cvtElem x w b rc = ⟨fitInt (x.ty w.ty) true (b.ty.toInt (b.code rc.1 rc.2)), 0, false⟩ := by
  have hblock : b.ty.isBlock = false := by
    revert hb
    cases b.ty <;> simp [NumTy.isInt, NumTy.isBlock]
  obtain ⟨hcode, htrap⟩ := ClampedIntegers.roundX_int ht hb (x.rnd w.ty w.ex) (x.ovf w.ty w.ex) (b.code rc.1 rc.2) 0
  simp only [cvtElem, LaneIn.cvtAt, ht, hb, hhad, hblock, Tile.value, fIf, Bool.and_true, Bool.false_and, Bool.false_eq_true, if_false, if_true]
  rw [← hcode, ← htrap]

/-- An element of TCVT's result, its integers as R184 says. -/
theorem cvtElem_eq (x : LaneIn) (w : LR) (b : Tile) : cvtElem x w b = fun rc =>
    let r := roundX (x.ty w.ty) (x.rnd w.ty w.ex) (x.ovf w.ty w.ex) (x.cvtAt w (x.rnd w.ty w.ex) b rc.1 rc.2)
    if (x.ty w.ty).isInt && b.ty.isInt then
      (if w.ex.getLsbD 0 then { r with flags := 0 } else ⟨fitInt (x.ty w.ty) true (b.ty.toInt (b.code rc.1 rc.2)), 0, false⟩)
    else r := by
  funext rc
  cases hint : (x.ty w.ty).isInt && b.ty.isInt with
  | false => exact if_neg (Bool.eq_false_iff.1 hint)
  | true =>
    obtain ⟨ht, hb⟩ := Bool.and_eq_true_iff.1 hint
    cases hhad : w.ex.getLsbD 0 with
    | true => exact if_pos hint
    | false => exact cvtElem_int ht hb hhad rc

/-! ## What a ready word on whole tiles does -/

section exec_words

variable {s : State} {q t : Nat} {sq : Squad} {tm : Team} {w : LR} {i : Instr} {ok : Tile → Tile → Prop} {f : Tile → Tile → LaneRes} {l0 : Nat}
  (hw : TileWord (laneIn s q t sq tm w.ms) w i ok f) (hr : LaneReady s q t sq tm i w.ms)
include hw hr

theorem exec_idle (hl : lowLane (tm.acting w.ms) = none) : exec i s = .next (s.retire q t sq tm i (tm.acting w.ms)) := by
  obtain ⟨body, check, hexec, hbody, -⟩ := hw
  exact hexec.trans (laneRun_done hr (hbody.trans (tileOp_idle hl)))

theorem exec_refused (hl : lowLane (tm.acting w.ms) = some l0) (hfree : unitFree s sq.cluster (tm.coreOf l0))
    (h : TilesRefused (laneIn s q t sq tm w.ms) w (tm.coreOf l0) ok) :
    exec i s = .next ((s.leaveUnit sq.cluster (tm.coreOf l0) (q, t)).laneStop q t sq tm i w.ms .tileHandle
      (matInfo w.d.toNat w.b.toNat tm.sstepInfo 0 0) (tm.m 0)) := by
  obtain ⟨body, check, hexec, hbody, hcheck⟩ := hw
  have hok : ok = fun d b => check d b = true := funext₂ fun d b => propext (hcheck d b).symm
  exact hexec.trans (laneRun_park hr (hbody.trans (tileOp_refused hl hfree (hok ▸ h))))

theorem exec_done {d b : Tile} {y : State} (h : TilesAtHand (laneIn s q t sq tm w.ms) w l0 d b) (hok : ok d b) (hf : f d b = .done y) :
    exec i s = .next ((y.leaveUnit sq.cluster (tm.coreOf l0) (q, t)).retire q t sq tm i (tm.acting w.ms)) := by
  obtain ⟨body, check, hexec, hbody, hcheck⟩ := hw
  have hres := (tileOp_runs (f := f) h ((hcheck d b).2 hok)).trans (by rw [hf, onUnit_free h.free])
  exact hexec.trans (laneRun_done hr (hbody.trans hres))

/-- A word that gives elements, none of which overflows. -/
theorem exec_elements {d b : Tile} {g : Nat × Nat → Rounded} (h : TilesAtHand (laneIn s q t sq tm w.ms) w l0 d b) (hok : ok d b)
    (hf : f d b = (laneIn s q t sq tm w.ms).tilePut w d (elements d g)) (htrap : ∀ r ∈ elements d g, r.2.trap = false) :
    exec i s = .next ((((s.putElems q w.d.toNat d ((elements d g).map fun r => (r.1, r.2.code))).modTeam q t fun y =>
      y.orFlags ((elements d g).foldl (fun a r => a ||| r.2.flags) f0)).leaveUnit sq.cluster (tm.coreOf l0) (q, t)).retire q t sq tm i (tm.acting w.ms)) :=
  exec_done hw hr h hok (hf.trans (tilePut_done htrap))

end exec_words

end Sys2Proof.Machine.WholeTiles
end

section
/-! PROOFS. The moves TFROMV and TTOV between registers and tiles (07_core_matrix.md R187), and what the words on whole tiles and the moves do. -/

namespace Sys2Proof.Machine.Moves

open MatrixUnit
open LaneEnds (team_modTeam_same team_of_ready ending_nil)
open LaneAlu (fieldN_low)
open TileWords (onUnit_free team_setTile setTile_mem tile_modTeam filterMap_some)

/-! ## Segments of rows -/

/-- The tile row that a lane of row block `rb` moves. -/
def laneRow (k : Tile) (rb l : Nat) : Nat := if k.level = 0 then l - 64 * rb else l

/-- The tile and the row of a lane whose segment lies in it. -/
def segRow (tile : Option Tile) (ty : NumTy) (rb u n l : Nat) : Option (Tile × Nat) :=
  tile.bind fun t => (moveRow t ty rb u n l).map fun r => (t, r)

/-- Each lane of some has its segment in a tile of the word's type. -/
structure SegmentsIn (k : Tile) (ty : NumTy) (rb u n : Nat) (ls : List Nat) : Prop where
  type : k.ty = ty
  row : ∀ l ∈ ls, laneRow k rb l < k.rows
  segment : 128 * u + 4 * n ≤ k.cols * (ty.width / 8)

theorem SegmentsIn.segRow {k : Tile} {ty : NumTy} {rb u n : Nat} {ls : List Nat} (h : SegmentsIn k ty rb u n ls) {l : Nat} (hl : l ∈ ls) :
    segRow (some k) ty rb u n l = some (k, laneRow k rb l) := by
  obtain ⟨hty, hrow, hseg⟩ := h
  have hmove : moveRow k ty rb u n l = some (laneRow k rb l) := if_pos (by
    have hr := hrow l hl
    unfold laneRow at hr
    simp [hty, hr, hseg])
  simp [Moves.segRow, hmove]

theorem count_field (w : LR) : fieldN w.fn.toNat 0 5 = w.fn.toNat % 32 := fieldN_low ..

/-! ## TFROMV -/

/-- The locked line of a lane's segment. -/
def fromvConflict (x : LaneIn) (w : LR) (tile : Option Tile) (rb u n l : Nat) : Option Nat :=
  (segRow tile (x.ty w.ty) rb u n l).bind fun tr =>
    if tr.1.level = 0 then none else x.lockedLine w.d.toNat (bitLines (segBit tr.1 tr.2 u) (32 * n))

/-- What keeps a lane from being moved. -/
def fromvStop (x : LaneIn) (w : LR) (tile : Option Tile) (rb u n l : Nat) : Option (Nat × Stop) :=
  if (segRow tile (x.ty w.ty) rb u n l).isNone then some (l, Stop.fault .tileHandle (matInfo w.d.toNat 0 x.tm.sstepInfo 0 0) [])
  else (fromvConflict x w tile rb u n l).map fun i => (l, .fault .rangeConflict (matInfo w.d.toNat 0 x.tm.sstepInfo i 0) [])

/-- A tile once a lane's registers have been written to its row. -/
def moved (x : LaneIn) (w : LR) (k : Tile) (rb u n : Nat) (t : Tile) (l : Nat) : Tile :=
  if k.level = 0 then (upTo n).foldl (fun t i => t.setCode (laneRow k rb l) (32 * u + i) (x.rd.V l (w.a.toNat + i)).toNat) t
  else t.setBytes (segBit k (laneRow k rb l) u / 8) ((upTo n).flatMap fun i => toBytes 4 (x.rd.V l (w.a.toNat + i)).toNat)

theorem moved_acc {x : LaneIn} {w : LR} {k : Tile} {rb u n : Nat} (h : k.level = 0) :
    moved x w k rb u n = fun t l => (upTo n).foldl (fun t i => t.setCode (laneRow k rb l) (32 * u + i) (x.rd.V l (w.a.toNat + i)).toNat) t :=
  funext₂ fun _ _ => if_pos h

theorem moved_lines {x : LaneIn} {w : LR} {k : Tile} {rb u n : Nat} (h : k.level ≠ 0) : moved x w k rb u n = fun t l =>
    t.setBytes (segBit k (laneRow k rb l) u / 8) ((upTo n).flatMap fun i => toBytes 4 (x.rd.V l (w.a.toNat + i)).toNat) :=
  funext₂ fun _ _ => if_neg h

/-- What TFROMV comes to on its unit, for lanes of row block `rb` that move `n` registers to segment `u`. -/
def fromvRes (x : LaneIn) (w : LR) (rb u n : Nat) : LaneRes :=
  let tile := x.handle (x.tm.coreOf (64 * rb)) w.d.toNat
  let stops := (x.rbLanes rb).filterMap (fromvStop x w tile rb u n)
  let put (t : Tile) (l : Nat) : Tile := match segRow tile (x.ty w.ty) rb u n l with
    | none => t
    | some (k, r) =>
      if k.level = 0 then (upTo n).foldl (fun t i => t.setCode r (32 * u + i) (x.rd.V l (w.a.toNat + i)).toNat) t
      else t.setBytes (segBit k r u / 8) ((upTo n).flatMap fun i => toBytes 4 (x.rd.V l (w.a.toNat + i)).toNat)
  if (x.rbLanes rb).any fun l => (fromvConflict x w tile rb u n l).isSome then
    match firstFault stops with
    | some (c, i, r) => .park c i (x.m &&& rowBlock rb) r x.s
    | none => .done x.s
  else match x.tm.badAt (matrixRegs x.tm.ckEnv (.tfromv w)) (x.m &&& rowBlock rb), firstFault stops with
  | some _, some (c, i, r) => .park c i (x.m &&& rowBlock rb) r x.s
  | some (r, l), none => x.uncorrectable (x.m &&& rowBlock rb) (badInfo (x.tm.decodeInfo (.tfromv w)) r l) x.s
  | none, _ => x.ending (match tile with
    | some t => x.s.setTile x.q w.d.toNat ((x.rbLanes rb).foldl put t)
    | none => x.s) x.master stops

theorem exec_tfromv (w : LR) (s : State) : exec (.tfromv w) s = laneRun (.tfromv w) w.ms (fun x =>
    if (x.rbLanes (w.c.toNat / 16)).isEmpty then .done x.s
    else x.onUnit (x.tm.coreOf (64 * (w.c.toNat / 16))) (fromvRes x w (w.c.toNat / 16) (w.c.toNat % 16) (w.fn.toNat % 32 + 1))) s := by
  rw [← rowBlock_field, ← low_field, ← count_field]
  rfl

section tfromv

variable {x : LaneIn} {w : LR} {k : Tile} {rb u n : Nat}

/-- A TFROMV whose lanes' segments lie in the tile, in lines that no copy locks, and whose registers are good moves them all. -/
theorem fromvRes_done (hf : x.tm.faulted = []) (hk : x.handle (x.tm.coreOf (64 * rb)) w.d.toNat = some k)
    (hin : SegmentsIn k (x.ty w.ty) rb u n (x.rbLanes rb))
    (hbad : x.tm.badAt (matrixRegs x.tm.ckEnv (.tfromv w)) (x.m &&& rowBlock rb) = none)
    (hlock : k.level ≠ 0 → ∀ l ∈ x.rbLanes rb, x.lockedLine w.d.toNat (bitLines (segBit k (laneRow k rb l) u) (32 * n)) = none) :
    fromvRes x w rb u n = .done (x.s.setTile x.q w.d.toNat ((x.rbLanes rb).foldl (moved x w k rb u n) k)) := by
  have hconf : ∀ l ∈ x.rbLanes rb, fromvConflict x w (some k) rb u n l = none := fun l hl => by
    simp only [fromvConflict, hin.segRow hl, Option.bind_some]
    split
    · rfl
    · exact hlock ‹_› l hl
  have hany : ((x.rbLanes rb).any fun l => (fromvConflict x w (some k) rb u n l).isSome) = false := List.any_eq_false.2 fun l hl => by simp [hconf l hl]
  have hstops : (x.rbLanes rb).filterMap (fromvStop x w (some k) rb u n) = [] :=
    List.filterMap_eq_nil_iff.2 fun l hl => by simp [fromvStop, hin.segRow hl, hconf l hl]
  simp only [fromvRes, hk, hany, hstops, hbad, Bool.false_eq_true, if_false, ending_nil hf]
  congr 2
  exact List.foldl_ext _ _ _ fun t l hl => by simp only [hin.segRow hl, moved]

end tfromv

/-! ## TTOV -/

/-- What a lane of TTOV comes to: its tile and row, or what keeps it from being moved. -/
def ttovLane (x : LaneIn) (w : LR) (tile : Option Tile) (rb u n l : Nat) : Except Stop (Tile × Nat) :=
  match segRow tile (x.ty w.ty) rb u n l with
  | none => .error (.fault .tileHandle (matInfo w.d.toNat w.b.toNat x.tm.sstepInfo 0 0) [])
  | some (t, r) =>
    if t.level = 0 then
      match t.bad.find? fun e => decide (e / 64 = r) && decide (32 * u ≤ e % 64) && decide (e % 64 < 32 * u + n) with
      | some e => .error (.fault .uncorrectableData (matInfo w.d.toNat w.b.toNat x.tm.sstepInfo (e / 64) (e % 64)) [])
      | none => .ok (t, r)
    else match (bitLines (segBit t r u) (32 * n)).find? fun j => !t.full j with
      | some j => .error (.line w.b.toNat j (matInfo w.d.toNat w.b.toNat x.tm.sstepInfo r (128 * u / (t.ty.width / 8))))
      | none =>
        if (t.badLine (bitLines (segBit t r u) (32 * n))).isSome then
          .error (.fault .uncorrectableData (matInfo w.d.toNat w.b.toNat x.tm.sstepInfo r (128 * u / (t.ty.width / 8))) [])
        else .ok (t, r)

/-- The value of register `i` of a segment. -/
def segReg (t : Tile) (r u i : Nat) : Word :=
  if t.level = 0 then BitVec.ofNat 32 (t.code r (32 * u + i)) else BitVec.ofNat 32 (ofBytes (t.bytes (segBit t r u / 8 + 4 * i) 4))

/-- A lane that is moved, with its tile and row. -/
def ttovOk (x : LaneIn) (w : LR) (tile : Option Tile) (rb u n l : Nat) : Option (Nat × Tile × Nat) :=
  match ttovLane x w tile rb u n l with
  | .ok v => some (l, v)
  | .error _ => none

/-- A lane that is not, with its stop. -/
def ttovStop (x : LaneIn) (w : LR) (tile : Option Tile) (rb u n l : Nat) : Option (Nat × Stop) :=
  match ttovLane x w tile rb u n l with
  | .ok _ => none
  | .error e => some (l, e)

/-- The value that register `i` of a lane takes. -/
def ttovReg (ok : List (Nat × Tile × Nat)) (u l i : Nat) : Word :=
  match ok.find? fun p => p.1 == l with
  | some (_, t, r) => segReg t r u i
  | none => 0

/-- `n` registers from `d` on of the lanes of a mask, written one after another. -/
def setRegs (d n : Nat) (m : Mask) (f : Nat → Nat → Word) (tm : Team) : Team := (upTo n).foldl (fun tm i => tm.setV (d + i) m fun l => f l i) tm

/-- What TTOV comes to on its unit, for lanes of row block `rb` that take `n` registers from segment `u`. -/
def ttovRes (x : LaneIn) (w : LR) (rb u n : Nat) : LaneRes :=
  let tile := x.handle (x.tm.coreOf (64 * rb)) w.b.toNat
  let ok := (x.rbLanes rb).filterMap (ttovOk x w tile rb u n)
  let stops := (x.rbLanes rb).filterMap (ttovStop x w tile rb u n)
  let s := x.s.modTeam x.q x.t (setRegs w.d.toNat n (maskOf (ok.map (·.1))) (ttovReg ok u))
  if stops.any fun z => z.2.isUncorrectable then
    if (x.s.cluster x.sq.cluster).undervolted && tile.any (·.clustered) then x.uncorrectable x.m [] x.s
    else match tile.filter (·.level == 0), firstFault stops with
      | some _, some (c, i, r) => .park c i (x.m &&& rowBlock rb) r x.s
      | _, _ => x.ending s x.master stops
  else x.ending s x.master stops

theorem exec_ttov (w : LR) (s : State) : exec (.ttov w) s = laneRun (.ttov w) w.ms (fun x =>
    if (x.rbLanes (w.c.toNat / 16)).isEmpty then .done x.s
    else x.onUnit (x.tm.coreOf (64 * (w.c.toNat / 16))) (ttovRes x w (w.c.toNat / 16) (w.c.toNat % 16) (w.fn.toNat % 32 + 1))) s := by
  rw [← rowBlock_field, ← low_field, ← count_field]
  rfl

section ttov

variable {x : LaneIn} {w : LR} {k : Tile} {rb u n : Nat}

/-- The lines of each lane's segment are FULL and without an error, where the tile has lines. -/
def SegmentsGood (k : Tile) (rb u n : Nat) (ls : List Nat) : Prop :=
  k.level ≠ 0 → ∀ l ∈ ls, k.badLine (bitLines (segBit k (laneRow k rb l) u) (32 * n)) = none
    ∧ ∀ j ∈ bitLines (segBit k (laneRow k rb l) u) (32 * n), k.full j = true

theorem ttovLane_ok (hin : SegmentsIn k (x.ty w.ty) rb u n (x.rbLanes rb)) (hbad : k.bad = []) (hgood : SegmentsGood k rb u n (x.rbLanes rb)) {l : Nat}
    (hl : l ∈ x.rbLanes rb) : ttovLane x w (some k) rb u n l = .ok (k, laneRow k rb l) := by
  simp only [ttovLane, hin.segRow hl]
  by_cases hlevel : k.level = 0
  · simp [hlevel, hbad]
  · obtain ⟨hnone, hfull⟩ := hgood hlevel l hl
    have hfind : ((bitLines (segBit k (laneRow k rb l) u) (32 * n)).find? fun j => !k.full j) = none := List.find?_eq_none.2 fun j hj => by simp [hfull j hj]
    simp [hlevel, hnone, hfind]

/-- A TTOV whose lanes' segments lie in the tile, in good lines, moves them all. -/
theorem ttovRes_done (hf : x.tm.faulted = []) (hk : x.handle (x.tm.coreOf (64 * rb)) w.b.toNat = some k)
    (hin : SegmentsIn k (x.ty w.ty) rb u n (x.rbLanes rb)) (hbad : k.bad = []) (hgood : SegmentsGood k rb u n (x.rbLanes rb)) :
    ttovRes x w rb u n = .done (x.s.modTeam x.q x.t (setRegs w.d.toNat n (maskOf (x.rbLanes rb))
      (ttovReg ((x.rbLanes rb).map fun l => (l, k, laneRow k rb l)) u))) := by
  have hok : (x.rbLanes rb).filterMap (ttovOk x w (some k) rb u n) = (x.rbLanes rb).map fun l => (l, k, laneRow k rb l) :=
    filterMap_some fun l hl => by simp [ttovOk, ttovLane_ok hin hbad hgood hl]
  have hstops : (x.rbLanes rb).filterMap (ttovStop x w (some k) rb u n) = [] :=
    List.filterMap_eq_nil_iff.2 fun l hl => by simp [ttovStop, ttovLane_ok hin hbad hgood hl]
  simp only [ttovRes, hk, hok, hstops, ending_nil hf, List.any_nil, Bool.false_eq_true, if_false, List.map_map, Function.comp_def, List.map_id']

/-- The value that a moved lane's register takes. -/
theorem ttovReg_map (ls : List Nat) (g : Nat → Tile × Nat) (u i : Nat) {l : Nat} (hl : l ∈ ls) :
    ttovReg (ls.map fun l => (l, g l)) u l i = segReg (g l).1 (g l).2 u i := by
  simp only [ttovReg, LaneAlu.find?_map_key, if_pos hl]

/-! ## Several registers written -/

theorem setRegs_succ (d n : Nat) (m : Mask) (f : Nat → Nat → Word) (tm : Team) :
    setRegs d (n + 1) m f tm = (setRegs d n m f tm).setV (d + n) m fun l => f l n := by
  simp [setRegs, upTo, List.range_succ]

/-- Writing registers changes nothing else of a team. -/
theorem setRegs_frame (d n : Nat) (m : Mask) (f : Nat → Nat → Word) (tm : Team) :
    setRegs d n m f tm = { tm with v := (setRegs d n m f tm).v, bad := (setRegs d n m f tm).bad, wrote := (setRegs d n m f tm).wrote } := by
  induction n with
  | zero => rfl
  | succ n ih => rw [setRegs_succ, Team.setV, ih]

/-- The registers after such a write. -/
theorem V_setRegs (d n : Nat) (m : Mask) (f : Nat → Nat → Word) {tm : Team} (r : Nat) {l : Nat} (hl : l < tm.lanes) :
    (setRegs d n m f tm).V l r = if m.getLsbD l = true ∧ d ≤ r ∧ r < d + n then f l (r - d) else tm.V l r := by
  induction n with
  | zero =>
    rw [if_neg (by omega)]
    rfl
  | succ n ih =>
    have hlanes : (setRegs d n m f tm).lanes = tm.lanes := by rw [setRegs_frame]
    rw [setRegs_succ, Team.V_setV _ _ _ _ _ _ (hlanes ▸ hl)]
    by_cases hr : r = d + n
    · subst hr
      rw [ih]
      by_cases hm : m.getLsbD l = true <;> simp [hm]
    · rw [if_neg hr, ih]
      have : r < d + (n + 1) ↔ r < d + n := by omega
      simp only [this]

/-- The registers once the listed lanes have taken theirs. -/
theorem V_taken {tm : Team} (hn : tm.lanes ≤ 1024) (ls : List Nat) (d r : Nat) {l : Nat} (hl : l < tm.lanes) :
    (setRegs d n (maskOf ls) (ttovReg (ls.map fun l => (l, k, laneRow k rb l)) u) tm).V l r
      = if l ∈ ls ∧ d ≤ r ∧ r < d + n then segReg k (laneRow k rb l) u (r - d) else tm.V l r := by
  have hmask : (maskOf ls).getLsbD l = true ↔ l ∈ ls := by
    rw [getLsbD_maskOf]
    simp [show l < 1024 by omega]
  simp only [V_setRegs _ _ _ _ _ hl, hmask]
  by_cases h : l ∈ ls ∧ d ≤ r ∧ r < d + n
  · rw [if_pos h, if_pos h, ttovReg_map _ _ _ _ h.1]
  · rw [if_neg h, if_neg h]

end ttov

/-! ## What the words on whole tiles and the moves do -/

section moves

variable {s : State} {q t : Nat} {sq : Squad} {tm : Team} {w : LR} {k : Tile}

/-- The lanes that a move is for. -/
abbrev moveLanes (s : State) (q t : Nat) (sq : Squad) (tm : Team) (w : LR) : List Nat := (laneIn s q t sq tm w.ms).rbLanes (w.c.toNat / 16)

/-- With no lane of the row block in M the moves do nothing. -/
theorem exec_move_idle (hls : moveLanes s q t sq tm w = []) :
    ∀ i ∈ [Instr.tfromv w, .ttov w], LaneReady s q t sq tm i w.ms → exec i s = .next (s.retire q t sq tm i (tm.acting w.ms)) := by
  simp only [List.forall_mem_cons, List.not_mem_nil, false_implies, implies_true, and_true]
  exact ⟨fun hr => (exec_tfromv w s).trans (laneRun_done hr (if_pos (List.isEmpty_iff.2 hls))),
    fun hr => (exec_ttov w s).trans (laneRun_done hr (if_pos (List.isEmpty_iff.2 hls)))⟩

variable (hne : moveLanes s q t sq tm w ≠ []) (hfree : unitFree s sq.cluster (tm.coreOf (64 * (w.c.toNat / 16))))
include hne hfree

/-- A ready TFROMV that comes to an end on its unit retires. -/
theorem exec_tfromv_done {y : State} (hr : LaneReady s q t sq tm (.tfromv w) w.ms)
    (h : fromvRes (laneIn s q t sq tm w.ms) w (w.c.toNat / 16) (w.c.toNat % 16) (w.fn.toNat % 32 + 1) = .done y) :
    exec (.tfromv w) s
      = .next ((y.leaveUnit sq.cluster (tm.coreOf (64 * (w.c.toNat / 16))) (q, t)).retire q t sq tm (.tfromv w) (tm.acting w.ms)) := by
  refine (exec_tfromv w s).trans (laneRun_done hr ((if_neg (mt List.isEmpty_iff.1 hne)).trans ?_))
  rw [h, onUnit_free hfree]
  rfl

/-- A ready TTOV that comes to an end on its unit retires. -/
theorem exec_ttov_done {y : State} (hr : LaneReady s q t sq tm (.ttov w) w.ms)
    (h : ttovRes (laneIn s q t sq tm w.ms) w (w.c.toNat / 16) (w.c.toNat % 16) (w.fn.toNat % 32 + 1) = .done y) :
    exec (.ttov w) s = .next ((y.leaveUnit sq.cluster (tm.coreOf (64 * (w.c.toNat / 16))) (q, t)).retire q t sq tm (.ttov w) (tm.acting w.ms)) := by
  refine (exec_ttov w s).trans (laneRun_done hr ((if_neg (mt List.isEmpty_iff.1 hne)).trans ?_))
  rw [h, onUnit_free hfree]
  rfl

end moves

/-- Settles O20: the words on whole tiles by their checks and what each makes of its tiles, the moves by what their lanes come to. -/
theorem wholeTileAndTileMoveWordsComplete : Obligations.WholeTileAndTileMoveWordsComplete := by
  refine ⟨fun s q t sq tm w => ?whole, fun s q t sq tm w => ?moves⟩
  case whole =>
    intro x ty m dh bh rnd ovf okHad okCvt okTrans okRed words
    have hhad := WholeTiles.tileWord_had x w
    obtain ⟨f, hcvt, hscalar, hblock⟩ := WholeTiles.tileWord_tcvt x w
    have htrans := WholeTiles.tileWord_ttrans x w
    have hred := WholeTiles.tileWord_tred x w
    have hword : ∀ p ∈ words, ∃ f, WholeTiles.TileWord x w p.1 p.2 f := by
      simp only [words, List.forall_mem_cons, List.not_mem_nil, false_implies, implies_true, and_true]
      exact ⟨⟨_, hhad⟩, ⟨_, hcvt⟩, ⟨_, htrans⟩, ⟨_, hred⟩⟩
    refine ⟨fun p hp hr hl => ?idle, fun l0 hl hfree => ⟨fun p hp hr href => ?refused, fun d b hd hb hlock => ?runs⟩⟩
    case idle =>
      obtain ⟨f, hw⟩ := hword p hp
      exact WholeTiles.exec_idle hw hr hl
    case refused =>
      obtain ⟨f, hw⟩ := hword p hp
      exact WholeTiles.exec_refused hw hr hl hfree href
    case runs =>
      intro reads hfull hgood hacc gives
      have hat : WholeTiles.TilesAtHand x w l0 d b := ⟨hl, hfree, hd, hb, hlock, hfull, hgood, hacc⟩
      refine ⟨fun hr hok htrap => ?had, fun hr hok htrap => ?scalar, fun hr hok hty htrap => ?block, fun hr hok htrap => ?ttrans,
        fun hr hok htrap => ?tred⟩
      case had => exact WholeTiles.exec_elements hhad hr hat hok rfl htrap
      case scalar =>
        rw [← WholeTiles.cvtElem_eq] at htrap ⊢
        exact WholeTiles.exec_elements hcvt hr hat hok.1 (hscalar d b hok.2) htrap
      case block => exact WholeTiles.exec_done hcvt hr hat hok (hblock d b hty htrap)
      case ttrans => exact WholeTiles.exec_elements htrans hr hat hok rfl htrap
      case tred => exact WholeTiles.exec_elements hred hr hat hok rfl htrap
  case moves =>
    intro x ty m rb u n core ls
    refine ⟨exec_move_idle, fun k => ?_⟩
    intro row hn _ hf hne hfree hty hrows hseg
    have hin : SegmentsIn k ty rb u n ls := ⟨hty, hrows, hseg⟩
    refine ⟨fun hr hk hbad hlock => ?tfromv, fun hr hk hbad hgood => ?ttov⟩
    case tfromv =>
      have hs : s.squad q = some sq := hr.2.1
      have htile (h : Nat) := tile_setTile hs w.d.toNat h (ls.foldl (moved x w k rb u n) k)
      have hdst := (htile w.d.toNat).trans (if_pos rfl)
      refine ⟨_, exec_tfromv_done hne hfree hr (fromvRes_done hf hk hin hbad hlock), setTile_mem .., (team_setTile ..).trans (team_of_ready hr),
        fun h hh => (htile h).trans (if_neg hh), fun hlevel => ?acc, fun hlevel => ?lines⟩
      case acc => exact moved_acc (x := x) hlevel ▸ hdst
      case lines => exact moved_lines (x := x) hlevel ▸ hdst
    case ttov =>
      exact ⟨_, _, exec_ttov_done hne hfree hr (ttovRes_done hf hk hin hbad hgood), State.modTeam_mem .., fun h => tile_modTeam ..,
        team_modTeam_same _ (team_of_ready hr), setRegs_frame .., fun r l hl => V_taken hn ls w.d.toNat r hl⟩

end Sys2Proof.Machine.Moves
end

section
/-! PROOFS. The epilogue TEPI to a tile (07_core_matrix.md R188 to R190). -/

namespace Sys2Proof.Machine.Epilogue

open MatrixUnit
open LaneAlu (fieldN_low)
open TileWords (onUnit_free)

/-! ## What both forms check and read (R189) -/

/-- The rows of an accumulator that an epilogue stores. -/
def storedRows (x : LaneIn) (d : Tile) (rb : Nat) : List Nat :=
  (upTo (min d.rows 64)).filter fun i => decide (64 * rb + i < x.tm.lanes) && x.m.getLsbD (64 * rb + i)

theorem mem_storedRows {x : LaneIn} {d : Tile} {rb i : Nat} :
    i ∈ storedRows x d rb ↔ i < min d.rows 64 ∧ 64 * rb + i < x.tm.lanes ∧ x.m.getLsbD (64 * rb + i) = true := by
  simp [storedRows, upTo]

/-- The elements that an epilogue stores, rounded. -/
def storedElems (x : LaneIn) (w : LR) (d : Tile) (rb : Nat) : List ((Nat × Nat) × Rounded) :=
  (storedRows x d rb).flatMap fun i => (upTo d.cols).map fun j => ((i, j), x.epiElem w (x.ty w.ty) d rb i j)

/-- The lanes whose rows an epilogue stores. -/
def storedMask (x : LaneIn) (d : Tile) (rb : Nat) : Mask := maskOf ((storedRows x d rb).map (64 * rb + ·))

/-- An epilogue has a lane in M, a unit that is free, and an accumulator on its core that it may read as its type. -/
structure AccAtHand (x : LaneIn) (w : LR) (d : Tile) : Prop where
  lanes : x.m &&& x.rbMask (w.c.toNat / 16) ≠ 0
  free : unitFree x.s x.sq.cluster (x.tm.coreOf (64 * (w.c.toNat / 16)))
  acc : x.handle (x.tm.coreOf (64 * (w.c.toNat / 16))) w.d.toNat = some d
  level : d.level = 0
  ints : (d.ty.isInt && (x.ty w.ty).isInt && (w.fn.getLsbD 4 || fieldN w.ex.toNat 3 4 != 0)) = false
  good : ∀ e ∈ d.bad, e / 64 ∉ storedRows x d (w.c.toNat / 16)

section shared

variable {x : LaneIn} {w : LR} {d : Tile} {bh rb : Nat} {blk : Bool} {k : Nat → Tile → List Nat → Mask → LaneRes}

/-- With no lane of the row block in M an epilogue does nothing. -/
theorem epilogue_idle (h : x.m &&& x.rbMask (w.c.toNat / 16) = 0) : x.epilogue w bh blk k = .done x.s := by
  rw [← rowBlock_field] at h
  exact if_pos h

/-- The lanes that a block destination requires are all in M. -/
theorem wanted_lanes (h : ∀ i, i < min d.rows 64 → 64 * rb + i < x.tm.lanes → i ∈ storedRows x d rb) :
    x.m &&& (x.rbMask rb &&& rowBlock rb &&& maskBelow (64 * rb + d.rows)) = x.rbMask rb &&& rowBlock rb &&& maskBelow (64 * rb + d.rows) := by
  refine BitVec.eq_of_getLsbD_eq fun l hl => ?_
  rw [BitVec.getLsbD_and, Bool.and_eq_right_iff_imp]
  intro hwant
  simp only [LaneIn.rbMask, BitVec.getLsbD_and, getLsbD_maskBelow, Bool.and_eq_true, decide_eq_true_eq] at hwant
  obtain ⟨⟨⟨hblock, hlanes, -⟩, -⟩, hrow, -⟩ := hwant
  have hin : 64 * rb ≤ l ∧ l < 64 * rb + 64 := by
    unfold rowBlock at hblock
    simp only [BitVec.getLsbD_ofNat, Nat.testBit_shiftLeft, Nat.testBit_two_pow_sub_one, Bool.and_eq_true, decide_eq_true_eq] at hblock
    omega
  have hrows := (mem_storedRows.1 (h (l - 64 * rb) (by omega) (by omega))).2.2
  rwa [show 64 * rb + (l - 64 * rb) = l by omega] at hrows

/-- With its accumulator at hand, and every lane of a row in M for a block destination, an epilogue goes on. -/
theorem epilogue_runs (h : AccAtHand x w d)
    (hblk : blk = true → ∀ i, i < min d.rows 64 → 64 * (w.c.toNat / 16) + i < x.tm.lanes → i ∈ storedRows x d (w.c.toNat / 16)) :
    x.epilogue w bh blk k = x.onUnit (x.tm.coreOf (64 * (w.c.toNat / 16)))
      (k (w.c.toNat / 16) d (storedRows x d (w.c.toNat / 16)) (storedMask x d (w.c.toNat / 16))) := by
  obtain ⟨hne, -, hacc, hlevel, hint, -⟩ := h
  rw [← rowBlock_field] at hne hacc hblk ⊢
  refine (if_neg hne).trans (congrArg (x.onUnit _) ?_)
  have hwant : (blk && (x.m &&& (x.rbMask (fieldN w.c.toNat 4 4) &&& rowBlock (fieldN w.c.toNat 4 4) &&& maskBelow (64 * fieldN w.c.toNat 4 4 + d.rows))
      != x.rbMask (fieldN w.c.toNat 4 4) &&& rowBlock (fieldN w.c.toNat 4 4) &&& maskBelow (64 * fieldN w.c.toNat 4 4 + d.rows))) = false := by
    cases blk with
    | false => rfl
    | true => simp only [wanted_lanes (hblk rfl), bne_self_eq_false, Bool.and_false]
  simp only [hacc, hlevel, hwant, hint, ne_eq, not_true_eq_false, Bool.false_eq_true, if_false]
  rfl

/-- An epilogue none of whose registers and accumulator elements is bad reads them (R208). -/
theorem epiReads_pass {i : Instr} {rows : List Nat} {mask : Mask} {r : LaneRes} (hregs : ∀ p ∈ x.tm.bad, p.1 ∉ matrixRegs x.tm.ckEnv i)
    (hacc : ∀ e ∈ d.bad, e / 64 ∉ rows) : x.epiReads i w rb d rows mask r = r := by
  have hbad (p : Nat × Nat → Bool) : (x.tm.bad.find? fun b => (matrixRegs x.tm.ckEnv i).contains b.1 && p b) = none :=
    List.find?_eq_none.2 fun b hb => by simp [hregs b hb]
  have hbadAcc : (d.bad.find? fun e => rows.contains (e / 64)) = none := List.find?_eq_none.2 fun e he => by simpa using hacc e he
  simp only [LaneIn.epiReads, hbad, hbadAcc]

/-- An epilogue without an overflow has no trap. -/
theorem epiTrap_none {rs : List ((Nat × Nat) × Rounded)} (h : ∀ r ∈ rs, r.2.trap = false) (cb : Nat) : epiTrap rs rb cb = none := by
  have hfind : (rs.find? fun r => r.2.trap) = none := List.find?_eq_none.2 fun r hr => by simp [h r hr]
  simp only [epiTrap, hfind, Option.map_none]

end shared

/-! ## TEPI to a tile -/

/-- The accumulator is freed under REL (R190). -/
def released (x : LaneIn) (w : LR) (s : State) : State := if w.fn.getLsbD 6 then s.freeTile x.q w.d.toNat else s

/-- The destination of an epilogue is a tile of the word's type that holds its elements. -/
structure Destination (x : LaneIn) (w : LR) (d b : Tile) (rb : Nat) : Prop where
  tile : x.tile w.b.toNat = some b
  level : b.level ≠ 0
  type : b.ty = x.ty w.ty
  cols : 64 * (w.c.toNat % 16) + d.cols ≤ b.cols
  rows : ∀ i ∈ storedRows x d rb, 64 * rb + i < b.rows

/-- The lines of the elements stored in a tile of a scalar type. -/
def elemLinesOf (x : LaneIn) (w : LR) (d b : Tile) (rb : Nat) : List Nat :=
  ((storedElems x w d rb).flatMap fun r => b.elemLines (64 * rb + r.1.1) (64 * (w.c.toNat % 16) + r.1.2)).eraseDups

/-- The state once the elements have been stored. -/
def elemsStored (x : LaneIn) (w : LR) (d b : Tile) (rb : Nat) : State :=
  released x w ((x.s.putElems x.q w.b.toNat b
    ((storedElems x w d rb).map fun r => ((64 * rb + r.1.1, 64 * (w.c.toNat % 16) + r.1.2), r.2.code))).modTeam x.q x.t fun y =>
      y.orFlags ((storedElems x w d rb).foldl (fun a r => a ||| r.2.flags) f0))

/-- The places of the blocks that an epilogue stores. -/
def blockPlaces (x : LaneIn) (d : Tile) (rb : Nat) : List (Nat × Nat) :=
  ((upTo 2).filter fun k => (storedRows x d rb).any fun i => i / 32 == k).flatMap fun k => (upTo d.cols).map fun j => (k, j)

/-- The values of a block, rows that are not stored entering it as +0 (R189). -/
def blockValues (x : LaneIn) (w : LR) (d : Tile) (rb : Nat) (bc : Nat × Nat) : List (XVal × Flags5) :=
  (upTo 32).map fun i =>
    if (storedRows x d rb).contains (32 * bc.1 + i) then x.epiValue w (x.rnd w.ty w.ex) d rb (32 * bc.1 + i) bc.2 else (.zero false, f0)

/-- The encoding of a block. -/
def blockOf (x : LaneIn) (w : LR) (d : Tile) (rb : Nat) (bc : Nat × Nat) : Block :=
  encodeBlock (x.ty w.ty) ((blockValues x w d rb bc).map (·.1)) (x.rnd w.ty w.ex) (x.ovf w.ty w.ex) x.tm.zblk

/-- The blocks that an epilogue stores, each with its encoding and the flags of its values. -/
def storedBlocks (x : LaneIn) (w : LR) (d : Tile) (rb : Nat) : List ((Nat × Nat) × Block × List Flags5) :=
  (blockPlaces x d rb).map fun bc => (bc, blockOf x w d rb bc, (blockValues x w d rb bc).map (·.2))

/-- The lines of those blocks. -/
def blockLinesOf (x : LaneIn) (w : LR) (d b : Tile) (rb : Nat) : List Nat :=
  ((storedBlocks x w d rb).flatMap fun k =>
    (upTo 32).flatMap fun i => b.elemLines (64 * rb + 32 * k.1.1 + i) (64 * (w.c.toNat % 16) + k.1.2)).eraseDups

/-- The state once the blocks have been stored. -/
def blocksStored (x : LaneIn) (w : LR) (d b : Tile) (rb : Nat) : State :=
  released x w (((x.s.setTile x.q w.b.toNat
    ((storedBlocks x w d rb).foldl (fun y k => y.setBlock (2 * rb + k.1.1) (64 * (w.c.toNat % 16) + k.1.2) k.2.1.scale k.2.1.elems) b)).fillLines x.q
      w.b.toNat (blockLinesOf x w d b rb)).modTeam x.q x.t fun y =>
        y.orFlags ((storedBlocks x w d rb).foldl (fun a k => k.2.2.foldl (· ||| ·) (a ||| k.2.1.flags)) f0))

/-- TEPI stores elements, or, to a block type, blocks (R189). -/
theorem exec_tepi (w : LR) (s : State) : ∃ k : LaneIn → Nat → Tile → List Nat → Mask → LaneRes,
    exec (.tepi w) s = laneRun (.tepi w) w.ms (fun x => x.epilogue w w.b.toNat (x.ty w.ty).isBlock (k x)) s
    ∧ ∀ (x : LaneIn) (d b : Tile) (rb : Nat), Destination x w d b rb → (∀ p ∈ x.tm.bad, p.1 ∉ matrixRegs x.tm.ckEnv (.tepi w)) →
      (∀ e ∈ d.bad, e / 64 ∉ storedRows x d rb) →
      ((x.ty w.ty).isBlock = false → (∀ r ∈ storedElems x w d rb, r.2.trap = false) → x.lockedLine w.b.toNat (elemLinesOf x w d b rb) = none →
        k x rb d (storedRows x d rb) (storedMask x d rb) = .done (elemsStored x w d b rb))
      ∧ ((x.ty w.ty).isBlock = true → (∀ z ∈ storedBlocks x w d rb, z.2.1.trap = false) → x.lockedLine w.b.toNat (blockLinesOf x w d b rb) = none →
        k x rb d (storedRows x d rb) (storedMask x d rb) = .done (blocksStored x w d b rb)) := by
  refine ⟨_, rfl, fun x d b rb hdst hregs hacc => ?_⟩
  obtain ⟨htile, hlevel, hty, hcols, hrows⟩ := hdst
  have hany : (storedRows x d rb).any (fun i => decide (b.rows ≤ 64 * rb + i)) = false :=
    List.any_eq_false.2 fun i hi => by simpa using hrows i hi
  have hfits : ¬ (b.level = 0 ∨ b.ty ≠ x.ty w.ty ∨ b.cols < 64 * (w.c.toNat % 16) + d.cols
      ∨ (storedRows x d rb).any (fun i => decide (b.rows ≤ 64 * rb + i)) = true) := by
    rw [hany]
    simp only [hlevel, hty, Nat.not_lt.2 hcols, ne_eq, not_true_eq_false, Bool.false_eq_true, or_self, not_false_iff]
  refine ⟨fun hblk htrap hlock => ?scalar, fun hblk htrap hlock => ?block⟩
  case scalar =>
    simp only [htile, low_field, if_neg hfits, hblk, Bool.false_eq_true, if_false]
    simp only [elemLinesOf, storedElems] at hlock
    simp only [hlock, epiReads_pass hregs hacc]
    have hnone := epiTrap_none (rb := rb) htrap (w.c.toNat % 16)
    simp only [storedElems] at hnone
    simp only [hnone]
    rfl
  case block =>
    simp only [htile, low_field, if_neg hfits, hblk, if_true, List.flatMap_map, List.foldl_map, List.any_map, Function.comp_def]
    simp only [blockLinesOf, storedBlocks, List.flatMap_map] at hlock
    simp only [storedBlocks, List.forall_mem_map] at htrap
    have htraps : ¬ ((blockPlaces x d rb).any fun bc => (blockOf x w d rb bc).trap) = true := by simpa using htrap
    simp only [blockPlaces] at hlock
    simp only [hlock, epiReads_pass hregs hacc]
    refine (if_neg htraps).trans ?_
    simp only [blocksStored, storedBlocks, blockLinesOf, List.foldl_map, List.flatMap_map]
    rfl


end Sys2Proof.Machine.Epilogue
end

section
/-! PROOFS. The epilogue TEPI.MEM to memory, and what both forms do (07_core_matrix.md R188 to R190). -/

namespace Sys2Proof.Machine.EpilogueStores

open MatrixUnit Epilogue LaneEnds MemoryAccess MemoryAddress
open LaneAlu (fieldN_low)
open TileWords (onUnit_free tile_modTeam tile_modSquad)
open TeamState (squad_modSquad)

/-! ## The bytes of an element (R188) -/

/-- The bytes of an element in memory. -/
def elemSize (x : LaneIn) (w : LR) : Nat := (x.ty w.ty).width / 8

/-- The window that TEPI.MEM stores to. -/
def memWindow (x : LaneIn) (w : LR) : Window := x.tm.window (w.b.toNat % 8)

/-- The offset of an element in the window. -/
def elemOff (x : LaneIn) (w : LR) (rb i j : Nat) : Nat := (x.tm.V (64 * rb + i) w.a.toNat).toNat + j * elemSize x w

/-- The address of an element in memory. -/
def elemPa (x : LaneIn) (w : LR) (rb i j : Nat) : Nat := x.s.winPa (memWindow x w) (elemOff x w rb i j)

/-- The virtual address of an element. -/
def elemVa (x : LaneIn) (w : LR) (rb i j : Nat) : Nat := wrapN ((memWindow x w).base + (elemOff x w rb i j : Nat)) 64

/-- The encoding of an element. -/
def elemCode (x : LaneIn) (w : LR) (d : Tile) (rb i j : Nat) : Nat := (x.epiElem w (x.ty w.ty) d rb i j).code

/-- The row and column of each element of a row. -/
def rowPlaces (d : Tile) (i : Nat) : List (Nat × Nat) := (upTo d.cols).map fun j => (i, j)

theorem mem_rowPlaces {d : Tile} {i : Nat} {e : Nat × Nat} : e ∈ rowPlaces d i ↔ e.1 = i ∧ e.2 < d.cols := by
  obtain ⟨a, b⟩ := e
  simp only [rowPlaces, upTo, List.mem_map, List.mem_range, Prod.mk.injEq]
  constructor
  · rintro ⟨j, hj, rfl, rfl⟩
    exact ⟨rfl, hj⟩
  · rintro ⟨rfl, hb⟩
    exact ⟨b, hb, rfl, rfl⟩

/-- Each element of the rows stored lies in a MEM window of the team's, in ordinary memory, and no two of them share a byte. -/
structure MemAtHand (x : LaneIn) (w : LR) (d : Tile) (rb : Nat) : Prop where
  mem : (memWindow x w).kind = 1
  writable : (memWindow x w).wr = true
  committed : x.s.speculative x.sq = false
  canonical : Memory.wf x.s.mem = true
  reach : ∀ i ∈ storedRows x d rb, ∀ j, j < d.cols → elemOff x w rb i j + elemSize x w ≤ (memWindow x w).limit
    ∧ elemOff x w rb i j % elemSize x w = 0
    ∧ Reaches x.s x.sq.cluster (x.s.ownerOf x.sq) (elemVa x w rb i j) (elemPa x w rb i j) (elemSize x w) true
  apart : ∀ i ∈ storedRows x d rb, ∀ i' ∈ storedRows x d rb, ∀ j j', j < d.cols → j' < d.cols → (i, j) ≠ (i', j') →
    elemPa x w rb i j ≠ elemPa x w rb i' j'

/-- The state after some elements have been stored. -/
structure Stored (x : LaneIn) (w : LR) (d : Tile) (rb : Nat) (es : List (Nat × Nat)) (y : State) : Prop where
  accessed : Accessed x.s x.sq.cluster (x.s.ownerOf x.sq) y
  bytes : ∀ e ∈ es, ∀ k, k < elemSize x w → memGet y.mem (elemPa x w rb e.1 e.2 + k) = (toBytes (elemSize x w) (elemCode x w d rb e.1 e.2)).getD k 0
  frame : ∀ a, (∀ e ∈ es, ¬ (elemPa x w rb e.1 e.2 ≤ a ∧ a < elemPa x w rb e.1 e.2 + elemSize x w)) → memGet y.mem a = memGet x.s.mem a

section stores

variable {x : LaneIn} {w : LR} {d : Tile} {rb : Nat} {es : List (Nat × Nat)} {y : State} {i j : Nat}

/-- No byte of an element lies in another. -/
theorem MemAtHand.disjoint (h : MemAtHand x w d rb) {i' j' k : Nat} (hi : i ∈ storedRows x d rb) (hj : j < d.cols) (hi' : i' ∈ storedRows x d rb)
    (hj' : j' < d.cols) (hne : (i, j) ≠ (i', j')) (hk : k < elemSize x w) :
    ¬ (elemPa x w rb i j ≤ elemPa x w rb i' j' + k ∧ elemPa x w rb i' j' + k < elemPa x w rb i j + elemSize x w) := by
  intro hin
  have hal := ((reaches_iff ..).1 (h.reach i hi j hj).2.2).1.aligned
  have hal' := ((reaches_iff ..).1 (h.reach i' hi' j' hj').2.2).1.aligned
  obtain ⟨a, ha⟩ := Nat.dvd_of_mod_eq_zero hal
  obtain ⟨b, hb⟩ := Nat.dvd_of_mod_eq_zero hal'
  refine h.apart i hi i' hi' j j' hj hj' hne ?_
  have hab : a = b := by
    rw [ha, hb] at hin
    have hlow : a < b + 1 := Nat.lt_of_mul_lt_mul_left (a := elemSize x w) (by rw [Nat.mul_add]; omega)
    have hhigh : b < a + 1 := Nat.lt_of_mul_lt_mul_left (a := elemSize x w) (by rw [Nat.mul_add]; omega)
    omega
  rw [ha, hb, hab]

/-- The address of an element of the window is the same whatever has been stored before. -/
theorem MemAtHand.windowAddr (h : MemAtHand x w d rb) (hy : SameMaps x.s x.sq.cluster y) (hi : i ∈ storedRows x d rb) (hj : j < d.cols) (a : Access) :
    y.windowAddr a (memWindow x w) (elemOff x w rb i j : Nat) (elemSize x w) { wr := true } false
      = (.ok (.loc (elemVa x w rb i j) (elemPa x w rb i j) (memWindow x w).zor), y) := by
  obtain ⟨hlimit, hal, -⟩ := h.reach i hi j hj
  have hpa : y.winPa (memWindow x w) (elemOff x w rb i j) = elemPa x w rb i j := by
    unfold elemPa State.winPa State.versionPa State.task
    rw [hy.tasks, hy.versions]
  have hal' : ¬ ((elemOff x w rb i j : Nat) : Int) % (elemSize x w : Int) ≠ 0 := by
    rw [not_not, ← Int.natCast_mod, hal]
    rfl
  have hallowed : ¬ (((elemOff x w rb i j : Nat) : Int) < 0 ∨ (false = true ∧ !(memWindow x w).rd) ∨ (true = true ∧ !(memWindow x w).wr)) := by
    simp [h.writable]
  have hkind : ¬ (memWindow x w).kind = 4 := by rw [h.mem]; decide
  rw [MemoryWords.windowAddr_mem (by simp [h.mem])]
  dsimp only
  rw [if_neg hal', if_neg hallowed, if_neg hkind, Int.toNat_natCast, if_pos hlimit, hpa]
  rfl

/-- One more element is stored. -/
theorem Stored.step (h : Stored x w d rb es y) (hm : MemAtHand x w d rb) (hes : ∀ e ∈ es, e.1 ∈ storedRows x d rb ∧ e.2 < d.cols)
    (hi : i ∈ storedRows x d rb) (hj : j < d.cols) (hnew : (i, j) ∉ es) (l : Nat) (zor : Bool) :
    ∃ z, y.pwrite (x.acc y l) (elemVa x w rb i j) (elemPa x w rb i j) zor (toBytes (elemSize x w) (elemCode x w d rb i j)) = (.ok (), z)
      ∧ Stored x w d rb (es ++ [(i, j)]) z := by
  obtain ⟨hy, hbytes, hframe⟩ := h
  have hacc := acc_congr x (sameMaps_of_accessed hy).tasks l
  have hord : Ordinary y (x.acc y l).owner (elemVa x w rb i j) (elemPa x w rb i j) (elemSize x w) true :=
    hacc ▸ hy.ordinary ((reaches_iff ..).1 (hm.reach i hi j hj).2.2).1
  have hbuf : y.buffers (x.acc y l) (elemPa x w rb i j) = false := buffers_of_not_spec (hacc ▸ hm.committed) _
  have hlen := length_toBytes (elemSize x w) (elemCode x w d rb i j)
  obtain ⟨hz, hmem⟩ := hord.store hlen hbuf zor
  rw [hacc] at hz hmem
  have hget (a : Nat) := memGet_memSets (toBytes (elemSize x w) (elemCode x w d rb i j)) (hy.canonical hm.canonical) (elemPa x w rb i j) a
  rw [← hmem, hlen] at hget
  refine ⟨_, hord.pwrite hlen (overAllowance_of_not_buffered hbuf _) zor, ?_, fun e he k hk => ?bytes, fun a ha => ?frame⟩
  · rw [hacc]
    exact hy.trans hz
  case bytes =>
    rw [hacc, hget]
    rcases List.mem_append.1 he with he | he
    · obtain ⟨hrow, hcol⟩ := hes e he
      rw [if_neg (hm.disjoint hi hj hrow hcol (fun heq => hnew (heq ▸ he)) hk), hbytes e he k hk]
    · obtain rfl := List.mem_singleton.1 he
      rw [if_pos ⟨Nat.le_add_right _ _, Nat.add_lt_add_left hk _⟩, Nat.add_sub_cancel_left]
  case frame =>
    rw [hacc, hget, if_neg (ha (i, j) (by simp)), hframe a fun e he => ha e (by simp [he])]

/-- A row is stored from a column on. -/
theorem epiRow_stores (hm : MemAtHand x w d rb) (hi : i ∈ storedRows x d rb) (hrd : x.rd = x.tm) :
    ∀ (m j : Nat) (es : List (Nat × Nat)) (y : State), Stored x w d rb es y → (∀ e ∈ es, e.1 ∈ storedRows x d rb ∧ e.2 < d.cols) →
      (∀ e ∈ es, e.1 = i → e.2 < j) → j + m ≤ d.cols →
      ∃ z, x.epiRow w (elemSize x w) (64 * rb + i) ((List.range' j m).map (elemCode x w d rb i)) j y = (.ok 0, z)
        ∧ Stored x w d rb (es ++ (List.range' j m).map fun j => (i, j)) z := by
  intro m
  induction m with
  | zero => exact fun j es y h _ _ _ => ⟨y, rfl, by simpa using h⟩
  | succ m ih =>
    intro j es y h hes hbefore hcols
    have hj : j < d.cols := by omega
    obtain ⟨z, hwrite, hz⟩ := h.step hm hes hi hj (fun hmem => Nat.lt_irrefl j (hbefore _ hmem rfl)) (64 * rb + i) (memWindow x w).zor
    obtain ⟨z', hrest, hz'⟩ := ih (j + 1) (es ++ [(i, j)]) z hz
      (fun e he => (List.mem_append.1 he).elim (hes e) fun he => by obtain rfl := List.mem_singleton.1 he; exact ⟨hi, hj⟩)
      (fun e he hrow => (List.mem_append.1 he).elim (fun he => Nat.lt_succ_of_lt (hbefore e he hrow)) fun he => by
        obtain rfl := List.mem_singleton.1 he; exact Nat.lt_succ_self j) (by omega)
    refine ⟨z', ?_, by rw [List.range'_succ, List.map_cons, List.append_cons]; exact hz'⟩
    have haddr := hm.windowAddr (sameMaps_of_accessed h.accessed) hi hj (x.acc y (64 * rb + i))
    unfold memWindow elemOff at haddr
    unfold memWindow at hwrite
    rw [List.range'_succ, List.map_cons]
    simp only [LaneIn.epiRow, fieldN_low, Nat.reducePow, hrd, haddr, LR2.andThen, hwrite, MR.at]
    exact hrest

end stores

/-! ## TEPI.MEM -/

/-- The elements of a row, of those of all rows. -/
theorem filter_row {α : Type} (f : Nat → List ((Nat × Nat) × α)) (hf : ∀ i, ∀ r ∈ f i, r.1.1 = i) {rows : List Nat} (hrows : rows.Nodup) {i : Nat}
    (hi : i ∈ rows) : ((rows.flatMap f).filter fun r => r.1.1 == i) = f i := by
  have hother (k : Nat) (hk : k ≠ i) : ((f k).filter fun r => r.1.1 == i) = [] :=
    List.filter_eq_nil_iff.2 fun r hr => by simpa [hf k r hr] using hk
  have hown : ((f i).filter fun r => r.1.1 == i) = f i := List.filter_eq_self.2 fun r hr => by simp [hf i r hr]
  induction rows with
  | nil => exact absurd hi List.not_mem_nil
  | cons k rows ih =>
    obtain ⟨hk, hrows⟩ := List.nodup_cons.1 hrows
    rw [List.flatMap_cons, List.filter_append]
    rcases List.mem_cons.1 hi with rfl | hi
    · have hrest : ((rows.flatMap f).filter fun r => r.1.1 == i) = [] :=
        List.filter_eq_nil_iff.2 fun r hr => by
          obtain ⟨k, hkr, hr⟩ := List.mem_flatMap.1 hr
          have hne : k ≠ i := fun heq => hk (heq ▸ hkr)
          simpa [hf k r hr] using hne
      rw [hown, hrest, List.append_nil]
    · rw [hother k (fun heq => hk (heq ▸ hi)), ih hrows hi, List.nil_append]

theorem nodup_storedRows (x : LaneIn) (d : Tile) (rb : Nat) : (storedRows x d rb).Nodup := List.nodup_range.filter _

/-- The encodings that a row stores, as TEPI.MEM gathers them. -/
theorem codes_of_row {x : LaneIn} {w : LR} {d : Tile} {rb i : Nat} (hi : i ∈ storedRows x d rb) :
    (((storedElems x w d rb).filter fun r => r.1.1 == i).map (·.2.code)) = (List.range' 0 d.cols).map (elemCode x w d rb i) := by
  rw [storedElems, filter_row _ (fun k r hr => by obtain ⟨j, -, rfl⟩ := List.mem_map.1 hr; rfl) (nodup_storedRows x d rb) hi, List.map_map, upTo,
    List.range_eq_range']
  rfl

/-- The flags of the elements stored. -/
def storedFlags (x : LaneIn) (w : LR) (d : Tile) (rb : Nat) : Flags5 := (storedElems x w d rb).foldl (fun a r => a ||| r.2.flags) f0

section rows

variable {x : LaneIn} {w : LR} {d : Tile} {rb : Nat}

/-- All rows are stored, one after another. -/
theorem rows_stored (hm : MemAtHand x w d rb) (hrd : x.rd = x.tm) (mw : MemWord) (cs : Nat → List Nat)
    (hcs : ∀ i ∈ storedRows x d rb, cs (64 * rb + i) = (List.range' 0 d.cols).map (elemCode x w d rb i)) :
    ∃ vals y, x.each mw (fun s l => x.epiStore w (elemSize x w) l (cs l) s) ((storedRows x d rb).map (64 * rb + ·)) { s := x.s } = ⟨y, vals, []⟩
      ∧ vals.map (·.1) = (storedRows x d rb).map (64 * rb + ·) ∧ Stored x w d rb ((storedRows x d rb).flatMap (rowPlaces d)) y := by
  have hkind : ¬ (x.tm.window (fieldN w.b.toNat 0 3)).kind = 4 := by
    rw [fieldN_low, show x.tm.window (w.b.toNat % 2 ^ 3) = memWindow x w from rfl, hm.mem]
    decide
  have hplaces (ls : List Nat) : (ls.map (64 * rb + ·)).flatMap (fun l => rowPlaces d (l - 64 * rb)) = ls.flatMap (rowPlaces d) := by
    simp [List.flatMap_map]
  obtain ⟨vals, y, heach, hvals, hy⟩ := each_induction (x := x) (w := mw) (f := fun s l => x.epiStore w (elemSize x w) l (cs l) s)
    (P := fun vals => Stored x w d rb ((vals.map (·.1)).flatMap fun l => rowPlaces d (l - 64 * rb))) ((storedRows x d rb).map (64 * rb + ·)) { s := x.s }
    ⟨.refl _ _ _, fun e he => absurd he List.not_mem_nil, fun _ _ => rfl⟩ fun pre l post vals y hls hpre hy => by
      obtain ⟨done, rest, hrows, rfl, hrest⟩ := List.map_eq_append_iff.1 hls
      obtain ⟨i, later, rfl, rfl, rfl⟩ := List.map_eq_cons_iff.1 hrest
      simp only [List.map_nil, List.nil_append] at hpre
      rw [hpre, hplaces] at hy
      have hi : i ∈ storedRows x d rb := by simp [hrows]
      have hnew : i ∉ done := by
        have hnodup := nodup_storedRows x d rb
        rw [hrows] at hnodup
        exact fun hmem => (List.nodup_append.1 hnodup).2.2 i hmem i List.mem_cons_self rfl
      have hplace (e) (he : e ∈ done.flatMap (rowPlaces d)) : e.1 ∈ done ∧ e.2 < d.cols := by
        obtain ⟨k, hk, he⟩ := List.mem_flatMap.1 he
        obtain ⟨rfl, hcol⟩ := mem_rowPlaces.1 he
        exact ⟨hk, hcol⟩
      obtain ⟨z, hrow, hz⟩ := epiRow_stores hm hi hrd d.cols 0 _ y hy
        (fun e he => ⟨hrows ▸ List.mem_append_left _ (hplace e he).1, (hplace e he).2⟩)
        (fun e he heq => absurd (heq ▸ (hplace e he).1) hnew) (by omega)
      refine ⟨0, z, ?_, ?_⟩
      · rw [LaneIn.epiStore, if_neg hkind, hcs i hi]
        exact hrow
      · rw [List.map_append, hpre, List.flatMap_append, hplaces, List.map_singleton, List.flatMap_singleton, Nat.add_sub_cancel_left, rowPlaces, upTo,
          List.range_eq_range']
        exact hz
  simp only [List.map_nil, List.nil_append] at hvals
  rw [hvals, hplaces] at hy
  exact ⟨vals, y, heach, hvals, hy⟩

/-- The flags of TEPI.MEM are those of all elements when every row has been performed. -/
theorem flags_of_rows {vals : List (Nat × Nat)} (h : vals.map (·.1) = (storedRows x d rb).map (64 * rb + ·)) :
    (storedElems x w d rb).foldl (fun a r => if (vals.any fun v => v.1 == 64 * rb + r.1.1) then a ||| r.2.flags else a) f0 = storedFlags x w d rb := by
  refine List.foldl_ext _ _ _ fun a r hr => if_pos ?_
  obtain ⟨i, hi, hr⟩ := List.mem_flatMap.1 hr
  obtain ⟨j, -, rfl⟩ := List.mem_map.1 hr
  have hmem : 64 * rb + i ∈ vals.map (·.1) := h ▸ List.mem_map_of_mem hi
  obtain ⟨v, hv, heq⟩ := List.mem_map.1 hmem
  exact List.any_eq_true.2 ⟨v, hv, by simp [heq]⟩

end rows

/-- TEPI.MEM stores its rows and holds their flags. -/
theorem exec_tepiMem (w : LR) (s : State) : ∃ k : LaneIn → Nat → Tile → List Nat → Mask → LaneRes,
    exec (.tepiMem w) s = laneRun (.tepiMem w) w.ms (fun x => x.epilogue w w.b.toNat false (k x)) s
    ∧ ∀ (x : LaneIn) (d : Tile) (rb : Nat), MemAtHand x w d rb → x.rd = x.tm → x.tm.faulted = [] →
      (∀ p ∈ x.tm.bad, p.1 ∉ matrixRegs x.tm.ckEnv (.tepiMem w)) → (∀ e ∈ d.bad, e / 64 ∉ storedRows x d rb) →
      (∀ r ∈ storedElems x w d rb, r.2.trap = false) →
      ∃ y, Stored x w d rb ((storedRows x d rb).flatMap (rowPlaces d)) y
        ∧ k x rb d (storedRows x d rb) (storedMask x d rb) = .done (released x w (y.modTeam x.q x.t fun tm => tm.holdFlags (storedFlags x w d rb))) := by
  refine ⟨_, rfl, fun x d rb hm hrd hf hregs hacc htrap => ?_⟩
  have hnone := epiTrap_none (rb := rb) htrap 0
  obtain ⟨vals, y, heach, hvals, hy⟩ := rows_stored hm hrd { win := fieldN w.b.toNat 0 3, wr := true, lsize := lsizeOf (elemSize x w) }
    (fun l => ((storedElems x w d rb).filter fun r => r.1.1 == l - 64 * rb).map (·.2.code))
    (fun i hi => by rw [Nat.add_sub_cancel_left]; exact codes_of_row hi)
  refine ⟨y, hy, ?_⟩
  have hflags := flags_of_rows (w := w) hvals
  unfold storedElems at hnone heach hflags
  unfold elemSize at heach
  simp only [epiReads_pass hregs hacc, hnone, heach, ordered_nil, hflags]
  rw [List.map_nil, ending_nil hf]
  simp only [hf, List.isEmpty_nil, Bool.true_and]
  rfl

/-! ## The accumulator freed (R190, R196) -/

/-- A team with other tiles noted as lost to its word. -/
def keepLost (lost : List Nat) (tm : Team) : Team := { tm with lostTiles := lost }

/-- A team whose word does not wait loses a handle by noting it alone. -/
theorem loseTile_of_not_waiting {tm : Team} (h : tm.wait = none) (n : Nat) : ∃ lost, tm.loseTile n = keepLost lost tm := by
  by_cases haw : tm.awaits.contains n = true
  · exact ⟨n :: tm.lostTiles, by simp only [Team.loseTile, keepLost, h, haw, Bool.false_eq_true, if_false, if_true]⟩
  · have hself : tm.loseTile n = tm := by simp only [Team.loseTile, h, haw, Bool.false_eq_true, if_false]
    exact ⟨tm.lostTiles, hself⟩

/-- Issue slots do not depend on the tiles that a word has lost. -/
theorem takeSlot_keepLost (s : State) (q t : Nat) (sq : Squad) (old : Team) (i : Instr) (m : Mask) (lost : List Nat) (f : Team → Team) :
    ((s.modTeam q t (keepLost lost)).takeSlot q t sq old i m).modTeam q t f = (s.takeSlot q t sq old i m).modTeam q t (f ∘ keepLost lost) := by
  have hcore (y : State) (cl k : Nat) (c : LaneCore → LaneCore) (g : Team → Team) : (y.modCore cl k c).modTeam q t g = (y.modTeam q t g).modCore cl k c := by
    unfold State.modCore State.modCluster
    rw [Loads.modTeam_clusters, State.modTeam_clusters]
  have hoccupy (y : State) (cl k cyc p : Nat) (pair : Bool) (g : Team → Team) :
      (y.occupy cl k cyc p pair).modTeam q t g = (y.modTeam q t g).occupy cl k cyc p pair := by
    unfold State.occupy
    split
    · rfl
    · exact hcore ..
  by_cases hst : old.started.isSome = true
  · simp only [State.takeSlot, hst, if_true, modTeam_modTeam]
  · simp only [State.takeSlot, hst, if_false, Bool.false_eq_true, hoccupy, modTeam_modTeam, State.cluster_modTeam]
    rfl

/-- What a retirement makes of its team. -/
def retired (s : State) (sq : Squad) (old : Team) (i : Instr) (m : Mask) (tm : Team) : Team :=
  let cyc := (s.cluster sq.cluster).cycle
  let p := passesOf old i m
  let flag := if old.native then old.boundFlag i else none
  let tm := Team.noteHazards old tm s.free cyc flag (isLong i) (cyc + max p.1 p.2 - 1 + old.lLane)
  let tm := match flag with
    | some f => if m = 0 then tm else { tm with busy := tm.busy ||| (1#12 <<< f) }
    | none => tm
  tm.pop

theorem retire_eq (s : State) (q t : Nat) (sq : Squad) (old : Team) (i : Instr) (m : Mask) :
    s.retire q t sq old i m = { (s.takeSlot q t sq old i m).modTeam q t (retired s sq old i m) with
      free := ((s.takeSlot q t sq old i m).modTeam q t (retired s sq old i m)).free + 1 } := rfl

/-- A retirement forgets the tiles that its word has lost. -/
theorem retired_keepLost (s : State) (sq : Squad) (old : Team) (i : Instr) (m : Mask) (lost : List Nat) :
    retired s sq old i m ∘ keepLost lost = retired s sq old i m := by
  funext tm
  have hpop (y : Team) : (keepLost lost y).pop = y.pop := rfl
  have hnote (free cyc : Nat) (flag : Option Nat) (long : Bool) (ready : Nat) :
      Team.noteHazards old (keepLost lost tm) free cyc flag long ready = keepLost lost (Team.noteHazards old tm free cyc flag long ready) := by
    unfold Team.noteHazards
    split
    · rfl
    · rfl
  rw [Function.comp_apply, retired, retired, hnote]
  generalize (if old.native = true then old.boundFlag i else none) = flag
  cases flag with
  | none => rfl
  | some f =>
    by_cases hm : m = 0
    · simp only [hm, if_true, hpop]
    · simp only [hm, if_false]
      rfl

theorem retire_keepLost (s : State) (q t : Nat) (sq : Squad) (old : Team) (i : Instr) (m : Mask) (lost : List Nat) :
    (s.modTeam q t (keepLost lost)).retire q t sq old i m = s.retire q t sq old i m := by
  have hretired : retired (s.modTeam q t (keepLost lost)) sq old i m = retired s sq old i m := by
    unfold retired
    rw [State.cluster_modTeam, State.modTeam_free]
  rw [retire_eq, retire_eq, hretired, takeSlot_keepLost, retired_keepLost]

section freed

variable {x : LaneIn} {w : LR} {y : State} {tm : Team}

@[simp] theorem released_mem : (released x w y).mem = y.mem := by
  unfold released
  split
  · exact State.modSquad_mem ..
  · rfl

/-- A team whose word does not wait is, but for the tiles it has lost, as it was before the accumulator was freed. -/
theorem team_released (ht : y.team x.q x.t = some tm) (hw : tm.wait = none) :
    ∃ lost, (released x w y).team x.q x.t = some (keepLost lost tm) := by
  unfold released
  split
  · obtain ⟨lost, hlost⟩ := loseTile_of_not_waiting hw w.d.toNat
    refine ⟨lost, ?_⟩
    rw [← hlost]
    cases hs : y.squad x.q with
    | none => simp [State.team, hs] at ht
    | some sq =>
      simp only [State.team, hs] at ht
      simp [State.freeTile, State.team, squad_modSquad, hs, ht]
  · exact ⟨tm.lostTiles, ht⟩

/-- Under REL the handle of the accumulator is free. -/
theorem tile_released (hs : (y.squad x.q).isSome) :
    (released x w y).tile x.q w.d.toNat = if w.fn.getLsbD 6 then none else y.tile x.q w.d.toNat := by
  obtain ⟨sq, hs⟩ := Option.isSome_iff_exists.1 hs
  unfold released
  split
  · rw [State.freeTile, tile_modSquad _ hs, aget?_adel_self]
  · rfl

end freed

/-! ## What the epilogues do -/

section runs

variable {s : State} {q t : Nat} {sq : Squad} {tm : Team} {w : LR} {d b : Tile}

/-- With no lane of the row block in M both forms retire. -/
theorem exec_idle (h : tm.acting w.ms &&& (laneIn s q t sq tm w.ms).rbMask (w.c.toNat / 16) = 0) {i : Instr} (hi : i ∈ [Instr.tepi w, .tepiMem w])
    (hr : LaneReady s q t sq tm i w.ms) : exec i s = .next (s.retire q t sq tm i (tm.acting w.ms)) := by
  simp only [List.mem_cons, List.not_mem_nil, or_false] at hi
  rcases hi with rfl | rfl
  · obtain ⟨k, hexec, -⟩ := exec_tepi w s
    exact hexec.trans (laneRun_done hr (epilogue_idle h))
  · obtain ⟨k, hexec, -⟩ := exec_tepiMem w s
    exact hexec.trans (laneRun_done hr (epilogue_idle h))

/-- TEPI to a tile of a scalar type. -/
theorem exec_tepi_elements (hat : AccAtHand (laneIn s q t sq tm w.ms) w d) (hr : LaneReady s q t sq tm (.tepi w) w.ms)
    (hregs : ∀ p ∈ tm.bad, p.1 ∉ matrixRegs tm.ckEnv (.tepi w)) (hdst : Destination (laneIn s q t sq tm w.ms) w d b (w.c.toNat / 16))
    (hty : ((laneIn s q t sq tm w.ms).ty w.ty).isBlock = false)
    (htrap : ∀ r ∈ storedElems (laneIn s q t sq tm w.ms) w d (w.c.toNat / 16), r.2.trap = false)
    (hlock : (laneIn s q t sq tm w.ms).lockedLine w.b.toNat (elemLinesOf (laneIn s q t sq tm w.ms) w d b (w.c.toNat / 16)) = none) :
    exec (.tepi w) s = .next (((elemsStored (laneIn s q t sq tm w.ms) w d b (w.c.toNat / 16)).leaveUnit sq.cluster
      (tm.coreOf (64 * (w.c.toNat / 16))) (q, t)).retire q t sq tm (.tepi w) (tm.acting w.ms)) := by
  obtain ⟨k, hexec, hk⟩ := exec_tepi w s
  have hres := (hk _ d b _ hdst hregs hat.good).1 hty htrap hlock
  refine hexec.trans (laneRun_done hr ((epilogue_runs hat fun hblk => absurd (hty.symm.trans hblk) Bool.false_ne_true).trans ?_))
  rw [hres]
  exact onUnit_free hat.free

/-- TEPI to a tile of a block type. -/
theorem exec_tepi_blocks (hat : AccAtHand (laneIn s q t sq tm w.ms) w d) (hr : LaneReady s q t sq tm (.tepi w) w.ms)
    (hregs : ∀ p ∈ tm.bad, p.1 ∉ matrixRegs tm.ckEnv (.tepi w)) (hdst : Destination (laneIn s q t sq tm w.ms) w d b (w.c.toNat / 16))
    (hty : ((laneIn s q t sq tm w.ms).ty w.ty).isBlock = true)
    (hrows : ∀ i, i < min d.rows 64 → 64 * (w.c.toNat / 16) + i < tm.lanes → i ∈ storedRows (laneIn s q t sq tm w.ms) d (w.c.toNat / 16))
    (htrap : ∀ k ∈ storedBlocks (laneIn s q t sq tm w.ms) w d (w.c.toNat / 16), k.2.1.trap = false)
    (hlock : (laneIn s q t sq tm w.ms).lockedLine w.b.toNat (blockLinesOf (laneIn s q t sq tm w.ms) w d b (w.c.toNat / 16)) = none) :
    exec (.tepi w) s = .next (((blocksStored (laneIn s q t sq tm w.ms) w d b (w.c.toNat / 16)).leaveUnit sq.cluster
      (tm.coreOf (64 * (w.c.toNat / 16))) (q, t)).retire q t sq tm (.tepi w) (tm.acting w.ms)) := by
  obtain ⟨k, hexec, hk⟩ := exec_tepi w s
  have hres := (hk _ d b _ hdst hregs hat.good).2 hty htrap hlock
  refine hexec.trans (laneRun_done hr ((epilogue_runs hat fun _ => hrows).trans ?_))
  rw [hres]
  exact onUnit_free hat.free

/-- TEPI.MEM to a MEM window. Freeing the accumulator may note its handle in the team, which retirement forgets. -/
theorem exec_tepiMem_stores (hat : AccAtHand (laneIn s q t sq tm w.ms) w d) (hr : LaneReady s q t sq tm (.tepiMem w) w.ms) (hf : tm.faulted = [])
    (hw : tm.wait = none) (hregs : ∀ p ∈ tm.bad, p.1 ∉ matrixRegs tm.ckEnv (.tepiMem w))
    (htrap : ∀ r ∈ storedElems (laneIn s q t sq tm w.ms) w d (w.c.toNat / 16), r.2.trap = false)
    (hm : MemAtHand (laneIn s q t sq tm w.ms) w d (w.c.toNat / 16)) :
    ∃ y z : State, exec (.tepiMem w) s = .next (z.retire q t sq tm (.tepiMem w) (tm.acting w.ms))
      ∧ Stored (laneIn s q t sq tm w.ms) w d (w.c.toNat / 16)
          ((storedRows (laneIn s q t sq tm w.ms) d (w.c.toNat / 16)).flatMap (rowPlaces d)) y
      ∧ z.mem = y.mem ∧ z.team q t = some (tm.holdFlags (storedFlags (laneIn s q t sq tm w.ms) w d (w.c.toNat / 16)))
      ∧ z.tile q w.d.toNat = if w.fn.getLsbD 6 then none else some d := by
  obtain ⟨k, hexec, hk⟩ := exec_tepiMem w s
  obtain ⟨y, hy, hres⟩ := hk _ d _ hm rfl hf hregs hat.good htrap
  have hsame := sameUnits_of_accessed hy.accessed
  have hsquads := hsame.1
  have hteam : y.team q t = some tm := (hsame.team q t).trans (team_of_ready hr)
  obtain ⟨lost, hlost⟩ := team_released (x := laneIn s q t sq tm w.ms) (w := w)
    (team_modTeam_same (fun k => k.holdFlags (storedFlags (laneIn s q t sq tm w.ms) w d (w.c.toNat / 16))) hteam) hw
  have hend := hexec.trans (laneRun_done hr ((epilogue_runs hat fun h => absurd h Bool.false_ne_true).trans (by rw [hres]; exact onUnit_free hat.free)))
  rw [← retire_keepLost _ _ _ _ _ _ _ tm.lostTiles] at hend
  simp only [laneIn_q, laneIn_t, laneIn_sq, laneIn_tm] at hlost hend
  refine ⟨y, _, hend, hy, ?mem, ?team, ?tile⟩
  case mem => simp
  case team =>
    rw [team_modTeam_same _ ((team_leaveUnit ..).trans hlost)]
    rfl
  case tile =>
    have hs : s.squad q = some sq := hr.2.1
    have hacc : y.tile q w.d.toNat = some d := by
      have htile := tile_of_tile (tile_of_handle hat.acc)
      unfold State.tile State.squad at htile ⊢
      rwa [hsquads]
    have hsquad : (y.squad q).isSome := by
      unfold State.squad at hs ⊢
      rw [hsquads, laneIn_s, hs]
      rfl
    rw [tile_modTeam, tile_leaveUnit]
    refine (tile_released ?_).trans ?_
    · rw [TeamState.squad_modTeam, laneIn_q, if_pos rfl, Option.isSome_map]
      exact hsquad
    · rw [tile_modTeam, laneIn_q, hacc]

end runs

/-- Settles O21: an epilogue goes on when its accumulator is at hand; TEPI writes its elements or blocks, and TEPI.MEM its rows, one element after
another, each leaving the others' bytes as they are. -/
theorem epiloguesStoreTheAccumulatorRows : Obligations.EpiloguesStoreTheAccumulatorRows := by
  intro s q t sq tm w x ty m rb cb core rnd rel
  refine ⟨fun h i hi hr => exec_idle h hi hr, fun d => ?_⟩
  intro rows rs fl _ _ hf hwait hne hfree hacc hlevel hint hgood
  have hat : AccAtHand x w d := ⟨hne, hfree, hacc, hlevel, hint, hgood⟩
  refine ⟨fun b hr hregs hb hbl hbty hcols hrows => ?tile, ?memory⟩
  case tile =>
    have hdst : Destination x w d b rb := ⟨hb, hbl, hbty, hcols, hrows⟩
    refine ⟨fun hty htrap hlock => exec_tepi_elements hat hr hregs hdst hty htrap hlock, ?block⟩
    case block =>
      intro blocks lines hty hall htrap hlock
      exact exec_tepi_blocks hat hr hregs hdst hty hall htrap hlock
  case memory =>
    intro n win off pa hr hregs htrap hkind hwr hspec hwf hreach hapart
    have hm : MemAtHand x w d rb := ⟨hkind, hwr, hspec, hwf, hreach, hapart⟩
    obtain ⟨y, z, hexec, hy, hmem, hteam, htile⟩ := exec_tepiMem_stores hat hr hf hwait hregs htrap hm
    have hplace {i j : Nat} (hi : i ∈ rows) (hj : j < d.cols) : (i, j) ∈ (storedRows x d rb).flatMap (rowPlaces d) :=
      List.mem_flatMap.2 ⟨i, hi, mem_rowPlaces.2 ⟨rfl, hj⟩⟩
    refine ⟨z, hexec, fun i hi j hj => memNat_of_bytes fun k hk => ?bytes, fun a ha => ?frame, hteam, htile⟩
    case bytes =>
      rw [hmem]
      exact hy.bytes (i, j) (hplace hi hj) k hk
    case frame =>
      rw [hmem]
      refine hy.frame a fun e he => ?_
      obtain ⟨i, hi, he⟩ := List.mem_flatMap.1 he
      obtain ⟨rfl, hcol⟩ := mem_rowPlaces.1 he
      exact ha e.1 hi e.2 hcol

end Sys2Proof.Machine.EpilogueStores
end

section
/-! PROOFS. The scalar integer words of a generator context (09_cluster_generator.md R214 to R216). -/

namespace Sys2Proof.Machine.ScalarWords

open LaneAlu (imulhi_eq_div ite_lt_eq_ite_le shlOf_eq_mul shrOf_eq_div sarOf_eq_div fieldN_low)
open LaneNumbers (fieldN_fn_high)

/-! ## Signed numbers -/

/-- A number read in two's complement is its balanced remainder. -/
theorem signed_eq_bmod (x n : Nat) : signed x n = (x : Int).bmod (2 ^ n) := by
  simp only [signed, Int.bmod_def]
  split <;> split <;> omega

theorem signed_mod (x n : Nat) : signed (x % 2 ^ n) n = signed x n := by simp only [signed, Nat.mod_mod]

/-- An exact integer differs from its n-bit signed remainder just when it is out of range. -/
theorem ne_bmod_iff {n : Nat} (hn : 0 < n) (e : Int) : e ≠ e.bmod (2 ^ n) ↔ e < -2 ^ (n - 1) ∨ 2 ^ (n - 1) ≤ e := by
  obtain ⟨k, rfl⟩ : ∃ k, n = k + 1 := ⟨n - 1, by omega⟩
  have hpow : ((2 ^ k : Nat) : Int) = 2 ^ k := by norm_cast
  have := Int.bmod_eq_iff (a := e) (b := 2 ^ (k + 1)) (c := e) (by positivity)
  rw [sub_self] at this
  simp only [dvd_zero, and_true, pow_succ, Nat.add_sub_cancel, ← hpow] at this ⊢
  rw [ne_comm, ne_eq, this]
  push_cast
  omega

/-- The signed overflow of an exact result e whose n-bit code is r. -/
theorem decide_ne_signed {n r : Nat} {e : Int} (hn : 0 < n) (hr : (r : Int).bmod (2 ^ n) = e.bmod (2 ^ n)) :
    decide (e ≠ signed r n) = decide (e < -2 ^ (n - 1) ∨ 2 ^ (n - 1) ≤ e) := by
  rw [signed_eq_bmod, hr]
  exact decide_eq_decide.2 (ne_bmod_iff hn e)

/-- Sign extension to 64 bits, as a number. -/
theorem toNat_signExtend {n : Nat} (v : BitVec n) : (v.signExtend 64).toNat = wrapN (signed v.toNat n) 64 := by
  rw [BitVec.signExtend, BitVec.toNat_ofInt, BitVec.toInt_eq_toNat_bmod, signed_eq_bmod, wrapN]

/-! ## Widths and types (R36, R214) -/

theorem szWidth_bounds (z : Nat) : 8 ≤ szWidth z ∧ szWidth z ≤ 64 := by
  unfold szWidth
  split <;> omega

theorem szWidth_pos (z : Nat) : 0 < szWidth z := by have := (szWidth_bounds z).1; omega

@[simp] theorem szTy_width (z : Nat) (u : Bool) : (szTy z u).width = szWidth z := by
  unfold szTy szWidth
  rcases z with _ | _ | _ | z <;> cases u <;> rfl

@[simp] theorem szTy_isSigned (z : Nat) (u : Bool) : (szTy z u).isSigned = !u := by
  unfold szTy
  rcases z with _ | _ | _ | z <;> cases u <;> rfl

/-- The integer that a code of the word's type holds. -/
theorem szTy_toInt (z : Nat) (u : Bool) (v : Nat) : (szTy z u).toInt v = if u then ((v % 2 ^ szWidth z : Nat) : Int) else signed v (szWidth z) := by
  cases u <;> simp [NumTy.toInt]

/-- D after a result of the word's width (R214). -/
theorem extRes_mod (n r : Nat) (u : Bool) : extRes n u r = if u then BitVec.ofNat 64 (r % 2 ^ n) else BitVec.ofInt 64 (signed (r % 2 ^ n) n) := by
  rw [signed_mod]
  rfl

theorem extRes_of_lt {n r : Nat} {u : Bool} (hr : r < 2 ^ n) : extRes n u r = if u then BitVec.ofNat 64 r else BitVec.ofInt 64 (signed r n) := by
  rw [extRes_mod, Nat.mod_eq_of_lt hr]

/-! ## Results below 2^n -/

theorem toNat_emod_lt (v : Int) (n : Nat) : (v % 2 ^ n).toNat < 2 ^ n := by
  have := Int.emod_lt_of_pos v (show (0 : Int) < 2 ^ n by positivity)
  have := Int.emod_nonneg v (show (2 ^ n : Int) ≠ 0 by positivity)
  zify
  omega

theorem length_filter_upTo_le (p : Nat → Bool) (n : Nat) : ((upTo n).filter p).length ≤ n := by
  simpa [upTo] using List.length_filter_le p (upTo n)

theorem bfxOf_lt (sg : Bool) (n a b : Nat) : bfxOf sg n a b < 2 ^ n := by
  have hwrap (v : Int) : wrapN v n < 2 ^ n := by simpa [wrapN] using toNat_emod_lt v n
  have hfield : fieldN (a % 2 ^ n) (fieldN b 0 6) (min (fieldN b 8 7) n) < 2 ^ n :=
    (Nat.mod_lt _ (by positivity)).trans_le (Nat.pow_le_pow_right (by decide) (min_le_right ..))
  unfold bfxOf
  dsimp only
  split
  · positivity
  · split
    · exact hwrap _
    · exact hfield

theorem clzN_le (n x : Nat) : clzN n x ≤ n := by
  unfold clzN
  dsimp only
  split <;> omega

/-- Counting the one bits of a number, bit by bit. -/
theorem popN_eq_length (n x : Nat) : popN n x = ((upTo n).filter fun i => x.testBit i).length := by
  induction n generalizing x with
  | zero => rfl
  | succ n ih =>
    have hshift : (fun i => x.testBit i) ∘ Nat.succ = fun i => (x / 2).testBit i := funext fun i => Nat.testBit_succ x i
    rw [popN, ih, upTo, upTo, List.range_succ_eq_map, List.filter_cons, List.filter_map, hshift, Nat.testBit_zero]
    rcases Nat.mod_two_eq_zero_or_one x with h | h
    · simp [h]
    · simp [h, add_comm]

/-- The bits from n on of a number below 2^n count nothing. -/
theorem popN_of_lt {n m x : Nat} (hx : x < 2 ^ n) (hm : n ≤ m) : popN m x = popN n x := by
  induction m generalizing n x with
  | zero => rw [Nat.le_zero.1 hm]
  | succ m ih =>
    cases n with
    | zero =>
      obtain rfl : x = 0 := by omega
      simpa [popN] using ih (n := 0) (x := 0) (by decide) (Nat.zero_le m)
    | succ n => rw [popN, popN, ih (n := n) (by omega) (by omega)]

/-! ## Words of format GR (R214, R215) -/

section register

variable {s : State} {q c : Nat} {sq : Squad} {cx : Ctx} {w : GR} {i : Instr} {body : GenIn → GenRes}

/-- The operand a of a settled context's word. -/
def opA (cx : Ctx) (w : GR) : Nat := (cx.S w.a.toNat).toNat % 2 ^ szWidth w.sz.toNat

/-- The operand b of a settled context's word, with its immediate as a sign-extended word. -/
def opB (cx : Ctx) (w : GR) : Nat :=
  (if w.fn.getLsbD 0 then w.imm.signExtend 64 else cx.S w.b.toNat).toNat % 2 ^ szWidth w.sz.toNat

theorem genIn_b : (genIn s q c sq cx).b w = opB cx w := by
  unfold GenIn.b opB
  rw [← toNat_signExtend w.imm]
  split <;> rfl

theorem opA_lt : opA cx w < 2 ^ szWidth w.sz.toNat := Nat.mod_lt _ (by positivity)

theorem opB_lt : opB cx w < 2 ^ szWidth w.sz.toNat := Nat.mod_lt _ (by positivity)

/-- The context after an integer word whose result has the code r: D extended under U, and CC under .CC. -/
def wrote (cx : Ctx) (w : GR) (r : Nat) (cc : CC) : Ctx :=
  let d := cx.setS w.d.toNat (if unsignedGR w then BitVec.ofNat 64 r else BitVec.ofInt 64 (signed r (szWidth w.sz.toNat)))
  if w.fn.getLsbD 2 then { d with cc := cc } else d

/-- A ready word that only sets condition codes. -/
theorem exec_flags {cnd : BitVec 4} {k k' : CC} (hi : exec i s = genRun i cnd body s)
    (hb : body (genIn s q c sq cx) = (genIn s q c sq cx).finish { cx with cc := k' }) (hk : k' = k) (h : GenReady s q c sq cx i cnd) :
    exec i s = .next (s.genEnd q c sq cx i { cx with cc := k }) := hi.trans (genRun_finish h (hk ▸ hb))

/-- A ready word that only writes a scalar register. -/
theorem exec_setS {cnd : BitVec 4} {d : Nat} {v v' : DWord} (hi : exec i s = genRun i cnd body s)
    (hb : body (genIn s q c sq cx) = (genIn s q c sq cx).finish (cx.setS d v')) (hv : v' = v) (h : GenReady s q c sq cx i cnd) :
    exec i s = .next (s.genEnd q c sq cx i (cx.setS d v)) := hi.trans (genRun_finish h (hv ▸ hb))

/-- A ready integer word writes the code r of its result and its condition codes. -/
theorem exec_int {r r' : Nat} {cc cc' : CC} (hi : exec i s = genRun i w.cnd body s)
    (hb : body (genIn s q c sq cx) = (genIn s q c sq cx).int w r' cc') (hr : r' % 2 ^ szWidth w.sz.toNat = r) (hcc : cc' = cc)
    (h : GenReady s q c sq cx i w.cnd) : exec i s = .next (s.genEnd q c sq cx i (wrote cx w r cc)) := by
  refine hi.trans (genRun_finish h (hb.trans ?_))
  rw [GenIn.int, extRes_mod, hr, hcc]
  rfl

/-- As `exec_int`, for a word that clears C and V and whose result r, below 2^n, its meaning may spell in another way. -/
theorem exec_intZ {r r' : Nat} (hi : exec i s = genRun i w.cnd body s)
    (hb : body (genIn s q c sq cx) = (genIn s q c sq cx).intZ w r') (hr : r' = r) (hlt : r < 2 ^ szWidth w.sz.toNat)
    (h : GenReady s q c sq cx i w.cnd) :
    exec i s = .next (s.genEnd q c sq cx i (wrote cx w r (ccOf (szWidth w.sz.toNat) r false false))) :=
  exec_int hi hb (by rw [hr, Nat.mod_eq_of_lt hlt]) (by rw [hr]) h

/-- As `exec_intZ`, for a word of a and b. -/
theorem exec_int2Z {f : NumTy → Nat → Nat → Nat} {r : Nat} (hi : exec i s = genRun i w.cnd (fun x => x.int2Z w f) s)
    (hr : f (grTy w) (opA cx w) (opB cx w) = r) (hlt : r < 2 ^ szWidth w.sz.toNat) (h : GenReady s q c sq cx i w.cnd) :
    exec i s = .next (s.genEnd q c sq cx i (wrote cx w r (ccOf (szWidth w.sz.toNat) r false false))) :=
  exec_intZ hi rfl (by rw [genIn_b]; exact hr) hlt h

end register

/-- The integer that an operand holds, unsigned under U. -/
theorem grTy_toInt {w : GR} {v : Nat} (hv : v < 2 ^ szWidth w.sz.toNat) :
    (grTy w).toInt v = if unsignedGR w then (v : Int) else signed v (szWidth w.sz.toNat) := by
  rw [grTy, szTy_toInt, Nat.mod_eq_of_lt hv]

theorem ite_lt {p : Prop} [Decidable p] {a b m : Nat} (ha : a < m) (hb : b < m) : (if p then a else b) < m := by
  split <;> assumption

/-- CC of a sum: its carry out and its signed overflow (R214). -/
theorem ccAdd_eq {n : Nat} (hn : 0 < n) (a b : Nat) :
    ccAdd n a b = ccOf n ((a + b) % 2 ^ n) (decide (2 ^ n ≤ a + b))
      (decide (signed a n + signed b n < -2 ^ (n - 1) ∨ 2 ^ (n - 1) ≤ signed a n + signed b n)) := by
  rw [ccAdd, decide_ne_signed hn]
  rw [signed_eq_bmod, signed_eq_bmod, Int.natCast_mod, Int.emod_bmod, Nat.cast_add]
  simp

/-- CC of a difference a − b = a + NOT b + 1 (R214). -/
theorem ccSub_eq {n a b : Nat} (hn : 0 < n) (hb : b < 2 ^ n) :
    ccSub n a b = ccOf n ((a + 2 ^ n - b) % 2 ^ n) (decide (2 ^ n ≤ a + 2 ^ n - b))
      (decide (signed a n - signed b n < -2 ^ (n - 1) ∨ 2 ^ (n - 1) ≤ signed a n - signed b n)) := by
  have hnot : a + (2 ^ n - 1 - b) + 1 = a + 2 ^ n - b := by omega
  rw [ccSub, hnot, decide_ne_signed hn]
  rw [signed_eq_bmod, signed_eq_bmod, Int.natCast_mod, Int.emod_bmod, Nat.cast_sub (by omega), Nat.cast_add, add_sub_right_comm,
    Int.add_bmod_right]
  simp

/-- Settles O25: each word's result and condition codes by `exec_int` and its kin, spelled by quotients, remainders and ranges where the model shifts
and compares. -/
theorem scalarIntegerWordsWriteResultAndFlags : Obligations.ScalarIntegerWordsWriteResultAndFlags := by
  intro s q c sq cx fl out ovfl
  refine ⟨fun w => ?registers, fun w => ?immediates⟩
  case registers =>
    intro n u a b sg ord sub gives plain
    have hn : 0 < szWidth w.sz.toNat := szWidth_pos _
    have ha := opA_lt (cx := cx) (w := w)
    have hb := opB_lt (cx := cx) (w := w)
    have hsub : opA cx w + (2 ^ szWidth w.sz.toNat - opB cx w) = opA cx w + 2 ^ szWidth w.sz.toNat - opB cx w := (Nat.add_sub_assoc hb.le _).symm
    have hord {v : Nat} (hv : v < 2 ^ szWidth w.sz.toNat) : (grTy w).toInt v = ord v := grTy_toInt hv
    have hsigned : (grTy w).isSigned = !u := szTy_isSigned ..
    have hwidth : (grTy w).width = n := szTy_width ..
    have hmod (v : Nat) : v % 2 ^ n < 2 ^ n := Nat.mod_lt _ (by positivity)
    refine ⟨?sadd, ?ssub, ?smul, ?smulhi, ?smin, ?smax, ?sand, ?sor, ?sxor, ?sshl, ?sshr, ?ssar, ?spopc, ?sclz, ?sbfx, ?sbfi, ?smov, ?ssel, ?scmp⟩
    case sadd => exact exec_int (Eq.refl (execSadd w s)) rfl (by rw [genIn_b]; rfl) (by rw [genIn_b, ccAdd_eq hn]; rfl)
    case ssub =>
      exact exec_int (Eq.refl (execSsub w s)) rfl (by rw [genIn_b]; exact congrArg (· % _) hsub) (by rw [genIn_b, ccSub_eq hn hb]; rfl)
    case smul => exact exec_int2Z (Eq.refl (execSmul w s)) (by rw [hwidth]; rfl) (hmod _)
    case smulhi =>
      refine exec_int2Z (Eq.refl (execSmulhi w s)) ?_ (toNat_emod_lt ..)
      rw [imulhi_eq_div, hwidth, hord ha, hord hb]
      norm_cast
    case smin =>
      refine exec_int2Z (Eq.refl (execSmin w s)) ?_ (ite_lt ha hb)
      rw [ite_lt_eq_ite_le, hord ha, hord hb]
      rfl
    case smax =>
      refine exec_int2Z (Eq.refl (execSmax w s)) ?_ (ite_lt ha hb)
      rw [ite_lt_eq_ite_le, hord ha, hord hb]
      rfl
    case sand => exact exec_int2Z (Eq.refl (execSand w s)) rfl (Nat.and_lt_two_pow _ hb)
    case sor => exact exec_int2Z (Eq.refl (execSor w s)) rfl (Nat.or_lt_two_pow ha hb)
    case sxor => exact exec_int2Z (Eq.refl (execSxor w s)) rfl (Nat.xor_lt_two_pow ha hb)
    case sshl => exact exec_int2Z (Eq.refl (execSshl w s)) (by rw [hwidth, shlOf_eq_mul]; rfl) (hmod _)
    case sshr => exact exec_int2Z (Eq.refl (execSshr w s)) (by rw [hwidth, shrOf_eq_div]; rfl) ((Nat.div_le_self ..).trans_lt ha)
    case ssar =>
      refine exec_int2Z (Eq.refl (execSsar w s)) ?_ (toNat_emod_lt ..)
      rw [hwidth, sarOf_eq_div]
      norm_cast
    case spopc =>
      exact exec_intZ (Eq.refl (execSpopc w s)) rfl ((popN_of_lt ha (szWidth_bounds _).2).trans (popN_eq_length n a))
        ((length_filter_upTo_le ..).trans_lt Nat.lt_two_pow_self)
    case sclz => exact exec_intZ (Eq.refl (execSclz w s)) rfl rfl ((clzN_le n a).trans_lt Nat.lt_two_pow_self)
    case sbfx => exact exec_int2Z (Eq.refl (execSbfx w s)) (by rw [hwidth, hsigned]; rfl) (bfxOf_lt ..)
    case sbfi => exact exec_intZ (Eq.refl (execSbfi w s)) rfl (by rw [genIn_b]; rfl) (hmod _)
    case smov => exact exec_intZ (Eq.refl (execSmov w s)) rfl (by rw [genIn_b]; rfl) (ite_lt hb ha)
    case ssel =>
      refine exec_setS (Eq.refl (execSsel w s)) rfl ?_
      rw [fieldN_fn_high, genIn_b]
      exact extRes_of_lt (ite_lt ha hb)
    case scmp =>
      intro h hz
      refine exec_flags (Eq.refl (execScmp w s)) (if_neg (Nat.not_le.2 hz)) ?_ h
      rw [genIn_b, ccSub_eq hn hb]
      rfl
  case immediates =>
    intro n a b gives put
    have hb : b < 2 ^ n := Nat.mod_lt _ (by positivity)
    refine ⟨?sldi, ?sldih, ?saddi, ?sandi, ?sshli, ?scmpi⟩
    case sldi => exact exec_setS (Eq.refl (execSldi w s)) rfl rfl
    case sldih => exact exec_setS (Eq.refl (execSldih w s)) rfl rfl
    case saddi => exact exec_setS (Eq.refl (execSaddi w s)) rfl (extRes_mod ..)
    case sandi => exact exec_setS (Eq.refl (execSandi w s)) rfl rfl
    case sshli => exact exec_setS (Eq.refl (execSshli w s)) rfl (by rw [shlOf_eq_mul, fieldN_low]; rfl)
    case scmpi => exact exec_flags (Eq.refl (execScmpi w s)) rfl (ccSub_eq (szWidth_pos _) hb)

end Sys2Proof.Machine.ScalarWords
end

section
/-! PROOFS. The special registers of SREAD and SWRITE (09_cluster_generator.md R225, R226). -/

namespace Sys2Proof.Machine.SpecialRegisters

open LaneAlu (fieldN_low)
open ScalarWords (exec_setS)

/-- Clearing the three low bits of a word. -/
theorem and_not_seven (v : DWord) : v &&& 0xFFFFFFFFFFFFFFF8#64 = v - BitVec.ofNat 64 (v.toNat % 8) := by
  have hlow : v &&& 7#64 = BitVec.ofNat 64 (v.toNat % 8) := by
    apply BitVec.eq_of_toNat_eq
    rw [BitVec.toNat_and, show (7#64).toNat = 2 ^ 3 - 1 from rfl, Nat.and_two_pow_sub_one_eq_mod, BitVec.toNat_ofNat]
    omega
  have hapart : (v &&& 0xFFFFFFFFFFFFFFF8#64) &&& (v &&& 7#64) = 0#64 := by
    rw [BitVec.and_assoc, ← BitVec.and_assoc _ v, BitVec.and_comm _ v, BitVec.and_assoc v, show 0xFFFFFFFFFFFFFFF8#64 &&& 7#64 = 0#64 from rfl]
    simp
  have hsum : (v &&& 0xFFFFFFFFFFFFFFF8#64) + (v &&& 7#64) = v := by
    rw [BitVec.add_eq_or_of_and_eq_zero _ _ hapart, ← BitVec.and_or_distrib_left, show 0xFFFFFFFFFFFFFFF8#64 ||| 7#64 = BitVec.allOnes 64 from rfl,
      BitVec.and_allOnes]
  rw [← hlow]
  exact BitVec.eq_sub_iff_add_eq.2 hsum

section words

variable {s : State} {q c : Nat} {sq : Squad} {cx : Ctx} {w : GR}

/-- SREAD of a register that is no team's. -/
theorem exec_sread_own {n : Nat} (h : GenReady s q c sq cx (.sread w) w.cnd) (hn : w.imm.toNat = n) (hk : n ≠ 0x10 ∧ n ≠ 0x11) :
    exec (.sread w) s = .next (s.genEnd q c sq cx (.sread w) (cx.setS w.d.toNat (BitVec.ofNat 64 ((genIn s q c sq cx).special n)))) := by
  subst hn
  refine exec_setS (Eq.refl (execSread w s)) ?_ rfl h
  dsimp only
  rw [if_neg (not_or.2 hk)]
  rfl

/-- SREAD of a register of a resident owned team. -/
theorem exec_sread_team {tq t : Nat} {tm : Team} (h : GenReady s q c sq cx (.sread w) w.cnd) (hn : w.imm.toNat = 0x10 ∨ w.imm.toNat = 0x11)
    (ht : s.ownedTeam q c (w.fn.toNat % 64) = .team tq t) (htm : s.team tq t = some tm) :
    exec (.sread w) s = .next (s.genEnd q c sq cx (.sread w)
      (cx.setS w.d.toNat (BitVec.ofNat 64 (if w.imm.toNat = 0x10 then tm.fflags.toNat else tm.sstep.toNat)))) := by
  refine exec_setS (Eq.refl (execSread w s)) ?_ rfl h
  dsimp only
  rw [if_pos hn, fieldN_low]
  simp [ht, htm]

/-- SWRITE of a register of a resident owned team. -/
theorem exec_swrite_team {tq t : Nat} (h : GenReady s q c sq cx (.swrite w) w.cnd) (hn : w.imm.toNat = 0x10 ∨ w.imm.toNat = 0x11)
    (ht : s.ownedTeam q c (w.fn.toNat % 64) = .team tq t) :
    exec (.swrite w) s = .next ((s.modTeam tq t fun tm =>
      if w.imm.toNat = 0x10 then { tm with fflags := (cx.S w.a.toNat).setWidth 5 }
      else { tm with sstep := (cx.S w.a.toNat).setWidth 32 &&& 0x8000FFFF#32 }).genRetire q c sq cx (.swrite w) Ctx.advance) := by
  refine (Eq.refl (execSwrite w s)).trans (genRun_done h ?_)
  dsimp only
  rw [if_pos hn, fieldN_low]
  simp [ht, BitVec.setWidth_eq_extractLsb']

/-- SREAD and SWRITE of a register of a team that the context does not own, or that is not resident. -/
theorem exec_of_team_lacking {i : Instr} (hi : i ∈ [Instr.sread w, .swrite w]) (h : GenReady s q c sq cx i w.cnd) (hn : w.imm.toNat = 0x10 ∨ w.imm.toNat = 0x11) :
    (s.ownedTeam q c (w.fn.toNat % 64) = .no → exec i s = .next (s.ctxTrap q c .reservedField []))
    ∧ (s.ownedTeam q c (w.fn.toNat % 64) = .away → exec i s = .next (s.modCtx q c fun y => { y with wait := some (.resident (w.fn.toNat % 64)) })) := by
  have hfield : fieldN w.fn.toNat 0 6 = w.fn.toNat % 64 := fieldN_low ..
  simp only [List.mem_cons, List.not_mem_nil, or_false] at hi
  rcases hi with rfl | rfl
  · constructor <;> intro ht
    · exact (Eq.refl (execSread w s)).trans (genRun_trap h (by simp [hn, hfield, ht]))
    · exact (Eq.refl (execSread w s)).trans (genRun_wait h (by simp [hn, hfield, ht]))
  · constructor <;> intro ht
    · exact (Eq.refl (execSwrite w s)).trans (genRun_trap h (by simp [hn, hfield, ht]))
    · exact (Eq.refl (execSwrite w s)).trans (genRun_wait h (by simp [hn, hfield, ht]))

/-- SWRITE of TRAPVEC. -/
theorem exec_swrite_trapvec (h : GenReady s q c sq cx (.swrite w) w.cnd) (hn : w.imm.toNat = 0x26) :
    exec (.swrite w) s = .next (s.genEnd q c sq cx (.swrite w)
      { cx with trapvec := cx.S w.a.toNat - BitVec.ofNat 64 ((cx.S w.a.toNat).toNat % 8) }) := by
  rw [← and_not_seven]
  refine (Eq.refl (execSwrite w s)).trans (genRun_finish h ?_)
  dsimp only
  rw [hn]
  rfl

/-- SWRITE of OPOINT. -/
theorem exec_swrite_opoint (h : GenReady s q c sq cx (.swrite w) w.cnd) (hn : w.imm.toNat = 0x31) :
    exec (.swrite w) s = .next ((s.modSquad q fun y => { y with opoint := (cx.S w.a.toNat).toNat % 8, hintAt := some (y.hintAt.getD s.now) }).genRetire q c sq cx
      (.swrite w) Ctx.advance) := by
  have hhint : (cx.S w.a.toNat).toNat % 8 = field64 (cx.S w.a.toNat) 0 3 := by rw [field64, fieldN_low]; rfl
  rw [hhint]
  refine (Eq.refl (execSwrite w s)).trans (genRun_done h ?_)
  dsimp only
  rw [hn]
  rfl

end words

/-- Settles O28: a register that is no team's by `exec_sread_own`, one of an owned team by where that team is, and the writes one by one. -/
theorem specialRegistersReadAndWrite : Obligations.SpecialRegistersReadAndWrite := by
  intro s q c sq cx w n a team
  refine ⟨fun h => ?sread, fun h => ?swrite⟩
  case sread =>
    intro gives
    have hown {k : Nat} (hk : k ≠ 0x10 ∧ k ≠ 0x11 := by decide) (hn : n = k) : gives ((genIn s q c sq cx).special k) := exec_sread_own h hn hk
    have hteam {tq t : Nat} {tm : Team} (ht : team = .team tq t) (htm : s.team tq t = some tm) (hn : n = 0x10 ∨ n = 0x11) :
        gives (if n = 0x10 then tm.fflags.toNat else tm.sstep.toNat) := exec_sread_team h hn ht htm
    refine ⟨hown, hown, hown, hown, hown, hown, hown, hown, ?task, hown, hown, hown, hown, hown, hown, hown, hown, ?trapinfo,
      fun h10 h11 => ⟨_, hown ⟨h10, h11⟩ rfl⟩, ?team, exec_of_team_lacking (by simp) h⟩
    case task =>
      intro t ht
      have htask : (genIn s q c sq cx).s.taskOf sq = t := by simp [State.taskOf, ht]
      subst htask
      exact ⟨hown, hown, hown⟩
    case trapinfo =>
      intro k hk
      interval_cases k
      all_goals exact hown
    case team =>
      intro tq t tm ht htm
      refine ⟨fun hn => ?_, fun hn => ?_⟩
      · simpa [hn] using hteam ht htm (.inl hn)
      · simpa [hn] using hteam ht htm (.inr hn)
  case swrite =>
    intro on
    refine ⟨exec_swrite_trapvec h, exec_swrite_opoint h, fun tq t ht => ⟨fun hn => ?fflags, fun hn => ?sstep⟩,
      exec_of_team_lacking (by simp) h⟩
    case fflags =>
      have := exec_swrite_team h (.inl hn) ht
      simp only [show w.imm.toNat = 0x10 from hn, if_true] at this
      exact this
    case sstep =>
      have := exec_swrite_team h (.inr hn) ht
      simp only [show w.imm.toNat = 0x11 from hn] at this
      exact this

end Sys2Proof.Machine.SpecialRegisters
end

section
/-! PROOFS. The scalar memory words of a generator context (09_cluster_generator.md R222 to R224, R230). -/

namespace Sys2Proof.Machine.ScalarMemory

open MemoryAccess
open LaneNumbers (fieldN_eq_div_mod)
open TileWords (modSquad_frame)

variable {s : State} {q c : Nat} {sq : Squad} {cx : Ctx} {w : GM} {i : Instr} {body : GenIn → GenRes} {va n : Nat} {need : Need} {e : TlbEnt}

/-! ## Addresses (R222) -/

/-- The address of a settled context's word. -/
theorem addr_eq (dw : Nat) : (genIn s q c sq cx).addr w dw = (((cx.S w.a.toNat).toNat + signed w.disp.toNat dw : Int) % 2 ^ 64).toNat := by
  simp [GenIn.addr, wrapN]

/-- The information words of an address that fails its checks. -/
def checkInfo (va lsize : Nat) (wr atomic : Bool) : List DWord := [BitVec.ofNat 64 va, BitVec.ofNat 64 (genMap lsize wr atomic), 0, 0]

/-- A word that checks its address traps on one out of range and on one that is not aligned. -/
theorem exec_fails {lsize : Nat} {wr atomic : Bool} {f : GenRes} (hi : exec i s = genRun i 0 body s)
    (hb : body (genIn s q c sq cx) = (genIn s q c sq cx).addrCheck va n lsize wr atomic f) (hg : cx.gap i = 0) (h : GenReady s q c sq cx i 0) :
    (2 ^ 56 ≤ va → ∃ info, info.getD 0 0 = BitVec.ofNat 64 va ∧ exec i s = .next (s.ctxTrap q c .protection info))
    ∧ (va < 2 ^ 56 → va % n ≠ 0 → ∃ info, info.getD 0 0 = BitVec.ofNat 64 va ∧ exec i s = .next (s.ctxTrap q c .misaligned info)) := by
  have hend {cause : Cause} {info : List DWord} (hres : body (genIn s q c sq cx) = .trap cause info s) :
      exec i s = .next (s.ctxTrap q c cause info) := by rw [hi, genRun_trap h hres, hg]
  refine ⟨fun hva => ⟨checkInfo va lsize wr atomic, rfl, hend ?_⟩, fun hva hal => ⟨checkInfo va lsize wr atomic, rfl, hend ?_⟩⟩
  · rw [hb, GenIn.addrCheck, if_pos hva]
    rfl
  · rw [hb, GenIn.addrCheck, if_neg (Nat.not_le.2 hva), if_pos hal]
    rfl

/-- A translation that the cluster TLB serves changes nothing (R311, R312). -/
theorem translate_tlb (h : GenTlb s sq va n need e) : s.translate (s.genAccess sq) va need = (.ok (xlOf va e.size e.leaf), s) := by
  obtain ⟨-, -, hhit, hallowed, hdirty, hbacked⟩ := h
  have hserves : (need.allowed e.leaf && (!need.wr || e.leaf.getLsbD 11)) = true := by
    cases hwr : need.wr <;> simp_all
  change tlbFind (s.cluster (s.genAccess sq).cl).tlb (s.genAccess sq).owner va = some e at hhit
  simp only [State.translate, show (s.genAccess sq).core = none from rfl, Option.bind_none, Option.orElse_none, hhit, hserves, if_true,
    State.translate.onlyBacked, hbacked]

theorem translateFor_tlb (h : GenTlb s sq va n need e) : s.translateFor (s.genAccess sq) va n need = (.ok (xlOf va e.size e.leaf), s) := by
  rw [State.translateFor, translate_tlb h]

/-- An aligned address in range passes the checks. -/
theorem addrCheck_of_tlb (h : GenTlb s sq va n need e) {lsize : Nat} {wr atomic : Bool} {f : GenRes} :
    (genIn s q c sq cx).addrCheck va n lsize wr atomic f = f := by
  rw [GenIn.addrCheck, if_neg (Nat.not_le.2 h.low), if_neg (not_not.2 h.aligned)]

/-! ## Accesses (R222, R223) -/

/-- The physical address of an access that an entry serves. -/
abbrev paOf (va : Nat) (e : TlbEnt) : Nat := (xlOf va e.size e.leaf).pa

/-- Ordinary memory of a context's own that an entry of the cluster TLB reaches, in a task that is not uncommitted. -/
structure There (s : State) (sq : Squad) (va n : Nat) (need : Need) (e : TlbEnt) : Prop where
  tlb : GenTlb s sq va n need e
  reaches : Reaches s sq.cluster (s.ownerOf sq) va (paOf va e) n need.wr
  committed : s.speculative sq = false
  canonical : Memory.wf s.mem = true

theorem There.ordinary (h : There s sq va n need e) : Ordinary s (s.ownerOf sq) va (paOf va e) n need.wr := ((reaches_iff ..).1 h.reaches).1

/-- The bytes that a read gives, after reads of other lines, hold the number that memory holds. -/
theorem There.ofBytes (h : There s sq va n need e) {z : State} (hz : Fetched s sq.cluster (s.ownerOf sq) z) :
    ofBytes (z.overlaid (s.genAccess sq) (paOf va e) (z.bytesAt (s.genAccess sq).owner false (paOf va e) n)) = memNat s (paOf va e) n := by
  have hspec : (s.genAccess sq).spec = false := h.committed
  rw [State.overlaid, hspec, if_neg Bool.false_ne_true, hz.bytesAt]
  exact h.ordinary.ofBytes false

/-- A load gives what memory holds (R222). -/
theorem There.vread (h : There s sq va n { rd := true } e) (wide : Bool) :
    ∃ bs y, s.vread (s.genAccess sq) va n wide = (.ok bs, y) ∧ Machine.ofBytes bs = memNat s (paOf va e) n ∧ y = { s with clusters := y.clusters } := by
  obtain ⟨y, hread, hy⟩ := pread_reaches (a := s.genAccess sq) h.reaches (pteZor e.leaf) wide
  refine ⟨_, y, ?_, h.ofBytes (.refl ..), hy.frame⟩
  rw [State.vread, translateFor_tlb h.tlb]
  exact hread

/-- A cluster that forgets a line keeps no other copies than it had. -/
theorem fetched_l1Forget (s : State) (cl owner slot line : Nat) : Fetched s cl owner (s.l1Forget cl slot line) := by
  refine fetched_modCluster (fun _ => rfl) fun l hl => ⟨fun b hb => ?_, fun m hm hk => hl.2 m (List.mem_of_mem_filter hm) hk⟩
  by_cases hkey : l1Key owner l = l1Key slot line
  · rw [hkey, aget?_adel_self] at hb
    cases hb
  · rw [aget?_adel_ne _ hkey] at hb
    exact hl.1 b hb

/-- A read of MWAIT gives what memory holds (R224). -/
theorem There.freshRead (h : There s sq va n { rd := true } e) (wide : Bool) :
    ∃ bs y, s.freshRead (s.genAccess sq) va n wide = (.ok bs, y) ∧ Machine.ofBytes bs = memNat s (paOf va e) n ∧ y = { s with clusters := y.clusters } := by
  obtain ⟨z, hz, hfetched⟩ : ∃ z, (if wide || decide (cfgBase ≤ paOf va e) then s else s.l1Forget sq.cluster (s.ownerOf sq) (paOf va e / 128)) = z
      ∧ Fetched s sq.cluster (s.ownerOf sq) z := by
    refine ⟨_, rfl, ?_⟩
    split
    · exact .refl _ _ _
    · exact fetched_l1Forget ..
  obtain ⟨y, hread, hy⟩ := pread_reaches (a := s.genAccess sq) (hfetched.reaches h.reaches) (pteZor e.leaf) wide
  refine ⟨_, y, ?_, h.ofBytes hfetched, (hfetched.trans hy).frame⟩
  rw [State.freshRead, translate_tlb h.tlb, ← hread, ← hz]
  rfl

/-- A store writes its bytes and no others (R222). -/
theorem There.vwrite (h : There s sq va n { wr := true } e) (v : Nat) :
    ∃ y, s.vwrite (s.genAccess sq) va (toBytes n v) = (.ok (), y) ∧ y = { s with mem := y.mem, tags := y.tags, clusters := y.clusters }
      ∧ memNat y (paOf va e) n = v % 2 ^ (8 * n) ∧ ∀ a, a < paOf va e ∨ paOf va e + n ≤ a → memGet y.mem a = memGet s.mem a := by
  have hbuf := buffers_of_not_spec (s := s) (a := s.genAccess sq) h.committed (paOf va e)
  have hlen := length_toBytes n v
  obtain ⟨hacc, hmem⟩ := h.ordinary.store (a := s.genAccess sq) hlen hbuf (pteZor e.leaf)
  have hget (c : Nat) := memGet_memSets (toBytes n v) h.canonical (paOf va e) c
  rw [hlen] at hget
  refine ⟨_, ?_, hacc.frame, memNat_of_bytes fun i hi => ?_, fun a ha => ?_⟩
  · rw [State.vwrite, hlen, translateFor_tlb h.tlb]
    exact h.ordinary.pwrite hlen (overAllowance_of_not_buffered hbuf n) _
  · rw [hmem, hget, if_pos (by omega), Nat.add_sub_cancel_left]
  · rw [hmem, hget, if_neg (by omega)]

/-- An indivisible access gives the number that memory held and leaves the new one there, where there is one (R223). -/
theorem There.vatomic (h : There s sq va n { rd := true, wr := true } e) (wide : Bool) (f : Nat → Option Nat) :
    ∃ bs y, s.vatomic (s.genAccess sq) va n wide (fun bs => (f (Machine.ofBytes bs)).map (toBytes n)) = (.ok bs, y)
      ∧ Machine.ofBytes bs = memNat s (paOf va e) n ∧ y = { s with mem := y.mem, tags := y.tags, clusters := y.clusters }
      ∧ memNat y (paOf va e) n = (f (memNat s (paOf va e) n)).getD (memNat s (paOf va e) n) % 2 ^ (8 * n)
      ∧ ∀ a, a < paOf va e ∨ paOf va e + n ≤ a → memGet y.mem a = memGet s.mem a := by
  obtain ⟨bs, y, hrun, hbs, hacc, hnew, hothers⟩ :=
    Ordinary.patomic (a := s.genAccess sq) h.ordinary h.canonical h.committed (pteZor e.leaf) wide f
  refine ⟨bs, y, ?_, hbs, hacc.frame, hnew, fun a ha => hothers a (by omega)⟩
  rw [State.vatomic, translateFor_tlb h.tlb]
  exact hrun

/-- SATOM's new value fits its width (R223). -/
theorem satomNew_lt (op : Nat) {m old b : Nat} (ho : old < 2 ^ m) (hb : b < 2 ^ m) : satomNew op m old b < 2 ^ m := by
  unfold satomNew
  split
  · exact Nat.mod_lt _ (by positivity)
  · split <;> assumption
  · split <;> assumption
  · exact Nat.and_lt_two_pow _ hb
  · exact Nat.or_lt_two_pow ho hb
  · exact Nat.xor_lt_two_pow ho hb
  · exact hb
  · split <;> omega
  · omega
  · omega

/-- The value that a comparison leaves: the new one where it succeeds (R223). -/
theorem getD_ite_mod {p : Prop} [Decidable p] {v old m : Nat} (ho : old < m) :
    (if p then some (v % m) else none).getD old % m = if p then v % m else old := by
  split
  · simp
  · simp [Nat.mod_eq_of_lt ho]

/-! ## What the scalar memory words do -/

/-- A word goes on with what an access gives. -/
theorem withMem_ok {α : Type} {r : MR α} {v : α} {y : State} (hr : r = (.ok v, y)) (x : GenIn) (lsize : Nat) (wr atomic : Bool)
    (f : α → State → GenRes) : x.withMem r va lsize wr atomic f = f v y := by
  rw [hr]
  rfl

/-- What an access to ordinary memory changes lies within what any access may change. -/
theorem frame_of_accessed {y : State} (h : y = { s with mem := y.mem, tags := y.tags, clusters := y.clusters }) :
    y = { s with mem := y.mem, tags := y.tags, poison := y.poison, badLines := y.badLines, zorWritten := y.zorWritten, clusters := y.clusters } := by
  obtain ⟨m, t, cl, rfl⟩ : ∃ m t cl, y = { s with mem := m, tags := t, clusters := cl } := ⟨_, _, _, h⟩
  rfl

/-- The words that end with a value for D. -/
theorem exec_gives {y : State} {bs : List Byte} {v : Nat} (hi : exec i s = genRun i 0 body s) (h : GenReady s q c sq cx i 0)
    (hb : body (genIn s q c sq cx) = .done (y.modCtx q c fun y => y.setS w.d.toNat (BitVec.ofNat 64 (ofBytes bs)))) (hv : ofBytes bs = v) :
    exec i s = .next ((y.modCtx q c fun y => y.setS w.d.toNat (BitVec.ofNat 64 v)).genRetire q c sq cx i Ctx.advance) := by
  rw [← hv, hi]
  exact genRun_done h hb

/-- A word whose meaning is done with some state goes on with it. -/
theorem exec_done_of {P : State → Prop} (hi : exec i s = genRun i 0 body s) (h : GenReady s q c sq cx i 0)
    (hb : ∃ y, body (genIn s q c sq cx) = .done y ∧ P y) : ∃ y, P y ∧ exec i s = .next (y.genRetire q c sq cx i Ctx.advance) := by
  obtain ⟨y, hdone, hy⟩ := hb
  exact ⟨y, hy, hi.trans (genRun_done h hdone)⟩

/-- SPREF changes copies, and the tag of a line that L2 drops. -/
theorem exec_spref (h : GenReady s q c sq cx (.spref w) 0) :
    ∃ y : State, y = { s with clusters := y.clusters, tags := y.tags } ∧ exec (.spref w) s = .next (y.genRetire q c sq cx (.spref w) Ctx.advance) := by
  refine exec_done_of (Eq.refl (execSpref w s)) h ?_
  dsimp only
  split
  · exact ⟨s, rfl, rfl⟩
  · split
    next t _ =>
      split
      · exact ⟨s, rfl, rfl⟩
      next hno =>
        simp only [genIn_s, Bool.or_eq_true, not_or, List.contains_iff_mem, decide_eq_true_eq] at hno
        obtain ⟨⟨⟨-, hgood⟩, hclean⟩, -⟩ := hno
        have hline : t.pa / 128 * 128 / 128 = t.pa / 128 := Nat.mul_div_cancel _ (by decide)
        exact ⟨_, rfl, Loads.readL1_frame (by rwa [hline]) (by rwa [hline])⟩
    · exact ⟨s, rfl, rfl⟩

/-- SFENCE marks its release, and an acquire wider than the cluster drops the cluster's copies (R230). -/
theorem exec_sfence (h : GenReady s q c sq cx (.sfence w) 0) :
    let rel : Bool := w.ord.getLsbD 1 && decide (2 ≤ w.scope.toNat)
    ∃ y : State, y = { s with squads := (s.modCtx q c fun y => { y with fenced := y.fenced || rel }).squads, clusters := y.clusters }
      ∧ exec (.sfence w) s = .next (y.genRetire q c sq cx (.sfence w) Ctx.advance) := by
  intro rel
  refine exec_done_of (P := fun y => y = { s with squads := _, clusters := y.clusters }) (Eq.refl (execSfence w s)) h ⟨_, rfl, ?_⟩
  dsimp only [genIn_s, genIn_q, genIn_c]
  rw [State.modCtx, modSquad_frame]
  split <;> rfl

/-- MWAIT of ordinary memory gives D a value that differs, and waits while it does not. -/
theorem exec_mwait_there (h : GenReady s q c sq cx (.mwait w) 0) (hva : (genIn s q c sq cx).addr w 32 = va) (he : There s sq va (gmSize w) { rd := true } e) :
    ∃ y : State, y = { s with clusters := y.clusters } ∧
    (memNat s (paOf va e) (gmSize w) ≠ (cx.S w.d.toNat).toNat % 2 ^ (8 * gmSize w) → exec (.mwait w) s = .next ((y.modCtx q c fun y => y.setS w.d.toNat
      (BitVec.ofNat 64 (memNat s (paOf va e) (gmSize w)))).genRetire q c sq cx (.mwait w) Ctx.advance))
    ∧ (memNat s (paOf va e) (gmSize w) = (cx.S w.d.toNat).toNat % 2 ^ (8 * gmSize w) → ∃ k, exec (.mwait w) s = .next (y.modCtx q c fun y =>
            { y with wait := some (.mwait (BitVec.ofNat 64 va) (gmSize w) w.d.toNat k) })) := by
  subst hva
  obtain ⟨bs, y, hread, hbs, hy⟩ := he.freshRead (wideAcq w.ord.toNat w.scope.toNat)
  have hspec : ¬ s.speculative sq = true := Bool.eq_false_iff.1 he.committed
  refine ⟨y, hy, fun hne => ?differs, fun heq => ⟨wideAcq w.ord.toNat w.scope.toNat, ?waits⟩⟩
  case differs =>
    rw [← hbs] at hne
    exact exec_gives (Eq.refl (execMwait w s)) h
      ((if_neg hspec).trans ((addrCheck_of_tlb he.1).trans ((withMem_ok hread _ _ _ _ _).trans (if_neg hne)))) hbs
  case waits =>
    rw [← hbs] at heq
    exact (Eq.refl (execMwait w s)).trans (genRun_wait h
      ((if_neg hspec).trans ((addrCheck_of_tlb he.1).trans ((withMem_ok hread _ _ _ _ _).trans (if_pos heq)))))

/-- Settles O29: the checks of an address by `exec_fails`, and a word on ordinary memory by what its access comes to. -/
theorem scalarMemoryWordsReachMemory : Obligations.ScalarMemoryWordsReachMemory := by
  intro s q c sq cx w n at_ va pa d there ends others wrote fails
  have haddr (k : Nat) : (genIn s q c sq cx).addr w k = at_ k := addr_eq k
  have hthere {va : Nat} {need : Need} {e : TlbEnt} (h : there va need e) : There s sq va (gmSize w) need e := by
    obtain ⟨htlb, hreaches, hspec, hwf⟩ := h
    exact ⟨htlb, hreaches, hspec, hwf⟩
  refine ⟨fun h => ⟨fun e he => ?sld, ?sldFails⟩, fun h => ⟨fun e he => ?sst, ?sstFails⟩, fun h => ⟨fun e he => ?satom, ?satomFails⟩,
    fun h => ⟨fun e he => ?scas, ?scasFails⟩, fun h => ⟨fun hs => ?mwaitSpec, fun hs => ?mwaitFails, fun e he => ?mwait⟩, fun h => ?sfence, fun h => ?spref⟩
  case sldFails => exact exec_fails (Eq.refl (execSld w s)) rfl rfl h
  case sstFails => exact exec_fails (Eq.refl (execSst w s)) rfl rfl h
  case satomFails => exact exec_fails (Eq.refl (execSatom w s)) rfl rfl h
  case scasFails => exact exec_fails (Eq.refl (execScas w s)) rfl rfl h
  case sld =>
    obtain ⟨bs, y, hread, hbs, hy⟩ := (hthere he).vread (wideAcq w.ord.toNat w.scope.toNat)
    exact ⟨y, hy, exec_gives (Eq.refl (execSld w s)) h ((addrCheck_of_tlb he.1).trans (withMem_ok hread ..)) hbs⟩
  case sst =>
    obtain ⟨y, hwrite, hy, hnew, hothers⟩ := (hthere he).vwrite (cx.S w.d.toNat).toNat
    exact ⟨y, frame_of_accessed hy, hnew, hothers,
      (Eq.refl (execSst w s)).trans (genRun_done h ((addrCheck_of_tlb he.1).trans (withMem_ok hwrite ..)))⟩
  case satom =>
    have hop : fieldN w.disp.toNat 28 4 = w.disp.toNat / 2 ^ 28 := by
      have := w.disp.isLt
      rw [fieldN_eq_div_mod]
      omega
    obtain ⟨bs, y, hrun, hbs, hy, hnew, hothers⟩ := (hthere he).vatomic (wideAcq w.ord.toNat w.scope.toNat)
      fun old => some (satomNew (fieldN w.disp.toNat 28 4) (8 * n) old d)
    have hlt := satomNew_lt (w.disp.toNat / 2 ^ 28) (memNat_lt s (pa (at_ 28) e) n) (Nat.mod_lt (cx.S w.d.toNat).toNat (show 0 < 2 ^ (8 * n) by positivity))
    rw [Option.getD_some, hop] at hnew
    exact ⟨y, frame_of_accessed hy, hnew.trans (Nat.mod_eq_of_lt hlt), hothers,
      exec_gives (Eq.refl (execSatom w s)) h ((addrCheck_of_tlb he.1).trans (withMem_ok hrun ..)) hbs⟩
  case scas =>
    obtain ⟨bs, y, hrun, hbs, hy, hnew, hothers⟩ := (hthere he).vatomic (wideAcq w.ord.toNat w.scope.toNat)
      fun old => if old = d then some ((cx.S (w.d.toNat + 1)).toNat % 2 ^ (8 * n)) else none
    exact ⟨y, frame_of_accessed hy, hnew.trans (getD_ite_mod (memNat_lt ..)), hothers,
      exec_gives (Eq.refl (execScas w s)) h ((addrCheck_of_tlb he.1).trans (withMem_ok hrun ..)) hbs⟩
  case mwaitSpec => exact (Eq.refl (execMwait w s)).trans (genRun_wait h (if_pos hs))
  case mwaitFails => exact exec_fails (Eq.refl (execMwait w s)) (if_neg (Bool.eq_false_iff.1 hs)) rfl h
  case mwait => exact exec_mwait_there h rfl (hthere he)
  case sfence => exact exec_sfence h
  case spref => exact exec_spref h

end Sys2Proof.Machine.ScalarMemory
end

section
/-! PROOFS. VREAD, VPEEK and SDRAIN (09_cluster_generator.md R235, R237, R238). -/

namespace Sys2Proof.Machine.VotesRead

open LaneAlu (fieldN_low)
open TeamState (squad_modSquad)

variable {s : State} {q c : Nat} {sq : Squad} {cx : Ctx} {w : GR}

/-! ## One context of a state -/

/-- The context of a ready word is where its state has it. -/
theorem ctx_of_ready {i : Instr} {cnd : BitVec 4} (h : GenReady s q c sq cx i cnd) : s.ctx q c = some cx := by
  obtain ⟨-, hs, hc, -⟩ := h
  simp [State.ctx, hs, hc]

/-- A context after it has been changed. -/
theorem ctx_modCtx_same (f : Ctx → Ctx) (h : s.ctx q c = some cx) : (s.modCtx q c f).ctx q c = some (f cx) := by
  unfold State.ctx at h ⊢
  rw [State.modCtx, squad_modSquad]
  cases hs : s.squad q with
  | none => simp [hs] at h
  | some x => simp_all

/-- A table whose values are all changed alike. -/
theorem aget?_map_value {α β : Type} (f : α → β) (l : List (Nat × α)) (k : Nat) : aget? (l.map fun p => (p.1, f p.2)) k = (aget? l k).map f := by
  induction l with
  | nil => rfl
  | cons p l ih =>
    simp only [List.map_cons, aget?, ih]
    split <;> rfl

/-- A squad whose teams no longer await an entry of the queue of context c of squad q. -/
def woken (q c : Nat) (x : Squad) : Squad :=
  { x with teams := x.teams.map fun tm => if tm.owner = some (q, c) ∧ tm.wait = some .vote then { tm with wait := none } else tm }

/-- Waking the teams that await an entry of a queue changes no context. -/
theorem ctx_wakeVoters (s : State) (q c j k : Nat) : (s.wakeVoters q c).ctx j k = s.ctx j k := by
  have hsquad : (s.wakeVoters q c).squad j = (s.squad j).map (woken q c) := aget?_map_value (woken q c) s.squads j
  unfold State.ctx
  rw [hsquad]
  cases s.squad j <;> rfl

/-! ## Votes (R237, R238) -/

theorem readableHead_cons {v : VoteRec} {rest : List VoteRec} {cycle : Nat} (hv : cx.votes = v :: rest) (hr : v.readable = true ∨ v.upper ≤ cycle) :
    cx.readableHead cycle = some v.rec_ := by
  simp [Ctx.readableHead, hv, hr]

theorem readableHead_none {cycle : Nat} (h : ∀ v, cx.votes.head? = some v → ¬ (v.readable = true ∨ v.upper ≤ cycle)) : cx.readableHead cycle = none := by
  unfold Ctx.readableHead
  split
  next v _ hv =>
    have := h v (by simp [hv])
    simp_all
  · rfl

/-- What a read of a vote record leaves of its context (R238). -/
def gotVote (cx : Ctx) (d : Nat) (r : DWord) : Ctx := { cx.setS d r with cc := voteCC r }

/-- VREAD of a readable record takes it from the queue. -/
theorem exec_vread_record {v : VoteRec} {rest : List VoteRec} (h : GenReady s q c sq cx (.vread w) w.cnd) (hv : cx.votes = v :: rest)
    (hhead : cx.readableHead (s.cluster sq.cluster).cycle = some v.rec_) :
    ∃ z : State, exec (.vread w) s = .next (z.genRetire q c sq cx (.vread w) Ctx.advance)
      ∧ z.ctx q c = some { gotVote cx w.d.toNat v.rec_ with votes := rest } ∧ z.mem = s.mem := by
  let z := ((s.modCtx q c fun y => { gotVote y w.d.toNat v.rec_ with votes := y.votes.drop 1 }).l1Clear sq.cluster).wakeVoters q c
  refine ⟨z, (Eq.refl (execVread w s)).trans (genRun_done h ?_), ?_, State.modCtx_mem ..⟩
  · dsimp only [genIn_cx, genIn_s, genIn_sq]
    rw [hhead]
    rfl
  · rw [ctx_wakeVoters, State.l1Clear, State.ctx_modCluster, ctx_modCtx_same _ (ctx_of_ready h), hv]
    rfl

/-- VPEEK of a readable record leaves it in the queue. -/
theorem exec_vpeek_record {r : DWord} (h : GenReady s q c sq cx (.vpeek w) w.cnd)
    (hhead : cx.readableHead (s.cluster sq.cluster).cycle = some r) :
    ∃ z : State, exec (.vpeek w) s = .next (z.genRetire q c sq cx (.vpeek w) Ctx.advance)
      ∧ z.ctx q c = some (gotVote cx w.d.toNat r) ∧ z.mem = s.mem := by
  refine ⟨(s.modCtx q c fun y => gotVote y w.d.toNat r).l1Clear sq.cluster, (Eq.refl (execVpeek w s)).trans (genRun_done h ?_), ?_, State.modCtx_mem ..⟩
  · dsimp only [genIn_cx, genIn_s, genIn_sq]
    rw [hhead]
    rfl
  · rw [State.l1Clear, State.ctx_modCluster, ctx_modCtx_same _ (ctx_of_ready h)]

/-! ## SDRAIN (R235) -/

/-- The channels that an SDRAIN drains. -/
theorem sdrainChan_eq (w : GR) : sdrainChan w = if w.imm.getLsbD 6 then none else some (w.imm.toNat % 64) := by
  rw [sdrainChan, fieldN_low]
  rfl

/-- A word on a STREAM channel that stands goes on. -/
theorem withStream_ok {ch : Nat} (huse : s.streamUse q c sq cx ch = .ok) (f : GenRes) : (genIn s q c sq cx).withStream ch f = f := by
  simp [GenIn.withStream, huse]

/-- SDRAIN on every channel, on the context's own teams, or on a channel that stands, ends once all of it has retired and waits until then. -/
theorem exec_sdrain (h : GenReady s q c sq cx (.sdrain w) w.cnd)
    (huse : w.imm.getLsbD 6 = true ∨ w.imm.toNat % 64 = 0 ∨ s.streamUse q c sq cx (w.imm.toNat % 64) = .ok) :
    (s.drained q c (sdrainChan w) = true →
        exec (.sdrain w) s = .next ((s.modCluster sq.cluster fun y => { y with l1 := [], miss := [] }).genRetire q c sq cx (.sdrain w) Ctx.advance))
    ∧ (s.drained q c (sdrainChan w) = false →
        exec (.sdrain w) s = .next (s.modCtx q c fun y => { y with wait := some (.sdrain (sdrainChan w)) })) := by
  have hstands {ch : Nat} (hch : sdrainChan w = some ch) (hne : ¬ ch = 0) : s.streamUse q c sq cx ch = .ok := by
    rw [sdrainChan_eq] at hch
    split at hch
    · cases hch
    next hall =>
      obtain rfl := Option.some.inj hch
      exact (huse.resolve_left hall).resolve_left hne
  refine ⟨fun hd => (Eq.refl (execSdrain w s)).trans (genRun_done h ?_), fun hd => (Eq.refl (execSdrain w s)).trans (genRun_wait h ?_)⟩
  all_goals
    simp only [genIn_s, genIn_q, genIn_c, genIn_sq, hd, if_true, Bool.false_eq_true, if_false]
    split
    · rfl
    next ch hch =>
      split
      · rfl
      next hne =>
        exact withStream_ok (hstands hch hne) _

/-- Settles O31: a readable record by `exec_vread_record` and `exec_vpeek_record`, an SDRAIN by `exec_sdrain`. -/
theorem voteReadsAndDrainsComplete : Obligations.VoteReadsAndDrainsComplete := by
  intro s q c sq cx w d on readable got ch all
  refine ⟨fun h => ⟨fun v rest hv hr => exec_vread_record h hv (readableHead_cons hv hr), fun hnone => ?vread⟩,
    fun h => ⟨fun v rest hv hr => exec_vpeek_record h (readableHead_cons hv hr), fun hnone => ?vpeek⟩, fun h huse => ?sdrain⟩
  case vread =>
    have hhead := readableHead_none hnone
    refine ⟨fun hout => (Eq.refl (execVread w s)).trans (genRun_wait h ?_), fun hout => (Eq.refl (execVread w s)).trans (genRun_trap h ?_)⟩
    all_goals simp [hhead, hout]
  case vpeek =>
    have hhead := readableHead_none hnone
    exact (Eq.refl (execVpeek w s)).trans (genRun_finish h (by simp [hhead, d]))
  case sdrain =>
    have hdrain := exec_sdrain h huse
    rwa [sdrainChan_eq] at hdrain

end Sys2Proof.Machine.VotesRead
end

section
/-! PROOFS. Window descriptors (15_die_memory.md R313), TRANS (09_cluster_generator.md R234; 25_fabric.md R435), GWIN and GUNWIN
(15_die_memory.md R323, R324). -/

namespace Sys2Proof.Machine.WindowWords

open LaneAlu (fieldN_low)
open LaneNumbers (fieldN_eq_div_mod)
open VotesAndClaims (b2n_le_one decide_b2n_eq_one)
open VotesRead (withStream_ok)
open ScalarMemory (translate_tlb addrCheck_of_tlb withMem_ok)

/-! ## Fields of a descriptor (R313) -/

/-- A field of a word, as quotient and remainder. -/
theorem field64_ofNat (x lo n : Nat) : field64 (BitVec.ofNat 64 x) lo n = x % 2 ^ 64 / 2 ^ lo % 2 ^ n := by
  rw [field64, fieldN_eq_div_mod, BitVec.toNat_ofNat]

theorem field64_eq_div_mod (x : DWord) (lo n : Nat) : field64 x lo n = x.toNat / 2 ^ lo % 2 ^ n := by rw [field64, fieldN_eq_div_mod]

/-- A bit of a word that a Bool gives. -/
theorem getLsbD_ofNat_eq {x k : Nat} {b : Bool} (hk : k < 64) (h : x / 2 ^ k % 2 = b2n b) : (BitVec.ofNat 64 x).getLsbD k = b := by
  rw [BitVec.getLsbD_ofNat, decide_eq_true hk, Bool.true_and, Nat.testBit_eq_decide_div_mod_eq, h, decide_b2n_eq_one]

section fields

variable {kind base key frame devid aux limit : Nat} {rd wr : Bool}

/-- A descriptor holds its kind, its base and its permissions. -/
theorem mkWindow_first (hk : kind < 16) (hb : base < 2 ^ 56) :
    (mkWindow kind rd wr base key frame devid aux limit).kind = kind ∧ (mkWindow kind rd wr base key frame devid aux limit).base = base
      ∧ (mkWindow kind rd wr base key frame devid aux limit).rd = rd ∧ (mkWindow kind rd wr base key frame devid aux limit).wr = wr := by
  have hr := b2n_le_one rd
  have hw := b2n_le_one wr
  refine ⟨(field64_ofNat ..).trans ?_, (field64_ofNat ..).trans ?_, getLsbD_ofNat_eq (by decide) ?_, getLsbD_ofNat_eq (by decide) ?_⟩
  all_goals omega

/-- A descriptor holds its key and its frame, a multiple of 128. -/
theorem mkWindow_second (hk : key < 4096) (hf : frame < 2 ^ 52) (hal : frame % 128 = 0) :
    (mkWindow kind rd wr base key frame devid aux limit).key = key ∧ (mkWindow kind rd wr base key frame devid aux limit).frame = frame := by
  refine ⟨(field64_ofNat ..).trans ?_, (congrArg (· * 128) (field64_ofNat ..)).trans ?_⟩
  all_goals omega

/-- A descriptor holds its device, its auxiliary field and its limit. -/
theorem mkWindow_third (hd : devid < 2 ^ 14) (ha : aux < 2 ^ 18) (hl : limit < 2 ^ 32) :
    (mkWindow kind rd wr base key frame devid aux limit).devid = devid ∧ (mkWindow kind rd wr base key frame devid aux limit).aux = aux
      ∧ (mkWindow kind rd wr base key frame devid aux limit).limit = limit := by
  refine ⟨(field64_ofNat ..).trans ?_, (field64_ofNat ..).trans ?_, (field64_ofNat ..).trans ?_⟩
  all_goals omega

/-- The fields of a descriptor whose parts fit. -/
theorem mkWindow_fields (hkind : kind < 16) (hbase : base < 2 ^ 56) (hkey : key < 4096) (hframe : frame < 2 ^ 52) (hal : frame % 128 = 0)
    (hdev : devid < 2 ^ 14) (haux : aux < 2 ^ 18) (hlimit : limit < 2 ^ 32) :
    let win := mkWindow kind rd wr base key frame devid aux limit
    win.kind = kind ∧ win.base = base ∧ win.rd = rd ∧ win.wr = wr ∧ win.key = key ∧ win.frame = frame ∧ win.devid = devid ∧ win.aux = aux
      ∧ win.limit = limit := by
  intro win
  obtain ⟨h1, h2, h3, h4⟩ := mkWindow_first (rd := rd) (wr := wr) (key := key) (frame := frame) (devid := devid) (aux := aux) (limit := limit) hkind hbase
  obtain ⟨h5, h6⟩ := mkWindow_second (kind := kind) (rd := rd) (wr := wr) (base := base) (devid := devid) (aux := aux) (limit := limit) hkey hframe hal
  exact ⟨h1, h2, h3, h4, h5, h6, mkWindow_third hdev haux hlimit⟩

end fields

/-! ## TRANS (R234, R435) -/

section trans

variable {s : State} {q c : Nat} {sq : Squad} {cx : Ctx} {w : GR}

/-- The state after a word has queued the stretch that loads window `d` on its channel. -/
def queued (z : State) (q c : Nat) (ch d : Nat) (win : Window) : State :=
  z.modCtx q c fun y => { y with seq := y.seq ++ [.block ch [plainHeader, wsetWord d] (some win)] }

theorem seqFull_eq_false (h : cx.seq.length < 2) : cx.seqFull = false := decide_eq_false (Nat.not_le.2 h)

/-- The window of a local address outside every span of its task (R313, R366). -/
theorem memWindow_fields {va want size : Nat} {leaf : DWord} {task : Option Task} {owner : Nat} {rd wr : Bool} (hva : va < 2 ^ 56) (hal : va % 128 = 0)
    (hsize : size ∈ [2 ^ 16, 2 ^ 21, 2 ^ 30]) (hpa : (xlOf va size leaf).pa < 2 ^ 52) (ho : owner < 4096)
    (htask : ∀ t, task = some t → t.spanRoom va = none) :
    let x := xlOf va size leaf
    let win := s.memWindow owner task va want rd wr x
    win.kind = 1 ∧ win.base = va ∧ win.frame = x.pa ∧ win.limit = min want (x.base + x.size - va) ∧ win.key = owner ∧ win.span = none
      ∧ win.rd = (rd && leaf.getLsbD 4) ∧ win.wr = (wr && leaf.getLsbD 5) := by
  intro x win
  have hnone : (task.bind fun t => (t.spanRoom va).map fun n => (t, n)) = none := by
    cases task with
    | none => rfl
    | some t => simp [htask t rfl]
  have hwin : win = { mkWindow 1 (rd && leaf.getLsbD 4) (wr && leaf.getLsbD 5) va owner x.pa 0 0 (min want (x.base + x.size - va)) with
      pgBase := x.base, pgSize := x.size, zor := pteZor leaf } := by
    simp only [win, State.memWindow, hnone]
    rfl
  obtain ⟨hal', hroom⟩ : x.pa % 128 = 0 ∧ x.base + x.size - va < 2 ^ 32 := by
    simp only [x, xlOf]
    simp only [List.mem_cons, List.not_mem_nil, or_false] at hsize
    rcases hsize with rfl | rfl | rfl <;> omega
  obtain ⟨hkind, hbase, hrd, hwr, hkey, hframe, -, -, hlimit⟩ := mkWindow_fields (rd := rd && leaf.getLsbD 4) (wr := wr && leaf.getLsbD 5)
    (show 1 < 16 by decide) hva ho hpa hal' (show 0 < 2 ^ 14 by decide) (show 0 < 2 ^ 18 by decide)
    (show min want (x.base + x.size - va) < 2 ^ 32 by omega)
  rw [hwin]
  exact ⟨hkind, hbase, hframe, hlimit, hkey, rfl, hrd, hwr⟩

/-- A word whose place, operands, channel and address pass its checks comes to its meaning. -/
theorem checks_pass {wait trap f : GenRes} {p : Prop} [Decidable p] {ch va n lsize : Nat} {rd wr : Bool} (hroom : cx.seq.length < 2) (hp : ¬ p)
    (huse : s.streamUse q c sq cx ch = .ok) (hlow : va < 2 ^ 56) (hal : va % n = 0) :
    (if cx.seqFull then wait else if p then trap
      else (genIn s q c sq cx).withStream ch ((genIn s q c sq cx).addrCheck va n lsize rd wr f)) = f := by
  rw [seqFull_eq_false hroom, if_neg Bool.false_ne_true, if_neg hp, withStream_ok huse, GenIn.addrCheck, if_neg (Nat.not_le.2 hlow),
    if_neg (not_not.2 hal)]

/-- TRANS of a local address that the cluster TLB serves queues the stretch that loads its window. -/
theorem exec_trans_local {e : TlbEnt} (h : GenReady s q c sq cx (.trans w) w.cnd) (hroom : cx.seq.length < 2)
    (huse : s.streamUse q c sq cx (w.imm.toNat % 64) = .ok) (hfn : w.fn.getLsbD 0 = false) (hb : (cx.S w.b.toNat).toNat < 2 ^ 48)
    (he : GenTlb s sq (cx.S w.a.toNat).toNat 128 {} e) :
    exec (.trans w) s = .next ((queued s q c (w.imm.toNat % 64) (w.d.toNat % 8)
      (s.memWindow (s.ownerOf sq) (s.task sq.task) (cx.S w.a.toNat).toNat (field64 (cx.S w.b.toNat) 0 48) (w.fn.getLsbD 1) (w.fn.getLsbD 2)
        (xlOf (cx.S w.a.toNat).toNat e.size e.leaf))).genRetire q c sq cx (.trans w) Ctx.advance) := by
  have hreserved : ¬ (field64 (cx.S w.b.toNat) 62 2 ≠ 0 ∨ (!w.fn.getLsbD 0) ∧ field64 (cx.S w.b.toNat) 48 14 ≠ 0) := by
    simp only [field64_eq_div_mod]
    omega
  exact (Eq.refl (execTrans w s)).trans (genRun_done h ((checks_pass hroom hreserved huse he.low he.aligned).trans
    ((if_neg (by rw [hfn]; decide)).trans (withMem_ok (translate_tlb he) ..))))

/-- The request of a context to another package, which takes the next number (R434). -/
def requestOf (s : State) (q c : Nat) (sq : Squad) (op dev addr : Nat) : RemoteReq :=
  { id := s.fabric.nextReq, cluster := sq.cluster, src := .ctx q c, lane := 0, op := op, dev := dev, addr := addr, size := 0
    data := [s.ownerOf sq], issued := s.now }

/-- A context's first request to a package that a route reaches is sent, and its word waits. -/
theorem remote_sends {op dev addr va : Nat} {f : List Byte → State → GenRes} (hnone : ∀ r ∈ s.fabric.out, r.src ≠ .ctx q c)
    (hdev : s.reachable dev = true) (hroom : s.remoteOut sq.cluster < 1024) :
    (genIn s q c sq cx).remote op dev addr va f = .wait .remote { s with fabric := s.fabric.sending (requestOf s q c sq op dev addr) } := by
  have hfind : (s.fabric.out.find? fun r => r.src == .ctx q c) = none := List.find?_eq_none.2 fun r hr => by simpa using hnone r hr
  simp only [GenIn.remote, genIn_s, genIn_q, genIn_c, genIn_sq, hfind, hdev, Bool.not_true, Bool.false_eq_true, Nat.not_le.2 hroom, if_false]
  rfl

/-- A context whose request has been answered goes on with the answer. -/
theorem remote_answered {op dev addr va : Nat} {f : List Byte → State → GenRes} {r : RemoteReq} {bs : List Byte}
    (hsome : (s.fabric.out.find? fun r => r.src == .ctx q c) = some r) (hres : (s.fabric.results.find? fun z => z.1 == r.id) = some (r.id, 0, bs)) :
    (genIn s q c sq cx).remote op dev addr va f = f bs { s with fabric := s.fabric.answered r.id } := by
  simp only [GenIn.remote, genIn_s, genIn_q, genIn_c, hsome, hres]
  rfl

section remote

variable (h : GenReady s q c sq cx (.trans w) w.cnd) (hroom : cx.seq.length < 2) (huse : s.streamUse q c sq cx (w.imm.toNat % 64) = .ok)
  (hfn : w.fn.getLsbD 0 = true) (hb : (cx.S w.b.toNat).toNat < 2 ^ 62) (hlow : (cx.S w.a.toNat).toNat < 2 ^ 56)
  (hal : (cx.S w.a.toNat).toNat % 128 = 0)

/-- The device that S(B) names. -/
def devOf (cx : Ctx) (w : GR) : Nat := field64 (cx.S w.b.toNat) 48 14

/-- The window that another package's answer gives (R435). -/
def remoteWindow (s : State) (sq : Squad) (cx : Ctx) (w : GR) (bs : List Byte) : Window :=
  let perm := ofBytes ((bs.drop 16).take 1)
  let size := 2 ^ ofBytes ((bs.drop 17).take 1)
  let va := (cx.S w.a.toNat).toNat
  { mkWindow 4 (w.fn.getLsbD 1 && perm.testBit 0) (w.fn.getLsbD 2 && perm.testBit 1) va (s.ownerOf sq) (ofBytes (bs.take 8)) (devOf cx w) 0
      (min (field64 (cx.S w.b.toNat) 0 48) (ofBytes ((bs.drop 8).take 8))) with
    pgBase := va - va % size, pgSize := size }

theorem remoteWindow_fields {bs : List Byte} (hlow : (cx.S w.a.toNat).toNat < 2 ^ 56) (ho : s.ownerOf sq < 4096)
    (hframe : ofBytes (bs.take 8) < 2 ^ 52) (hal : ofBytes (bs.take 8) % 128 = 0) (hlimit : ofBytes ((bs.drop 8).take 8) < 2 ^ 32) :
    let win := remoteWindow s sq cx w bs
    let perm := ofBytes ((bs.drop 16).take 1)
    win.kind = 4 ∧ win.base = (cx.S w.a.toNat).toNat ∧ win.rd = (w.fn.getLsbD 1 && perm.testBit 0) ∧ win.wr = (w.fn.getLsbD 2 && perm.testBit 1)
      ∧ win.key = s.ownerOf sq ∧ win.frame = ofBytes (bs.take 8) ∧ win.devid = devOf cx w ∧ win.aux = 0
      ∧ win.limit = min (field64 (cx.S w.b.toNat) 0 48) (ofBytes ((bs.drop 8).take 8)) :=
  mkWindow_fields (by decide) hlow ho hframe hal (Nat.mod_lt _ (by decide)) (by decide) (by omega)

include hfn hb in
theorem remote_reserved : ¬ (field64 (cx.S w.b.toNat) 62 2 ≠ 0 ∨ (!w.fn.getLsbD 0) ∧ field64 (cx.S w.b.toNat) 48 14 ≠ 0) := by
  rw [hfn, field64_eq_div_mod]
  simp
  omega

include h hroom huse hfn hb hlow hal

/-- TRANS of another package's address asks that package and waits. -/
theorem exec_trans_sends (hnone : ∀ r ∈ s.fabric.out, r.src ≠ .ctx q c) (hdev : s.reachable (devOf cx w) = true)
    (hout : s.remoteOut sq.cluster < 1024) :
    exec (.trans w) s = .next (({ s with fabric := s.fabric.sending (requestOf s q c sq opTranslate (devOf cx w) (cx.S w.a.toNat).toNat) } : State).modCtx q c
      fun y => { y with wait := some .remote }) :=
  (Eq.refl (execTrans w s)).trans (genRun_wait h ((checks_pass hroom (remote_reserved hfn hb) huse hlow hal).trans
    ((if_pos hfn).trans (remote_sends hnone hdev hout))))

/-- TRANS with the other package's answer queues the stretch that loads its window. -/
theorem exec_trans_answered {r : RemoteReq} {bs : List Byte} (hsome : (s.fabric.out.find? fun r => r.src == .ctx q c) = some r)
    (hres : (s.fabric.results.find? fun z => z.1 == r.id) = some (r.id, 0, bs)) :
    exec (.trans w) s = .next ((queued { s with fabric := s.fabric.answered r.id } q c (w.imm.toNat % 64) (w.d.toNat % 8)
      (remoteWindow s sq cx w bs)).genRetire q c sq cx (.trans w) Ctx.advance) :=
  (Eq.refl (execTrans w s)).trans (genRun_done h ((checks_pass hroom (remote_reserved hfn hb) huse hlow hal).trans
    ((if_pos hfn).trans (remote_answered hsome hres))))

end remote

end trans

/-! ## GWIN and GUNWIN (R323, R324) -/

section gather

variable {s : State} {q c : Nat} {sq : Squad} {cx : Ctx} {w : GR}

/-- The record that GWIN reads (R324). -/
def gatherRecord (cx : Ctx) (w : GR) : List DWord := (upTo 4).map fun k => cx.S (w.a.toNat + k)

/-- The bytes of an element of a gather record. -/
def elemBytes (cx : Ctx) (w : GR) : Nat := 2 ^ field64 (cx.S (w.a.toNat + 2)) 0 2

/-- The number of elements of a gather record. -/
def elemCount (cx : Ctx) (w : GR) : Nat := field64 (cx.S (w.a.toNat + 2)) 32 32

theorem elemBytes_eq : elemBytes cx w = 2 ^ ((cx.S (w.a.toNat + 2)).toNat % 4) :=
  congrArg (2 ^ ·) (fieldN_low ..)

theorem elemCount_eq : elemCount cx w = (cx.S (w.a.toNat + 2)).toNat / 2 ^ 32 := by
  rw [elemCount, field64_eq_div_mod]
  exact Nat.mod_eq_of_lt (Nat.div_lt_of_lt_mul (cx.S (w.a.toNat + 2)).isLt)

/-- A record within R324's bounds is allowed. -/
theorem gatherBad_none (hzero : (cx.S (w.a.toNat + 2)).toNat / 4 % 2 ^ 30 = 0) (hn : elemCount cx w ≠ 0) (hsize : elemCount cx w * elemBytes cx w < 2 ^ 32)
    (hb : (cx.S (w.a.toNat + 3)).toNat ≠ 0) (hb' : (cx.S (w.a.toNat + 3)).toNat < 2 ^ 32) (hidx : (cx.S (w.a.toNat + 0)).toNat % 4 = 0)
    (hsrc : (cx.S (w.a.toNat + 1)).toNat % elemBytes cx w = 0) : gatherBad (gatherRecord cx w) = none := by
  have hfield : field64 (cx.S (w.a.toNat + 2)) 2 30 = 0 := (field64_eq_div_mod ..).trans hzero
  have hcount : ¬ (field64 (cx.S (w.a.toNat + 2)) 2 30 ≠ 0 ∨ elemCount cx w = 0 ∨ 2 ^ 32 ≤ elemCount cx w * elemBytes cx w) :=
    not_or.2 ⟨not_not.2 hfield, not_or.2 ⟨hn, Nat.not_le.2 hsize⟩⟩
  exact (if_neg hcount).trans ((if_neg (not_or.2 ⟨hb, Nat.not_le.2 hb'⟩)).trans ((if_neg (not_not.2 hidx)).trans (if_neg (not_not.2 hsrc))))

/-- The entry that an allowed record binds (R324). -/
def boundEntry (cx : Ctx) (w : GR) (old : Gather) : Gather :=
  { bound := true, gen := (old.gen + 1) % 4096, idxVa := (cx.S (w.a.toNat + 0)).toNat, srcVa := (cx.S (w.a.toNat + 1)).toNat
    size := elemBytes cx w, limit := (cx.S (w.a.toNat + 3)).toNat }

/-- A state with an owner's gather entry replaced. -/
def putGather (s : State) (sq : Squad) (w : GR) (e : Gather) : State :=
  s.modDie (sq.cluster / 44) fun y => { y with gathers := aset y.gathers (s.ownerOf sq * 64 + w.fn.toNat % 64) e }

/-- The window over a gather entry's elements. -/
def gatherWindow (s : State) (sq : Squad) (cx : Ctx) (w : GR) (gen : Nat) : Window :=
  mkWindow 2 (w.fn.getLsbD 6) (w.fn.getLsbD 7) 0 (s.ownerOf sq) 0 0 (w.fn.toNat % 64 * 2 ^ 12 + gen) (elemCount cx w * elemBytes cx w)

/-- GWIN of an allowed record binds the owner's entry and queues the stretch that loads its window. -/
theorem exec_gwin (h : GenReady s q c sq cx (.gwin w) w.cnd) (hspec : s.speculative sq = false) (hroom : cx.seq.length < 2)
    (huse : s.streamUse q c sq cx (w.imm.toNat % 64) = .ok) (hbad : gatherBad (gatherRecord cx w) = none) :
    let old := s.gatherOf (sq.cluster / 44) (s.ownerOf sq) (w.fn.toNat % 64)
    exec (.gwin w) s = .next ((queued (putGather s sq w (boundEntry cx w old)) q c (w.imm.toNat % 64) (w.d.toNat % 8)
      (gatherWindow s sq cx w ((old.gen + 1) % 4096))).genRetire q c sq cx (.gwin w) Ctx.advance) := by
  intro old
  have hgo : ¬ s.speculative sq = true := Bool.eq_false_iff.1 hspec
  have hfull : ¬ cx.seqFull = true := Bool.eq_false_iff.1 (seqFull_eq_false hroom)
  refine (Eq.refl (execGwin w s)).trans (genRun_done h ((if_neg hgo).trans ((if_neg hfull).trans ?_)))
  split
  next heq => exact absurd (heq.symm.trans hbad) nofun
  next => exact withStream_ok huse ..

/-- The fields of the window over an entry's elements (R324). -/
theorem gatherWindow_fields {gen : Nat} (ho : s.ownerOf sq < 4096) (hgen : gen < 4096) (hsize : elemCount cx w * elemBytes cx w < 2 ^ 32) :
    let win := gatherWindow s sq cx w gen
    win.kind = 2 ∧ win.limit = elemCount cx w * elemBytes cx w ∧ win.aux = w.fn.toNat % 64 * 4096 + gen ∧ win.key = s.ownerOf sq
      ∧ win.rd = w.fn.getLsbD 6 ∧ win.wr = w.fn.getLsbD 7 := by
  obtain ⟨hkind, -, hrd, hwr, hkey, -, -, haux, hlimit⟩ := mkWindow_fields (kind := 2) (rd := w.fn.getLsbD 6) (wr := w.fn.getLsbD 7) (base := 0)
    (frame := 0) (devid := 0) (aux := w.fn.toNat % 64 * 2 ^ 12 + gen) (by decide) (by decide) ho (by decide) (by decide) (by decide) (by omega) hsize
  exact ⟨hkind, hlimit, haux, hkey, hrd, hwr⟩

end gather

/-- Settles O32: each word queues one stretch, and `mkWindow_fields` gives the fields of the window that it loads. -/
theorem translateAndGatherWordsBindWindows : Obligations.TranslateAndGatherWordsBindWindows := by
  refine ⟨?trans, ?gather⟩
  case trans =>
    intro s q c sq cx w va b ch dev binds h hroom huse ho
    have hwant : field64 b 0 48 = b.toNat % 2 ^ 48 := by rw [field64, fieldN_low]
    refine ⟨fun e hfn hb => ?near, fun hfn hb hlow hal => ⟨fun hnone hdev hout => ?sends, fun r bs hsome hres => ?answered⟩⟩
    case near =>
      intro x he hsize hpa htask
      obtain ⟨hkind, hbase, hframe, hlimit, hkey, hspan, hrd, hwr⟩ :=
        memWindow_fields (s := s) (want := field64 b 0 48) (rd := w.fn.getLsbD 1) (wr := w.fn.getLsbD 2) he.low he.aligned hsize hpa ho htask
      have hlimit := hlimit.trans (by rw [hwant, Nat.mod_eq_of_lt hb])
      exact ⟨_, exec_trans_local h hroom huse hfn hb he, hkind, hbase, hframe, hlimit, hkey, hspan, hrd, hwr⟩
    case sends =>
      have hdev' : devOf cx w = dev := field64_eq_div_mod ..
      rw [← hdev'] at hdev
      have := exec_trans_sends h hroom huse hfn hb hlow hal hnone hdev hout
      rw [hdev'] at this
      exact this
    case answered =>
      intro word perm hal0 hlow0 hlow1
      have hdev : devOf cx w = dev := field64_eq_div_mod ..
      obtain ⟨hkind, hbase, hrd, hwr, hkey, hframe, hdevid, -, hlimit⟩ := remoteWindow_fields (s := s) (w := w) (bs := bs) hlow ho hlow0 hal0 hlow1
      have hlimit := hlimit.trans (by rw [hwant])
      exact ⟨_, ⟨exec_trans_answered h hroom huse hfn hb hlow hal hsome hres, hkind, hbase, hframe, hlimit, hkey, rfl, hrd, hwr⟩, hdevid.trans hdev⟩
  case gather =>
    intro s q c sq cx w g ch die key old r size n put
    refine ⟨fun hs i hi h => ?waits, fun hs => ⟨fun h hroom huse ho hzero hn hsize hb hb' hidx hsrc => ?gwin, fun h =>
      ⟨fun hb => ?bound, fun hb => ?free⟩⟩⟩
    case waits =>
      rcases List.mem_pair.1 hi with rfl | rfl
      · exact (Eq.refl (execGwin w s)).trans (genRun_wait h (if_pos hs))
      · exact (Eq.refl (execGunwin w s)).trans (genRun_wait h (if_pos hs))
    case gwin =>
      have hbytes : elemBytes cx w = size := elemBytes_eq
      have hcount : elemCount cx w = n := elemCount_eq
      rw [← hbytes, ← hcount] at hsize ⊢
      rw [← hbytes] at hsrc
      rw [← hcount] at hn
      exact ⟨_, exec_gwin h hs hroom huse (gatherBad_none hzero hn hsize hb hb' hidx hsrc),
        gatherWindow_fields ho (Nat.mod_lt _ (by decide)) hsize⟩
    case bound =>
      have hgo : ¬ s.speculative sq = true := Bool.eq_false_iff.1 hs
      exact (Eq.refl (execGunwin w s)).trans (genRun_done h ((if_neg hgo).trans (if_pos hb)))
    case free =>
      have hgo : ¬ s.speculative sq = true := Bool.eq_false_iff.1 hs
      exact (Eq.refl (execGunwin w s)).trans (genRun_done h ((if_neg hgo).trans (if_neg (Bool.eq_false_iff.1 hb))))

end Sys2Proof.Machine.WindowWords
end

section
/-! PROOFS. EMIT, REC, REPLAY and PBDROP (09_cluster_generator.md R228, R229, R231, R232). -/

namespace Sys2Proof.Machine.Emission

open LaneAlu (fieldN_low)
open VotesRead (ctx_of_ready withStream_ok)
open WindowWords (seqFull_eq_false)

variable {s : State} {q c : Nat} {sq : Squad} {cx : Ctx}

theorem seqFull_eq_true (h : 2 ≤ cx.seq.length) : cx.seqFull = true := decide_eq_true h

/-- A word's meaning matters at the inputs of its context alone. -/
theorem genRun_congr {i : Instr} {cnd : BitVec 4} {f g : GenIn → GenRes} (h : GenReady s q c sq cx i cnd)
    (hb : f (genIn s q c sq cx) = g (genIn s q c sq cx)) :
    genRun i cnd f s = genRun i cnd g s := by rw [genRun_ready h, genRun_ready h, hb]

/-- A change of a context that stands replaces it by its new value. -/
theorem modCtx_const (h : s.ctx q c = some cx) (f : Ctx → Ctx) : s.modCtx q c f = s.modCtx q c fun _ => f cx := by
  cases hs : s.squad q with
  | none => simp [State.ctx, hs] at h
  | some x =>
    have hc : x.ctxs[c]? = some cx := by simpa [State.ctx, hs] using h
    have hmod : x.ctxs.modify c f = x.ctxs.modify c fun _ => f cx := by
      refine List.ext_getElem? fun j => ?_
      rw [List.getElem?_modify, List.getElem?_modify]
      by_cases hj : c = j
      · simp [← hj, hc]
      · simp [hj]
    simp [State.modCtx, State.modSquad, hs, hmod]

/-! ## EMIT and REC (R228, R229, R232) -/

section emit

variable {w : GE} {i : Instr} {store : List Nat → List DWord → State → Except GenRes State}

/-- EMIT and REC differ in what they do with the block that they read. -/
theorem exec_emission (hi : i ∈ [Instr.emit w, .recw w]) :
    ∃ store : GenIn → List Nat → List DWord → State → Except GenRes State, ∀ s, exec i s = genRun i 0 (fun x => x.emit w (store x)) s := by
  rcases List.mem_pair.1 hi with rfl | rfl
  · exact ⟨_, fun s => Eq.refl (execEmit w s)⟩
  · exact ⟨_, fun s => Eq.refl (execRecw w s)⟩

theorem not_lastInClause {k : Clause} (hk : cx.clause = some k) (h : k.idx + 1 ≠ k.len) : cx.lastInClause = false := by
  simpa [Ctx.lastInClause, hk] using h

theorem lastInClause_of (h : ∀ k, cx.clause = some k → k.idx + 1 = k.len) : cx.lastInClause = true := by
  rw [Ctx.lastInClause]
  split
  next k hk => exact beq_iff_eq.2 (h k hk)
  next => rfl

/-- A word that does not end its clause has no words of its own behind it. -/
theorem gap_of_not_last {k : Clause} (hi : i ∈ [Instr.emit w, .recw w]) (hk : cx.clause = some k) (h : k.idx + 1 ≠ k.len) : cx.gap i = 0 := by
  rcases List.mem_pair.1 hi with rfl | rfl <;> simp [Ctx.gap, hk, h]

theorem emit_clause (h : cx.lastInClause = false) : (genIn s q c sq cx).emit w store = .trap .clauseFormat [] s :=
  if_pos (by rw [genIn_cx, h]; rfl)

theorem emit_full (h : cx.lastInClause = true) (hfull : 2 ≤ cx.seq.length) : (genIn s q c sq cx).emit w store = .wait .emission s :=
  (if_neg (by rw [genIn_cx, h]; decide)).trans (if_pos (seqFull_eq_true hfull))

/-- The values that EMIT and REC fill the holes of their block with. -/
def holeValues (cx : Ctx) (w : GE) : List Int := (upTo w.nh.toNat).map fun i => (cx.S (w.sb.toNat + i)).toInt

theorem svals_eq : (genIn s q c sq cx).svals w.sb.toNat w.nh.toNat = holeValues cx w := rfl

/-- The squad with the recording that REC makes. -/
def recorded (sq1 : Squad) (w : GE) (serial : Nat) (b : List DWord) (hs : List Nat) : Squad :=
  { sq1 with playbook := aset sq1.playbook w.id.toNat { serial := serial, block := b, holes := hs } }

/-- The state in which REC has kept its recording. -/
def kept (z : State) (q : Nat) (new : Squad) : State := State.bringOnChip { (z.setSquad q new) with serial := z.serial + 1 } new.cluster z.serial

theorem kept_squad (z : State) (q : Nat) (new : Squad) : (kept z q new).squad q = some new := aget?_aset_self ..

section read

variable {hs : List Nat} {b : List DWord} {next : Nat} {s' : State} (hlast : cx.lastInClause = true) (hroom : cx.seq.length < 2)
  (huse : s.streamUse q c sq cx w.ch.toNat = .ok) (hread : (genIn s q c sq cx).readBlock w = .ok (hs, b, next, s'))

include hlast hroom huse hread

theorem emit_misfit {k : Nat} {v : Int} (hfit : firstMisfit b 0 hs (holeValues cx w) = some (k, v)) :
    (genIn s q c sq cx).emit w store = holeTrap s' k 0 v := by
  simp [GenIn.emit, hlast, seqFull_eq_false hroom, withStream_ok huse, hread, svals_eq, hfit]

theorem emit_error {e : GenRes} (hfit : firstMisfit b 0 hs (holeValues cx w) = none) (hstore : store hs b s' = .error e) :
    (genIn s q c sq cx).emit w store = e := by
  simp [GenIn.emit, hlast, seqFull_eq_false hroom, withStream_ok huse, hread, svals_eq, hfit, hstore]

theorem emit_stored {z : State} (hfit : firstMisfit b 0 hs (holeValues cx w) = none) (hstore : store hs b s' = .ok z) :
    (genIn s q c sq cx).emit w store
      = .goto (BitVec.ofNat 64 next) (z.modCtx q c fun y => y.queue (.block w.ch.toNat (fillBlock b hs (holeValues cx w)) none)) := by
  simp [GenIn.emit, hlast, seqFull_eq_false hroom, withStream_ok huse, hread, svals_eq, hfit, hstore]

/-! What REC keeps, or why it keeps nothing. -/

section keep

variable {sq1 : Squad} (h : GenReady s q c sq cx (.recw w) 0) (hfit : firstMisfit b 0 hs (holeValues cx w) = none) (hsq : s'.squad q = some sq1)

include h hfit hsq

theorem exec_recw_stands (hid : ¬ (aget? sq1.playbook w.id.toNat = none ∨ w.fl.getLsbD 0 = true)) :
    exec (.recw w) s = .next (s'.ctxTrap q c .playbookId [BitVec.ofNat 64 w.id.toNat, BitVec.ofNat 64 1, 0, 0] (cx.gap (.recw w))) := by
  refine (Eq.refl (execRecw w s)).trans (genRun_trap h (emit_error hlast hroom huse hread hfit ?_))
  simp only [genIn_q, hsq]
  exact if_pos (by simpa [Option.isSome_iff_ne_none] using hid)

theorem exec_recw_beyond (hid : aget? sq1.playbook w.id.toNat = none ∨ w.fl.getLsbD 0 = true)
    (hwords : 262144 < (recorded sq1 w s'.serial b hs).playWords) :
    exec (.recw w) s = .next (s'.ctxTrap q c .playbookId [BitVec.ofNat 64 w.id.toNat, BitVec.ofNat 64 2, 0, 0] (cx.gap (.recw w))) := by
  refine (Eq.refl (execRecw w s)).trans (genRun_trap h (emit_error hlast hroom huse hread hfit ?_))
  simp only [genIn_q, hsq]
  exact (if_neg (by simpa [Option.isSome_iff_ne_none, or_iff_not_imp_left] using hid)).trans (if_pos hwords)

theorem exec_recw_keeps (hid : aget? sq1.playbook w.id.toNat = none ∨ w.fl.getLsbD 0 = true)
    (hwords : (recorded sq1 w s'.serial b hs).playWords ≤ 262144) :
    exec (.recw w) s = .next (((kept s' q (recorded sq1 w s'.serial b hs)).modCtx q c fun y =>
      y.queue (.block w.ch.toNat (fillBlock b hs (holeValues cx w)) none)).genRetire q c sq cx (.recw w) (·.jump (BitVec.ofNat 64 next))) := by
  refine (Eq.refl (execRecw w s)).trans (genRun_goto h (emit_stored hlast hroom huse hread hfit ?_))
  simp only [genIn_q, hsq]
  exact (if_neg (by simpa [Option.isSome_iff_ne_none, or_iff_not_imp_left] using hid)).trans (if_neg (Nat.not_lt.2 hwords))

end keep

end read

end emit

/-! ## REPLAY (R231) -/

section replay

variable {w : GE} {r : Recording}

/-- The first values of a replay's holes. -/
def baseValues (cx : Ctx) (w : GE) (r : Recording) : List Int := (upTo r.holes.length).map fun i => (cx.S (w.sb.toNat + i)).toInt

/-- The steps of a replay's holes. -/
def stepValues (cx : Ctx) (w : GE) (r : Recording) : List Int :=
  (upTo r.holes.length).map fun i => if 1 ≤ w.len.toNat then (cx.S (w.sb.toNat + 8 + i)).toInt else 0

/-- The values of the last iteration of a replay. -/
def lastValues (cx : Ctx) (w : GE) (r : Recording) : List Int :=
  (upTo r.holes.length).map fun i => (baseValues cx w r).getD i 0 + ((max w.len.toNat 1 - 1 : Nat) : Int) * (stepValues cx w r).getD i 0

theorem baseValues_eq : (genIn s q c sq cx).svals w.sb.toNat r.holes.length = baseValues cx w r := rfl

theorem stepValues_eq :
    (if 1 ≤ w.len.toNat then (genIn s q c sq cx).svals (w.sb.toNat + 8) r.holes.length else List.replicate r.holes.length 0) = stepValues cx w r := by
  rw [stepValues]
  split
  · rfl
  · simp [upTo]

theorem lastValues_eq : List.zipWith (fun (b d : Int) => b + ((max w.len.toNat 1 - 1 : Nat) : Int) * d) (baseValues cx w r) (stepValues cx w r)
    = lastValues cx w r := by
  refine List.ext_getElem ?_ fun i hi _ => ?_
  · simp [lastValues, baseValues, stepValues, upTo]
  · have hlen : i < r.holes.length := by simpa [baseValues, stepValues, upTo] using hi
    simp [lastValues, baseValues, stepValues, upTo, List.getElem?_range hlen]

/-- The misfit that a replay reports: its index, its iteration and itself. -/
def replayMisfit (cx : Ctx) (w : GE) (r : Recording) : Option (Nat × Nat × Int) :=
  match firstMisfit r.block 0 r.holes (baseValues cx w r), firstMisfit r.block 0 r.holes (lastValues cx w r) with
  | some (i, v), some (k, u) => if i ≤ k then some (i, 0, v) else some (k, max w.len.toNat 1 - 1, u)
  | some (i, v), none => some (i, 0, v)
  | none, some (k, u) => some (k, max w.len.toNat 1 - 1, u)
  | none, none => none

theorem replayMisfit_none (hbase : firstMisfit r.block 0 r.holes (baseValues cx w r) = none)
    (hlast : firstMisfit r.block 0 r.holes (lastValues cx w r) = none) : replayMisfit cx w r = none := by simp [replayMisfit, hbase, hlast]

theorem replayMisfit_base {k : Nat} {x : Int} (hbase : firstMisfit r.block 0 r.holes (baseValues cx w r) = some (k, x))
    (hlast : ∀ k' x', firstMisfit r.block 0 r.holes (lastValues cx w r) = some (k', x') → k ≤ k') : replayMisfit cx w r = some (k, 0, x) := by
  cases hl : firstMisfit r.block 0 r.holes (lastValues cx w r) with
  | none => simp [replayMisfit, hbase, hl]
  | some p => simp [replayMisfit, hbase, hl, hlast p.1 p.2 hl]

theorem replayMisfit_last {k : Nat} {x : Int} (hlast : firstMisfit r.block 0 r.holes (lastValues cx w r) = some (k, x))
    (hbase : ∀ k' x', firstMisfit r.block 0 r.holes (baseValues cx w r) = some (k', x') → k < k') :
    replayMisfit cx w r = some (k, max w.len.toNat 1 - 1, x) := by
  cases hb : firstMisfit r.block 0 r.holes (baseValues cx w r) with
  | none => simp [replayMisfit, hlast, hb]
  | some p => simp [replayMisfit, hlast, hb, Nat.not_le.2 (hbase p.1 p.2 hb)]

/-- The item that a replay queues. -/
def replayItem (cx : Ctx) (w : GE) (r : Recording) : SeqItem :=
  .replay w.ch.toNat w.id.toNat r (baseValues cx w r) (stepValues cx w r) (max w.len.toNat 1) 0

theorem replay_registers (hfirst : r.holes.length ≠ 0 → w.sb.toNat + r.holes.length ≤ 256)
    (hsteps : 1 ≤ w.len.toNat → w.sb.toNat + 7 + r.holes.length ≤ 255) :
    ¬ ((r.holes.length ≠ 0 ∧ 255 < w.sb.toNat + r.holes.length - 1) ∨ (1 ≤ w.len.toNat ∧ 255 < w.sb.toNat + 7 + r.holes.length)) := by
  omega

/-- How a replay of a recording ends, once its checks have passed. -/
def replayEnd (s : State) (q c : Nat) (sq : Squad) (cx : Ctx) (w : GE) (r : Recording) : GenRes :=
  match replayMisfit cx w r with
  | some (k, j, x) => holeTrap s k j x
  | none => (genIn s q c sq cx).finish (cx.queue (replayItem cx w r))

section ready

variable (h : GenReady s q c sq cx (.replay w) 0) (hroom : cx.seq.length < 2) (huse : s.streamUse q c sq cx w.ch.toNat = .ok)
  (hrec : aget? sq.playbook w.id.toNat = some r) (hfirst : r.holes.length ≠ 0 → w.sb.toNat + r.holes.length ≤ 256)
  (hsteps : 1 ≤ w.len.toNat → w.sb.toNat + 7 + r.holes.length ≤ 255)

include h hroom huse hrec hfirst hsteps

theorem exec_replay : exec (.replay w) s = genRun (.replay w) 0 (fun _ => replayEnd s q c sq cx w r) s := by
  refine (Eq.refl (execReplay w s)).trans (genRun_congr h ?_)
  simp only [genIn_cx, genIn_sq, seqFull_eq_false hroom, hrec, Bool.false_eq_true, if_false, if_neg (replay_registers hfirst hsteps), stepValues_eq,
    baseValues_eq, lastValues_eq, withStream_ok huse, replayEnd, replayMisfit]
  cases firstMisfit r.block 0 r.holes (baseValues cx w r) with
  | none => cases firstMisfit r.block 0 r.holes (lastValues cx w r) <;> rfl
  | some p =>
    cases firstMisfit r.block 0 r.holes (lastValues cx w r) with
    | none => rfl
    | some p' => by_cases hle : p.1 ≤ p'.1 <;> simp [hle]

theorem exec_replay_queues (hfit : replayMisfit cx w r = none) :
    exec (.replay w) s = .next ((s.modCtx q c fun y => y.queue (replayItem cx w r)).genRetire q c sq cx (.replay w) Ctx.advance) := by
  refine (exec_replay h hroom huse hrec hfirst hsteps).trans (genRun_done h ?_)
  rw [replayEnd, hfit]
  exact congrArg GenRes.done (modCtx_const (ctx_of_ready h) (·.queue (replayItem cx w r))).symm

theorem exec_replay_misfit {k j : Nat} {x : Int} (hfit : replayMisfit cx w r = some (k, j, x)) :
    exec (.replay w) s = .next (s.ctxTrap q c .holeRange [BitVec.ofNat 64 k, BitVec.ofNat 64 j, BitVec.ofInt 64 x, 0] (cx.gap (.replay w))) := by
  refine (exec_replay h hroom huse hrec hfirst hsteps).trans (genRun_trap h ?_)
  rw [replayEnd, hfit]
  rfl

end ready

theorem exec_replay_none (h : GenReady s q c sq cx (.replay w) 0) (hroom : cx.seq.length < 2) (hid : aget? sq.playbook w.id.toNat = none) :
    exec (.replay w) s = .next (s.ctxTrap q c .playbookId [BitVec.ofNat 64 w.id.toNat, 0, 0, 0]) := by
  refine (Eq.refl (execReplay w s)).trans (genRun_trap h ?_)
  simp only [genIn_cx, genIn_sq, seqFull_eq_false hroom, hid]
  rfl

end replay

/-! ## PBDROP (R232) -/

section pbdrop

variable {w : GR} (h : GenReady s q c sq cx (.pbdrop w) w.cnd)

include h

theorem exec_pbdrop_drops (hid : (aget? sq.playbook (w.imm.toNat % 4096)).isSome = true) :
    exec (.pbdrop w) s =
      .next ((s.modSquad q fun y => { y with playbook := adel y.playbook (w.imm.toNat % 4096) }).genRetire q c sq cx (.pbdrop w) Ctx.advance) := by
  obtain ⟨r, hr⟩ := Option.isSome_iff_exists.1 hid
  refine (Eq.refl (execPbdrop w s)).trans (genRun_done h ?_)
  simp only [fieldN_low, genIn_sq, Nat.reducePow, hr]
  rfl

theorem exec_pbdrop_none (hid : aget? sq.playbook (w.imm.toNat % 4096) = none) :
    exec (.pbdrop w) s = .next (s.ctxTrap q c .playbookId [BitVec.ofNat 64 (w.imm.toNat % 4096), 0, 0, 0]) := by
  refine (Eq.refl (execPbdrop w s)).trans (genRun_trap h ?_)
  simp only [fieldN_low, genIn_sq, Nat.reducePow, hid]
  rfl

end pbdrop

/-- Settles O30: EMIT and REC share the reading of their block, and a replay ends as `replayMisfit` says. -/
theorem emissionWordsQueueTheirStretches : Obligations.EmissionWordsQueueTheirStretches := by
  intro s q c sq cx v queue waits hole id
  refine ⟨?_, fun w h => ⟨exec_pbdrop_drops h, exec_pbdrop_none h⟩⟩
  intro w ch vs free
  refine ⟨?clause, ?emit, ?replay⟩
  case clause =>
    intro i hi h k hk hlen
    obtain ⟨store, hexec⟩ := exec_emission hi
    refine (hexec s).trans ((genRun_trap h (emit_clause (not_lastInClause hk hlen))).trans ?_)
    rw [gap_of_not_last hi hk hlen]
  case emit =>
    intro i hi h hclause
    have hlast := lastInClause_of hclause
    obtain ⟨store, hexec⟩ := exec_emission hi
    refine ⟨fun hfull => (hexec s).trans (genRun_wait h (emit_full hlast hfull)), ?_⟩
    intro hs b next s' ⟨hroom, huse⟩ hread
    refine ⟨fun k x hfit => (hexec s).trans (genRun_trap h (emit_misfit hlast hroom huse hread hfit)), fun hfit => ⟨?_, ?_⟩⟩
    · rintro rfl
      exact (Eq.refl (execEmit w s)).trans (genRun_goto h (emit_stored hlast hroom huse hread hfit rfl))
    · rintro rfl sq1 hsq new stops _
      exact ⟨exec_recw_stands hlast hroom huse hread h hfit hsq, exec_recw_beyond hlast hroom huse hread h hfit hsq,
        fun hid hwords => ⟨_, exec_recw_keeps hlast hroom huse hread h hfit hsq hid hwords, kept_squad .., rfl⟩⟩
  case replay =>
    intro h
    refine ⟨fun hfull => ?_, fun hid hroom => ?_, ?_⟩
    · exact (Eq.refl (execReplay w s)).trans (genRun_wait h (if_pos (seqFull_eq_true hfull)))
    · exact exec_replay_none h hroom hid
    · intro r hrec ⟨hroom, huse⟩ _ n base step last hfirst hsteps
      have hends {k j x} := exec_replay_misfit (k := k) (j := j) (x := x) h hroom huse hrec hfirst hsteps
      exact ⟨fun hb hl => exec_replay_queues h hroom huse hrec hfirst hsteps (replayMisfit_none hb hl),
        fun k x hb hl => hends (replayMisfit_base hb hl), fun k x hl hb => hends (replayMisfit_last hl hb)⟩

end Sys2Proof.Machine.Emission
end

section
/-! PROOFS. The steps of the Lineup and the distributor (18_die_tasks.md R366, R367, R372 to R376) and the end of squads (09_cluster_generator.md R221). -/

namespace Sys2Proof.Machine.TaskSteps

variable {s : State}

/-! ## Readiness, levels and retirement (R367, R372) -/

section task

variable {t : Task}

/-- A task is gone when the tables hold none, or a retired one. -/
theorem gone_iff {k : Nat} : s.gone k = true ↔ ∀ u, s.task k = some u → u.phase = .retired := by
  unfold State.gone
  cases s.task k <;> simp

theorem all_gone {l : List Nat} (h : ∀ k ∈ l, ∀ u, s.task k = some u → u.phase = .retired) : l.all s.gone = true :=
  List.all_eq_true.2 fun k hk => gone_iff.2 (h k hk)

theorem isReady_of (hphase : t.phase = .waiting) (hdeps : ∀ k ∈ t.deps, ∀ u, s.task k = some u → u.phase = .retired) (hscore : s.scoreReady t = true) :
    s.isReady t = true := by
  rw [State.isReady, hphase, all_gone hdeps, hscore]
  rfl

theorem inLine_of (h : t.phase = .ready ∨ t.phase = .running ∧ t.requeue ≠ []) : t.inLine = true := by
  simpa [Task.inLine] using h

/-- A change of a task matters at the task that stands. -/
theorem modTask_congr {k : Nat} {f g : Task → Task} (h : s.task k = some t) (hfg : f t = g t) : s.modTask k f = s.modTask k g := by
  simp only [State.modTask, h, hfg]

variable (ht : s.task s.operand.a = some t)

include ht

theorem exec_taskReady (h : s.isReady t = true) : exec .taskReady s = .next (s.modTask t.id fun y => y.enterLine s.now) := by
  change evTaskReady s = _
  simp only [evTaskReady, ht, h, if_true]

theorem exec_lineupRise (hline : t.inLine = true) (hlevel : t.level < 7) (hdue : t.entered + 2000000 ≤ s.now) :
    exec .lineupRise s = .next (s.modTask t.id fun y => { y with level := y.level + 1, entered := y.entered + 2000000 }) := by
  change evLineupRise s = _
  simp only [evLineupRise, ht, if_pos (And.intro hline (And.intro hlevel hdue))]

theorem exec_taskRetire (hphase : t.phase = .completed) (hend : t.killed = true ∨ t.uncommitted = false) :
    exec .taskRetire s = .next (s.retireTask t) := by
  change evTaskRetire s = _
  have hend : t.killed ∨ !t.uncommitted := by simpa using hend
  simp only [evTaskRetire, ht, if_pos (And.intro hphase hend)]

end task

/-! ## Placing (R374 to R376) -/

section place

variable {t : Task}

theorem placing_of (h : s.firmware.state = .active ∧ s.fatal = false) : s.placing = true := by
  obtain ⟨hstate, hfatal⟩ := h
  rw [State.placing, hstate, hfatal]
  rfl

/-- A task that has its channel image is placed as it is. -/
theorem withImage_of_isSome {f : State → Task → State} (h : t.image0.isSome = true) : s.withImage t f = f s t := if_pos h

section fresh

variable (ht : s.lineHead s.operand.a = some t) (hplacing : s.placing = true) (hnone : s.requeued t = none)

include ht hplacing hnone

theorem exec_taskPlace_excl (hexcl : t.excl = true) : exec .taskPlace s = .next (s.holdCluster t) := by
  change evTaskPlace s = _
  simp [evTaskPlace, ht, hplacing, hnone, hexcl]

theorem exec_taskPlace_evicts (hexcl : t.excl = false) (hfit : s.preferred t (s.fitting t (s.operand.b == 1)) = none) :
    exec .taskPlace s = .next (s.evictFor t (s.operand.b == 1)) := by
  change evTaskPlace s = _
  simp only [evTaskPlace, ht, hplacing, hnone, hexcl, hfit]
  rfl

theorem exec_taskPlace_places {cl : Nat} {cores : List (Nat × Bool)} (hexcl : t.excl = false)
    (hfit : s.preferred t (s.fitting t (s.operand.b == 1)) = some (cl, cores)) (himage : t.image0.isSome = true) :
    exec .taskPlace s = .next ((if t.placed = 0 then s.begin t.id else s).placeNext t.id cl cores s.now) := by
  change evTaskPlace s = _
  simp only [evTaskPlace, ht, hplacing, hnone, hexcl, hfit, withImage_of_isSome himage]
  rfl

end fresh

section again

variable {q : Nat} {sq : Squad} (ht : s.lineHead s.operand.a = some t) (hplacing : s.placing = true) (hsome : s.requeued t = some (q, sq))

theorem requeued_of {i : Nat} {rest : List Nat} (hq : t.requeue = i :: rest) (hsq : s.squad (t.keyBase + i) = some sq) :
    s.requeued t = some (t.keyBase + i, sq) := by
  simp [State.requeued, hq, hsq]

include ht hplacing hsome

theorem exec_taskPlace_resumes (hfit : s.fitsAgain q sq = true) : exec .taskPlace s = .next (s.resumeSquad t.id q sq) := by
  change evTaskPlace s = _
  simp [evTaskPlace, ht, hplacing, hsome, hfit]

theorem exec_taskPlace_held (hfit : s.fitsAgain q sq = false) (hother : s.exclOther q sq.cluster = true) : exec .taskPlace s = .next s := by
  change evTaskPlace s = _
  simp [evTaskPlace, ht, hplacing, hsome, hfit, hother]

theorem exec_taskPlace_makesRoom (hfit : s.fitsAgain q sq = false) (hother : s.exclOther q sq.cluster = false) :
    exec .taskPlace s = .next ((s.makeRoom [sq.cluster] t.level (·.fitsAgain q sq)).getD s) := by
  change evTaskPlace s = _
  simp [evTaskPlace, ht, hplacing, hsome, hfit, hother]

end again

end place

/-! ## QUANTUM_EXPIRY (R375) -/

section quantum

variable {sq : Squad} (hsq : s.squad s.operand.a = some sq) (hoff : sq.off = false)

/-- Every team and context of a squad that is asked for is saved. -/
def savedAll (sq : Squad) : Bool := sq.teams.all (·.evicted) && sq.ctxs.all fun cx => cx.preempted || cx.exited

/-- A saved squad leaves its cluster and waits in the Lineup at the head of its level. -/
def takenOff (s : State) (q : Nat) (sq : Squad) : State :=
  let z := (s.modSquad q fun x => { x with off := true }).repoint sq.cluster
  ({ z with serial := z.serial + 1 } : State).modTask sq.task fun y => { y with
    requeue := (y.requeue ++ [sq.instance_]).mergeSort fun i j => decide (i ≤ j), front := z.serial + 2, level := y.prio, entered := z.now }

include hsq hoff

theorem exec_quantumExpiry_expired (hexp : sq.expired = true) :
    exec .quantumExpiry s = .next (if savedAll sq then takenOff s s.operand.a sq else s) := by
  change evQuantumExpiry s = _
  simp only [evQuantumExpiry, hsq, hoff, hexp]
  rfl

theorem exec_quantumExpiry_running {h : Task} (hexp : sq.expired = false) (hhead : s.lineHead (dieOf sq.cluster) = some h) :
    exec .quantumExpiry s =
      .next (if sq.spent s.now ∧ h.level = s.prioOf sq ∧ s.stuckAt h sq.cluster then s.askSquad s.operand.a else s) := by
  change evQuantumExpiry s = _
  simp only [evQuantumExpiry, hsq, hoff, hexp, hhead]
  rfl

omit hsq hoff in
/-- A head task is stuck when it fits nowhere, or when its pre-empted squad does not fit this cluster again. -/
theorem stuckAt_iff {h : Task} {cl : Nat} : s.stuckAt h cl = true ↔
    (s.requeued h = none ∧ h.excl = false ∧ s.fitting h false = [])
      ∨ ∃ q' sq', s.requeued h = some (q', sq') ∧ sq'.cluster = cl ∧ s.fitsAgain q' sq' = false := by
  unfold State.stuckAt
  rcases s.requeued h with _ | ⟨q', sq'⟩ <;> simp

end quantum

/-! ## EXCL_LOAD (R376) -/

section excl

variable {key : Nat} (hkey : (s.cluster s.operand.a).excl = some key)

/-- The EXCL task whose next squad a key names. -/
def exclNext (s : State) (key : Nat) : Option (Nat × Task) :=
  s.tasks.find? fun p => p.2.keyBase + p.2.placed == key && p.2.excl && p.2.phase == TaskPhase.ready

/-- A squad holds a cluster that is being cleared. -/
def holds (s : State) (cl : Nat) (p : Nat × Squad) : Bool := p.2.cluster == cl && (!p.2.off || s.copying p.1)

theorem copying_iff {q : Nat} : s.copying q = true ↔ ∃ x ∈ s.copies, x.2.q = q ∧ (x.2.state = .queued ∨ x.2.state = .running) := by
  simp [State.copying]

theorem holds_iff {cl : Nat} {p : Nat × Squad} : holds s cl p = true ↔
    p.2.cluster = cl ∧ (p.2.off = false ∨ ∃ x ∈ s.copies, x.2.q = p.1 ∧ (x.2.state = .queued ∨ x.2.state = .running)) := by
  rw [holds, Bool.and_eq_true, Bool.or_eq_true, copying_iff, beq_iff_eq, Bool.not_eq_true']

include hkey

theorem exec_exclLoad_asks (hheld : s.squads.any (holds s s.operand.a) = true) : exec .exclLoad s = .next (s.askDrained s.operand.a) := by
  change evExclLoad s = _
  simp only [evExclLoad, hkey]
  exact congrArg Host.Outcome.next (if_pos hheld)

variable (hfree : s.squads.any (holds s s.operand.a) = false) (hplacing : s.placing = true) (hnone : s.squad key = none)

include hfree hplacing hnone

theorem exec_exclLoad_loads {k : Nat} {t : Task} {cores : List (Nat × Bool)} (hnext : exclNext s key = some (k, t))
    (hfit : s.fits t s.operand.a false = some cores) :
    exec .exclLoad s = .next (s.placeNext k s.operand.a cores (s.cluster s.operand.a).exclAt) := by
  change evExclLoad s = _
  unfold holds at hfree
  unfold exclNext at hnext
  simp [evExclLoad, hkey, hfree, hplacing, hnone, hnext, hfit]

theorem exec_exclLoad_gives_up (hnext : exclNext s key = none) :
    exec .exclLoad s = .next (s.modCluster s.operand.a fun c => { c with excl := none }) := by
  change evExclLoad s = _
  unfold holds at hfree
  unfold exclNext at hnext
  simp only [evExclLoad, hkey, hfree, hplacing, hnone, hnext]
  rfl

end excl

/-! ## VERSION_FOLD (R366) -/

section fold

variable {v : Version}

theorem folds_of (hpred : v.predicted = false) (hgone : ∀ k ∈ v.writers ++ v.readers ++ v.after, ∀ u, s.task k = some u → u.phase = .retired)
    (hfirst : ∀ u ∈ s.versionsOf v.die v.owner, ¬ (u.key < v.key ∧ meets (u.lo, u.hi) (v.lo, v.hi) = true)) : s.folds v = true := by
  have hany : ((s.versionsOf v.die v.owner).any fun u => decide (u.key < v.key) && meets (u.lo, u.hi) (v.lo, v.hi)) = false :=
    List.any_eq_false.2 fun u hu => by simpa using hfirst u hu
  rw [State.folds, hpred, all_gone hgone, hany]
  rfl

theorem exec_versionFold (hv : aget? s.versions s.operand.a = some v) (h : s.folds v = true) : exec .versionFold s = .next (s.foldVersion v) := by
  change evVersionFold s = _
  simp only [evVersionFold, hv, h, if_true]

/-- A version that no task has begun leaves memory as it is. -/
theorem foldVersion_unstarted (h : v.started = false) : s.foldVersion v = { s with versions := adel s.versions v.key } := by
  simp [State.foldVersion, h]

/-- The state with a version's one line written home. -/
def lineFolded (s z : State) (v : Version) (pa : Nat) (zor : Bool) : State :=
  z.lateWrite v.owner (((v.writers.head?.bind s.task).map (·.keyBase)).getD 0) (v.lo * 128) pa 128 fun y => y.copyLine v.owner false v.pa zor pa

theorem foldVersion_line {pa : Nat} {zor : Bool} {z : State} (hstart : v.started = true) (hline : v.hi = v.lo + 1)
    (hhome : s.homeLine v.die v.owner v.lo = (some (pa, zor), z)) :
    s.foldVersion v = { lineFolded s z v pa zor with versions := adel (lineFolded s z v pa zor).versions v.key } := by
  have hlines : linesIn v.lo v.hi = [v.lo] := by simp [linesIn, hline, upTo]
  simp [State.foldVersion, hstart, hlines, hhome, lineFolded]

theorem lineFolded_free {pa : Nat} {zor : Bool} {z : State} (hguard : z.guardPa pa 128 true = none) :
    lineFolded s z v pa zor = z.copyLine v.owner false v.pa zor pa := by
  simp only [lineFolded, State.lateWrite, hguard]

theorem copyLine_ok {owner pa pa' : Nat} {zor zor' : Bool} {y : State} (h : s.linesCheck owner zor [pa / 128] = (.ok (), y)) :
    s.copyLine owner zor pa zor' pa' = y.writeMem owner zor' pa' (y.bytesAt owner zor pa 128) := by
  simp only [State.copyLine, h]

theorem copyLine_error {owner pa pa' : Nat} {zor zor' : Bool} {y : State} {e : MemFail} (h : s.linesCheck owner zor [pa / 128] = (.error e, y)) :
    s.copyLine owner zor pa zor' pa' =
      let z := y.writeMem owner zor' pa' (y.bytesAt owner zor pa 128)
      { z with poison := pa' / 128 :: z.poison.filter (· != pa' / 128) } := by
  simp only [State.copyLine, h]

/-- A line whose home has been sealed or given to a region since is not written, and the Umpire hears of it. -/
theorem lineFolded_violates {pa code p o : Nat} {zor : Bool} {z : State} (hguard : z.guardPa pa 128 true = some (.violation code p o)) :
    ∃ u, lineFolded s z v pa zor = z.violate none u ∧ u.code = code ∧ u.pa = p ∧ u.va = v.lo * 128 := by
  simp only [lineFolded, State.lateWrite, hguard]
  exact ⟨_, rfl, rfl, rfl, rfl⟩

end fold

/-! ## SQUAD_EXIT (R221) -/

theorem exec_squadExit {sq : Squad} (hsq : s.squad s.operand.a = some sq) (hctxs : ∀ cx ∈ sq.ctxs, cx.exited = true ∧ cx.pending = [] ∧ cx.seq = [])
    (hteams : ∀ tm ∈ sq.teams, tm.ended = true) (hcopies : s.copying s.operand.a = false) :
    exec .squadExit s = .next ((s.reclaim s.operand.a).modTask sq.task fun t => t.exit sq.instance_).wakeTasks := by
  change evSquadExit s = _
  have hall : sq.ctxs.all (fun cx => cx.exited && cx.pending.isEmpty && cx.seq.isEmpty) = true :=
    List.all_eq_true.2 fun cx hcx => by simpa [and_assoc] using hctxs cx hcx
  simp only [evSquadExit, hsq, hall, List.all_eq_true.2 hteams, hcopies]
  rfl

/-- Settles O46: each step by what its event does once its conditions hold; a fold of one line by where its home is and by what reading it meets. -/
theorem taskStepsTakeEffect : Obligations.TaskStepsTakeEffect := by
  intro s goes a gone active
  refine ⟨?task, ?place, ?again, ?quantum, ?excl, ?unstarted, ?started, ?exit⟩
  case task =>
    intro t ht hid
    refine ⟨fun hphase hdeps hscore => ?_, fun hline hlevel hdue => ?_, fun hphase hend => exec_taskRetire ht hphase hend⟩
    · have hready := exec_taskReady ht (isReady_of hphase hdeps hscore)
      rw [hid] at hready
      exact hready.trans (congrArg Host.Outcome.next (modTask_congr ht rfl))
    · rw [← hid]
      exact exec_lineupRise ht (inLine_of hline) hlevel hdue
  case place =>
    intro t ht hactive hnone priv
    have hplacing := placing_of hactive
    refine ⟨fun hexcl cl cores hfit himage => ?_, exec_taskPlace_evicts ht hplacing hnone, exec_taskPlace_excl ht hplacing hnone⟩
    have hplace := exec_taskPlace_places ht hplacing hnone hexcl hfit himage
    exact ⟨fun hnext => by rwa [if_neg hnext] at hplace, fun hfirst => by rwa [if_pos hfirst] at hplace⟩
  case again =>
    intro t i rest sq ht hactive hq hsq q
    have hplacing := placing_of hactive
    have hsome := requeued_of hq hsq
    refine ⟨exec_taskPlace_resumes ht hplacing hsome, exec_taskPlace_held ht hplacing hsome, fun hfit hother => ?_⟩
    have hroom := exec_taskPlace_makesRoom ht hplacing hsome hfit hother
    exact ⟨fun z hz => by rwa [hz] at hroom, fun hz => by rwa [hz] at hroom⟩
  case quantum =>
    intro sq hsq hoff
    refine ⟨fun hexp hteams hctxs => ?saved, fun hexp hleft => ?unsaved, ?running⟩
    case saved =>
      have hsaved : savedAll sq = true := by
        simp only [savedAll, Bool.and_eq_true, List.all_eq_true, Bool.or_eq_true]
        exact ⟨hteams, hctxs⟩
      exact (exec_quantumExpiry_expired hsq hoff hexp).trans (congrArg Host.Outcome.next (if_pos hsaved))
    case unsaved =>
      have hsaved : ¬ savedAll sq = true := by
        simp only [savedAll, Bool.and_eq_true, List.all_eq_true, Bool.or_eq_true]
        rintro ⟨hteams, hctxs⟩
        rcases hleft with ⟨tm, htm, hno⟩ | ⟨cx, hcx, hno, hno'⟩
        · simp [hteams tm htm] at hno
        · simpa [hno, hno'] using hctxs cx hcx
      exact (exec_quantumExpiry_expired hsq hoff hexp).trans (congrArg Host.Outcome.next (if_neg hsaved))
    case running =>
      intro h hexp hhead stuck
      refine ⟨fun hspent hlevel hstuck => ?_, fun hnot => ?_⟩
      · exact (exec_quantumExpiry_running hsq hoff hexp hhead).trans
          (congrArg Host.Outcome.next (if_pos ⟨decide_eq_true hspent, hlevel, stuckAt_iff.2 hstuck⟩))
      · refine (exec_quantumExpiry_running hsq hoff hexp hhead).trans (congrArg Host.Outcome.next (if_neg ?_))
        rintro ⟨hspent, hlevel, hstuck⟩
        exact hnot ⟨of_decide_eq_true hspent, hlevel, stuckAt_iff.1 hstuck⟩
  case excl =>
    intro key hkey held
    refine ⟨fun ⟨p, hp, hheld⟩ => exec_exclLoad_asks hkey (List.any_eq_true.2 ⟨p, hp, holds_iff.2 hheld⟩), fun hfree hactive hnone => ?_⟩
    have hfree : s.squads.any (holds s s.operand.a) = false := List.any_eq_false.2 fun p hp h => hfree p hp (holds_iff.1 h)
    exact ⟨fun k t cores hnext hfit => exec_exclLoad_loads hkey hfree (placing_of hactive) hnone hnext hfit,
      exec_exclLoad_gives_up hkey hfree (placing_of hactive) hnone⟩
  case unstarted =>
    intro v hv hid hpred hstart hgone hfirst
    rw [← hid]
    exact (exec_versionFold hv (folds_of hpred hgone hfirst)).trans (congrArg Host.Outcome.next (foldVersion_unstarted hstart))
  case started =>
    intro v l pa zor z hv hid hpred hstart hlo hhi hgone hfirst hhome
    subst hlo
    have hfold := (exec_versionFold hv (folds_of hpred hgone hfirst)).trans (congrArg Host.Outcome.next (foldVersion_line hstart hhi hhome))
    rw [hid] at hfold
    refine ⟨fun hguard y => ?home, fun code p o hguard => ?sealed⟩
    case home =>
      rw [lineFolded_free hguard] at hfold
      exact ⟨fun hok => by rwa [copyLine_ok hok] at hfold, fun e he => by rwa [copyLine_error he] at hfold⟩
    case sealed =>
      obtain ⟨u, hu, hcode, hpa, hva⟩ := lineFolded_violates (s := s) (v := v) (zor := zor) hguard
      rw [hu] at hfold
      exact ⟨u, hfold, hcode, hpa, hva⟩
  case exit =>
    intro sq hsq hctxs hteams hcopies
    refine exec_squadExit hsq hctxs hteams (Bool.eq_false_iff.2 fun hcopying => ?_)
    obtain ⟨x, hx, hq, hstate⟩ := copying_iff.1 hcopying
    exact hstate.elim (hcopies x hx hq).1 (hcopies x hx hq).2

end Sys2Proof.Machine.TaskSteps
end

section
/-! PROOFS. CHSEND, CHRECV and CHSET (10_cluster_engines.md R261, R262, R264). -/

namespace Sys2Proof.Machine.Mailboxes

open LaneAlu (fieldN_low)
open VotesRead (aget?_map_value)
open Emission (genRun_congr)

variable {s : State} {q c : Nat} {sq : Squad} {cx : Ctx} {w : GR}

/-! ## Words that act on the mailbox of a channel (R262, R264) -/

section mailbox

variable {i : Instr} {cnd : BitVec 4} {ch bit : Nat} {act : GenIn → Nat → Nat → Mailbox → GenRes}

theorem exec_mailbox (hi : exec i s = genRun i cnd (fun x => x.withMailbox ch bit (act x)) s) (h : GenReady s q c sq cx i cnd) {d j : Nat} {m : Mailbox}
    (hm : s.mailUse cx ch bit = .ok d j m) : exec i s = genRun i cnd (fun x => act x d j m) s :=
  hi.trans (genRun_congr h (by simp [GenIn.withMailbox, hm]))

theorem exec_noPermission (hi : exec i s = genRun i cnd (fun x => x.withMailbox ch bit (act x)) s) (h : GenReady s q c sq cx i cnd)
    (hm : s.mailUse cx ch bit = .perm) : exec i s = .next (s.ctxTrap q c .channelPerm [BitVec.ofNat 64 ch, 0, 0, 0] (cx.gap i)) :=
  hi.trans (genRun_trap h (by simp [GenIn.withMailbox, hm]))

theorem exec_noMailbox (hi : exec i s = genRun i cnd (fun x => x.withMailbox ch bit (act x)) s) (h : GenReady s q c sq cx i cnd)
    (hm : s.mailUse cx ch bit = .invalid) : exec i s = .next (s.ctxTrap q c .channelInvalid [BitVec.ofNat 64 ch, 0, 0, 0] (cx.gap i)) :=
  hi.trans (genRun_trap h (by simp [GenIn.withMailbox, hm]))

end mailbox

/-- What CHSEND does with the mailbox that it finds. -/
def sends (w : GR) (x : GenIn) (d i : Nat) (m : Mailbox) : GenRes :=
  if 16 ≤ m.msgs.length then .wait (.mailbox d i (w.imm.toNat % 64) true) x.s
  else .done (x.s.setMailbox d i { m with msgs := m.msgs ++ [x.rd.S w.a.toNat] })

theorem exec_chsend_speculative (h : GenReady s q c sq cx (.chsend w) w.cnd) (hspec : s.speculative sq = true) :
    exec (.chsend w) s = .next (s.modCtx q c fun y => { y with wait := some .spec }) :=
  (Eq.refl (execChsend w s)).trans (genRun_wait h (if_pos hspec))

theorem exec_chsend_committed (h : GenReady s q c sq cx (.chsend w) w.cnd) (hspec : s.speculative sq = false) :
    exec (.chsend w) s = genRun (.chsend w) w.cnd (fun x => x.withMailbox (w.imm.toNat % 64) 3 (sends w x)) s := by
  have hch : fieldN w.imm.toNat 0 6 = w.imm.toNat % 64 := fieldN_low ..
  refine (Eq.refl (execChsend w s)).trans (genRun_congr h ((if_neg (Bool.eq_false_iff.1 hspec)).trans ?_))
  rw [hch]
  rfl

/-- What CHRECV does with the mailbox that it finds. -/
def receives (w : GR) (x : GenIn) (d i : Nat) (m : Mailbox) : GenRes :=
  match m.msgs with
  | v :: rest =>
    .done (((x.s.setMailbox d i { m with msgs := rest }).modCtx x.q x.c fun cx => { cx.setS w.d.toNat v with cc := ccZ false }).l1Clear x.sq.cluster)
  | [] =>
    if w.fn.getLsbD 0 then x.finish { x.cx.setS w.d.toNat 0 with cc := ccZ true } else .wait (.mailbox d i (w.imm.toNat % 64) false) x.s

theorem exec_chrecv : exec (.chrecv w) s = genRun (.chrecv w) w.cnd (fun x => x.withMailbox (w.imm.toNat % 64) 4 (receives w x)) s := by
  have hch : fieldN w.imm.toNat 0 6 = w.imm.toNat % 64 := fieldN_low ..
  refine (Eq.refl (execChrecv w s)).trans ?_
  unfold execChrecv
  rw [hch]
  rfl

theorem receives_message (x : GenIn) (d i : Nat) {m : Mailbox} {v : DWord} {rest : List DWord} (hm : m.msgs = v :: rest) :
    receives w x d i m = .done (((x.s.setMailbox d i { m with msgs := rest }).modCtx x.q x.c fun y =>
      { y.setS w.d.toNat v with cc := ccZ false }).l1Clear x.sq.cluster) := by
  simp [receives, hm]

theorem receives_none (x : GenIn) (d i : Nat) {m : Mailbox} (hm : m.msgs = []) :
    receives w x d i m = if w.fn.getLsbD 0 then x.finish { x.cx.setS w.d.toNat 0 with cc := ccZ true }
      else .wait (.mailbox d i (w.imm.toNat % 64) false) x.s := by
  simp [receives, hm]

/-! ## CHSET (R261) -/

/-- A squad whose contexts have an entry written, when it is one of task k. -/
def entered (k ch : Nat) (ws : List DWord) (y : Squad) : Squad :=
  if y.task = k then { y with ctxs := y.ctxs.map (·.setChan ch ws) } else y

theorem entered_ctxs (k ch : Nat) (ws : List DWord) (y : Squad) :
    (entered k ch ws y).ctxs = if y.task = k then y.ctxs.map (·.setChan ch ws) else y.ctxs := by
  unfold entered
  split <;> rfl

/-- A squad of a table, with the entry written. -/
def enteredAt (k ch : Nat) (ws : List DWord) (p : Nat × Squad) : Nat × Squad :=
  if p.2.task = k then (p.1, { p.2 with ctxs := p.2.ctxs.map (·.setChan ch ws) }) else p

theorem aget?_map_enteredAt {l : List (Nat × Squad)} {j : Nat} {y : Squad} (k ch : Nat) (ws : List DWord) (h : aget? l j = some y) :
    aget? (l.map (enteredAt k ch ws)) j = some (entered k ch ws y) := by
  have hmap : l.map (enteredAt k ch ws) = l.map fun p => (p.1, entered k ch ws p.2) :=
    List.map_congr_left fun p _ => by unfold enteredAt entered; split <;> rfl
  rw [hmap, aget?_map_value, h]
  rfl

/-- The entry of task k in its image and, for a task that has been placed, among the entries settled. -/
def noted (s : State) (k ch : Nat) (ws : List DWord) : State :=
  (if (s.task k).any (·.keyBase != 0) then s.addStream k ch ws else s).modTask k fun t => { t with image := aset t.image ch ws }

theorem noted_squads (s : State) (k ch : Nat) (ws : List DWord) : (noted s k ch ws).squads = s.squads := by
  rw [noted, State.modTask_squads]
  split <;> rfl

theorem noted_saves (s : State) (k ch : Nat) (ws : List DWord) : (noted s k ch ws).saves = s.saves := by
  rw [noted, State.modTask_saves]
  split <;> rfl

theorem noted_mem (s : State) (k ch : Nat) (ws : List DWord) : (noted s k ch ws).mem = s.mem := by
  rw [noted, State.modTask_mem]
  split <;> rfl

/-- The entry of every context of task k written, before the owners of teams are settled. -/
def written (s : State) (k ch : Nat) (ws : List DWord) : State :=
  { noted s k ch ws with squads := (noted s k ch ws).squads.map (enteredAt k ch ws), saves := (noted s k ch ws).saves.map (enteredAt k ch ws) }

theorem squad_written {j : Nat} {y : Squad} (k ch : Nat) (ws : List DWord) (h : s.squad j = some y) :
    (written s k ch ws).squad j = some (entered k ch ws y) :=
  aget?_map_enteredAt k ch ws ((congrArg (aget? · j) (noted_squads s k ch ws)).trans h)

theorem save_written {j : Nat} {y : Squad} (k ch : Nat) (ws : List DWord) (h : aget? s.saves j = some y) :
    aget? (written s k ch ws).saves j = some (entered k ch ws y) :=
  aget?_map_enteredAt k ch ws ((congrArg (aget? · j) (noted_saves s k ch ws)).trans h)

theorem exec_chset (h : GenReady s q c sq cx (.chset w) w.cnd) (hpriv : sq.priv = true) :
    exec (.chset w) s = .next ((written s (cx.S w.b.toNat).toNat (w.imm.toNat % 64) ((genIn s q c sq cx).chanWords w.a.toNat)).resettle.genRetire
      q c sq cx (.chset w) Ctx.advance) := by
  have hch : fieldN w.imm.toNat 0 6 = w.imm.toNat % 64 := fieldN_low ..
  rw [← hch]
  exact (Eq.refl (execChset w s)).trans (genRun_done h (if_neg (by simp [hpriv])))

/-- A squad whose teams have the owners that the settled entries of a state give. -/
def resettled (s : State) (y : Squad) : Squad :=
  { y with teams := y.teams.zipIdx.map fun (tm, t) =>
      let o := s.settleOwner y.task y.instance_ t
      if tm.ended || (o.2.isNone && tm.stream.isNone) then tm else { tm with owner := o.1, stream := o.2 } }

theorem squad_resettle {j : Nat} {y : Squad} (h : s.squad j = some y) : s.resettle.squad j = some (resettled s y) :=
  (aget?_map_value (resettled s) s.squads j).trans (congrArg (Option.map (resettled s)) h)

/-- Settles O33: a mailbox word by what it finds at its channel, CHSET by `exec_chset`. -/
theorem mailboxAndChannelWordsComplete : Obligations.MailboxAndChannelWordsComplete := by
  intro s q c sq cx w ch on waits traps put
  refine ⟨exec_chsend_speculative, fun h hspec => ?chsend, fun h => ?chrecv, fun h hpriv => ?chset⟩
  case chsend =>
    have hi := exec_chsend_committed h hspec
    refine ⟨fun d i m hm => ?_, exec_noPermission hi h, exec_noMailbox hi h⟩
    have hsends := exec_mailbox hi h hm
    exact ⟨fun hroom => hsends.trans (genRun_done h (if_neg (Nat.not_le.2 hroom))), fun hfull => hsends.trans (genRun_wait h (if_pos hfull))⟩
  case chrecv =>
    refine ⟨fun d i m hm => ?_, exec_noPermission exec_chrecv h, exec_noMailbox exec_chrecv h⟩
    have hreceives := exec_mailbox exec_chrecv h hm
    refine ⟨fun v rest hmsgs => hreceives.trans (genRun_done h (receives_message _ d i hmsgs)), fun hmsgs => ⟨fun hnb => ?_, fun hnb => ?_⟩⟩
    · exact hreceives.trans (genRun_wait h ((receives_none _ d i hmsgs).trans (if_neg (Bool.eq_false_iff.1 hnb))))
    · exact hreceives.trans (genRun_finish h ((receives_none _ d i hmsgs).trans (if_pos hnb)))
  case chset =>
    intro e new
    let k := (cx.S w.b.toNat).toNat
    have hnew (y : Squad) : (entered k ch e y).ctxs = new y := entered_ctxs ..
    exact ⟨(written s k ch e).resettle, exec_chset h hpriv, noted_mem s k ch e,
      fun j y hy => ⟨_, squad_resettle (squad_written k ch e hy), hnew y⟩, fun j y hy => ⟨_, save_written k ch e hy, hnew y⟩⟩

end Sys2Proof.Machine.Mailboxes
end

section
/-! PROOFS. COPY, COPYQ, COPYWAIT and COPYCAN (10_cluster_engines.md R240, R249, R250, R254, R255). -/

namespace Sys2Proof.Machine.CopyWords

open LaneAlu (fieldN_low)
open Emission (genRun_congr)

variable {s z : State} {q c : Nat} {sq : Squad} {cx : Ctx} {w : GR} {k : Nat} {cp : Copy}

theorem grTag_eq (w : GR) : grTag w = w.imm.toNat % 256 := fieldN_low ..

/-! ## The copy of a tag (R250) -/

theorem copyOfTag_owner {tag : Nat} (h : s.copyOfTag q tag = some (k, cp)) : cp.q = q ∧ cp.tag = tag := by
  simpa using List.find?_some h

theorem copyOfTag_congr (h : z.copies = s.copies) (tag : Nat) : z.copyOfTag q tag = s.copyOfTag q tag := by
  rw [State.copyOfTag, h]
  rfl

/-! ## A slice joins its copy (R250) -/

/-- A copy with one more slice, which queues it when it is the last of n. -/
def withSlice (cp : Copy) (sl : Slice) (n order : Nat) : Copy :=
  if cp.slices.length + 1 = n then { cp with slices := cp.slices ++ [sl], state := .queued, order := order }
  else { cp with slices := cp.slices ++ [sl] }

theorem withSlice_eq (cp : Copy) (sl : Slice) (n order : Nat) :
    withSlice cp sl n order = { cp with
      slices := cp.slices ++ [sl]
      state := if cp.slices.length + 1 = n then .queued else cp.state
      order := if cp.slices.length + 1 = n then order else cp.order } := by
  unfold withSlice
  split <;> rfl

/-- The state once a slice with its ranges has joined copy k. -/
def joined (z : State) (k : Nat) (cp : Copy) (sl : Slice) (n die : Nat) (rs : List LockRange) : State :=
  ({ z with copies := aset z.copies k (withSlice cp sl n z.serial), serial := z.serial + 1 } : State).modDie die fun d => d.addLocks k cp.slices.length rs

/-- The slice that a COPY of a record issues. -/
def issued (c : Nat) (r : List DWord) (idx : List Nat) : Slice :=
  { ctx := c, rec_ := r, idx := idx, done := recTotal r == 0, zblk := (recCtl r).testBit 16, started := !recHdr r }

/-- The copy that the first slice of a tag opens. -/
def opened (z : State) (q tag n : Nat) (h : Option Nat) : Copy :=
  { q := q, tag := tag, count := n, huddle := h, frozen := (z.squad q).any (·.queueFrozen) }

section addSlice

variable {tag n die : Nat} {h : Option Nat} {r : List DWord} {idx : List Nat} {a : Access}

theorem addSlice_joins (hcopy : z.copyOfTag q tag = some (k, cp)) :
    z.addSlice q c tag n h r idx a die = joined z k cp (issued c r idx) n die (z.sliceRanges a q r idx) := by
  simp only [State.addSlice, hcopy]
  rfl

theorem addSlice_opens (hcopy : z.copyOfTag q tag = none) :
    z.addSlice q c tag n h r idx a die = joined { z with nextCopy := z.nextCopy + 1 } z.nextCopy (opened z q tag n h) (issued c r idx) n die
      (State.sliceRanges { z with nextCopy := z.nextCopy + 1 } a q r idx) := by
  simp only [State.addSlice, hcopy]
  rfl

end addSlice

/-! ## COPY (R240, R249) -/

/-- The record of a COPY (R241 to R248). -/
def recordOf (cx : Ctx) (w : GR) : List DWord := (upTo 8).map fun k => cx.S (w.a.toNat + k)

/-- The huddle of a COPY (R240). -/
def huddleOf (w : GR) : Option Nat := if w.b.getLsbD 4 then some (w.b.toNat % 16) else none

/-- The entries of the range-lock table that a slice takes (R251). -/
def entries (r : List DWord) : Nat := 1 + (if recCsource r then 0 else 1) + (if recRowg r then 1 else 0)

/-- The copies outstanding in a cluster. -/
def outstanding (s : State) (cl : Nat) : Nat := (s.copies.filter fun p => (s.squad p.2.q).map (·.cluster) == some cl).length

/-- The index vector of a COPY is read (R247). -/
def indexRead (s : State) (sq : Squad) (r : List DWord) : LR2 (List Nat) :=
  State.readIndex (s.genAccess sq) (recDst r) (if recRowg r then upTo (recB r 1) else []) s

/-- A COPY that passes its checks and has room reads its index vector and adds its slice. -/
def addsSlice (s : State) (q c : Nat) (sq : Squad) (cx : Ctx) (w : GR) : GenRes :=
  match indexRead s sq (recordOf cx w) with
  | (.error (f, va), z) => (genIn s q c sq cx).memFail z f va 2 false false false
  | (.ok idx, z) =>
    .done (z.addSlice q c (w.imm.toNat % 256) (w.fn.toNat % 16 + 1) (huddleOf w) (recordOf cx w) idx (s.genAccess sq) (sq.cluster / 44))

/-- A COPY waits for room. -/
def waitsForRoom (s : State) (cx : Ctx) (w : GR) : GenRes := .wait (.copyRoom (w.imm.toNat % 256) (entries (recordOf cx w))) s

/-- What a COPY whose record passes its checks comes to (R249, R250). -/
def copyEnd (s : State) (q c : Nat) (sq : Squad) (cx : Ctx) (w : GR) : GenRes :=
  match s.copyOfTag q (w.imm.toNat % 256) with
  | some (_, cp) =>
    if cp.slices.length = cp.count then waitsForRoom s cx w
    else if cp.count ≠ w.fn.toNat % 16 + 1 ∨ cp.huddle ≠ huddleOf w then .trap .reservedField [8, 1, 0, 0] s
    else if entries (recordOf cx w) ≤ (s.die (sq.cluster / 44)).freeLocks.length then addsSlice s q c sq cx w
    else waitsForRoom s cx w
  | none =>
    if outstanding s sq.cluster < 32 ∧ entries (recordOf cx w) ≤ (s.die (sq.cluster / 44)).freeLocks.length then addsSlice s q c sq cx w
    else waitsForRoom s cx w

theorem entries_eq (r : List DWord) : 1 + b2n (!recCsource r) + b2n (recRowg r) = entries r := by
  unfold entries
  cases recCsource r <;> cases recRowg r <;> rfl

theorem exec_copy (h : GenReady s q c sq cx (.copy w) w.cnd) (hrec : ∀ f, (genIn s q c sq cx).recChecks (recordOf cx w) f = f) :
    exec (.copy w) s = genRun (.copy w) w.cnd (fun _ => copyEnd s q c sq cx w) s := by
  refine (Eq.refl (execCopy w s)).trans (genRun_congr h ((hrec _).trans ?_))
  simp only [fieldN_low, entries_eq, decide_eq_true_eq]
  rfl

/-- A COPY with no room waits: no copy of its tag with 32 outstanding or the range-lock table short of entries. -/
theorem copyEnd_full (hcopy : s.copyOfTag q (w.imm.toNat % 256) = none)
    (hfull : 32 ≤ outstanding s sq.cluster ∨ (s.die (sq.cluster / 44)).freeLocks.length < entries (recordOf cx w)) :
    copyEnd s q c sq cx w = waitsForRoom s cx w := by
  simp only [copyEnd, hcopy]
  exact if_neg (by omega)

theorem copyEnd_opens (hcopy : s.copyOfTag q (w.imm.toNat % 256) = none) (hheld : outstanding s sq.cluster < 32)
    (hroom : entries (recordOf cx w) ≤ (s.die (sq.cluster / 44)).freeLocks.length) : copyEnd s q c sq cx w = addsSlice s q c sq cx w := by
  simp only [copyEnd, hcopy]
  exact if_pos ⟨hheld, hroom⟩

section ofTag

variable (hcopy : s.copyOfTag q (w.imm.toNat % 256) = some (k, cp))

include hcopy

theorem copyEnd_complete (hall : cp.slices.length = cp.count) : copyEnd s q c sq cx w = waitsForRoom s cx w := by
  simp only [copyEnd, hcopy]
  exact if_pos hall

theorem copyEnd_disagrees (hlacks : cp.slices.length ≠ cp.count) (hno : cp.count ≠ w.fn.toNat % 16 + 1 ∨ cp.huddle ≠ huddleOf w) :
    copyEnd s q c sq cx w = .trap .reservedField [8, 1, 0, 0] s := by
  simp only [copyEnd, hcopy]
  exact (if_neg hlacks).trans (if_pos hno)

/-- A COPY that agrees with its copy adds its slice when the range-lock table has room, and waits otherwise. -/
theorem copyEnd_agrees (hlacks : cp.slices.length ≠ cp.count) (hcount : cp.count = w.fn.toNat % 16 + 1) (hhuddle : cp.huddle = huddleOf w) :
    copyEnd s q c sq cx w = if entries (recordOf cx w) ≤ (s.die (sq.cluster / 44)).freeLocks.length then addsSlice s q c sq cx w
      else waitsForRoom s cx w := by
  simp only [copyEnd, hcopy]
  exact (if_neg hlacks).trans (if_neg (not_or.2 ⟨not_not.2 hcount, not_not.2 hhuddle⟩))

end ofTag

/-- A COPY whose index vector can be read adds its slice. -/
theorem addsSlice_read {idx : List Nat} (hread : indexRead s sq (recordOf cx w) = (.ok idx, z)) :
    addsSlice s q c sq cx w =
      .done (z.addSlice q c (w.imm.toNat % 256) (w.fn.toNat % 16 + 1) (huddleOf w) (recordOf cx w) idx (s.genAccess sq) (sq.cluster / 44)) := by
  simp only [addsSlice, hread]

/-! ## COPYQ, COPYWAIT and COPYCAN (R254, R255) -/

theorem exec_copywait_ends (h : GenReady s q c sq cx (.copywait w) w.cnd)
    (hend : ∀ k cp, s.copyOfTag q (w.imm.toNat % 256) = some (k, cp) → cp.state = .failed) :
    exec (.copywait w) s = .next (s.genEnd q c sq cx (.copywait w) (cx.setS w.d.toNat (s.copyStatus q sq (w.imm.toNat % 256)))) := by
  rw [← grTag_eq] at hend ⊢
  refine (Eq.refl (execCopywait w s)).trans (genRun_finish h (if_neg ?_))
  dsimp only [genIn_s, genIn_q]
  split
  next k cp hcopy => simp [hend k cp hcopy]
  next => simp

theorem exec_copywait_waits (h : GenReady s q c sq cx (.copywait w) w.cnd) (hcopy : s.copyOfTag q (w.imm.toNat % 256) = some (k, cp))
    (hrun : cp.state ≠ .failed) :
    exec (.copywait w) s = .next (s.modCtx q c fun y => { y with wait := some (.copyEnd (w.imm.toNat % 256)) }) := by
  rw [← grTag_eq] at hcopy ⊢
  exact (Eq.refl (execCopywait w s)).trans (genRun_wait h (if_pos (by simp [hcopy, hrun])))

/-- The state in which a copy that has failed runs again. -/
def resumed (s : State) (now : Option (Nat × Copy)) : State :=
  match now with
  | some (k, cp) =>
    if cp.state == CopyState.failed then s.modCopy k fun c => { c with state := .running, cause := none, fslice := 0, faultInfo := [] } else s
  | none => s

theorem exec_copyqResume (h : GenReady s q c sq cx (.copyqResume w) w.cnd) :
    let z := resumed s (s.copyOfTag q (w.imm.toNat % 256))
    exec (.copyqResume w) s = .next ((z.modCtx q c fun y => y.setS w.d.toNat (z.copyStatus q sq (w.imm.toNat % 256))).genRetire q c sq cx
      (.copyqResume w) Ctx.advance) := by
  rw [← grTag_eq]
  exact (Eq.refl (execCopyqResume w s)).trans (genRun_done h rfl)

theorem modCopy_some {f : Copy → Copy} (h : aget? s.copies k = some cp) : s.modCopy k f = { s with copies := aset s.copies k (f cp) } := by
  simp [State.modCopy, State.copy, h]

theorem modCopy_frame (s : State) (k : Nat) (f : Copy → Copy) : s.modCopy k f = { s with copies := (s.modCopy k f).copies } := by
  unfold State.modCopy
  split <;> rfl

theorem resumed_frame (s : State) (now : Option (Nat × Copy)) : resumed s now = { s with copies := (resumed s now).copies } := by
  unfold resumed
  split
  · split
    · exact modCopy_frame ..
    · rfl
  · rfl

theorem exec_copycan_none (h : GenReady s q c sq cx (.copycan w) w.cnd) (hcopy : s.copyOfTag q (w.imm.toNat % 256) = none) :
    exec (.copycan w) s = .next (s.genRetire q c sq cx (.copycan w) Ctx.advance) := by
  rw [← grTag_eq] at hcopy
  exact (Eq.refl (execCopycan w s)).trans (genRun_done h (by simp [hcopy]))

theorem exec_copycan_drops (h : GenReady s q c sq cx (.copycan w) w.cnd) (hcopy : s.copyOfTag q (w.imm.toNat % 256) = some (k, cp)) :
    exec (.copycan w) s = .next ((s.dropCopy k).genRetire q c sq cx (.copycan w) Ctx.advance) := by
  rw [← grTag_eq] at hcopy
  exact (Eq.refl (execCopycan w s)).trans (genRun_done h (by simp [hcopy]))

theorem exec_copyq (h : GenReady s q c sq cx (.copyq w) w.cnd) :
    exec (.copyq w) s = .next (s.genEnd q c sq cx (.copyq w) (cx.setS w.d.toNat (s.copyStatus q sq (w.imm.toNat % 256)))) := by
  rw [← grTag_eq]
  exact (Eq.refl (execCopyq w s)).trans (genRun_finish h rfl)

/-- Settles O34: a COPY by the case of `copyEnd` that holds, and what a slice that joins leaves by `joined`. -/
theorem copyWordsComplete : Obligations.CopyWordsComplete := by
  refine ⟨?copy, ?status⟩
  case copy =>
    intro s q c sq cx w r tag count hd d need held waits joins h hrec
    have hexec := exec_copy h hrec
    have hwaits (hend : copyEnd s q c sq cx w = waitsForRoom s cx w) : waits := hexec.trans (genRun_wait h hend)
    refine ⟨fun z idx hread hcopies hnext hroom => ?room, fun hfull k cp hcopy hlacks hcount hhuddle => ?short,
      fun hcopy hfull => hwaits (copyEnd_full hcopy hfull), fun k cp hcopy hall => hwaits (copyEnd_complete hcopy hall),
      fun k cp hcopy hlacks hno => hexec.trans (genRun_trap h (copyEnd_disagrees hcopy hlacks hno))⟩
    case short => exact hwaits ((copyEnd_agrees hcopy hlacks hcount hhuddle).trans (if_neg (Nat.not_le.2 hfull)))
    case room =>
      have hof := copyOfTag_congr (q := q) hcopies tag
      have hadds (hend : copyEnd s q c sq cx w = addsSlice s q c sq cx w) := hexec.trans (genRun_done h (hend.trans (addsSlice_read hread)))
      have hjoins {y : State} {k : Nat} {cp : Copy} {rs : List LockRange} (hmem : y.mem = z.mem) (hsame : y.copies = z.copies)
          (hcp : cp.q = q ∧ cp.tag = tag) (hcount : cp.count = count) (hhuddle : cp.huddle = hd)
          (he : exec (.copy w) s = .next ((joined y k cp (issued c r idx) count (sq.cluster / 44) rs).genRetire q c sq cx (.copy w) Ctx.advance)) :
          joins z idx k cp := by
        obtain ⟨hq, htag⟩ := hcp
        refine ⟨_, _, issued c r idx, he, hmem, aget?_aset_self .., fun j hj => (aget?_aset_ne _ _ hj).trans (congrArg (aget? · j) hsame), ?_⟩
        rw [withSlice_eq]
        exact ⟨hq, htag, hcount, hhuddle, rfl, rfl, rfl, rfl, rfl⟩
      refine ⟨fun hcopy hheld => ?opens, fun k cp hcopy hlacks hcount hhuddle => ?adds⟩
      case opens =>
        have he := hadds (copyEnd_opens hcopy hheld hroom)
        rw [addSlice_opens (hof.trans hcopy)] at he
        rw [← hnext]
        exact hjoins (y := { z with nextCopy := z.nextCopy + 1 }) (cp := opened z q tag count hd) rfl rfl ⟨rfl, rfl⟩ rfl rfl he
      case adds =>
        have he := hadds ((copyEnd_agrees hcopy (hcount ▸ hlacks) hcount hhuddle).trans (if_pos hroom))
        rw [addSlice_joins (hof.trans hcopy)] at he
        exact hjoins rfl rfl (copyOfTag_owner hcopy) hcount hhuddle he
  case status =>
    intro s q c sq cx w tag status now ends
    refine ⟨exec_copyq, fun h => ?copywait, fun h => ⟨resumed s now, exec_copyqResume h, resumed_frame s now, fun hnone => ?none, fun k cp hcopy => ?some⟩,
      fun h => ⟨exec_copycan_none h, fun k cp => exec_copycan_drops h⟩⟩
    case copywait =>
      refine ⟨fun hnone => exec_copywait_ends h fun k cp hcopy => ?_, fun k cp hcopy => ⟨fun hfailed => exec_copywait_ends h fun k' cp' hcopy' => ?_,
        exec_copywait_waits h hcopy⟩⟩
      · cases hnone.symm.trans hcopy
      · obtain ⟨rfl, rfl⟩ := Prod.mk.inj (Option.some.inj (hcopy.symm.trans hcopy'))
        exact hfailed
    case none => rw [hnone]; rfl
    case some =>
      rw [hcopy]
      exact ⟨fun hrun => if_neg (by simpa using hrun), fun hfailed hat => by rw [resumed, if_pos (by simp [hfailed]), modCopy_some hat]⟩

end Sys2Proof.Machine.CopyWords
end

section
/-! PROOFS. The steps of a die's memory system: L1 fills (10_cluster_engines.md R257), fault records and first touches (15_die_memory.md R318 to R322),
shootdowns (R316), mailboxes and registers (R263, R317), the scrubber (R328). -/

namespace Sys2Proof.Machine.MemorySteps

open LaneAlu (fieldN_low)
open WindowWords (field64_eq_div_mod)

variable {s : State}

theorem field64_low (x : DWord) (n : Nat) : field64 x 0 n = x.toNat % 2 ^ n := fieldN_low ..

/-! ## A change matters at what stands -/

theorem modify_congr {α : Type} {l : List α} {i : Nat} {f g : α → α} (h : ∀ x, l[i]? = some x → f x = g x) : l.modify i f = l.modify i g := by
  refine List.ext_getElem? fun j => ?_
  rw [List.getElem?_modify, List.getElem?_modify]
  by_cases hj : i = j
  · subst hj
    cases hx : l[i]? with
    | none => simp
    | some x => simp [h x hx]
  · simp [hj]

theorem modDie_congr {d : Nat} {f g : Die → Die} (h : f (s.die d) = g (s.die d)) : s.modDie d f = s.modDie d g := by
  have hdies : s.dies.modify d f = s.dies.modify d g := modify_congr fun x hx => by
    rwa [State.die, List.getD_eq_getElem?_getD, hx] at h
  rw [State.modDie, State.modDie, hdies]

theorem modCluster_congr {cl : Nat} {c : Cluster} {f g : Cluster → Cluster} (hc : s.clusters[cl]? = some c) (h : f c = g c) :
    s.modCluster cl f = s.modCluster cl g := by
  have hclusters : s.clusters.modify cl f = s.clusters.modify cl g := modify_congr fun x hx => by
    rwa [Option.some.inj (hc.symm.trans hx)] at h
  rw [State.modCluster, State.modCluster, hclusters]

theorem modCluster_self {cl : Nat} {c : Cluster} {f : Cluster → Cluster} (hc : s.clusters[cl]? = some c) (h : f c = c) : s.modCluster cl f = s := by
  rw [modCluster_congr (g := id) hc h, State.modCluster, List.modify_id]

/-! ## L1 fills (R257) -/

section fill

variable {c : Cluster} (hc : s.clusters[s.operand.a]? = some c)

include hc

/-- The first miss entry of the line takes its fill once it has been open 16 cycles. -/
theorem exec_l1Fill_fills {pre post : List MissEnt} {e : MissEnt} (hmiss : c.miss = pre ++ e :: post) (hpre : ∀ m ∈ pre, m.line ≠ s.operand.b)
    (hline : e.line = s.operand.b) (hopen : e.since + 16 ≤ c.cycle) :
    exec .l1Fill s = .next (s.modCluster s.operand.a fun y =>
      { y with l1 := ((e.line, e.bytes) :: adel y.l1 e.line).take 2048, miss := y.miss.filter fun m => m.line != e.line }) := by
  have hfind : (c.miss.find? fun m => m.line == s.operand.b && decide (m.since + 16 ≤ c.cycle)) = some e :=
    List.find?_eq_some_iff_append.2 ⟨by simp [hline, hopen], pre, post, hmiss, fun m hm => by simp [hpre m hm]⟩
  refine (Eq.refl (evL1Fill s)).trans (congrArg _ (modCluster_congr hc ?_))
  simp only [hfind]
  rfl

theorem exec_l1Fill_none (h : ∀ e ∈ c.miss, e.line = s.operand.b → c.cycle < e.since + 16) : exec .l1Fill s = .next s := by
  have hfind : (c.miss.find? fun m => m.line == s.operand.b && decide (m.since + 16 ≤ c.cycle)) = none :=
    List.find?_eq_none.2 fun e he => by
      have := h e he
      simp only [Bool.and_eq_true, beq_iff_eq, decide_eq_true_eq]
      omega
  refine (Eq.refl (evL1Fill s)).trans (congrArg _ (modCluster_self hc ?_))
  simp only [hfind]

end fill

/-! ## Fault records (R318, R319) -/

theorem exec_faultRecord {r : FaultReq} {rest : List FaultReq} {i md mi : Nat} {m : Mailbox} (hq : (s.die s.operand.a).faultQ = r :: rest)
    (hslot : (s.die s.operand.a).ringSlot = some i) (hbox : s.faultBox s.operand.a = some (md, mi, m)) :
    exec .faultRecord s = .next (((s.modDie s.operand.a fun y => { y with faultQ := rest, ring := aset y.ring i r, ringNext := (i + 1) % 1024 }).devWrite 0
      ((s.die s.operand.a).fring.toNat / 2 ^ 16 % 2 ^ 36 * 2 ^ 16 + 64 * i) r.record).modDie md fun y =>
        { y with mailboxes := aset y.mailboxes mi { m with msgs := m.msgs ++ [BitVec.ofNat 64 i] } }) := by
  change evFaultRecord s = _
  simp only [evFaultRecord, hq, hslot, hbox, field64_eq_div_mod]

theorem exec_fdoneWrite {r : FaultReq} (hr : aget? (s.die s.operand.a).ring (s.operand.w.toNat % 1024) = some r) (hactive : s.firmware.state = .active) :
    exec .fdoneWrite s = .next (((s.modDie s.operand.a fun y => { y with ring := adel y.ring (s.operand.w.toNat % 1024) }).settleFault r.src
      (s.operand.w.getLsbD 16)).wakeDie s.operand.a .faultSlot .faultSlot) := by
  have hslot : field64 s.operand.w 0 10 = s.operand.w.toNat % 1024 := field64_low ..
  refine (Eq.refl (evFdoneWrite s)).trans ?_
  simp only [evFdoneWrite, hactive, if_true, State.fdone, hslot, hr]

/-! ## First touches and the Bullpen (R320 to R322) -/

theorem exec_firstTouchService {t : Touch} (ht : ((s.die s.operand.a).touches.find? fun t => t.owner == s.operand.b && t.va == s.operand.c) = some t) :
    exec .firstTouchService s = .next (s.serveTouch s.operand.a t) := by
  change evFirstTouchService s = _
  simp only [evFirstTouchService, ht]

section touch

variable {d : Nat} {t : Touch}

theorem touchLeaf_eq (owner pa : Nat) (e : DWord) : touchLeaf owner pa e = owner * 2 ^ 52 + pa + e.toNat / 16 % 8 * 16 + 0x503 := by
  rw [touchLeaf, field64_eq_div_mod]
  rfl

/-- A touch with a frame, the entry as it was walked and no seal over it installs its leaf. -/
theorem serveTouch_installs {f : Frame} (hf : ((s.die d).bullpen.find? fun f => f.owner == t.owner && f.size == t.size) = some f)
    (hentry : s.devRead t.owner t.entry = t.value) (hguard : s.guardPa t.entry 8 true = none) :
    s.serveTouch d t = ((((s.modDie d fun y => { y with touches := y.touches.filter (· != t) }).modDie d fun y =>
      { y with bullpen := y.bullpen.erase f }).devWrite t.owner t.entry (toBytes 8 (touchLeaf t.owner f.pa t.value))).wakeDie d .touch .touch) := by
  simp [State.serveTouch, hf, hentry, hguard]

/-- Any other touch leaves its frame and its entry. -/
theorem serveTouch_keeps (h : (∀ f ∈ (s.die d).bullpen, ¬ (f.owner = t.owner ∧ f.size = t.size)) ∨ s.devRead t.owner t.entry ≠ t.value
      ∨ s.guardPa t.entry 8 true ≠ none) :
    s.serveTouch d t = (s.modDie d fun y => { y with touches := y.touches.filter (· != t) }).wakeDie d .touch .touch := by
  unfold State.serveTouch
  dsimp only
  split
  next f hf =>
    have hfits : f.owner = t.owner ∧ f.size = t.size := by simpa using List.find?_some hf
    rw [if_neg]
    rintro ⟨hentry, hguard⟩
    rcases h with hnone | hne | hseal
    · exact hnone f (List.mem_of_find?_eq_some hf) hfits
    · exact hne hentry
    · exact hseal (Option.isNone_iff_eq_none.1 hguard)
  next => rfl

end touch

/-- The Bullpen takes the frame at the head of an owner's list, whose head moves on. -/
theorem exec_bullpenRefill {o at_ size h pa : Nat} (ho : s.operand.b = o) (hat : (s.die s.operand.a).listHead o (s.operand.c != 0) = at_)
    (hsize : (if s.operand.c != 0 then 2 ^ 21 else 2 ^ 16) = size) (hh : (s.devRead o at_).toNat = h) (hpa : h / 2 ^ 16 % 2 ^ 36 * 2 ^ 16 = pa)
    (hlist : at_ ≠ 0) (hframe : pa ≠ 0) (hroom : (s.die s.operand.a).bullpen.length < 4096)
    (hfew : ((s.die s.operand.a).bullpen.filter fun f => f.owner == o && f.size == size).length < 32) :
    exec .bullpenRefill s = .next (((s.devWrite o at_ (toBytes 8 ((s.devRead o pa).toNat / 2 ^ 16 % 2 ^ 36 * 2 ^ 16 + (h % 2 ^ 16 + 1) % 2 ^ 16))).modDie
      s.operand.a fun y => { y with bullpen := y.bullpen ++ [⟨o, size, pa⟩] }).unwriteFrame ⟨o, size, pa⟩) := by
  refine (Eq.refl (evBullpenRefill s)).trans ?_
  simp only [evBullpenRefill, field64_eq_div_mod, pow_zero, Nat.div_one, ho, hat, hsize, hh, hpa]
  rw [if_neg]
  rintro (h0 | h0 | h0 | h0)
  · exact hlist h0
  · exact hframe h0
  · omega
  · omega

/-! ## Shootdowns (R316, R317) -/

section shootdown

variable {d : Nat} {v : DWord} {r : Nat × Nat × Nat}

/-- A shootdown that starts, or waits for the one under way. -/
theorem shootWrite_starts (hr : (field64 (s.die d).shootOwn 0 12, field64 (s.die d).shootVa 0 56, field64 v 0 41) = r) (hok : shootLenOk v = true)
    (hnone : (s.die d).shooting = none) : s.shootWrite d v = (s.modDie d fun y => { y with shootLen := v, shooting := some r }).shootTold r := by
  have hmod : (s.modDie d fun x => ({ x with shootLen := v } : Die).shoot r) = s.modDie d fun y => { y with shootLen := v, shooting := some r } :=
    modDie_congr (by simp [Die.shoot, hnone])
  simp only [State.shootWrite, hr, hok, hnone, hmod, if_true, Option.isNone_none, Bool.and_self]

theorem shootWrite_waits (hr : (field64 (s.die d).shootOwn 0 12, field64 (s.die d).shootVa 0 56, field64 v 0 41) = r) (hok : shootLenOk v = true)
    (hsome : (s.die d).shooting ≠ none) : s.shootWrite d v = s.modDie d fun y => { y with shootLen := v, shootQueue := y.shootQueue ++ [r] } := by
  have hbusy : (s.die d).shooting.isNone = false := Option.isNone_eq_false_iff.2 (Option.isSome_iff_ne_none.2 hsome)
  have hmod : (s.modDie d fun x => ({ x with shootLen := v } : Die).shoot r) = s.modDie d fun y => { y with shootLen := v, shootQueue := y.shootQueue ++ [r] } :=
    modDie_congr (by simp [Die.shoot, hbusy])
  simp only [State.shootWrite, hr, hok, hbusy, hmod, if_true, Bool.and_false, Bool.false_eq_true, if_false]

end shootdown

theorem exec_shootdownStart (hseal : s.sealedRange ((s.die s.operand.a).shootOwn.toNat % 2 ^ 12) ((s.die s.operand.a).shootVa.toNat % 2 ^ 56)
      (s.operand.w.toNat % 2 ^ 41) = false) (hwrites : s.firmware.writes = true) :
    exec .shootdownStart s = .next (s.shootWrite s.operand.a s.operand.w) := by
  refine (Eq.refl (evShootdownStart s)).trans ?_
  simp only [evShootdownStart, field64_low, hseal, hwrites, Bool.not_true, Bool.false_eq_true, or_self, if_false]

/-- The notice of a shootdown that starts (R436). -/
theorem shootTold_sends (r : Nat × Nat × Nat) : ∃ m : Message, s.shootTold r = { s with fabric := { s.fabric with
      sent := if s.fabric.routes = [] then s.fabric.sent else s.fabric.sent ++ [m]
      owed := s.fabric.owed ++ s.fabric.lost.map fun d => (d, m.payload) } }
    ∧ m.payload = toBytes 2 r.1 ++ toBytes 8 r.2.1 ++ toBytes 8 r.2.2 :=
  ⟨{ kind := 0, status := 0, conn := 0, seq := 0, payload := shootNotice r.1 r.2.1 r.2.2 }, by simp only [State.shootTold, List.isEmpty_iff], rfl⟩

theorem shootdown_done {o va n : Nat} (hanswered : s.fabric.routes = [] ∨ s.operand.c = 1) (hunused : s.remoteUse s.fabric.devid o va n = []) :
    ((!s.fabric.routes.isEmpty && s.operand.c != 1) || !(s.remoteUse s.fabric.devid o va n).isEmpty) = false := by
  rcases hanswered with h | h <;> simp [h, hunused]

section complete

variable {o va n : Nat} (hx : (s.die s.operand.a).shooting = some (o, va, n))

include hx

/-- A shootdown whose notice has been answered and whose range no request still uses is done. -/
theorem exec_shootdownComplete_last (hanswered : s.fabric.routes = [] ∨ s.operand.c = 1) (hunused : s.remoteUse s.fabric.devid o va n = [])
    (hqueue : (s.die s.operand.a).shootQueue = []) :
    exec .shootdownComplete s = .next ((s.shootNow o va n).modDie s.operand.a fun y => { y with shooting := none }) := by
  have hdie : (s.shootNow o va n).die s.operand.a = s.die s.operand.a := rfl
  refine (Eq.refl (evShootdownComplete s)).trans ?_
  simp only [evShootdownComplete, hx, shootdown_done hanswered hunused, hqueue, List.head?_nil, Bool.false_eq_true, if_false]
  exact congrArg _ (modDie_congr (by simp [hdie, hqueue]))

/-- When it is done, the next one that waits starts. -/
theorem exec_shootdownComplete_next {r : Nat × Nat × Nat} {rest : List (Nat × Nat × Nat)} (hanswered : s.fabric.routes = [] ∨ s.operand.c = 1)
    (hunused : s.remoteUse s.fabric.devid o va n = []) (hqueue : (s.die s.operand.a).shootQueue = r :: rest) :
    exec .shootdownComplete s =
      .next (((s.shootNow o va n).modDie s.operand.a fun y => { y with shooting := some r, shootQueue := rest }).shootTold r) := by
  have hdie : (s.shootNow o va n).die s.operand.a = s.die s.operand.a := rfl
  refine (Eq.refl (evShootdownComplete s)).trans ?_
  simp only [evShootdownComplete, hx, shootdown_done hanswered hunused, hqueue, List.head?_cons, Bool.false_eq_true, if_false]
  exact congrArg (fun z : State => Host.Outcome.next (z.shootTold r)) (modDie_congr (by simp [hdie, hqueue]))

theorem exec_shootdownComplete_waits (h : (s.fabric.routes ≠ [] ∧ s.operand.c ≠ 1) ∨ s.remoteUse s.fabric.devid o va n ≠ []) :
    exec .shootdownComplete s = .next s := by
  have hstay : ((!s.fabric.routes.isEmpty && s.operand.c != 1) || !(s.remoteUse s.fabric.devid o va n).isEmpty) = true := by
    rcases h with h | h <;> simp [h]
  refine (Eq.refl (evShootdownComplete s)).trans ?_
  simp only [evShootdownComplete, hx, hstay, if_true]

end complete

theorem of_mem_keepTlb {o va n : Nat} {l : List TlbEnt} {e : TlbEnt} (h : e ∈ keepTlb o va n l) : ¬ (e.owner = o ∧ overlaps e.base e.size va n = true) := by
  have := (List.mem_filter.1 h).2
  rintro ⟨howner, hover⟩
  simp [howner, hover] at this

/-- No TLB entry of a range is left (R316). -/
theorem shootNow_clusters {o va n : Nat} {c : Cluster} (hc : c ∈ (s.shootNow o va n).clusters) :
    (∀ e ∈ c.tlb, ¬ (e.owner = o ∧ overlaps e.base e.size va n = true))
      ∧ ∀ k ∈ c.cores, ∀ e ∈ k.tlb, ¬ (e.owner = o ∧ overlaps e.base e.size va n = true) := by
  obtain ⟨c, -, rfl⟩ := List.mem_map.1 hc
  refine ⟨fun e => of_mem_keepTlb, fun k hk e he => ?_⟩
  obtain ⟨k, -, rfl⟩ := List.mem_map.1 hk
  exact of_mem_keepTlb he

/-- No window on a range of the package's own is left (R316). -/
theorem shootNow_windows {o va n : Nat} {p : Nat × Squad} {tm : Team} {k : Nat × Window} (hp : p ∈ (s.shootNow o va n).squads) (htm : tm ∈ p.2.teams)
    (hk : k ∈ tm.win) (hkind : k.2.kind ≠ 4) : ¬ (k.2.key = o ∧ overlaps k.2.pgBase k.2.pgSize va n = true) := by
  obtain ⟨p, -, rfl⟩ := List.mem_map.1 hp
  obtain ⟨tm, -, rfl⟩ := List.mem_map.1 htm
  have := (List.mem_filter.1 hk).2
  rintro ⟨hkey, hover⟩
  simp [Window.inRange, hkind, hkey, hover] at this

/-! ## Mailboxes (R263) -/

section mailbox

variable {d : Nat}

theorem mbCommand_creates (hfree : aget? (s.die d).mailboxes (s.die d).mbsel = none) :
    s.mbCommand d 1 = s.modDie d fun y =>
      { y with mailboxes := aset y.mailboxes (s.die d).mbsel { live := true, key := (s.die d).mbkey }, mberr := false } := by
  simp only [State.mbCommand, if_true]
  exact modDie_congr (by simp [Die.mbCreate, hfree])

theorem mbCommand_createError (hlive : aget? (s.die d).mailboxes (s.die d).mbsel ≠ none) : s.mbCommand d 1 = s.modDie d fun y => { y with mberr := true } := by
  simp only [State.mbCommand, if_true]
  exact modDie_congr (by simp [Die.mbCreate, Option.isSome_iff_ne_none.2 hlive])

theorem mbCommand_destroys (hlive : aget? (s.die d).mailboxes (s.die d).mbsel ≠ none) :
    s.mbCommand d 2 = (s.modDie d fun y => { y with mailboxes := adel y.mailboxes (s.die d).mbsel, mberr := false }).mailboxGone d (s.die d).mbsel := by
  have hsome := Option.isSome_iff_ne_none.2 hlive
  have hmod : s.modDie d Die.mbDestroy = s.modDie d fun y => { y with mailboxes := adel y.mailboxes (s.die d).mbsel, mberr := false } :=
    modDie_congr (by simp [Die.mbDestroy, hsome])
  simp [State.mbCommand, hsome, hmod]

theorem mbCommand_destroyError (hfree : aget? (s.die d).mailboxes (s.die d).mbsel = none) : s.mbCommand d 2 = s.modDie d fun y => { y with mberr := true } := by
  have hmod : s.modDie d Die.mbDestroy = s.modDie d fun y => { y with mberr := true } := modDie_congr (by simp [Die.mbDestroy, hfree])
  simp [State.mbCommand, hfree, hmod]

end mailbox

theorem mbWrite_eq (hwrites : s.firmware.writes = true) (v : Nat) : s.mbWrite v = s.mbCommand s.operand.a v := if_pos hwrites

/-- An image in PROBATION writes no register (R430). -/
theorem exec_probation (h : s.firmware.state = .probation) {i : Instr}
    (hi : i ∈ [Instr.fdoneWrite, .shootdownStart, .mailboxCreate, .mailboxDestroy, .configRegWrite]) : exec i s = .next s := by
  have hwrites : s.firmware.writes = false := by simp [Firmware.writes, h]
  simp only [List.mem_cons, List.not_mem_nil, or_false] at hi
  rcases hi with rfl | rfl | rfl | rfl | rfl
  · exact congrArg Host.Outcome.next (if_neg (by simp [h]))
  · exact congrArg Host.Outcome.next (if_pos (by simp [hwrites]))
  · exact congrArg Host.Outcome.next (if_neg (by simp [hwrites]))
  · exact congrArg Host.Outcome.next (if_neg (by simp [hwrites]))
  · exact congrArg Host.Outcome.next (if_pos (by simp [hwrites]))

/-! ## Registers of a die (R263, R317) -/

theorem exec_configRegWrite (hwrites : s.firmware.writes = true) (hplain : s.operand.b ∉ [0x30010, 0x30040, 0x40010]) :
    exec .configRegWrite s = .next (s.tcbWrite s.operand.a s.operand.b s.operand.w) := by
  simp only [List.mem_cons, List.not_mem_nil, or_false, not_or] at hplain
  exact congrArg Host.Outcome.next (if_neg (by simp [hwrites, hplain]))

theorem tcbWrite_root {d off : Nat} (v : DWord) (h : off < 0x8000) :
    s.tcbWrite d off v = s.modDie d fun y => { y with roots := asetD 0 y.roots (off / 8) (v &&& 0x000F_FFFF_FFFF_F801#64) } := if_pos h

/-- A list head's register, by the low bits of its offset. -/
theorem tcbWrite_list {d off : Nat} (v : DWord) (hlo : 0x10000 ≤ off) (hhi : off < 0x20000) :
    (off % 16 = 0 → s.tcbWrite d off v = s.modDie d fun y => { y with flist0 := asetD 0 y.flist0 ((off - 0x10000) / 16) v })
    ∧ (off % 16 ≠ 0 → s.tcbWrite d off v = s.modDie d fun y => { y with flist1 := asetD 0 y.flist1 ((off - 0x10000) / 16) v }) := by
  have hlist : s.tcbWrite d off v = s.modDie d _ := (if_neg (by omega)).trans (if_pos ⟨hlo, hhi⟩)
  exact ⟨fun hlow => hlist.trans (by simp only [hlow, if_true]), fun hhigh => hlist.trans (by simp only [hhigh, if_false])⟩

/-- The other registers of a die, whose bits of no field stay zero. -/
theorem tcbWrite_fields (s : State) (d : Nat) (v : DWord) :
    s.tcbWrite d 0x30000 v = s.modDie d (fun y => { y with shootOwn := v &&& 0xFFF#64 })
    ∧ s.tcbWrite d 0x30008 v = s.modDie d (fun y => { y with shootVa := v &&& 0x00FF_FFFF_FFFF_0000#64 })
    ∧ s.tcbWrite d 0x30080 v = s.modDie d (fun y => { y with fring := v &&& 0x000F_FFFF_FFFF_0FFF#64 })
    ∧ s.tcbWrite d 0x40000 v = s.modDie d (fun y => { y with mbsel := v.toNat % 256 })
    ∧ s.tcbWrite d 0x40008 v = s.modDie d (fun y => { y with mbkey := v }) := by
  refine ⟨rfl, rfl, rfl, ?_, rfl⟩
  exact congrArg (s.modDie d) (funext fun y => congrArg (fun n => { y with mbsel := n }) (field64_low v 8))

/-! ## The scrubber (R328) -/

theorem exec_patrolScrub_bad (h : s.operand.a ∈ s.badLines) :
    exec .patrolScrub s = .next (({ s with badLines := s.badLines.filter (· != s.operand.a)
                                           poison := if s.poison.contains s.operand.a then s.poison else s.operand.a :: s.poison } : State).tellHost
      (1 :: toBytes 8 (s.operand.a * 128))) :=
  congrArg Host.Outcome.next (if_pos (List.contains_iff_mem.2 h))

theorem exec_patrolScrub_good (h : s.operand.a ∉ s.badLines) : exec .patrolScrub s = .next s :=
  congrArg Host.Outcome.next (if_neg (by simpa using h))

end Sys2Proof.Machine.MemorySteps
end

section
/-! PROOFS. The steps of the copy engines (10_cluster_engines.md R239, R250, R253), and the steps of memory and copies together. -/

namespace Sys2Proof.Machine.CopySteps

open MemorySteps

variable {s : State}

/-! ## A copy starts, goes on and ends -/

theorem exec_copyStart {k : Nat} (h : s.nextQueued s.operand.a = some k) :
    exec .copyStart s = .next (s.modCopy k fun c => { c with state := .running }) := by
  change evCopyStart s = _
  simp only [evCopyStart, h]

/-- The first slice of a list that is not done, with its place. -/
theorem find_not_done {l pre post : List Slice} {sl : Slice} (hl : l = pre ++ sl :: post) (hpre : ∀ y ∈ pre, y.done = true) (hsl : sl.done = false) :
    (l.zipIdx.find? fun x => !x.1.done) = some (sl, pre.length) := by
  refine List.find?_eq_some_iff_append.2 ⟨by simp [hsl], pre.zipIdx, post.zipIdx (pre.length + 1), ?_, fun x hx => ?_⟩
  · simp [hl, List.zipIdx_append]
  · simp [hpre _ (List.fst_mem_of_mem_zipIdx hx)]

section running

variable {cp : Copy} {sq : Squad} (hcp : s.copy s.operand.a = some cp) (hrun : cp.state = .running) (hfault : cp.fault = false) (hfrozen : cp.frozen = false)

include hcp hrun hfault hfrozen

/-- A running copy goes on with the first of its slices that is not done, whose header it reads first. -/
theorem exec_copyLineWrite {pre post : List Slice} {sl : Slice} (hsq : s.squad cp.q = some sq) (hslices : cp.slices = pre ++ sl :: post)
    (hpre : ∀ y ∈ pre, y.done = true) (hsl : sl.done = false) :
    exec .copyLineWrite s = .next (if sl.started then s.copyUnit s.operand.a cp pre.length sl sq else s.copyHeader s.operand.a cp pre.length sl sq) := by
  change evCopyLineWrite s = _
  simp [evCopyLineWrite, hcp, hsq, hrun, hfault, hfrozen, find_not_done hslices hpre hsl]

/-- A running copy whose slices are done leaves the outstanding states. -/
theorem exec_copyComplete_plain (hdone : ∀ y ∈ cp.slices, y.done = true) (hhuddle : cp.huddle = none) :
    exec .copyComplete s = .next (s.dropCopy s.operand.a) := by
  change evCopyComplete s = _
  simp [evCopyComplete, hcp, hrun, hfault, hfrozen, List.all_eq_true.2 hdone, hhuddle]

section huddle

variable {h : Nat} (hdone : ∀ y ∈ cp.slices, y.done = true) (hhuddle : cp.huddle = some h) (hsq : (s.dropCopy s.operand.a).squad cp.q = some sq)

include hdone hhuddle hsq

/-- The copy pays its huddle. -/
theorem exec_copyComplete_pays {hd : Huddle} (hpaid : (sq.huddle h).expect (-1) = some hd) :
    exec .copyComplete s = .next ((s.dropCopy s.operand.a).setHuddle cp.q h hd) := by
  change evCopyComplete s = _
  simp [evCopyComplete, hcp, hrun, hfault, hfrozen, List.all_eq_true.2 hdone, hhuddle, hsq, Huddle.paid, hpaid]

/-- A huddle whose OWED is at its lowest value is not paid, and the context of the last slice traps. -/
theorem exec_copyComplete_mismatch (hpaid : (sq.huddle h).expect (-1) = none) :
    exec .copyComplete s = .next ((s.dropCopy s.operand.a).pendCopy cp.q ((cp.slices.getLast?.map (·.ctx)).getD 0) cp.tag .huddleMismatch
      [BitVec.ofNat 64 h, BitVec.ofNat 64 cp.tag, 0, 0]) := by
  change evCopyComplete s = _
  simp [evCopyComplete, hcp, hrun, hfault, hfrozen, List.all_eq_true.2 hdone, hhuddle, hsq, Huddle.paid, hpaid]

end huddle

end running

/-- Settles O44: each step by its lemmas, the shootdowns, mailboxes and registers of a die by what their writes come to. -/
theorem memoryAndCopyStepsTakeEffect : Obligations.MemoryAndCopyStepsTakeEffect := by
  intro s goes a x w set
  refine ⟨fun c hc => ⟨fun pre e post => exec_l1Fill_fills hc, exec_l1Fill_none hc⟩, fun r rest i md mi m => exec_faultRecord,
    fun r => exec_fdoneWrite, fun t ht => ?touch, ?bullpen, fun hok hseal hwrites _ => ?shootdown, shootTold_sends,
    fun o va n hx hanswered hunused => ⟨exec_shootdownComplete_last hx hanswered hunused, fun r rest => exec_shootdownComplete_next hx hanswered hunused⟩,
    fun o va n => exec_shootdownComplete_waits,
    fun o va n => ⟨fun c => shootNow_clusters, fun p hp tm htm k => shootNow_windows hp htm⟩,
    fun _ hwrites => ?mailbox, exec_probation, ?register, exec_patrolScrub_bad, exec_patrolScrub_good, fun k => exec_copyStart,
    fun cp sq hcp hsq hrun hfault hfrozen => ⟨fun pre sl post hslices hpre hsl => ?unit, fun hdone => ⟨exec_copyComplete_plain hcp hrun hfault hfrozen hdone,
      fun h sq' hhuddle hsq' => ⟨fun hd => exec_copyComplete_pays hcp hrun hfault hfrozen hdone hhuddle hsq',
        exec_copyComplete_mismatch hcp hrun hfault hfrozen hdone hhuddle hsq'⟩⟩⟩⟩
  case touch =>
    have hexec := exec_firstTouchService ht
    refine ⟨fun f hf hentry hguard => ?installs, fun hkeeps => hexec.trans (congrArg _ (serveTouch_keeps hkeeps))⟩
    rw [← touchLeaf_eq]
    exact hexec.trans (congrArg _ (serveTouch_installs hf hentry hguard))
  case bullpen =>
    intro o at_ size h pa hlist hframe hroom hfew
    have hsize : (if s.operand.c != 0 then 2 ^ 21 else 2 ^ 16) = size := by
      by_cases hc : s.operand.c = 0 <;> simp [size, hc]
    exact exec_bullpenRefill rfl rfl hsize rfl rfl hlist hframe hroom hfew
  case shootdown =>
    intro r
    have hexec := exec_shootdownStart hseal hwrites
    have hr : (field64 x.shootOwn 0 12, field64 x.shootVa 0 56, field64 w 0 41) = r := by simp only [field64_low]; rfl
    exact ⟨fun hnone => hexec.trans (congrArg _ (shootWrite_starts hr hok hnone)), fun hsome => hexec.trans (congrArg _ (shootWrite_waits hr hok hsome))⟩
  case mailbox =>
    have hcreate : exec .mailboxCreate s = .next (s.mbCommand a 1) := congrArg Host.Outcome.next (mbWrite_eq hwrites 1)
    have hdestroy : exec .mailboxDestroy s = .next (s.mbCommand a 2) := congrArg Host.Outcome.next (mbWrite_eq hwrites 2)
    exact ⟨fun hfree => hcreate.trans (congrArg _ (mbCommand_creates hfree)), fun hlive => hcreate.trans (congrArg _ (mbCommand_createError hlive)),
      fun hlive => hdestroy.trans (congrArg _ (mbCommand_destroys hlive)), fun hfree => hdestroy.trans (congrArg _ (mbCommand_destroyError hfree))⟩
  case register =>
    intro off hwrites
    have hwrite (hplain : off ∉ [0x30010, 0x30040, 0x40010]) {z : State} (hz : s.tcbWrite a off w = z) : goes .configRegWrite z :=
      (exec_configRegWrite hwrites hplain).trans (congrArg _ hz)
    have hlow (hlt : off < 0x20000) : off ∉ [0x30010, 0x30040, 0x40010] := by
      simp only [List.mem_cons, List.not_mem_nil, or_false]
      omega
    obtain ⟨hown, hva, hring, hsel, hkey⟩ := tcbWrite_fields s a w
    exact ⟨fun h => hwrite (hlow (by omega)) (tcbWrite_root w h),
      fun hlo hhi h => hwrite (hlow hhi) ((tcbWrite_list w hlo hhi).1 h), fun hlo hhi h => hwrite (hlow hhi) ((tcbWrite_list w hlo hhi).2 h),
      fun h => hwrite (by rw [h]; decide) (by rw [h, hown]), fun h => hwrite (by rw [h]; decide) (by rw [h, hva]),
      fun h => hwrite (by rw [h]; decide) (by rw [h, hring]), fun h => hwrite (by rw [h]; decide) (by rw [h, hsel]),
      fun h => hwrite (by rw [h]; decide) (by rw [h, hkey])⟩
  case unit =>
    have hexec := exec_copyLineWrite hcp hrun hfault hfrozen hsq hslices hpre hsl
    exact ⟨fun hstarted => hexec.trans (congrArg _ (if_pos hstarted)), fun hstarted => hexec.trans (congrArg _ (if_neg (Bool.eq_false_iff.1 hstarted)))⟩

end Sys2Proof.Machine.CopySteps
end

section
/-! PROOFS. The branches of descents (11_cluster_descent.md R270) and a descent's step from node to node (R272). -/

namespace Sys2Proof.Machine.Descents

/-! ## Branches (R270) -/

section branches

variable {b : List Byte} {v : XVal}

theorem branchOf_threshold_nan (hb : nodeTy b = 2) (hv : v.isNan = true) : branchOf b v = (u32At b 0).testBit 4 := by simp [branchOf, hb, hv]

/-- A threshold node sends a number to the left exactly when it is less than the threshold. -/
theorem branchOf_threshold_left (hb : nodeTy b = 2) (hv : v.isNan = false) :
    branchOf b v = false ↔ (NumTy.f32.decode (u32At b 16)).isNan = false ∧ v.cmp (NumTy.f32.decode (u32At b 16)) = .lt := by
  simp [branchOf, hb, hv, xlt]

theorem branchOf_category_some {c : Nat} (hb : nodeTy b = 3) (hc : category v = some c) :
    branchOf b v = (b.getD (16 + c / 8) 0).getLsbD (c % 8) := by simp [branchOf, hb, hc]

theorem branchOf_category_none (hb : nodeTy b = 3) (hc : category v = none) : branchOf b v = (u32At b 0).testBit 4 := by simp [branchOf, hb, hc]

/-- A category is a number of one byte. -/
theorem category_le {c : Nat} (hc : category v = some c) : c ≤ 255 := by
  cases v with
  | nan | inf => simp [category] at hc
  | zero => simp [category] at hc; omega
  | fin neg m e =>
    cases neg with
    | true => simp [category] at hc
    | false =>
      obtain ⟨k, -, hk⟩ := Option.bind_eq_some_iff.1 hc
      obtain ⟨hle, hkc⟩ := Option.ite_none_right_eq_some.1 hk
      exact Option.some.inj hkc ▸ hle

end branches

/-! ## From node to node (R272) -/

section walk

variable {x : LaneIn} {win : Window} {d : List DWord} {k h l r f : Nat} {t : Tile} {s s' : State} {p : Path} {b : List Byte}

/-- The child that a branch names: under LINKED the node's own index, under HEAP the child of its place. -/
def childOf (d : List DWord) (b : List Byte) (n : Nat) (bit : Bool) : Nat :=
  if treeLinked d then u32At b (8 + 4 * b2n bit) else 2 * n + 1 + b2n bit

/-- A path after the branch `bit` at a node that tested `tested` (R272). -/
def Path.step (p : Path) (c : Nat) (bit : Bool) (tested : Nat) (iv : Bool) : Path :=
  { node := c, bits := p.bits + b2n bit * 2 ^ p.depth, depth := p.depth + 1, tree := p.tree
    msg := p.msg ++ toBytes 4 p.node ++ toBytes 4 tested, iv := p.iv || iv }

/-- A descent ends at a leaf. -/
theorem descendFrom_leaf (hb : x.fetchNode win d k l p.node p.depth s = (.ok b, s')) (hleaf : nodeTy b = 4) :
    x.descendFrom win d k h t l r (f + 1) s p = (.ok { p with msg := p.msg ++ toBytes 4 p.node }, s') := by
  simp only [LaneIn.descendFrom, hb, DR.andThen, hleaf, if_true]

/-- At a node that is no leaf, above the greatest depth, a descent goes on at its child, or stops where the tree has no such node. -/
theorem descendFrom_node {bit : Bool} {tested : Nat} {iv : Bool} (hb : x.fetchNode win d k l p.node p.depth s = (.ok b, s')) (hleaf : nodeTy b ≠ 4)
    (hdepth : p.depth ≠ treeDepth d) (hbranch : takeBranch d h t l r b = .ok (bit, tested, iv)) :
    x.descendFrom win d k h t l r (f + 1) s p
      = if treeNodes d ≤ childOf d b p.node bit then
          (.error (descentFault l 3 (childOf d b p.node bit) (wrapN ((win.base + p.node * treeStride d : Nat) : Int) 64) p.node p.depth), s')
        else x.descendFrom win d k h t l r f s' (Path.step p (childOf d b p.node bit) bit tested iv) := by
  simp only [LaneIn.descendFrom, hb, DR.andThen, hleaf, hdepth, hbranch, if_false]
  rfl

end walk

/-- Settles O22: the branch of each type of node, and a descent's end at a leaf or its step to a child. -/
theorem descentsFollowTheBranchOfEachNode : Obligations.DescentsFollowTheBranchOfEachNode := by
  unfold Obligations.DescentsFollowTheBranchOfEachNode
  refine ⟨fun b v => ⟨branchOf_threshold_nan, branchOf_threshold_left, fun hb => ⟨fun c hc => ⟨branchOf_category_some hb hc, category_le hc⟩,
    branchOf_category_none hb⟩⟩, fun x win d k h l r f t s s' p b hfetch => ⟨descendFrom_leaf hfetch, fun bit tested iv hleaf hdepth hbranch => ?_⟩⟩
  have hnode := descendFrom_node (h := h) (t := t) (r := r) (f := f) hfetch hleaf hdepth hbranch
  exact ⟨fun hc => hnode.trans (if_neg (Nat.not_le.2 hc)), fun hc => ⟨_, congrArg Prod.fst (hnode.trans (if_pos hc))⟩⟩

end Sys2Proof.Machine.Descents
end

section
/-! PROOFS. The descent unit (11_cluster_descent.md R273, R276, R277), and DESCEND and DLEAF (R271, R272, R278, R281). -/

namespace Sys2Proof.Machine.DescentUnit

open LaneEnds

/-! ## The unit (R273, R277) -/

/-- The state once a team's word has left the descent unit of a cluster. -/
def leaveDescent (s : State) (cl : Nat) (me : Nat × Nat) : State := s.modCluster cl fun c => { c with descent := c.descent.filter (· != me) }

@[simp] theorem leaveDescent_mem (s : State) (cl : Nat) (me : Nat × Nat) : (leaveDescent s cl me).mem = s.mem := rfl

@[simp] theorem leaveDescent_team (s : State) (cl : Nat) (me : Nat × Nat) (q t : Nat) : (leaveDescent s cl me).team q t = s.team q t :=
  State.team_modCluster ..

section unit

variable {x : LaneIn} {body : Bool → LaneRes} {y : State}

theorem onDescent_idle (h : x.m = 0) : x.onDescent body = .done x.s := if_pos h

/-- A word that a free unit performs leaves it. -/
theorem onDescent_done (hm : x.m ≠ 0) (hfree : (x.s.cluster x.sq.cluster).descent = []) (hb : body x.tm.inUnit = .done y) :
    x.onDescent body = .done (leaveDescent y x.sq.cluster (x.q, x.t)) := by
  simp only [LaneIn.onDescent, hm, hfree, hb, List.isEmpty_nil, true_or, if_true, if_false]
  rfl

theorem onDescent_park {c : Cause} {info : List DWord} {u : Mask} {r : List Byte} (hm : x.m ≠ 0)
    (hfree : (x.s.cluster x.sq.cluster).descent = []) (hb : body x.tm.inUnit = .park c info u r y) :
    x.onDescent body = .park c info u r (leaveDescent y x.sq.cluster (x.q, x.t)) := by
  simp only [LaneIn.onDescent, hm, hfree, hb, List.isEmpty_nil, true_or, if_true, if_false]
  rfl

end unit

/-- A ready descent word with lanes to do finds the unit of its cluster free. -/
structure UnitReady (s : State) (q t : Nat) (sq : Squad) (tm : Team) (i : Instr) (ms : BitVec 3) : Prop where
  ready : LaneReady s q t sq tm i ms
  lanes : tm.acting ms ≠ 0
  free : (s.cluster sq.cluster).descent = []

section words

variable {s y : State} {q t : Nat} {sq : Squad} {tm : Team} {i : Instr} {ms : BitVec 3} {body : LaneIn → Bool → LaneRes}

/-- A ready descent word with no lane in M retires (R277). -/
theorem exec_idle (hexec : exec i s = laneRun i ms (fun x => x.onDescent (body x)) s) (h : LaneReady s q t sq tm i ms) (hm : tm.acting ms = 0) :
    exec i s = .next (s.retire q t sq tm i (tm.acting ms)) := hexec.trans (laneRun_done h (onDescent_idle hm))

theorem exec_done (hexec : exec i s = laneRun i ms (fun x => x.onDescent (body x)) s) (h : UnitReady s q t sq tm i ms)
    (hb : body (laneIn s q t sq tm ms) tm.inUnit = .done y) :
    exec i s = .next ((leaveDescent y sq.cluster (q, t)).retire q t sq tm i (tm.acting ms)) :=
  hexec.trans (laneRun_done h.ready (onDescent_done h.lanes h.free hb))

theorem exec_park {c : Cause} {info : List DWord} {u : Mask} {r : List Byte} (hexec : exec i s = laneRun i ms (fun x => x.onDescent (body x)) s)
    (h : UnitReady s q t sq tm i ms) (hb : body (laneIn s q t sq tm ms) tm.inUnit = .park c info u r y) :
    exec i s = .next ((leaveDescent y sq.cluster (q, t)).laneStop q t sq tm i ms c info u r) :=
  hexec.trans (laneRun_park h.ready (onDescent_park h.lanes h.free hb))

/-- A word all of whose lanes fault alike parks with all of them unfinished. -/
theorem exec_faults {m : Master} {c : Cause} {info : Nat → List DWord} (hexec : exec i s = laneRun i ms (fun x => x.onDescent (body x)) s)
    (h : UnitReady s q t sq tm i ms) (hf : tm.faulted = []) (hne : tm.lanesOf (tm.acting ms) ≠ []) (hy : y.mem = s.mem)
    (hb : body (laneIn s q t sq tm ms) tm.inUnit
      = (laneIn s q t sq tm ms).ending y m ((tm.lanesOf (tm.acting ms)).map fun l => (l, .fault c (info l) []))) :
    ∃ (info : List DWord) (z : State), exec i s = .next (z.laneStop q t sq tm i ms c info (maskOf (tm.lanesOf (tm.acting ms)))) ∧ z.mem = s.mem := by
  obtain ⟨l, -, fs, hend⟩ := ending_faults (x := laneIn s q t sq tm ms) (s := y) (m := m) (c := c) (info := info) (rec_ := fun _ => []) hne hf
  exact ⟨_, _, exec_park hexec h (hb.trans hend), (State.modTeam_mem ..).trans hy⟩

end words

/-! ## The lanes of a word one after another -/

section each

variable {α : Type} {f : State → Nat → DR α}

/-- Lanes that are all performed. -/
theorem eachLane_ok {p : Nat → α} (ls : List Nat) (zs : Nat → State) (h : ∀ n l, ls[n]? = some l → f (zs n) l = (.ok (p l), zs (n + 1))) :
    eachLane f ls (zs 0) = (ls.map fun l => (l, p l), [], zs ls.length) := by
  induction ls generalizing zs with
  | nil => rfl
  | cons l ls ih =>
    have hrest := ih (fun n => zs (n + 1)) fun n k hk => h (n + 1) k hk
    rw [Nat.zero_add] at hrest
    simp only [eachLane, h 0 l rfl, Nat.zero_add, hrest, List.map_cons, List.length_cons]

/-- Lanes that all stop where they begin. -/
theorem eachLane_error {e : Nat → Stop} {s : State} (ls : List Nat) (h : ∀ l ∈ ls, f s l = (.error (e l), s)) :
    eachLane f ls s = ([], ls.map fun l => (l, e l), s) := by
  induction ls with
  | nil => rfl
  | cons l ls ih =>
    have hrest := ih fun k hk => h k (List.mem_cons_of_mem _ hk)
    simp only [eachLane, h l List.mem_cons_self, hrest, List.map_cons]

/-- The value of a lane in a table over lanes. -/
theorem aget_map_lane (d : α) (ls : List Nat) (p : Nat → α) {l : Nat} (hl : l ∈ ls) : aget d (ls.map fun l => (l, p l)) l = p l := by
  induction ls with
  | nil => cases hl
  | cons k ls ih =>
    by_cases hk : k = l
    · subst hk; simp [aget]
    · simp [aget, hk, ih ((List.mem_cons.1 hl).resolve_left (Ne.symm hk))]

/-- A table after an entry has been put for each of some lanes. -/
theorem aget?_foldl_aset (ls : List Nat) (v : Nat → α) (g : List (Nat × α)) (l : Nat) :
    aget? (ls.foldl (fun g l => aset g l (v l)) g) l = if l ∈ ls then some (v l) else aget? g l := by
  induction ls generalizing g with
  | nil => rfl
  | cons k ls ih =>
    rw [List.foldl_cons, ih]
    by_cases hl : l ∈ ls
    · simp [hl]
    · by_cases hk : l = k
      · subst hk; simp
      · simp [hl, hk, aget?_aset_ne _ _ hk]

end each

theorem getLsbD_maskOf_of_lt {ls : List Nat} {l n : Nat} (hn : n ≤ 1024) (hl : l < n) : (maskOf ls).getLsbD l = true ↔ l ∈ ls := by
  rw [getLsbD_maskOf]
  simp [show l < 1024 by omega]

theorem descentEnd_nil {x : LaneIn} (hf : x.tm.faulted = []) (h : Nat) (s : State) : x.descentEnd h s [] = .done s := by
  rw [LaneIn.descentEnd, List.any_nil, Bool.and_false, if_neg Bool.false_ne_true, ending_nil hf]

/-- Faults other than errors of the row tile end a descent word as any word. -/
theorem descentEnd_faults {x : LaneIn} {c : Cause} {info : Nat → List DWord} (hc : c ≠ .uncorrectableData) (h : Nat) (s : State) (ls : List Nat) :
    x.descentEnd h s (ls.map fun l => (l, .fault c (info l) [])) = x.ending s (.descent x.q x.t) (ls.map fun l => (l, .fault c (info l) [])) := by
  have hnone : ((ls.map fun l => ((l, .fault c (info l) []) : Nat × Stop)).any fun z => z.2.isTileError) = false := by
    cases c with
    | uncorrectableData => exact absurd rfl hc
    | _ => simp [Stop.isTileError]
  simp [LaneIn.descentEnd, hnone]

/-- A lane whose window is no TREE window stops (R271). -/
theorem treeWindow_error {x : LaneIn} {k : Nat} (hk : (x.tm.window k).kind ≠ 5) (l : Nat) :
    ∃ info, x.treeWindow k l = .error (.fault .windowInvalid info []) := ⟨_, if_neg hk⟩

theorem treeWindow_ok {x : LaneIn} {k : Nat} (hk : (x.tm.window k).kind = 5) (l : Nat) : x.treeWindow k l = .ok (x.tm.window k) := if_pos hk

/-! ## DESCEND (R271, R272, R278) -/

/-- The window of a descent word. -/
def treeWin (x : LaneIn) (w : LR) : Window := x.tm.window (fieldN w.c.toNat 0 3)

/-- The word's tree is LINKED. -/
def Linked (x : LaneIn) (w : LR) : Prop := (treeWin x w).kind = 5 ∧ treeLinked (treeWin x w).tree = true

/-- Where a lane's descent ended. -/
def pathAt (ps : List (Nat × Path)) (l : Nat) : Path := aget ⟨0, 0, 0, 0, [], false⟩ ps l

/-- The digest slot of a lane whose descent ended (R278). -/
def slotOf (win : Window) (p : Path) : DigestSlot := ⟨treeSeal win.tree, p.tree, p.node, p.depth, shake128 p.msg⟩

/-- A team whose listed lanes have written their leaves and paths. -/
def traced (w : LR) (ps : List (Nat × Path)) (tm : Team) : Team :=
  (tm.setV w.d.toNat (maskOf (ps.map (·.1))) fun l => BitVec.ofNat 32 (pathAt ps l).node).setPt (ptReg w) (maskOf (ps.map (·.1))) fun l =>
    (BitVec.ofNat 32 (pathAt ps l).bits, (pathAt ps l).depth)

/-- A team that holds IV where a descent met a NaN neuron. -/
def flagged (ps : List (Nat × Path)) (tm : Team) : Team := if ps.any fun p => p.2.iv then tm.holdFlags fIV else tm

/-- A team whose listed lanes have written their digests, under DIGEST. -/
def digested (win : Window) (ps : List (Nat × Path)) (tm : Team) : Team :=
  if treeDigest win.tree then { tm with digests := ps.foldl (fun g p => aset g p.1 (slotOf win p.2)) tm.digests } else tm

/-- A team whose listed lanes have descended. -/
def descended (w : LR) (win : Window) (ps : List (Nat × Path)) (tm : Team) : Team := digested win ps (flagged ps (traced w ps tm))

/-- The end of a DESCEND whose lanes came to `r`. -/
def descendEnd (x : LaneIn) (w : LR) (r : List (Nat × Path) × List (Nat × Stop) × State) : LaneRes :=
  x.descentEnd w.b.toNat (r.2.2.modTeam x.q x.t (descended w (treeWin x w) r.1)) r.2.1

/-- DESCEND traps where its index register is not claimed, and otherwise performs its lanes. -/
theorem exec_descend (w : LR) (s : State) : ∃ body : LaneIn → Bool → LaneRes,
    exec (.descend w) s = laneRun (.descend w) w.ms (fun x => x.onDescent (body x)) s ∧ ∀ x started,
      (Linked x w → x.tm.n ≤ w.a.toNat + 1 → body x started = x.trap .reservedField [])
      ∧ ((Linked x w → w.a.toNat + 1 < x.tm.n ∧ x.tm.badIn [w.a.toNat + 1] x.m = none) →
        body x started = descendEnd x w (eachLane (x.descendLane w started) (x.tm.lanesOf x.m) x.s)) := by
  refine ⟨_, rfl, fun x started => ⟨fun hl hn => if_pos ⟨hl, hn⟩, fun hl => ?_⟩⟩
  unfold Linked treeWin at hl
  have hclaimed : ¬ (((x.tm.window (fieldN w.c.toNat 0 3)).kind = 5 ∧ treeLinked (x.tm.window (fieldN w.c.toNat 0 3)).tree = true)
      ∧ x.tm.n ≤ w.a.toNat + 1) := fun h => Nat.not_le.2 (hl h.1).1 h.2
  have hgood : (if (x.tm.window (fieldN w.c.toNat 0 3)).kind = 5 ∧ treeLinked (x.tm.window (fieldN w.c.toNat 0 3)).tree = true
      then x.tm.badIn [w.a.toNat + 1] x.m else none) = none := by
    split
    next h => exact (hl h).2
    next => rfl
  simp only [if_neg hclaimed, hgood]
  rfl

section descended

variable {w : LR} {win : Window} {p : Nat → Path} {tm : Team} {ls : List Nat}

/-- The lanes' table of paths. -/
def pathsOf (p : Nat → Path) (ls : List Nat) : List (Nat × Path) := ls.map fun l => (l, p l)

theorem pathAt_pathsOf {l : Nat} (hl : l ∈ ls) : pathAt (pathsOf p ls) l = p l := aget_map_lane _ ls p hl

theorem lanes_pathsOf (p : Nat → Path) (ls : List Nat) : (pathsOf p ls).map (·.1) = ls := by simp [pathsOf, Function.comp_def]

/-- Flags and digests are not in the registers. -/
theorem descended_regs (ps : List (Nat × Path)) : (descended w win ps tm).v = (traced w ps tm).v ∧ (descended w win ps tm).pt = (traced w ps tm).pt
    ∧ (descended w win ps tm).lanes = tm.lanes := by
  unfold descended digested flagged
  split <;> split <;> exact ⟨rfl, rfl, rfl⟩

/-- Each lane's leaf is in D. -/
theorem V_descended (hn : tm.lanes ≤ 1024) (r : Nat) {l : Nat} (hl : l < tm.lanes) :
    (descended w win (pathsOf p ls) tm).V l r = if r = w.d.toNat ∧ l ∈ ls then BitVec.ofNat 32 (p l).node else tm.V l r := by
  obtain ⟨hv, -, -⟩ := descended_regs (w := w) (win := win) (tm := tm) (pathsOf p ls)
  have hV : (descended w win (pathsOf p ls) tm).V l r
      = (tm.setV w.d.toNat (maskOf ls) fun l => BitVec.ofNat 32 (pathAt (pathsOf p ls) l).node).V l r := by
    rw [Team.V, Team.vreg, hv, traced, lanes_pathsOf]
    rfl
  rw [hV, Team.V_setV _ _ _ _ _ _ hl]
  have hmask := getLsbD_maskOf_of_lt (ls := ls) hn hl
  by_cases hr : r = w.d.toNat
  · by_cases hls : l ∈ ls
    · simp [hr, hls, hmask.2 hls, pathAt_pathsOf hls]
    · simp [hr, hls, mt hmask.1 hls]
  · simp [hr]

/-- Each lane's path is in the path-trace register. -/
theorem ptOf_descended (hn : tm.lanes ≤ 1024) {l : Nat} (hl : l < tm.lanes) (hls : l ∈ ls) :
    (descended w win (pathsOf p ls) tm).ptOf (ptReg w) l = (BitVec.ofNat 32 (p l).bits, (p l).depth) := by
  obtain ⟨-, hpt, -⟩ := descended_regs (w := w) (win := win) (tm := tm) (pathsOf p ls)
  rw [Team.ptOf, hpt, traced, lanes_pathsOf, Team.setPt, aget_aset_self]
  have hl' : l < (tm.setV w.d.toNat (maskOf ls) fun l => BitVec.ofNat 32 (pathAt (pathsOf p ls) l).node).lanes := hl
  simp [upTo, hl', hls, pathAt_pathsOf hls, show l < 1024 by omega]

theorem owedFlags_descended :
    (descended w win (pathsOf p ls) tm).owedFlags = if ls.any fun l => (p l).iv then tm.owedFlags ||| fIV else tm.owedFlags := by
  have hany : ((pathsOf p ls).any fun z => z.2.iv) = ls.any fun l => (p l).iv := by simp [pathsOf, List.any_map, Function.comp_def]
  rw [← hany]
  unfold descended digested flagged
  split <;> split <;> rfl

theorem digests_descended (hd : treeDigest win.tree = true) {l : Nat} (hl : l ∈ ls) :
    aget? (descended w win (pathsOf p ls) tm).digests l = some (slotOf win (p l)) := by
  simp only [descended, digested, hd, if_true, pathsOf, List.foldl_map]
  rw [aget?_foldl_aset ls fun l => slotOf win (p l), if_pos hl]

theorem digests_undigested (hd : treeDigest win.tree = false) : (descended w win (pathsOf p ls) tm).digests = tm.digests := by
  unfold descended digested flagged
  rw [hd, if_neg Bool.false_ne_true]
  split <;> rfl

end descended

end Sys2Proof.Machine.DescentUnit
end

section
/-! PROOFS. DLEAF (11_cluster_descent.md R281), the faults of descent words all of whose lanes stop alike (R275, R276), and what DESCEND and DLEAF do. -/

namespace Sys2Proof.Machine.DescentWords

open LaneEnds DescentUnit
open LaneAlu (fieldN_low)
open LaneNumbers (fieldN_eq_div_mod)
open Moves (setRegs setRegs_frame V_setRegs)

/-! ## DLEAF (R281) -/

/-- The registers that DLEAF writes. -/
def leafCount (w : LR) : Nat := fieldN w.fn.toNat 3 3 + 1

/-- What lane `l` of DLEAF, whose leaf is `b l`, gives register D + i. -/
def leafOut (x : LaneIn) (w : LR) (b : Nat → List Byte) (l i : Nat) : Rounded :=
  let rnd := Rnd.ofCode (fieldN w.ex.toNat 3 2)
  let q := leafValue (b l) (fieldN w.fn.toNat 0 3 + i)
  if w.fn.getLsbD 6 then roundX .f32 rnd .inf (xadd rnd (NumTy.f32.decode (x.rd.V l (w.d.toNat + i)).toNat) (NumTy.f32.decode q)) else ⟨q, 0, false⟩

/-- The flags of the listed lanes of DLEAF. -/
def leafFlags (x : LaneIn) (w : LR) (b : Nat → List Byte) (ls : List Nat) : Flags5 :=
  ls.foldl (fun f l => (upTo (leafCount w)).foldl (fun f i => f ||| (leafOut x w b l i).flags) f) f0

/-- A team whose listed lanes have taken their leaves' values. -/
def leavesTaken (x : LaneIn) (w : LR) (bs : List (Nat × List Byte)) (tm : Team) : Team :=
  (setRegs w.d.toNat (leafCount w) (maskOf (bs.map (·.1))) (fun l i => BitVec.ofNat 32 (leafOut x w (aget [] bs) l i).code) tm).holdFlags
    (bs.foldl (fun f p => (upTo (leafCount w)).foldl (fun f i => f ||| (leafOut x w (aget [] bs) p.1 i).flags) f) f0)

/-- The end of a DLEAF whose lanes came to `r`. -/
def leafEnd (x : LaneIn) (w : LR) (r : List (Nat × List Byte) × List (Nat × Stop) × State) : LaneRes :=
  x.ending (r.2.2.modTeam x.q x.t (leavesTaken x w r.1)) (.descent x.q x.t) r.2.1

theorem exec_dleaf (w : LR) (s : State) : exec (.dleaf w) s = laneRun (.dleaf w) w.ms (fun x => x.onDescent fun started =>
    leafEnd x w (eachLane (x.leafLane w started) (x.tm.lanesOf x.m) x.s)) s := rfl

section taken

variable {x : LaneIn} {w : LR} {b : Nat → List Byte} {tm : Team} {ls : List Nat}

/-- A lane's values depend on its own leaf alone. -/
theorem leafOut_table {l : Nat} (hl : l ∈ ls) (i : Nat) : leafOut x w (aget [] (ls.map fun l => (l, b l))) l i = leafOut x w b l i := by
  rw [leafOut, aget_map_lane _ ls b hl]
  rfl

theorem V_leavesTaken (hn : tm.lanes ≤ 1024) (r : Nat) {l : Nat} (hl : l < tm.lanes) :
    (leavesTaken x w (ls.map fun l => (l, b l)) tm).V l r
      = if l ∈ ls ∧ w.d.toNat ≤ r ∧ r < w.d.toNat + leafCount w then BitVec.ofNat 32 (leafOut x w b l (r - w.d.toNat)).code else tm.V l r := by
  have hmask : (maskOf ((ls.map fun l => (l, b l)).map (·.1))).getLsbD l = true ↔ l ∈ ls := by
    rw [List.map_map]
    exact (getLsbD_maskOf_of_lt hn hl).trans (by simp)
  refine (V_setRegs _ _ _ _ r hl).trans ?_
  simp only [hmask]
  by_cases h : l ∈ ls ∧ w.d.toNat ≤ r ∧ r < w.d.toNat + leafCount w
  · rw [if_pos h, if_pos h, leafOut_table h.1]
  · rw [if_neg h, if_neg h]

theorem owedFlags_leavesTaken : (leavesTaken x w (ls.map fun l => (l, b l)) tm).owedFlags = tm.owedFlags ||| leafFlags x w b ls := by
  rw [leavesTaken, setRegs_frame, List.foldl_map]
  refine congrArg (tm.owedFlags ||| ·) (List.foldl_ext _ _ _ fun f l hl => ?_)
  simp only [leafOut_table hl]

end taken

/-! ## Lanes that all stop alike (R275, R276) -/

section stops

variable {x : LaneIn} {w : LR} {started : Bool} {s : State} {l : Nat}

theorem descendLane_no_window (hk : (treeWin x w).kind ≠ 5) : ∃ info, x.descendLane w started s l = (.error (.fault .windowInvalid info []), s) := by
  obtain ⟨info, hinfo⟩ := treeWindow_error hk l
  exact ⟨info, by simp only [LaneIn.descendLane, hinfo]⟩

theorem leafLane_no_window (hk : (treeWin x w).kind ≠ 5) : ∃ info, x.leafLane w started s l = (.error (.fault .windowInvalid info []), s) := by
  obtain ⟨info, hinfo⟩ := treeWindow_error hk l
  exact ⟨info, by simp only [LaneIn.leafLane, hinfo]⟩

theorem gradLane_no_window (hk : (treeWin x w).kind ≠ 5) : ∃ info, x.gradLane w s l = (.error (.fault .windowInvalid info []), s) := by
  obtain ⟨info, hinfo⟩ := treeWindow_error hk l
  exact ⟨info, by simp only [LaneIn.gradLane, hinfo]⟩

theorem rowTile_no_tile {h : Nat} (ht : x.tile h = none) (d : List DWord) (r : Nat) : ∃ info, x.rowTile d h l r = .error (.fault .tileHandle info []) := by
  unfold LaneIn.rowTile
  rw [ht]
  exact ⟨_, rfl⟩

/-- A descent over a row tile that is not allocated stops (R271). -/
theorem descendLane_no_tile (hk : (treeWin x w).kind = 5) (ht : x.tile w.b.toNat = none) :
    ∃ info, x.descendLane w started s l = (.error (.fault .tileHandle info []), s) := by
  obtain ⟨info, hinfo⟩ := rowTile_no_tile (l := l) ht (treeWin x w).tree (x.rd.V l w.a.toNat).toNat
  unfold treeWin at hk hinfo
  exact ⟨info, by simp only [LaneIn.descendLane, treeWindow_ok hk, hinfo]⟩

/-- A DLEAF of an index beyond the tree stops (R275). -/
theorem leafLane_beyond (hk : (treeWin x w).kind = 5) (hseal : started = true ∨ s.sealGone (treeWin x w).tree = false)
    (hn : treeNodes (treeWin x w).tree ≤ x.op 1 l w.a.toNat) : ∃ info, x.leafLane w started s l = (.error (.fault .descentNode info []), s) := by
  have hsealed : ¬ (!started && s.sealGone (treeWin x w).tree) = true := by
    rcases hseal with rfl | h
    · simp
    · simp [h]
  unfold treeWin at hk hsealed hn
  simp only [LaneIn.leafLane, treeWindow_ok hk]
  exact ⟨_, (if_neg hsealed).trans (if_pos hn)⟩

end stops

/-! ## DGRAD's lanes (R282) -/

/-- The order in which DGRAD's lanes add. -/
def gradOrder (x : LaneIn) : List Nat := (x.tm.lanesOf x.m).foldr (insertBy fun l => Config.freeNat x.s.free l) []

theorem foldr_insertBy_perm (rank : Nat → Nat) (ls : List Nat) : (ls.foldr (insertBy rank) []).Perm ls := by
  induction ls with
  | nil => exact .refl _
  | cons l ls ih => exact (Atomics.insertBy_perm rank l _).trans (ih.cons l)

theorem mem_gradOrder {x : LaneIn} {l : Nat} : l ∈ gradOrder x ↔ l ∈ x.tm.lanesOf x.m := (foldr_insertBy_perm _ _).mem_iff

/-- The end of a DGRAD whose lanes came to `r`. -/
def gradEnd (x : LaneIn) (w : LR) (r : List (Nat × Unit) × List (Nat × Stop) × State) : LaneRes :=
  x.descentEnd w.b.toNat r.2.2 ((x.tm.lanesOf x.m).filterMap fun l => (aget? r.2.1 l).map fun e => (l, e))

theorem exec_dgrad (w : LR) (s : State) :
    exec (.dgrad w) s = laneRun (.dgrad w) w.ms (fun x => x.onDescent fun _ => gradEnd x w (eachLane (x.gradLane w) (gradOrder x) x.s)) s := rfl

theorem aget?_map_lane {α : Type} (ls : List Nat) (p : Nat → α) {l : Nat} (hl : l ∈ ls) : aget? (ls.map fun l => (l, p l)) l = some (p l) := by
  induction ls with
  | nil => cases hl
  | cons k ls ih =>
    by_cases hk : k = l
    · subst hk; simp [aget?]
    · simp [aget?, hk, ih ((List.mem_cons.1 hl).resolve_left (Ne.symm hk))]

/-- Lanes that all stop do so in lane order, whatever the order of their additions. -/
theorem gradEnd_stops {x : LaneIn} {w : LR} (e : Nat → Stop) (s : State) :
    gradEnd x w ([], (gradOrder x).map fun l => (l, e l), s) = x.descentEnd w.b.toNat s ((x.tm.lanesOf x.m).map fun l => (l, e l)) := by
  refine congrArg (x.descentEnd w.b.toNat s) (TileWords.filterMap_some fun l hl => ?_)
  rw [aget?_map_lane _ e (mem_gradOrder.2 hl)]
  rfl

/-! ## What DESCEND and DLEAF do -/

section words

variable {s : State} {q t : Nat} {sq : Squad} {tm : Team} {w : LR}

/-- Lanes that all read one after another, the last of them leaving the squads as they were: those lanes' values, and the state after them. -/
structure Walked {α : Type} (s : State) (ls : List Nat) (f : State → Nat → DR α) (p : Nat → α) (z : State) : Prop where
  each : eachLane f ls s = (ls.map fun l => (l, p l), [], z)
  squads : z.squads = s.squads

/-- The team of a ready word after lanes that have only read. -/
theorem Walked.team {α : Type} {f : State → Nat → DR α} {p : Nat → α} {ls : List Nat} {i : Instr} {ms : BitVec 3} {z : State}
    (h : Walked s ls f p z) (hr : LaneReady s q t sq tm i ms) : z.team q t = some tm := by
  have hteam := team_of_ready hr
  unfold State.team State.squad at hteam ⊢
  rwa [h.squads]

/-- DESCEND of lanes that all reach a leaf (R272). -/
theorem exec_descend_leaves {p : Nat → Path} {z : State} (h : UnitReady s q t sq tm (.descend w) w.ms) (hf : tm.faulted = [])
    (hl : Linked (laneIn s q t sq tm w.ms) w → w.a.toNat + 1 < tm.n ∧ tm.badIn [w.a.toNat + 1] (tm.acting w.ms) = none)
    (hw : Walked s (tm.lanesOf (tm.acting w.ms)) ((laneIn s q t sq tm w.ms).descendLane w tm.inUnit) p z) :
    ∃ y : State, exec (.descend w) s = .next (y.retire q t sq tm (.descend w) (tm.acting w.ms)) ∧ y.mem = z.mem
      ∧ y.team q t = some (descended w (tm.window (fieldN w.c.toNat 0 3)) (pathsOf p (tm.lanesOf (tm.acting w.ms))) tm) := by
  obtain ⟨body, hexec, hbody⟩ := exec_descend w s
  have hend := (hbody (laneIn s q t sq tm w.ms) tm.inUnit).2 hl
  simp only [laneIn_tm, laneIn_m, laneIn_s, hw.each, descendEnd] at hend
  refine ⟨_, exec_done hexec h (hend.trans (descentEnd_nil hf _ _)), State.modTeam_mem .., ?_⟩
  rw [leaveDescent_team]
  exact team_modTeam_same _ (hw.team h.ready)

/-- DLEAF of lanes that all name leaves (R281). -/
theorem exec_dleaf_leaves {b : Nat → List Byte} {z : State} (h : UnitReady s q t sq tm (.dleaf w) w.ms) (hf : tm.faulted = [])
    (hw : Walked s (tm.lanesOf (tm.acting w.ms)) ((laneIn s q t sq tm w.ms).leafLane w tm.inUnit) b z) :
    ∃ y : State, exec (.dleaf w) s = .next (y.retire q t sq tm (.dleaf w) (tm.acting w.ms)) ∧ y.mem = z.mem
      ∧ y.team q t = some (leavesTaken (laneIn s q t sq tm w.ms) w ((tm.lanesOf (tm.acting w.ms)).map fun l => (l, b l)) tm) := by
  have hend : leafEnd (laneIn s q t sq tm w.ms) w (eachLane ((laneIn s q t sq tm w.ms).leafLane w tm.inUnit) (tm.lanesOf (tm.acting w.ms)) s)
      = .done (z.modTeam q t (leavesTaken (laneIn s q t sq tm w.ms) w ((tm.lanesOf (tm.acting w.ms)).map fun l => (l, b l)))) := by
    rw [hw.each]
    exact ending_nil hf
  refine ⟨_, exec_done (exec_dleaf w s) h hend, State.modTeam_mem .., ?_⟩
  rw [leaveDescent_team]
  exact team_modTeam_same _ (hw.team h.ready)

/-- A word parks its team with a cause and all its lanes unfinished, with memory as before. -/
def Stops (s : State) (q t : Nat) (sq : Squad) (tm : Team) (ms : BitVec 3) (i : Instr) (c : Cause) : Prop :=
  ∃ (info : List DWord) (z : State), exec i s = .next (z.laneStop q t sq tm i ms c info (maskOf (tm.lanesOf (tm.acting ms)))) ∧ z.mem = s.mem

section stops

variable {c : Cause}

/-- DESCEND of lanes that all stop alike. -/
theorem exec_descend_stops (h : UnitReady s q t sq tm (.descend w) w.ms) (hf : tm.faulted = []) (hne : tm.lanesOf (tm.acting w.ms) ≠ [])
    (hc : c ≠ .uncorrectableData)
    (hl : Linked (laneIn s q t sq tm w.ms) w → w.a.toNat + 1 < tm.n ∧ tm.badIn [w.a.toNat + 1] (tm.acting w.ms) = none)
    (hlane : ∀ l, ∃ info, (laneIn s q t sq tm w.ms).descendLane w tm.inUnit s l = (.error (.fault c info []), s)) :
    Stops s q t sq tm w.ms (.descend w) c := by
  obtain ⟨body, hexec, hbody⟩ := exec_descend w s
  have hend := (hbody (laneIn s q t sq tm w.ms) tm.inUnit).2 hl
  choose info hinfo using hlane
  rw [laneIn_s, laneIn_tm, laneIn_m, eachLane_error _ fun l _ => hinfo l, descendEnd, descentEnd_faults hc] at hend
  exact exec_faults hexec h hf hne (State.modTeam_mem ..) hend

/-- DLEAF of lanes that all stop alike. -/
theorem exec_dleaf_stops (h : UnitReady s q t sq tm (.dleaf w) w.ms) (hf : tm.faulted = []) (hne : tm.lanesOf (tm.acting w.ms) ≠ [])
    (hlane : ∀ l ∈ tm.lanesOf (tm.acting w.ms), ∃ info, (laneIn s q t sq tm w.ms).leafLane w tm.inUnit s l = (.error (.fault c info []), s)) :
    Stops s q t sq tm w.ms (.dleaf w) c := by
  have hlane' : ∀ l, ∃ info, l ∈ tm.lanesOf (tm.acting w.ms) →
      (laneIn s q t sq tm w.ms).leafLane w tm.inUnit s l = (.error (.fault c info []), s) := fun l => by
    by_cases hl : l ∈ tm.lanesOf (tm.acting w.ms)
    · exact (hlane l hl).imp fun _ h _ => h
    · exact ⟨[], fun h => absurd h hl⟩
  choose info hinfo using hlane'
  have hend : leafEnd (laneIn s q t sq tm w.ms) w (eachLane ((laneIn s q t sq tm w.ms).leafLane w tm.inUnit) (tm.lanesOf (tm.acting w.ms)) s)
      = (laneIn s q t sq tm w.ms).ending (s.modTeam q t (leavesTaken (laneIn s q t sq tm w.ms) w [])) (.descent q t)
          ((tm.lanesOf (tm.acting w.ms)).map fun l => (l, .fault c (info l) [])) := by
    rw [eachLane_error _ hinfo]
    rfl
  exact exec_faults (exec_dleaf w s) h hf hne (State.modTeam_mem ..) hend

/-- DGRAD of lanes that all stop alike. -/
theorem exec_dgrad_stops (h : UnitReady s q t sq tm (.dgrad w) w.ms) (hf : tm.faulted = []) (hne : tm.lanesOf (tm.acting w.ms) ≠ [])
    (hc : c ≠ .uncorrectableData)
    (hlane : ∀ l, ∃ info, (laneIn s q t sq tm w.ms).gradLane w s l = (.error (.fault c info []), s)) : Stops s q t sq tm w.ms (.dgrad w) c := by
  choose info hinfo using hlane
  have hend : gradEnd (laneIn s q t sq tm w.ms) w (eachLane ((laneIn s q t sq tm w.ms).gradLane w) (gradOrder (laneIn s q t sq tm w.ms)) s)
      = (laneIn s q t sq tm w.ms).ending s (.descent q t) ((tm.lanesOf (tm.acting w.ms)).map fun l => (l, .fault c (info l) [])) := by
    rw [eachLane_error _ fun l _ => hinfo l, gradEnd_stops, descentEnd_faults hc]
    rfl
  exact exec_faults (exec_dgrad w s) h hf hne rfl hend

end stops

end words

/-- Settles O23: the descent unit performs each lane of a DESCEND or a DLEAF and the team takes what its lanes came to; lanes that all stop alike park
the word. -/
theorem descendAndLeafWordsWriteTheirLanes : Obligations.DescendAndLeafWordsWriteTheirLanes := by
  intro s q t sq tm w x m ls win pt linked each
  have hwin : treeWin x w = win := by rw [treeWin, fieldN_low]; rfl
  have hpt : ptReg w = pt := fieldN_eq_div_mod ..
  have hlinked : Linked x w → linked := by
    unfold Linked
    rw [hwin]
    exact id
  have hwalked {α : Type} {f : State → Nat → DR α} {p : Nat → α} {zs : Nat → State} (h : each f p zs) : Walked s ls f p (zs ls.length) := by
    obtain ⟨hzero, hstep, hsquads⟩ := h
    exact ⟨hzero ▸ eachLane_ok ls zs hstep, hsquads _ le_rfl⟩
  refine ⟨fun hm i hi hr => ?idle, fun hn hstarved hf hm hfree => ?_⟩
  case idle =>
    simp only [List.mem_cons, List.not_mem_nil, or_false] at hi
    obtain ⟨body, hexec, -⟩ := exec_descend w s
    rcases hi with rfl | rfl
    · exact exec_idle hexec hr hm
    · exact exec_idle (exec_dleaf w s) hr hm
  have hunit {i : Instr} (hr : LaneReady s q t sq tm i w.ms) : UnitReady s q t sq tm i w.ms := ⟨hr, hm, hfree⟩
  have hlt {l : Nat} (hl : l ∈ ls) : l < tm.lanes := ((mem_lanesOf ..).1 hl).1
  refine ⟨fun p zs hr hreg hzs => ?descend, fun hr hl hreg => ?reserved, fun b zs hr hzs => ?leaf, fun hne => ?stops⟩
  case descend =>
    obtain ⟨z, hexec, hmem, hteam⟩ := exec_descend_leaves (hunit hr) hf (fun h => hreg (hlinked h)) (hwalked hzs)
    rw [← hpt]
    rw [show tm.window (fieldN w.c.toNat 0 3) = win from hwin] at hteam
    exact ⟨z, _, hexec, hmem, hteam, fun r l hl => V_descended hn r hl, fun l hl => ptOf_descended hn (hlt hl) hl, owedFlags_descended,
      fun hd l hl => digests_descended hd hl, digests_undigested⟩
  case reserved =>
    obtain ⟨body, hexec, hbody⟩ := exec_descend w s
    have htrap := (hbody x tm.inUnit).1 (by unfold Linked; rwa [hwin]) hreg
    exact ⟨_, exec_park hexec (hunit hr) htrap, rfl, (leaveDescent_team ..).trans (team_of_ready hr)⟩
  case leaf =>
    intro first count rnd value
    have hfirst : fieldN w.fn.toNat 0 3 = first := fieldN_low ..
    have hcount : leafCount w = count := congrArg (· + 1) (fieldN_eq_div_mod ..)
    have hvalue (l i : Nat) : leafOut (laneIn s q t sq tm w.ms) w b l i = value l i := by
      unfold leafOut
      rw [hfirst]
      rfl
    obtain ⟨z, hexec, hmem, hteam⟩ := exec_dleaf_leaves (hunit hr) hf (hwalked hzs)
    refine ⟨z, _, hexec, hmem, hteam, ?flags, fun r l hl => ?value⟩
    case flags =>
      rw [owedFlags_leavesTaken, leafFlags, hcount]
      simp only [hvalue]
      rfl
    case value =>
      rw [V_leavesTaken hn r hl, hcount, hvalue]
  case stops =>
    intro stops
    refine ⟨fun i hi hr hk => ?window, fun hr hk hreg htile => ?tile, fun hr hk hseal hnodes => ?node⟩
    case window =>
      have hk' : (treeWin x w).kind ≠ 5 := hwin ▸ hk
      simp only [List.mem_cons, List.not_mem_nil, or_false] at hi
      rcases hi with rfl | rfl | rfl
      · exact exec_descend_stops (hunit hr) hf hne (by decide) (fun h => absurd h.1 hk') fun l => descendLane_no_window hk'
      · exact exec_dleaf_stops (hunit hr) hf hne fun l _ => leafLane_no_window hk'
      · exact exec_dgrad_stops (hunit hr) hf hne (by decide) fun l => gradLane_no_window hk'
    case tile =>
      exact exec_descend_stops (hunit hr) hf hne (by decide) (fun h => hreg (hlinked h)) fun l => descendLane_no_tile (hwin ▸ hk) htile
    case node =>
      exact exec_dleaf_stops (hunit hr) hf hne fun l hl => leafLane_beyond (hwin ▸ hk) (hwin ▸ hseal) (hwin ▸ hnodes l hl)

end Sys2Proof.Machine.DescentWords
end

section
/-! PROOFS. DREGROUP and DTRACE (11_cluster_descent.md R279, R280). -/

namespace Sys2Proof.Machine.Regrouping

open LaneEnds DescentUnit
open LaneNumbers (fieldN_eq_div_mod)

/-! ## Words that write a pair of registers of each lane -/

/-- A team with two registers of the lanes of a mask written. -/
def pairSet (d : Nat) (m : Mask) (f g : Nat → Word) (tm : Team) : Team := (tm.setV d m f).setV (d + 1) m g

theorem pairSet_frame (d : Nat) (m : Mask) (f g : Nat → Word) (tm : Team) :
    pairSet d m f g tm = { tm with v := (pairSet d m f g tm).v, bad := (pairSet d m f g tm).bad, wrote := (pairSet d m f g tm).wrote } := rfl

theorem V_pairSet (d : Nat) (m : Mask) (f g : Nat → Word) {tm : Team} (r : Nat) {l : Nat} (hl : l < tm.lanes) :
    (pairSet d m f g tm).V l r = if l ∈ tm.lanesOf m ∧ r = d then f l else if l ∈ tm.lanesOf m ∧ r = d + 1 then g l else tm.V l r := by
  simp only [mem_lanesOf, hl, true_and]
  have hl' : l < (tm.setV d m f).lanes := hl
  simp only [pairSet, Team.V_setV _ _ _ _ _ _ hl', Team.V_setV _ _ _ _ _ _ hl]
  by_cases hm : m.getLsbD l = true
  · by_cases hd : r = d
    · simp [hm, hd]
    · simp [hm, hd]
  · by_cases hd : r = d
    · simp [hm, hd]
    · by_cases hd' : r = d + 1
      · simp [hm, hd']
      · simp [hd, hd']

/-- A word on a free descent unit that writes a pair of registers of each lane retires and changes nothing else. -/
theorem exec_pair {s : State} {q t : Nat} {sq : Squad} {tm : Team} {i : Instr} {ms : BitVec 3} {d : Nat} {f g : LaneIn → Nat → Word}
    (hexec : exec i s = laneRun i ms (fun x => x.onDescent fun _ => x.finish (pairSet d x.m (f x) (g x) x.tm)) s) (h : UnitReady s q t sq tm i ms) :
    ∃ (z : State) (new : Team), exec i s = .next (z.retire q t sq tm i (tm.acting ms)) ∧ z.mem = s.mem ∧ z.team q t = some new
      ∧ new = { tm with v := new.v, bad := new.bad, wrote := new.wrote }
      ∧ ∀ r l, l < tm.lanes → new.V l r =
          if l ∈ tm.lanesOf (tm.acting ms) ∧ r = d then f (laneIn s q t sq tm ms) l
          else if l ∈ tm.lanesOf (tm.acting ms) ∧ r = d + 1 then g (laneIn s q t sq tm ms) l else tm.V l r := by
  refine ⟨_, _, exec_done hexec h rfl, State.modTeam_mem .., (leaveDescent_team ..).trans (team_modTeam_same _ (team_of_ready h.ready)),
    pairSet_frame .., fun r l hl => V_pairSet _ _ _ _ r hl⟩

/-! ## The order of DREGROUP (R279) -/

theorem insertBy_pairwise (rank : Nat → Nat) (a : Nat) {ls : List Nat} (h : ls.Pairwise fun a b => rank a ≤ rank b) :
    (insertBy rank a ls).Pairwise fun a b => rank a ≤ rank b := by
  induction ls with
  | nil => simp [insertBy]
  | cons b ls ih =>
    obtain ⟨hb, hls⟩ := List.pairwise_cons.1 h
    unfold insertBy
    split
    next hab => exact List.pairwise_cons.2 ⟨fun c hc => (List.mem_cons.1 hc).elim (fun h => h ▸ hab) fun hc => hab.trans (hb c hc), h⟩
    next hab =>
      refine List.pairwise_cons.2 ⟨fun c hc => ?_, ih hls⟩
      rcases List.mem_cons.1 ((Atomics.insertBy_perm rank a ls).mem_iff.1 hc) with rfl | hc
      · omega
      · exact hb c hc

theorem foldr_insertBy_pairwise (rank : Nat → Nat) (ls : List Nat) : (ls.foldr (insertBy rank) []).Pairwise fun a b => rank a ≤ rank b := by
  induction ls with
  | nil => exact .nil
  | cons l ls ih => exact insertBy_pairwise rank l ih

/-- One lane comes before another by key, row and lane. -/
def Before (a b : Nat × Nat × Nat) : Prop := a.1 < b.1 ∨ a.1 = b.1 ∧ (a.2.1 < b.2.1 ∨ a.2.1 = b.2.1 ∧ a.2.2 < b.2.2)

/-- The rank of a lane that DREGROUP sorts by, as one number. -/
def rankOf (key row : Nat → Nat) (l : Nat) : Nat := (key l * 2 ^ 32 + row l) * 1024 + l

/-- The lanes that DREGROUP sorts, in order. -/
def sortedLanes (key row : Nat → Nat) (ls : List Nat) : List Nat := ls.foldr (insertBy (rankOf key row)) []

/-- Ranks are ordered as key, row and lane are. -/
theorem before_of_rankOf_le {key row : Nat → Nat} {a b : Nat} (ha : row a < 2 ^ 32 ∧ a < 1024) (hb : row b < 2 ^ 32 ∧ b < 1024)
    (hab : rankOf key row a ≤ rankOf key row b) (hne : a ≠ b) : Before (key a, row a, a) (key b, row b, b) := by
  unfold rankOf at hab
  unfold Before
  dsimp only
  omega

theorem sortedLanes_before {key row : Nat → Nat} {ls : List Nat} (hrow : ∀ l, row l < 2 ^ 32) (hls : ∀ l ∈ ls, l < 1024) (hnodup : ls.Nodup) :
    (sortedLanes key row ls).Pairwise fun a b => Before (key a, row a, a) (key b, row b, b) := by
  have hperm := DescentWords.foldr_insertBy_perm (rankOf key row) ls
  refine ((foldr_insertBy_pairwise (rankOf key row) ls).and (hperm.nodup_iff.2 hnodup)).imp_of_mem fun ha hb h => ?_
  exact before_of_rankOf_le ⟨hrow _, hls _ (hperm.mem_iff.1 ha)⟩ ⟨hrow _, hls _ (hperm.mem_iff.1 hb)⟩ h.1 h.2

/-! ## The words -/

/-- The key of a lane of DREGROUP. -/
def keyOf (x : LaneIn) (w : LR) (l : Nat) : Nat := (x.rd.V l w.a.toNat).toNat

/-- The row of a lane of DREGROUP. -/
def rowOf (x : LaneIn) (w : LR) (l : Nat) : Nat := (x.rd.V l (w.a.toNat + 1)).toNat

theorem exec_dregroup (w : LR) (s : State) : exec (.dregroup w) s = laneRun (.dregroup w) w.ms (fun x => x.onDescent fun _ =>
    x.finish (pairSet w.d.toNat x.m
      (fun l => BitVec.ofNat 32 (rowOf x w ((sortedLanes (keyOf x w) (rowOf x w) (x.tm.lanesOf x.m)).getD ((x.tm.lanesOf x.m).idxOf l) 0)))
      (fun l => BitVec.ofNat 32 ((sortedLanes (keyOf x w) (rowOf x w) (x.tm.lanesOf x.m)).idxOf l)) x.tm)) s := rfl

theorem exec_dtrace (w : LR) (s : State) : exec (.dtrace w) s = laneRun (.dtrace w) w.ms (fun x => x.onDescent fun _ =>
    x.finish (pairSet w.d.toNat x.m (fun l => (x.tm.ptOf (ptReg w) l).1) (fun l => BitVec.ofNat 32 (x.tm.ptOf (ptReg w) l).2) x.tm)) s := rfl

section words

variable {s : State} {q t : Nat} {sq : Squad} {tm : Team} {w : LR}

/-- DREGROUP gives the lanes the rows in order, and each lane its rank (R279). -/
theorem exec_dregroup_sorts (h : UnitReady s q t sq tm (.dregroup w) w.ms) (hn : tm.lanes ≤ 1024) :
    ∃ (z : State) (new : Team) (sorted : List Nat), exec (.dregroup w) s = .next (z.retire q t sq tm (.dregroup w) (tm.acting w.ms)) ∧ z.mem = s.mem
      ∧ z.team q t = some new ∧ new = { tm with v := new.v, bad := new.bad, wrote := new.wrote }
      ∧ sorted.Perm (tm.lanesOf (tm.acting w.ms))
      ∧ sorted.Pairwise (fun a b => Before ((tm.V a w.a.toNat).toNat, (tm.V a (w.a.toNat + 1)).toNat, a)
          ((tm.V b w.a.toNat).toNat, (tm.V b (w.a.toNat + 1)).toNat, b))
      ∧ ∀ r l, l < tm.lanes → new.V l r =
          if l ∈ tm.lanesOf (tm.acting w.ms) ∧ r = w.d.toNat then tm.V (sorted.getD ((tm.lanesOf (tm.acting w.ms)).idxOf l) 0) (w.a.toNat + 1)
          else if l ∈ tm.lanesOf (tm.acting w.ms) ∧ r = w.d.toNat + 1 then BitVec.ofNat 32 (sorted.idxOf l)
          else tm.V l r := by
  obtain ⟨z, new, hexec, hmem, hteam, hnew, hV⟩ := exec_pair (exec_dregroup w s) h
  refine ⟨z, new, sortedLanes (keyOf (laneIn s q t sq tm w.ms) w) (rowOf (laneIn s q t sq tm w.ms) w) (tm.lanesOf (tm.acting w.ms)), hexec, hmem, hteam,
    hnew, DescentWords.foldr_insertBy_perm .., sortedLanes_before (fun l => (tm.V l (w.a.toNat + 1)).isLt) (fun l hl => ?_) (Atomics.lanesOf_nodup ..),
    fun r l hl => (hV r l hl).trans ?_⟩
  · have := ((mem_lanesOf ..).1 hl).1
    omega
  · simp only [rowOf, BitVec.ofNat_toNat, BitVec.setWidth_eq, laneIn_rd, laneIn_tm, laneIn_m]

/-- DTRACE gives each lane its path bits and depth (R280). -/
theorem exec_dtrace_paths (h : UnitReady s q t sq tm (.dtrace w) w.ms) :
    ∃ (z : State) (new : Team), exec (.dtrace w) s = .next (z.retire q t sq tm (.dtrace w) (tm.acting w.ms)) ∧ z.mem = s.mem
      ∧ z.team q t = some new ∧ new = { tm with v := new.v, bad := new.bad, wrote := new.wrote }
      ∧ ∀ r l, l < tm.lanes → new.V l r =
          if l ∈ tm.lanesOf (tm.acting w.ms) ∧ r = w.d.toNat then (tm.ptOf (w.c.toNat / 16 % 8) l).1
          else if l ∈ tm.lanesOf (tm.acting w.ms) ∧ r = w.d.toNat + 1 then BitVec.ofNat 32 (tm.ptOf (w.c.toNat / 16 % 8) l).2
          else tm.V l r := by
  have hpt : ptReg w = w.c.toNat / 16 % 8 := fieldN_eq_div_mod ..
  rw [← hpt]
  exact exec_pair (exec_dtrace w s) h

end words

end Sys2Proof.Machine.Regrouping
end

section
/-! PROOFS. DGRAD (11_cluster_descent.md R282): the places of a lane's span, its additions one after another, and what the words on groups, paths and
gradients do. -/

namespace Sys2Proof.Machine.Gradients

open LaneEnds DescentUnit DescentWords Regrouping MemoryAccess MemoryAddress
open LaneAlu (fieldN_low)
open LaneNumbers (fieldN_eq_div_mod)

/-! ## Codes of F32 (R65) -/

/-- A number rounded to F32 has 32 bits. -/
theorem roundX_f32_lt (rnd : Rnd) (v : XVal × Flags5) : (roundX .f32 rnd .inf v).code < 2 ^ 32 := by
  have hsign (s : Bool) : b2n s ≤ 1 := VotesAndClaims.b2n_le_one s
  have hover (s : Bool) : ((⟨8, 23, 127, .ieee⟩ : FFmt).overflowed s rnd .inf).code < 2 ^ 32 := by
    have := hsign s
    simp only [FFmt.overflowed, FFmt.withSign, FFmt.infCode, FFmt.maxCode, if_true]
    split <;> dsimp only <;> omega
  change ((⟨8, 23, 127, .ieee⟩ : FFmt).roundTo v.1 rnd .inf).code < 2 ^ 32
  cases v.1 with
  | nan =>
    have hnan : (⟨8, 23, 127, .ieee⟩ : FFmt).nanCode < 2 ^ 32 := by decide
    exact hnan
  | inf s =>
    have := hsign s
    simp only [FFmt.roundTo, FFmt.withSign, FFmt.infCode, if_true]
    omega
  | zero s =>
    have := hsign s
    simp only [FFmt.roundTo, FFmt.zeroCode, FFmt.withSign]
    omega
  | fin s m e =>
    have := hsign s
    unfold FFmt.roundTo
    dsimp only
    split
    next => exact hover s
    next hle =>
      simp only [FFmt.withSign, FFmt.maxCode] at hle ⊢
      omega

/-! ## The places of a span (R145, R282) -/

/-- What a DGRAD access reports of itself. -/
def gradWord (w : LR) : MemWord := { win := fieldN w.c.toNat 0 3, atomic := true, wr := true, lsize := 2 }

/-- The window of gradients. -/
def gradWin (x : LaneIn) (w : LR) : Window := x.tm.window (fieldN w.d.toNat 0 3)

/-- The features of the word's tree. -/
def gradFeat (x : LaneIn) (w : LR) : Nat := treeFeat (treeWin x w).tree

/-- The offset of the span of the node at the word's level of a path. -/
def gradBase (x : LaneIn) (w : LR) (bits : Word) : Nat := heapNode bits.toNat (fieldN w.fn.toNat 0 5) * (4 * (gradFeat x w + 1))

/-- The gradient of a lane. -/
def gradientOf (x : LaneIn) (w : LR) (l : Nat) : XVal := NumTy.f32.decode (x.rd.V l w.a.toNat).toNat

/-- What a lane multiplies its gradient by for element `f`: its features, and one behind the last. -/
def factorOf (xs : List XVal) (f : Nat) : XVal := (xs ++ [XVal.fin false 1 0]).getD f (.zero false)

section lane

variable {x : LaneIn} {w : LR} {s : State} {l depth : Nat} {bits : Word} {k : Tile}

/-- What a lane of DGRAD has at hand: a HEAP tree, a window of gradients, its row and its path. -/
structure GradLane (x : LaneIn) (w : LR) (l : Nat) (k : Tile) (bits : Word) (depth : Nat) : Prop where
  tree : (treeWin x w).kind = 5
  mem : (gradWin x w).kind = 1
  row : x.rowTile (treeWin x w).tree w.b.toNat l (x.rd.V l (w.a.toNat + 1)).toNat = .ok k
  heap : treeLinked (treeWin x w).tree = false
  path : x.tm.ptOf (ptReg w) l = (bits, depth)

/-- A lane whose path does not pass the level adds nothing. -/
theorem GradLane.idle (h : GradLane x w l k bits depth) (hdepth : depth ≤ fieldN w.fn.toNat 0 5) : x.gradLane w s l = (.ok (), s) := by
  obtain ⟨htree, hmem, hrow, hheap, hpath⟩ := h
  unfold treeWin at htree hrow hheap
  unfold gradWin at hmem
  simp only [LaneIn.gradLane, treeWindow_ok htree, hmem, hrow, hheap, hpath, hdepth, ne_eq, not_true_eq_false, Bool.false_eq_true, if_false, if_true]

/-- A lane whose path passes the level finds its span's places and adds to each. -/
theorem GradLane.adds (h : GradLane x w l k bits depth) (hdepth : fieldN w.fn.toNat 0 5 < depth) {xs : List XVal}
    (hxs : rowFeatures w.b.toNat k l (x.rd.V l (w.a.toNat + 1)).toNat (upTo (gradFeat x w)) = .ok xs) :
    x.gradLane w s l = (x.gradSpan (gradWin x w) (gradWord w) l (gradBase x w bits) (upTo (gradFeat x w + 1)) s).andThen fun ps z =>
      x.gradAdds (gradWord w) l (gradientOf x w l) (ps.zip (xs ++ [.fin false 1 0])) z := by
  obtain ⟨htree, hmem, hrow, hheap, hpath⟩ := h
  unfold gradFeat treeWin at hxs
  unfold treeWin at htree hrow hheap
  unfold gradWin at hmem
  simp only [LaneIn.gradLane, treeWindow_ok htree, hmem, hrow, hheap, hpath, Nat.not_le.2 hdepth, hxs, ne_eq, not_true_eq_false, Bool.false_eq_true, if_false]
  rfl

end lane

/-- An aligned access of a MEM window that allows it is to the window's memory. -/
theorem windowAddr_inside {s : State} {a : Access} {win : Window} {off n : Nat} (hkind : win.kind = 1) (hrd : win.rd = true) (hwr : win.wr = true)
    (hal : off % n = 0) (hlimit : off + n ≤ win.limit) (d : Dir) :
    s.windowAddr a win (off : Int) n d false = (.ok (.loc (wrapN (win.base + (off : Nat)) 64) (s.winPa win off) win.zor), s) := by
  have hal' : ¬ (off : Int) % (n : Int) ≠ 0 := by
    rw [not_not, ← Int.natCast_mod, hal]
    rfl
  have hallowed : ¬ ((off : Int) < 0 ∨ (d.rd = true ∧ (!win.rd) = true) ∨ (d.wr = true ∧ (!win.wr) = true)) := by simp [hrd, hwr]
  have hrem : ¬ win.kind = 4 := by rw [hkind]; decide
  rw [MemoryWords.windowAddr_mem (by simp [hkind])]
  dsimp only
  rw [if_neg hal', if_neg hallowed, if_neg hrem, Int.toNat_natCast, if_pos hlimit]

/-- The n + 1 elements of a lane's span, element `f` at offset `base + 4 f` of the window of gradients, lie in ordinary memory, and no two of them are at
one address. -/
structure SpanAtHand (x : LaneIn) (gw : Window) (base n : Nat) : Prop where
  mem : gw.kind = 1
  readable : gw.rd = true
  writable : gw.wr = true
  committed : x.s.speculative x.sq = false
  canonical : Memory.wf x.s.mem = true
  aligned : base % 4 = 0
  reach : ∀ f, f ≤ n → base + 4 * f + 4 ≤ gw.limit
    ∧ Reaches x.s x.sq.cluster (x.s.ownerOf x.sq) (wrapN (gw.base + (base + 4 * f : Nat)) 64) (x.s.winPa gw (base + 4 * f)) 4 true
  apart : ∀ f, f ≤ n → ∀ f', f' ≤ n → f ≠ f' → x.s.winPa gw (base + 4 * f) ≠ x.s.winPa gw (base + 4 * f')

section span

variable {x : LaneIn} {gw : Window} {base n l : Nat}

/-- The place of an element of the span. -/
def placeOf (x : LaneIn) (gw : Window) (base f : Nat) : Nat × Nat × Bool :=
  (wrapN (gw.base + (base + 4 * f : Nat)) 64, x.s.winPa gw (base + 4 * f), gw.zor)

theorem SpanAtHand.ordinary (h : SpanAtHand x gw base n) {f : Nat} (hf : f ≤ n) :
    Ordinary x.s (x.s.ownerOf x.sq) (placeOf x gw base f).1 (placeOf x gw base f).2.1 4 true := ((reaches_iff ..).1 (h.reach f hf).2).1

/-- Finding the places of a span stops nowhere and changes nothing. -/
theorem SpanAtHand.gradSpan (h : SpanAtHand x gw base n) (mw : MemWord) (fs : List Nat) (hfs : ∀ f ∈ fs, f ≤ n) :
    x.gradSpan gw mw l base fs x.s = (.ok (fs.map (placeOf x gw base)), x.s) := by
  induction fs with
  | nil => rfl
  | cons f fs ih =>
    have hf := hfs f List.mem_cons_self
    have hbase := h.aligned
    have haddr := windowAddr_inside (s := x.s) (a := x.acc x.s l) h.mem h.readable h.writable (off := base + 4 * f) (n := 4) (by omega) (h.reach f hf).1
      { rd := true, wr := true }
    have hbuf : x.s.buffers (x.acc x.s l) (x.s.winPa gw (base + 4 * f)) = false := buffers_of_not_spec h.committed _
    have hguard := (h.ordinary hf).writeGuard (a := x.acc x.s l) (bs := [0, 0, 0, 0]) rfl (overAllowance_of_not_buffered hbuf 4)
    have hrest := ih fun k hk => hfs k (List.mem_cons_of_mem _ hk)
    unfold placeOf at hguard
    simp only [LaneIn.gradSpan, haddr, hbuf, hguard, hrest, DR.andThen, Bool.false_eq_true, if_false, List.map_cons]
    rfl

/-! ## The additions (R282) -/

/-- The code of an element after its addition. -/
def addedCode (g y : XVal) (old : Nat) : Nat := (roundX .f32 .ne .inf (xfma .ne g y (NumTy.f32.decode old))).code

/-- The state after additions to the listed elements. -/
structure Added (x : LaneIn) (gw : Window) (base : Nat) (g : XVal) (y : Nat → XVal) (fs : List Nat) (z : State) : Prop where
  accessed : Accessed x.s x.sq.cluster (x.s.ownerOf x.sq) z
  sums : ∀ f ∈ fs, memNat z (x.s.winPa gw (base + 4 * f)) 4 = addedCode g (y f) (memNat x.s (x.s.winPa gw (base + 4 * f)) 4)
  frame : ∀ a, (∀ f ∈ fs, ¬ (x.s.winPa gw (base + 4 * f) ≤ a ∧ a < x.s.winPa gw (base + 4 * f) + 4)) → memGet z.mem a = memGet x.s.mem a

/-- No byte of an element lies in another. -/
theorem SpanAtHand.disjoint (h : SpanAtHand x gw base n) {f f' : Nat} (hf : f ≤ n) (hf' : f' ≤ n) (hne : f ≠ f') :
    x.s.winPa gw (base + 4 * f) + 4 ≤ x.s.winPa gw (base + 4 * f') ∨ x.s.winPa gw (base + 4 * f') + 4 ≤ x.s.winPa gw (base + 4 * f) :=
  Atomics.apart_of_aligned (by decide) (h.ordinary hf).aligned (h.ordinary hf').aligned (h.apart f hf f' hf' hne)

/-- One more element is added to. -/
theorem Added.step {g : XVal} {y : Nat → XVal} {fs : List Nat} {z : State} (h : Added x gw base g y fs z) (hs : SpanAtHand x gw base n)
    (hfs : ∀ f ∈ fs, f ≤ n) {f : Nat} (hf : f ≤ n) (hnew : f ∉ fs) (l : Nat) :
    ∃ bs z', z.patomic (x.acc z l) (placeOf x gw base f).1 (placeOf x gw base f).2.1 (placeOf x gw base f).2.2 4 false
        (fun old => some (toBytes 4 (addedCode g (y f) (ofBytes old)))) = (.ok bs, z')
      ∧ Added x gw base g y (fs ++ [f]) z' := by
  obtain ⟨hz, hsums, hframe⟩ := h
  have hacc := acc_congr x (sameMaps_of_accessed hz).tasks l
  have hord : Ordinary z (x.acc x.s l).owner (placeOf x gw base f).1 (placeOf x gw base f).2.1 4 true := hz.ordinary (hs.ordinary hf)
  obtain ⟨bs, z', hatom, -, hz', hnewval, hothers⟩ := hord.patomic (a := x.acc x.s l) (hz.canonical hs.canonical) hs.committed gw.zor false
    (fun old => some (addedCode g (y f) old))
  have hapart (k : Nat) (hk : k ∈ fs) := hs.disjoint (hfs k hk) hf (fun heq => hnew (heq ▸ hk))
  have hold : memNat z (x.s.winPa gw (base + 4 * f)) 4 = memNat x.s (x.s.winPa gw (base + 4 * f)) 4 :=
    memNat_congr fun i hi => hframe _ fun k hk => by have := hapart k hk; omega
  refine ⟨bs, z', ?run, hz.trans hz', fun k hk => ?sum, fun a ha => ?frame⟩
  case run =>
    rw [hacc]
    exact hatom
  case sum =>
    rcases List.mem_append.1 hk with hk | hk
    · rw [← hsums k hk]
      exact memNat_congr fun i hi => hothers _ (by have := hapart k hk; unfold placeOf; dsimp only; omega)
    · obtain rfl := List.mem_singleton.1 hk
      exact hnewval.trans ((Nat.mod_eq_of_lt (roundX_f32_lt ..)).trans (congrArg (addedCode g (y k)) hold))
  case frame =>
    exact (hothers a (ha f (by simp))).trans (hframe a fun k hk => ha k (by simp [hk]))

/-- The elements from one on are added to, one after another. -/
theorem Added.adds {g : XVal} {y : Nat → XVal} (hs : SpanAtHand x gw base n) (mw : MemWord) (l : Nat) (rest : List Nat) {fs : List Nat} {z : State}
    (h : Added x gw base g y fs z) (hall : ∀ f ∈ fs ++ rest, f ≤ n) (hnodup : (fs ++ rest).Nodup) :
    ∃ z', x.gradAdds mw l g (rest.map fun f => (placeOf x gw base f, y f)) z = (.ok (), z') ∧ Added x gw base g y (fs ++ rest) z' := by
  induction rest generalizing fs z with
  | nil => exact ⟨z, rfl, by rwa [List.append_nil]⟩
  | cons f rest ih =>
    have hnew : f ∉ fs := fun hf => (List.nodup_append.1 hnodup).2.2 f hf f List.mem_cons_self rfl
    obtain ⟨bs, z', hatom, hz'⟩ := h.step hs (fun k hk => hall k (List.mem_append_left _ hk)) (hall f (by simp)) hnew l
    rw [List.append_cons] at hall hnodup
    obtain ⟨z'', hrest, hz''⟩ := ih hz' hall hnodup
    refine ⟨z'', ?_, by rwa [List.append_cons]⟩
    unfold placeOf addedCode at hatom
    simp only [List.map_cons, LaneIn.gradAdds, placeOf, hatom]
    exact hrest

end span

/-- Pairing a list of places with as many factors. -/
theorem map_zip_getD {α : Type} (place : Nat → α) {ys : List XVal} {n : Nat} (hlen : ys.length = n) (d : XVal) :
    ((upTo n).map place).zip ys = (upTo n).map fun f => (place f, ys.getD f d) := by
  refine List.ext_getElem (by simp [upTo, hlen]) fun i hi _ => ?_
  have hin : i < ys.length := by simp [upTo, hlen] at hi; omega
  simp [upTo, hin]

/-- As many features are read as are asked for. -/
theorem length_rowFeatures {h l r : Nat} {t : Tile} {fs : List Nat} {xs : List XVal} (hxs : rowFeatures h t l r fs = .ok xs) :
    xs.length = fs.length := by
  induction fs generalizing xs with
  | nil => cases hxs; rfl
  | cons f fs ih =>
    unfold rowFeatures at hxs
    split at hxs
    · cases hxs
    · split at hxs
      · cases hxs
      next hrest =>
        cases hxs
        simp [ih hrest]

/-- A lane whose path passes the level adds to every element of its span. -/
theorem GradLane.performs {x : LaneIn} {w : LR} {l depth : Nat} {bits : Word} {k : Tile} {xs : List XVal} (h : GradLane x w l k bits depth)
    (hdepth : fieldN w.fn.toNat 0 5 < depth)
    (hxs : rowFeatures w.b.toNat k l (x.rd.V l (w.a.toNat + 1)).toNat (upTo (gradFeat x w)) = .ok xs)
    (hspan : SpanAtHand x (gradWin x w) (gradBase x w bits) (gradFeat x w)) :
    ∃ z, x.gradLane w x.s l = (.ok (), z)
      ∧ Added x (gradWin x w) (gradBase x w bits) (gradientOf x w l) (factorOf xs) (upTo (gradFeat x w + 1)) z := by
  have hlen : (xs ++ [XVal.fin false 1 0]).length = gradFeat x w + 1 := by simp [length_rowFeatures hxs, upTo]
  have hall : ∀ f ∈ upTo (gradFeat x w + 1), f ≤ gradFeat x w := fun f hf => Nat.lt_succ_iff.1 (List.mem_range.1 hf)
  have hstart : Added x (gradWin x w) (gradBase x w bits) (gradientOf x w l) (factorOf xs) [] x.s := ⟨.refl _ _ _, by simp, fun _ _ => rfl⟩
  obtain ⟨z, hadds, hz⟩ := hstart.adds hspan (gradWord w) l (upTo (gradFeat x w + 1)) hall List.nodup_range
  have hrun := h.adds (s := x.s) hdepth hxs
  rw [hspan.gradSpan (gradWord w) _ hall, DR.andThen, map_zip_getD _ hlen (.zero false)] at hrun
  exact ⟨z, hrun.trans hadds, hz⟩

/-- A DGRAD whose only lane is performed retires. -/
theorem exec_dgrad_one {s z : State} {q t l : Nat} {sq : Squad} {tm : Team} {w : LR} (h : UnitReady s q t sq tm (.dgrad w) w.ms)
    (hf : tm.faulted = []) (hls : tm.lanesOf (tm.acting w.ms) = [l]) (hlane : (laneIn s q t sq tm w.ms).gradLane w s l = (.ok (), z)) :
    exec (.dgrad w) s = .next ((leaveDescent z sq.cluster (q, t)).retire q t sq tm (.dgrad w) (tm.acting w.ms)) := by
  have horder : gradOrder (laneIn s q t sq tm w.ms) = [l] := by
    unfold gradOrder
    rw [laneIn_tm, laneIn_m, hls]
    rfl
  have hnone : ((laneIn s q t sq tm w.ms).tm.lanesOf (laneIn s q t sq tm w.ms).m).filterMap
      (fun l => (aget? ([] : List (Nat × Stop)) l).map fun e => (l, e)) = [] := List.filterMap_eq_nil_iff.2 fun _ _ => rfl
  refine exec_done (exec_dgrad w s) h ?_
  simp only [horder, eachLane, laneIn_s, hlane, gradEnd, hnone]
  exact descentEnd_nil hf _ _

/-- Settles O24: DREGROUP and DTRACE write a pair of registers of each lane; a lane of DGRAD adds nothing, or finds its span's places and adds to one after
another. -/
theorem regroupTraceAndGradientWordsComplete : Obligations.RegroupTraceAndGradientWordsComplete := by
  refine ⟨fun s q t sq tm w => ?groups, fun s q t sq tm w => ?gradients⟩
  case groups =>
    intro m ls d rank before
    refine ⟨fun hm i hi hr => ?idle, fun hn hm hfree => ⟨fun hr => ?dregroup, fun hr => ?dtrace⟩⟩
    case idle =>
      simp only [List.mem_cons, List.not_mem_nil, or_false] at hi
      rcases hi with rfl | rfl
      · exact exec_idle (exec_dregroup w s) hr hm
      · exact exec_idle (exec_dtrace w s) hr hm
    case dregroup => exact exec_dregroup_sorts ⟨hr, hm, hfree⟩ hn
    case dtrace => exact exec_dtrace_paths ⟨hr, hm, hfree⟩
  case gradients =>
    intro x m d gw lev
    have hwin : treeWin x w = tm.window (w.c.toNat % 8) := by rw [treeWin, fieldN_low]; rfl
    have hgw : gradWin x w = gw := by rw [gradWin, fieldN_low]; rfl
    have hlev : fieldN w.fn.toNat 0 5 = lev := fieldN_low ..
    have hpt : ptReg w = w.c.toNat / 16 % 8 := fieldN_eq_div_mod ..
    refine ⟨fun hm hr => exec_idle (exec_dgrad w s) hr hm, fun l k xs => ?_⟩
    intro path node n at_ g pa y hr hls hn hstarved hf hfree htree hkind hheap hrow
    have hm : tm.acting w.ms ≠ 0 := fun hm => by
      have hl : l ∈ tm.lanesOf (tm.acting w.ms) := hls ▸ List.mem_cons_self
      simp [hm] at hl
    have hunit : UnitReady s q t sq tm (.dgrad w) w.ms := ⟨hr, hm, hfree⟩
    have hlane : GradLane x w l k path.1 path.2 := ⟨hwin ▸ htree, hgw ▸ hkind, by rw [hwin]; exact hrow, hwin ▸ hheap, by rw [hpt]; rfl⟩
    refine ⟨fun hdepth => ?idle, fun hdepth hrd hwr hxs hspec hwf hreach hapart => ?adds⟩
    case idle => exact ⟨_, exec_dgrad_one hunit hf hls (hlane.idle (hlev ▸ hdepth)), (leaveDescent_team ..).trans (team_of_ready hr), rfl⟩
    case adds =>
      have hfeat : gradFeat x w = n := by rw [gradFeat, hwin]
      have hbase (f : Nat) : gradBase x w path.1 + 4 * f = at_ f := by rw [gradBase, hfeat, hlev]
      have hpa (f : Nat) : x.s.winPa (gradWin x w) (gradBase x w path.1 + 4 * f) = pa f := by rw [hbase, hgw]; rfl
      have hspan : SpanAtHand x (gradWin x w) (gradBase x w path.1) (gradFeat x w) := by
        refine ⟨hgw ▸ hkind, hgw ▸ hrd, hgw ▸ hwr, hspec, hwf, ?aligned, fun f hf => ?reach, fun f hf f' hf' hne => ?apart⟩
        case aligned =>
          rw [gradBase, Nat.mul_left_comm]
          exact Nat.mul_mod_right ..
        case reach =>
          rw [hpa, hbase, hgw]
          exact hreach f (hfeat ▸ hf)
        case apart =>
          rw [hpa, hpa]
          exact hapart f (hfeat ▸ hf) f' (hfeat ▸ hf') hne
      obtain ⟨z, hz, hadded⟩ := hlane.performs (xs := xs) (hlev ▸ hdepth) (by rw [hfeat]; exact hxs) hspan
      obtain ⟨hacc, hsums, hframe⟩ := hadded
      simp only [hpa, hfeat] at hsums hframe
      refine ⟨_, exec_dgrad_one hunit hf hls hz, (leaveDescent_team ..).trans (((sameUnits_of_accessed hacc).team q t).trans (team_of_ready hr)),
        fun f hf => hsums f (List.mem_range.2 (Nat.lt_succ_of_le hf)), fun a ha => hframe a fun f hf => ha f (Nat.lt_succ_iff.1 (List.mem_range.1 hf))⟩

end Sys2Proof.Machine.Gradients
end

section
/-! PROOFS. DTSET (11_cluster_descent.md R266 to R268), and SEAL, DIGEST and UMPREL (23_package_security.md R421, R422, R425 to R428). -/

namespace Sys2Proof.Machine.SealWords

open LaneAlu (fieldN_low)
open LaneNumbers (fieldN_eq_div_mod)
open VotesRead (withStream_ok ctx_modCtx_same)
open WindowWords (seqFull_eq_false mkWindow_first queued field64_eq_div_mod)
open ScalarMemory (translate_tlb addrCheck_of_tlb withMem_ok)

variable {s : State} {q c : Nat} {sq : Squad} {cx : Ctx} {w : GR}

/-! ## DTSET (R266, R267, R268) -/

section dtset

/-- The descriptor that DTSET reads from its four registers. -/
def descriptorOf (cx : Ctx) (w : GR) : List DWord := (upTo 4).map fun k => cx.S (w.a.toNat + k)

/-- The nodes and the roots of an AUDIT descriptor lie in the sealed range that it names. -/
def TreeSealed (s : State) (owner : Nat) (d : List DWord) (va : Nat) : Prop :=
  treeAudit d = true → s.sealCovers owner (treeSeal d) va (treeNodes d * treeStride d) = true
    ∧ (treeLinked d = true → s.sealCovers owner (treeSeal d) (treeRoots d) (4 * treeTrees d) = true)

theorem unsealed_iff {owner va : Nat} {d : List DWord} :
    (treeAudit d && !(s.sealCovers owner (treeSeal d) va (treeNodes d * treeStride d)
      && (!treeLinked d || s.sealCovers owner (treeSeal d) (treeRoots d) (4 * treeTrees d)))) = true ↔ ¬ TreeSealed s owner d va := by
  rw [TreeSealed, ← Bool.not_eq_false, not_iff_not]
  cases treeAudit d <;> cases treeLinked d <;> simp

theorem exec_dtset_reserved {o : Nat} (h : GenReady s q c sq cx (.dtset w) w.cnd) (hroom : cx.seq.length < 2)
    (hbad : treeBad (descriptorOf cx w) = some o) :
    exec (.dtset w) s = .next (s.ctxTrap q c .reservedField [BitVec.ofNat 64 o, 0, 0, 0]) := by
  unfold descriptorOf at hbad
  refine (Eq.refl (execDtset w s)).trans (genRun_trap h ?_)
  simp only [genIn_rd, genIn_cx, genIn_s, seqFull_eq_false hroom, Bool.false_eq_true, if_false, hbad]

theorem exec_dtset_unsealed (h : GenReady s q c sq cx (.dtset w) w.cnd) (hroom : cx.seq.length < 2) (hgood : treeBad (descriptorOf cx w) = none)
    (hsealed : ¬ TreeSealed s (s.ownerOf sq) (descriptorOf cx w) (cx.S w.a.toNat).toNat) :
    exec (.dtset w) s = .next (s.ctxTrap q c .protection [0, 0x100, 0, 0]) := by
  have hstop := unsealed_iff.2 hsealed
  unfold descriptorOf at hgood hstop
  refine (Eq.refl (execDtset w s)).trans (genRun_trap h ?_)
  simp only [genIn_rd, genIn_cx, genIn_s, genIn_sq, seqFull_eq_false hroom, Bool.false_eq_true, if_false, hgood]
  exact if_pos hstop

/-- What the translation of the nodes' address gives a TREE window (R267). -/
def treeMem (s : State) (sq : Squad) (cx : Ctx) (w : GR) (e : TlbEnt) : Window :=
  s.memWindow (s.ownerOf sq) (s.task sq.task) (cx.S w.a.toNat).toNat (treeNodes (descriptorOf cx w) * treeStride (descriptorOf cx w)) true false
    (xlOf (cx.S w.a.toNat).toNat e.size e.leaf)

/-- The TREE window that a DTSET loads (R267). -/
def treeWindow (s : State) (sq : Squad) (cx : Ctx) (w : GR) (e : TlbEnt) : Window :=
  let m := treeMem s sq cx w e
  { mkWindow 5 m.rd false (cx.S w.a.toNat).toNat (s.ownerOf sq) m.frame 0 0 m.limit with
    tree := descriptorOf cx w, pgBase := m.pgBase, pgSize := m.pgSize, zor := m.zor, span := m.span, home := m.home }

theorem treeWindow_fields {e : TlbEnt} (hlow : (cx.S w.a.toNat).toNat < 2 ^ 56) :
    (treeWindow s sq cx w e).kind = 5 ∧ (treeWindow s sq cx w e).tree = descriptorOf cx w ∧ (treeWindow s sq cx w e).wr = false := by
  obtain ⟨hkind, -, -, hwr⟩ := mkWindow_first (kind := 5) (rd := (treeMem s sq cx w e).rd) (wr := false) (key := s.ownerOf sq)
    (frame := (treeMem s sq cx w e).frame) (devid := 0) (aux := 0) (limit := (treeMem s sq cx w e).limit) (by decide) hlow
  exact ⟨hkind, rfl, hwr⟩

/-- DTSET of an allowed descriptor fills its digest slot and queues the stretch that loads its window. -/
theorem exec_dtset_queues {e : TlbEnt} (h : GenReady s q c sq cx (.dtset w) w.cnd) (hroom : cx.seq.length < 2)
    (hgood : treeBad (descriptorOf cx w) = none) (hsealed : TreeSealed s (s.ownerOf sq) (descriptorOf cx w) (cx.S w.a.toNat).toNat)
    (huse : s.streamUse q c sq cx (w.imm.toNat % 64) = .ok) (he : GenTlb s sq (cx.S w.a.toNat).toNat 128 {} e) :
    exec (.dtset w) s = .next ((queued (s.modSquad q fun y => { y with slots := aset y.slots (w.fn.toNat % 16) (descriptorOf cx w) }) q c
      (w.imm.toNat % 64) (w.d.toNat % 8) (treeWindow s sq cx w e)).genRetire q c sq cx (.dtset w) Ctx.advance) := by
  have hpass := mt unsealed_iff.1 (not_not.2 hsealed)
  have hch : fieldN w.imm.toNat 0 6 = w.imm.toNat % 64 := fieldN_low ..
  have hslot : fieldN w.fn.toNat 0 4 = w.fn.toNat % 16 := fieldN_low ..
  have hwin : fieldN w.d.toNat 0 3 = w.d.toNat % 8 := fieldN_low ..
  refine (Eq.refl (execDtset w s)).trans (genRun_done h ?_)
  unfold descriptorOf at hgood hpass
  simp only [genIn_rd, genIn_cx, genIn_s, genIn_q, genIn_c, genIn_sq, seqFull_eq_false hroom, Bool.false_eq_true, if_false, hgood, hch, hslot, hwin]
  exact (if_neg hpass).trans ((withStream_ok huse _).trans ((addrCheck_of_tlb he).trans ((withMem_ok (translate_tlb he) ..).trans rfl)))

end dtset

/-! ## Words that wait for the commit (R385) -/

theorem afterCommit_spec (h : s.speculative sq = true) (f : GenRes) : (genIn s q c sq cx).afterCommit f = .wait .spec s := if_pos h

theorem afterCommit_free (h : s.speculative sq = false) (f : GenRes) : (genIn s q c sq cx).afterCommit f = f := if_neg (Bool.eq_false_iff.1 h)

/-- A word that acts after the commit of its task waits for it. -/
theorem exec_waits_commit {i : Instr} {f : GenIn → GenRes} (hexec : exec i s = genRun i w.cnd (fun x => x.afterCommit (f x)) s)
    (h : GenReady s q c sq cx i w.cnd) (hspec : s.speculative sq = true) : exec i s = .next (s.modCtx q c fun y => { y with wait := some .spec }) :=
  hexec.trans (genRun_wait h (afterCommit_spec hspec _))

/-! ## SEAL (R425) -/

section sealing

theorem freeSeal_none {z : State} (h : ∀ k, k < 256 → (aget? z.seals k).isSome = true) : z.freeSeal = none :=
  List.find?_eq_none.2 fun k hk => by simpa using Option.isSome_iff_ne_none.1 (h k (List.mem_range.1 hk))

theorem freeSeal_some {z : State} {k : Nat} (hk : k < 256) (hfree : aget? z.seals k = none) (h : ∀ j, j < k → (aget? z.seals j).isSome = true) :
    z.freeSeal = some k :=
  List.find?_range_eq_some.2 ⟨by simp [hfree], List.mem_range.2 hk, fun j hj => by simpa using h j hj⟩

/-- The entry that a SEAL makes. -/
def sealEntry (owner base len : Nat) (frames : List ((Nat × Nat) × Bool)) : SealEnt :=
  { owner := owner, base := base, len := len, frames := frames.map (·.1), zors := frames.map (·.2) }

/-- The base of the range that a SEAL names. -/
def sealBase (cx : Ctx) (w : GR) : Nat := (cx.S w.a.toNat).toNat

/-- The length of the range that a SEAL names. -/
def sealLen (cx : Ctx) (w : GR) : Nat := (cx.S (w.a.toNat + 1)).toNat

/-- A SEAL of an allowed range, whose frames have been found: no sealed range of its owner and no range lock meets it. -/
structure MaySeal (s : State) (sq : Squad) (cx : Ctx) (w : GR) (frames : List ((Nat × Nat) × Bool)) (z : State) : Prop where
  committed : s.speculative sq = false
  fields : sealFieldBad (sealBase cx w) (sealLen cx w) = none
  high : sealBase cx w + sealLen cx w ≤ 2 ^ 56
  pinned : State.pinFrames (s.genAccess sq) (sealLen cx w / 2 ^ 16 + 1) s (sealBase cx w) (sealLen cx w) = (.ok frames, z)
  apart : ∀ e ∈ z.seals, e.2.owner = s.ownerOf sq → overlaps (sealBase cx w) (sealLen cx w) e.2.base e.2.len = false
  unlocked : z.lockHit (s.ownerOf sq) (sealBase cx w) (sealLen cx w) true = none

variable {frames : List ((Nat × Nat) × Bool)} {z : State}

/-- The test of SEAL for a sealed range of its owner that its own range meets. -/
theorem MaySeal.meets_none (hm : MaySeal s sq cx w frames z) :
    ¬ (z.seals.any fun e => e.2.owner == s.ownerOf sq && overlaps (sealBase cx w) (sealLen cx w) e.2.base e.2.len) = true := by
  simpa using hm.apart

/-- A SEAL of an allowed range gives 0 when the table is full. -/
theorem exec_seal_full (h : GenReady s q c sq cx (.seal w) w.cnd) (hm : MaySeal s sq cx w frames z) (hfull : z.freeSeal = none) :
    exec (.seal w) s = .next ((z.modCtx q c fun y => { y.setS w.d.toNat 0 with cc := { z := true } }).genRetire q c sq cx (.seal w) Ctx.advance) := by
  have hmeets := hm.meets_none
  obtain ⟨hfree, hfields, hhigh, hpin, -, hlock⟩ := hm
  refine (Eq.refl (execSeal w s)).trans (genRun_done h ((afterCommit_free hfree _).trans ?_))
  unfold sealBase sealLen at *
  simp only [genIn_rd, genIn_s, genIn_q, genIn_c, genIn_sq, GenIn.acc, hfields, Nat.not_lt.2 hhigh, hpin, hlock, hfull, if_false, if_neg hmeets]
  rfl

/-- A SEAL of an allowed range takes the lowest free entry. -/
theorem exec_seal_entry {k : Nat} (h : GenReady s q c sq cx (.seal w) w.cnd) (hm : MaySeal s sq cx w frames z) (hk : z.freeSeal = some k) :
    exec (.seal w) s = .next ((({ z with seals := aset z.seals k (sealEntry (s.ownerOf sq) (sealBase cx w) (sealLen cx w) frames) }.modCtx q c fun y =>
      { y.setS w.d.toNat (BitVec.ofNat 64 k) with cc := { z := false }, fenced := true }).l1Clear sq.cluster).genRetire q c sq cx (.seal w)
        Ctx.advance) := by
  have hmeets := hm.meets_none
  obtain ⟨hfree, hfields, hhigh, hpin, -, hlock⟩ := hm
  refine (Eq.refl (execSeal w s)).trans (genRun_done h ((afterCommit_free hfree _).trans ?_))
  unfold sealBase sealLen at *
  simp only [genIn_rd, genIn_s, genIn_q, genIn_c, genIn_sq, GenIn.acc, hfields, Nat.not_lt.2 hhigh, hpin, hlock, hk, if_false, if_neg hmeets]
  rfl

end sealing

/-! ## SEAL.FREE and SEAL.Q (R426) -/

/-- The seal table's entry that a word names. -/
theorem slot_field (w : GR) : fieldN w.imm.toNat 0 8 = w.imm.toNat % 256 := fieldN_low ..

section free

variable {e : SealEnt}

/-- SEAL.FREE of an entry that is not the owner's traps. -/
theorem exec_sealFree_foreign (h : GenReady s q c sq cx (.sealFree w) w.cnd) (hspec : s.speculative sq = false)
    (hforeign : ∀ e, aget? s.seals (w.imm.toNat % 256) = some e → e.owner ≠ s.ownerOf sq) :
    exec (.sealFree w) s = .next (s.ctxTrap q c .reservedField []) := by
  refine (Eq.refl (execSealFree w s)).trans (genRun_trap h ((afterCommit_free hspec _).trans ?_))
  simp only [genIn_s, genIn_sq, slot_field]
  cases he : aget? s.seals (w.imm.toNat % 256) with
  | none => rfl
  | some e => exact if_pos (hforeign e he)

/-- SEAL.FREE waits for the audited descents that use the entry, which is absent to others from now on. -/
theorem exec_sealFree_busy (h : GenReady s q c sq cx (.sealFree w) w.cnd) (hspec : s.speculative sq = false)
    (he : aget? s.seals (w.imm.toNat % 256) = some e) (hown : e.owner = s.ownerOf sq) (hbusy : s.sealBusy (w.imm.toNat % 256) = true) :
    exec (.sealFree w) s = .next (({ s with seals := aset s.seals (w.imm.toNat % 256) { e with freeing := true } } : State).modCtx q c fun y =>
      { y with wait := some (.sealFree (w.imm.toNat % 256)) }) := by
  refine (Eq.refl (execSealFree w s)).trans (genRun_wait h ((afterCommit_free hspec _).trans ?_))
  simp only [genIn_s, genIn_sq, slot_field, he, hown, hbusy, ne_eq, not_true_eq_false, if_false, if_true]

theorem exec_sealFree_frees (h : GenReady s q c sq cx (.sealFree w) w.cnd) (hspec : s.speculative sq = false)
    (he : aget? s.seals (w.imm.toNat % 256) = some e) (hown : e.owner = s.ownerOf sq) (hbusy : s.sealBusy (w.imm.toNat % 256) = false) :
    exec (.sealFree w) s = .next (({ s with seals := adel s.seals (w.imm.toNat % 256) } : State).genRetire q c sq cx (.sealFree w) Ctx.advance) := by
  refine (Eq.refl (execSealFree w s)).trans (genRun_done h ((afterCommit_free hspec _).trans ?_))
  simp only [genIn_s, genIn_sq, slot_field, he, hown, hbusy, ne_eq, not_true_eq_false, Bool.false_eq_true, if_false]

end free

section query

variable {e : SealEnt}

/-- The state of a SEAL.Q that gives a status. -/
def statusGiven (z : State) (q c d v : Nat) : State := z.modCtx q c fun y => y.setS d (BitVec.ofNat 64 v)

/-- An entry of another owner reads as FREE. -/
theorem exec_sealQ_foreign (h : GenReady s q c sq cx (.sealQ w) w.cnd) (hspec : s.speculative sq = false)
    (hforeign : ∀ e, aget? s.seals (w.imm.toNat % 256) = some e → e.owner ≠ s.ownerOf sq) :
    exec (.sealQ w) s = .next ((statusGiven s q c w.d.toNat (w.imm.toNat % 256)).genRetire q c sq cx (.sealQ w) Ctx.advance) := by
  have hseen : s.sealSeen sq (w.imm.toNat % 256) = none := Option.filter_eq_none_iff.2 fun e he => by simpa using hforeign e he
  refine (Eq.refl (execSealQ w s)).trans (genRun_done h ((afterCommit_free hspec _).trans ?_))
  simp only [genIn_s, genIn_sq, slot_field, hseen]
  rfl

theorem sealSeen_own (he : aget? s.seals (w.imm.toNat % 256) = some e) (hown : e.owner = s.ownerOf sq) :
    s.sealSeen sq (w.imm.toNat % 256) = some e := by
  simp [State.sealSeen, he, hown]

/-- An entry that is not measured yet gives its status. -/
theorem exec_sealQ_unmeasured (h : GenReady s q c sq cx (.sealQ w) w.cnd) (hspec : s.speculative sq = false)
    (he : aget? s.seals (w.imm.toNat % 256) = some e) (hown : e.owner = s.ownerOf sq) (hhash : e.hashed = false) :
    exec (.sealQ w) s = .next ((statusGiven s q c w.d.toNat (e.len / 2 ^ 16 * 2 ^ 16 + 2 ^ 8 + w.imm.toNat % 256)).genRetire q c sq cx (.sealQ w)
      Ctx.advance) := by
  refine (Eq.refl (execSealQ w s)).trans (genRun_done h ((afterCommit_free hspec _).trans ?_))
  simp only [genIn_s, genIn_sq, slot_field, sealSeen_own he hown, hhash, sealStatus, Bool.false_eq_true, if_false, Nat.one_mul]
  rfl

/-- An entry that is measured gives its status and writes its hash. -/
theorem exec_sealQ_measured {z : State} (h : GenReady s q c sq cx (.sealQ w) w.cnd) (hspec : s.speculative sq = false)
    (he : aget? s.seals (w.imm.toNat % 256) = some e) (hown : e.owner = s.ownerOf sq) (hhash : e.hashed = true)
    (hal : (cx.S w.a.toNat).toNat % 32 = 0) (hlow : (cx.S w.a.toNat).toNat < 2 ^ 56) (hhigh : (cx.S w.a.toNat).toNat + e.hash.length ≤ 2 ^ 56)
    (hwrite : s.spanWrite (s.genAccess sq) (cx.S w.a.toNat).toNat e.hash = (.ok (), z)) :
    exec (.sealQ w) s = .next ((statusGiven z q c w.d.toNat (e.len / 2 ^ 16 * 2 ^ 16 + 2 * 2 ^ 8 + w.imm.toNat % 256)).genRetire q c sq cx (.sealQ w)
      Ctx.advance) := by
  refine (Eq.refl (execSealQ w s)).trans (genRun_done h ((afterCommit_free hspec _).trans ?_))
  simp only [genIn_s, genIn_sq, genIn_rd, slot_field, sealSeen_own he hown, hhash, sealStatus, if_true, GenIn.addrCheck, Nat.not_le.2 hlow, hal,
    GenIn.writeSpan, Nat.not_lt.2 hhigh, GenIn.acc, hwrite, ne_eq, not_true_eq_false, if_false]
  rfl

end query

/-! ## DIGEST (R427, R428) -/

section digest

variable {owner dq t : Nat} {tm : Team} {o : Owner}

/-- The team that a DIGEST names. -/
theorem team_field (w : GR) : fieldN w.fn.toNat 0 6 = w.fn.toNat % 64 := fieldN_low ..

/-- The digests of a team's lanes, in lane order. -/
def digestsOf (tm : Team) : List (Nat × DigestSlot) := (upTo tm.lanes).filterMap fun l => (aget? tm.digests l).map fun g => (l, g)

/-- The team that a DIGEST names, with the owner whose log it writes. -/
structure DigestTeam (s : State) (q c : Nat) (sq : Squad) (w : GR) (dq t : Nat) (tm : Team) (o : Owner) : Prop where
  named : s.ownedTeam q c (w.fn.toNat % 64) = .team dq t
  team : s.team dq t = some tm
  register : w.b.toNat < tm.n
  owner : aget? s.owners (s.ownerOf sq) = some o

/-- A DIGEST goes on: its context's words for the team have retired, the sealed pages are hashed, and the log has room. -/
def DigestDue (s : State) (q c dq t : Nat) (tm : Team) (o : Owner) : Prop :=
  s.bound q c dq t = false ∧ (∀ g ∈ digestsOf tm, ∃ e, aget? s.seals g.2.sealId = some e ∧ e.hashed = true)
    ∧ o.logWrite + (digestsOf tm).length ≤ o.logRead + o.logCap

/-- The log after the record of one digest. -/
def withDigest (owner inst n b : Nat) (tm : Team) (z : State) (g : Nat × DigestSlot) : State :=
  z.logWrite owner fun k => logRecord (tm.V g.1 b) inst n g.1 g.2 z.now k (((aget? z.seals g.2.sealId).map (·.hash)).getD [])

/-- The tests of DIGEST are those of `DigestDue`. -/
theorem notDue_iff (ho : aget? s.owners owner = some o) :
    (s.bound q c dq t || ((digestsOf tm).any fun g => !((aget? s.seals g.2.sealId).any (·.hashed)))
      || !((aget? s.owners owner).any fun o => decide (o.logWrite + (digestsOf tm).length ≤ o.logRead + o.logCap))) = true
    ↔ ¬ DigestDue s q c dq t tm o := by
  rw [DigestDue, ← Bool.not_eq_false, not_iff_not]
  simp [ho, Option.any_eq_true, and_assoc]

theorem exec_digest_waits (h : GenReady s q c sq cx (.digest w) w.cnd) (hspec : s.speculative sq = false) (hd : DigestTeam s q c sq w dq t tm o)
    (hdue : ¬ DigestDue s q c dq t tm o) :
    exec (.digest w) s = .next (s.modCtx q c fun y => { y with wait := some (.digest (w.fn.toNat % 64)) }) := by
  obtain ⟨hnamed, hteam, hreg, howner⟩ := hd
  refine (Eq.refl (execDigest w s)).trans (genRun_wait h ((afterCommit_free hspec _).trans ?_))
  simp only [GenIn.withTeam, genIn_s, genIn_q, genIn_c, genIn_sq, team_field, hnamed, hteam, Nat.not_le.2 hreg, if_false]
  exact if_pos ((notDue_iff howner).2 hdue)

/-- DIGEST writes a record for each digest of the team, in lane order, and clears them. -/
theorem exec_digest_logs (h : GenReady s q c sq cx (.digest w) w.cnd) (hspec : s.speculative sq = false) (hd : DigestTeam s q c sq w dq t tm o)
    (hdue : DigestDue s q c dq t tm o) :
    exec (.digest w) s = .next ((((digestsOf tm).foldl (withDigest (s.ownerOf sq) (sq.instance_ % 2 ^ 32) (w.fn.toNat % 64) w.b.toNat tm) s).modTeam dq t
      fun y => { y with digests := [] }).genRetire q c sq cx (.digest w) Ctx.advance) := by
  obtain ⟨hnamed, hteam, hreg, howner⟩ := hd
  refine (Eq.refl (execDigest w s)).trans (genRun_done h ((afterCommit_free hspec _).trans ?_))
  simp only [GenIn.withTeam, genIn_s, genIn_q, genIn_c, genIn_sq, team_field, hnamed, hteam, Nat.not_le.2 hreg, if_false]
  exact (if_neg (mt (notDue_iff howner).1 (not_not.2 hdue))).trans rfl

end digest

/-! ## UMPREL (R422) -/

section umprel

variable {v : Violation}

/-- The words UMPREL and UMPREL.KILL act on the record that S(A) names: its index, and above it its die. -/
theorem withRecord_open {a : Nat} (hp : sq.priv = true) (ha : (cx.S a).toNat < 2 ^ 10)
    (hv : aget? (s.die ((cx.S a).toNat / 2 ^ 8)).viol ((cx.S a).toNat % 256) = some v) (f : Nat → Nat → Violation → GenRes) :
    (genIn s q c sq cx).withRecord a f = f ((cx.S a).toNat / 2 ^ 8) ((cx.S a).toNat % 256) v := by
  have hindex : field64 (cx.S a) 0 8 = (cx.S a).toNat % 256 := by rw [field64_eq_div_mod]; omega
  have hdie : field64 (cx.S a) 8 2 = (cx.S a).toNat / 2 ^ 8 := by rw [field64_eq_div_mod]; omega
  have hrest : field64 (cx.S a) 10 54 = 0 := by rw [field64_eq_div_mod]; omega
  simp only [GenIn.withRecord, genIn_rd, genIn_s, genIn_sq, hindex, hdie, hrest, hp, hv, Bool.not_true, Bool.false_eq_true, ne_eq, not_true_eq_false,
    if_false]

end umprel

/-- Settles O37, from what each word does: `exec_dtset_queues` and its two traps, `exec_waits_commit`, the words of the seal table, DIGEST and
UMPREL. -/
theorem treeSealDigestAndUmpireWordsComplete : Obligations.TreeSealDigestAndUmpireWordsComplete := by
  unfold Obligations.TreeSealDigestAndUmpireWordsComplete
  intro s q c sq cx w on ready a owner ch slot free
  refine ⟨fun h e hroom => ⟨fun o hbad => exec_dtset_reserved h hroom hbad, fun hgood hnot => exec_dtset_unsealed h hroom hgood hnot,
      fun hgood hsealed huse he => ⟨_, (treeWindow_fields he.low).1, (treeWindow_fields he.low).2.1, (treeWindow_fields he.low).2.2,
        exec_dtset_queues h hroom hgood hsealed huse he⟩⟩,
    fun hspec i hi h => ?_, fun h hfree frames s' hfields hhigh hpin hapart hlock => ?_,
    fun h hfree e he hown hbusy => exec_sealFree_frees h hfree he hown hbusy,
    fun h hfree => ⟨exec_sealFree_foreign h hfree, fun e he hown hbusy => exec_sealFree_busy h hfree he hown hbusy⟩,
    fun h hfree => ⟨exec_sealQ_foreign h hfree, fun e he hown => ⟨exec_sealQ_unmeasured h hfree he hown,
      fun hhash hal hlow hhigh z hwrite => exec_sealQ_measured h hfree he hown hhash hal hlow hhigh hwrite⟩⟩,
    fun h hfree dq t tm o hnamed hteam hreg howner =>
      ⟨exec_digest_waits h hfree ⟨hnamed, hteam, hreg, howner⟩, exec_digest_logs h hfree ⟨hnamed, hteam, hreg, howner⟩⟩,
    fun v hp ha hv => ⟨fun h => ?_, fun h => ?_⟩⟩
  · simp only [List.mem_cons, List.not_mem_nil, or_false] at hi
    obtain rfl | rfl | rfl | rfl := hi
    · exact exec_waits_commit (Eq.refl (execSeal w s)) h hspec
    · exact exec_waits_commit (Eq.refl (execSealFree w s)) h hspec
    · exact exec_waits_commit (Eq.refl (execSealQ w s)) h hspec
    · exact exec_waits_commit (Eq.refl (execDigest w s)) h hspec
  · have hm : MaySeal s sq cx w frames s' := ⟨hfree, hfields, hhigh, hpin, hapart, hlock⟩
    refine ⟨fun hfull => exec_seal_full h hm (freeSeal_none hfull), fun k hk hnone hused =>
      ⟨_, exec_seal_entry h hm (freeSeal_some hk hnone hused), ?_, ?_, fun y hy => ?_⟩⟩
    · exact State.modCtx_mem ..
    · exact State.modCtx_seals ..
    · rw [State.l1Clear, State.ctx_modCluster]
      exact ctx_modCtx_same _ hy
  · exact (Eq.refl (execUmprel w s)).trans (genRun_done h ((withRecord_open hp ha hv _).trans rfl))
  · exact (Eq.refl (execUmprelKill w s)).trans (genRun_done h ((withRecord_open hp ha hv _).trans rfl))

end Sys2Proof.Machine.SealWords
end
